-- ==== Sys2Proof/Word.lean ====
section
/-! DEFINITION. The words of the device, and the two shapes of sparse data: a table by number and a byte memory. -/
namespace Sys2Proof

abbrev B8 := BitVec 8
abbrev W16 := BitVec 16
abbrev W32 := BitVec 32
abbrev W48 := BitVec 48
abbrev W64 := BitVec 64
abbrev W128 := BitVec 128
abbrev W256 := BitVec 256
/-- One 64-byte record: a command (R109), a program header (R135) or a step descriptor (R136); byte 0 is bits 7..0. -/
abbrev W512 := BitVec 512
/-- One 128-byte record: a request descriptor (R309); byte 0 is bits 7..0. -/
abbrev W1024 := BitVec 1024
/-- A SHA-384 digest. -/
abbrev B384 := BitVec 384
/-- The bits of an FP32 value (R148). -/
abbrev F32 := BitVec 32

/-- A fixed family of like things by number, held sparsely: numbers rise, and a number not listed has the default
that its reader names. -/
abbrev Tbl (α : Type) := List (Nat × α)

/-- Bytes by address, in one canonical form: addresses strictly rising and no byte 0 listed; a byte not listed is 0. -/
abbrev Memory := List Host.Cell

end Sys2Proof
end

