-- ==== Sys2Proof/Syntax.lean ====
section
/-! DEFINITION. The commands and events of the block: one constructor per row of the operation table. -/
namespace Sys2Proof

/-- What runs a step program: the queue with its key, or the batch of a partition (R318). -/
inductive RunRef where
  | queue (q : Nat)
  | batch (p : Nat)
deriving DecidableEq, Repr, Inhabited

/-- How TB_TRG_TARGET is written: whole, its low half or its high half (R80). -/
inductive Half where
  | full
  | low
  | high
deriving DecidableEq, Repr, Inhabited

/-- What the device measures of the outside at a management tick: package power (R503), the five temperatures in
1/16 degree Celsius steps (R505), the channels whose oscillator has drifted and the mode-register-4 rates (R205); and how far the work
that reports in percent has come: bytes that a staging and an update have still to program into flash (R65, R462), and frames that the
scrubs of some tenants have still to write (R438). The other lists name the errors that have come up since the tick before: SRAM words and
LP5X lines, uncorrectable or correctable (R207, R217; a correctable line with its channel), corrupt lines of LP5X or of NVMe blocks
(R207, R211), failed version-tree nodes with the addresses under them (R436), frames of the next coded transfer into a halo stop
that arrive altered, by stop and chunk (R185), sequence records whose pause image has come to fail its tag (R330), and, by port,
correctable PCIe errors, and uncorrectable and corrected Ethernet codewords (R520, R540). -/
structure TickEnv where
  powerMw : Nat := 0
  temps : List Int := []
  drifted : List Nat := []
  refresh : List Nat := []
  flashLeft : Nat := 0
  updLeft : Nat := 0
  scrubLeft : List (Nat × Nat) := []
  ueWords : List Nat := []
  ceWords : List Nat := []
  ueLines : List Nat := []
  ceLines : List (Nat × Nat) := []
  macLines : List Nat := []
  nodes : List (Nat × Nat × Nat) := []
  frames : List (Nat × Nat × List (BitVec 8)) := []
  images : List Nat := []
  aer : List (Nat × Nat) := []
  fecUncorr : List (Nat × Nat) := []
  fecCorr : List (Nat × Nat) := []
deriving DecidableEq, Repr, Inhabited

/-- A queue of a Move engine, and for how many turns of the engine in a row its command moves on (R94). -/
structure MoveTurn where
  q : Nat
  turns : Nat
deriving DecidableEq, Repr, Inhabited

/-- A generation of a slot whose digests are swept, and the number of shards that the sweep goes on by (R249). -/
structure SweepTurn where
  gen : Nat
  shards : Nat
deriving DecidableEq, Repr, Inhabited

/-- A step program, and the region whose sequencer takes the step (R137). -/
structure RegionRun where
  run : RunRef
  region : Nat
deriving DecidableEq, Repr, Inhabited

/-- Whether Dawn comes up, and what the device measures when it does (R206, R493). -/
structure DawnEnv where
  ok : Bool
  env : TickEnv
deriving DecidableEq, Repr, Inhabited

/-- A command or an event of the block, with its operands. -/
inductive Instr where
  /-- POWER_ON (R33): Rails come up with RESET_L low; everything is reset, all keys are regenerated and DRAM contents are lost. -/
  | powerOn (flash : List Host.Cell) (epochA epochB : Option W32) (writable smbAddr rngOk : Bool)
  /-- RESET_L (R33): RESET_L is held low for at least 10 µs with rails good; the whole device resets except the power-on epoch and boots again from event 1. -/
  | resetL (rngOk : Bool)
  /-- MEMORY_TRAINING_COMPLETE (R204): LP5X training or cache verification ends on every channel, or a channel fails and the device enters the safe configuration. -/
  | memoryTrainingComplete (capGib rate ranks density : Nat) (fail : Option (Nat × Bool))
  /-- INTEGRITY_INIT_COMPLETE (R56): Tag and version-tree initialisation ends, and the usable-capacity check of reason 0x15 is made. -/
  | integrityInitComplete
  /-- BOOT_LOCK (R45): At the last boot event, contexts and tracks are armed, tenants are enabled and boot lock is set. -/
  | bootLock
  /-- RAIL_FAULT (R553): A rail falls below its limit for more than 2 µs and the device resets as for RESET_L. -/
  | railFault (aon : Bool)
  /-- AVS_SETPOINT_TIMEOUT (R553): A VDD_CD regulator does not report its setpoint within 100 µs of a commit and the device resets as for RESET_L. -/
  | avsSetpointTimeout (die : Nat)
  /-- THERMTRIP (R505): A sensor reaches 115 °C; THERMTRIP_L asserts and every domain except AON is held in reset. -/
  | thermtrip
  /-- PCIE_PERST (R33): PCIE_PERST_n_L is held low for at least 1 µs, or the link goes down, or a hot reset or a PF FLR occurs, and port n takes a link reset. -/
  | pciePerst (port : Nat) (linkUp : Bool)
  /-- VF_FLR (R522): A function level reset of a virtual function starts a tenant reset of its tenant. -/
  | vfFlr (port vf : Nat)
  /-- VF_ENABLE (R522): The host sets VF Enable and NumVFs, making tenants below NumVFs reachable, or lowers them and link-resets the removed tenants. -/
  | vfEnable (port n : Nat)
  /-- BUS_MASTER_DISABLE (R522): Bus Master Enable is cleared on a VF; host-address submissions fail and running host COPYs are cut off. -/
  | busMasterDisable (port vf : Nat)
  /-- HOST_DMA_TIMEOUT (R523): A host read gets no completion within 50 ms and its command ends with 0x11. -/
  | hostDmaTimeout (q : Nat) (addr : W64)
  /-- HOST_DMA_COMPLETION_ERROR (R523): A host read completes with UR or CA and its command ends with 0x03. -/
  | hostDmaCompletionError (q : Nat) (addr : W64)
  /-- MANAGEMENT_TICK (R69): Data-plane time reaches a multiple of 1,000,000 ns and the management-plane work of the tick runs. -/
  | managementTick (env : TickEnv)
  /-- OP_CHANGE_COMPLETE (R497): The regulator reports a raised setpoint reached and the new clock takes effect. -/
  | opChangeComplete (die : Nat)
  /-- TRIGGER_FIRE (R79): An armed trigger's condition holds; it dispatches its action, and a periodic trigger advances its target. -/
  | triggerFire (n : Nat)
  /-- TRACK_JUMP (R73): A track discontinuity occurs and every armed trigger whose condition now holds fires at once. -/
  | trackJump (n : Nat)
  /-- CAMERA_TRACK_STALL (R72): The extrapolated line count reaches 0xFFFF and the camera track stalls. -/
  | cameraTrackStall (n : Nat)
  /-- TRIGGER_ARM (R78): A write that completes TB_TRG_TARGET arms, re-targets or refuses the trigger. -/
  | triggerArm (party k : Nat) (value : W64) (half : Half)
  /-- TRIGGER_DISARM (R80): A write of TB_TRG_CTL or TB_TRG_ACTION disarms an armed trigger without firing it. -/
  | triggerDisarm (party k : Nat) (isAction : Bool) (value : W64)
  /-- TRIGGER_COUNT_CLEAR (R80): clr_cnt clears the three counters of a trigger's status. -/
  | triggerCountClear (party k : Nat)
  /-- TRACK_PRESET (R75): A write to TB_TRK_POS of an idle pulse track presets its position, or is refused while the channel runs. -/
  | trackPreset (party n : Nat) (value : W64)
  /-- PTP_SYNC (R70): An accepted Sync message makes the servo slew or step the PTP track. -/
  | ptpSync (port : Nat) (err : Int)
  /-- PTP_HOLDOVER (R71): Eight expected Sync intervals pass without an accepted Sync and the PTP track enters holdover. -/
  | ptpHoldover
  /-- PTP_ANNOUNCE (R528): An Announce message is taken into the best master choice over both ports. -/
  | ptpAnnounce (port : Nat) (vector : W64)
  /-- ETH_FRAME_RECEIVE (R527): A received Ethernet frame is classified and dispatched, answered, or dropped and counted. -/
  | ethFrameReceive (port : Nat) (frame : List B8)
  /-- ETH_LINK_DOWN (R539): An Ethernet link goes down, affecting the loads, streams, PTP and RTP on that port. -/
  | ethLinkDown (port : Nat)
  /-- IGMP_QUERY (R530): A membership query is answered with an IGMPv3 report for each multicast stream. -/
  | igmpQuery (port : Nat)
  /-- SMB_READ_BOOT_STATUS (R536): SMBus command 0x01 returns MG_BOOT_STATUS. -/
  | smbReadBootStatus
  /-- SMB_READ_STATE (R536): SMBus command 0x02 returns PWR_STATE. -/
  | smbReadState
  /-- SMB_READ_TEMPERATURES (R536): SMBus command 0x03 returns the five temperatures and the stale bit. -/
  | smbReadTemperatures
  /-- SMB_READ_POWER (R536): SMBus command 0x04 returns PWR_POWER. -/
  | smbReadPower
  /-- SMB_READ_WAKE (R536): SMBus command 0x05 returns PWR_WAKE. -/
  | smbReadWake
  /-- SMB_READ_SEC_STATUS (R536): SMBus command 0x06 returns SEC_STATUS. -/
  | smbReadSecStatus
  /-- SMB_WAKE (R536): SMBus command 0x10 with byte 0xA5 acts as WAKE_L held low until Dawn begins. -/
  | smbWake (data : B8)
  /-- SMB_ALERT_RESPONSE (R536): An Alert Response Address read releases SMB_ALERT_L. -/
  | smbAlertResponse
  /-- REGISTER_WRITE (R569): A write to a register that has no row of its own sets, clears or ignores its fields under its access type and logs refusals. -/
  | registerWrite (party off : Nat) (value : W64) (width : Nat) (host : List Host.Cell)
  /-- TW_SUBMIT_CTL (R118): A submission copies the list, validates it and queues it, or refuses it with a kind 2 entry. -/
  | twSubmitCtl (tenant : Nat) (value : W64) (host : List Host.Cell)
  /-- MG_SUBMIT_CTL (R107): A management submission to a named partition is validated and queued on that partition's management queue. -/
  | mgSubmitCtl (value : W64) (host : List Host.Cell)
  /-- EVENT_CNT_CLEAR (R99): cnt_clr bits in TW_EVENT clear the companion counters of the chosen flags. -/
  | eventCntClear (tenant : Nat) (bits : BitVec 4)
  /-- EVENT_FLAG_CLEAR (R99): W1C bits written to TW_EVENT clear event flags, with a set that arrives in the same cycle winning. -/
  | eventFlagClear (tenant : Nat) (bits setting : BitVec 4)
  /-- COMPL_RING_ENABLE (R122): Writing TW_COMPL_CTL sets up or enables the ring, resets head and tail, and writes held entries or resyncs the mirror. -/
  | complRingEnable (party : Nat) (value : W64)
  /-- COMPL_HEAD_WRITE (R122): A head write frees completion ring entries, or is refused when it lies beyond the tail. -/
  | complHeadWrite (party : Nat) (value : W64)
  /-- ERR_RING_ENABLE (R129): Writing TW_ERR_CTL sets up the tenant error ring, restarts seq and clears dropped. -/
  | errRingEnable (tenant : Nat) (value : W64)
  /-- COMPL_ENTRY_DRAIN (R126): A held completion entry is written once the ring has room or is enabled again. -/
  | complEntryDrain (q : Nat)
  /-- NOP (R111): The NOP command does nothing and completes. -/
  | nop (q : Nat)
  /-- MARKER (R112): A marker writes a kind 4 entry and takes a counter snapshot when its selector is non-zero. -/
  | marker (q : Nat)
  /-- SIGNAL_WRITE (R112): SIGNAL op 0 writes a value atomically to a partition address. -/
  | signalWrite (q : Nat)
  /-- SIGNAL_ADD (R112): SIGNAL op 1 adds a value atomically at a partition address, wrapping. -/
  | signalAdd (q : Nat)
  /-- WAIT_VALUE (R112): The command waits until a memory value meets its condition. -/
  | waitValue (q : Nat)
  /-- WAIT_VALUE_MET (R112): A write to the watched line makes the condition hold and the WAIT_VALUE completes. -/
  | waitValueMet (q : Nat)
  /-- WAIT_RELEASE (R112): The command consumes one release count of its queue, or waits for one. -/
  | waitRelease (q : Nat)
  /-- WAIT_POSITION (R112): The command waits until a track reaches a target position. -/
  | waitPosition (q : Nat)
  /-- ARM_TRIGGER (R112): The command arms one of the tenant's triggers through the checks of arming. -/
  | armTrigger (q : Nat)
  /-- BARRIER (R113): A queue arrives at a tenant barrier and waits until the participant count is reached. -/
  | barrier (q : Nat)
  /-- BARRIER_RELEASE (R113): The last participant arrives and every waiting BARRIER completes with 0x00. -/
  | barrierRelease (tenant b : Nat)
  /-- COMMAND_TIMEOUT (R110): A command's timeout expires and the command ends with 0x11. -/
  | commandTimeout (q : Nat)
  /-- REGION_RESERVATION (R95): A Compute command that has waited 2 ms for busy regions reserves them. -/
  | regionReservation (q : Nat)
  /-- STEP_PROGRAM (R114): A Compute command writes back covered tier copies, pins the generation and runs a step program on its regions. -/
  | stepProgram (q : Nat)
  /-- TUNE (R336): An adapter tuning job starts after its checks, holding the adapter slot and its training sequences. -/
  | tune (q : Nat)
  /-- TUNE_ITERATION (R337): One training iteration ends, iterations_done is written, and on success the adapter is bound. -/
  | tuneIteration (q : Nat)
  /-- COPY (R115): Bytes are copied between partition and host spaces, sealed for confidential tenants. -/
  | copy (m : MoveTurn) (host : List Host.Cell)
  /-- SCATTER (R286): Elements are scattered by an index table, to KV page slots when kv is set. -/
  | scatter (m : MoveTurn)
  /-- GATHER (R286): Elements are gathered by an index table, from KV page slots when kv is set. -/
  | gather (m : MoveTurn)
  /-- MIGRATE (R214): Tiles are moved in ascending order to the on-chip, LP5X or NVMe tier. -/
  | migrate (m : MoveTurn)
  /-- MODEL_LOAD (R239): A bundle manifest is copied and checked and the shard fetches start. -/
  | modelLoad (q : Nat)
  /-- SHARD_ARRIVAL (R240): A shard's last byte arrives and its digest is checked, passing or leading to a retry or to failure. -/
  | shardArrival (slot shard : Nat) (bytes : List B8)
  /-- SHARD_TIMEOUT (R240): A shard does not arrive within its timeout and is fetched again or fails the load. -/
  | shardTimeout (slot shard : Nat)
  /-- LOAD_COMMIT (R242): At the tick after the last shard verifies, the new generation becomes current or staged and the load completes. -/
  | loadCommit (slot : Nat)
  /-- WEIGHT_CACHE_FILL (R244): After a load with the cache flag, verified shards are written to the weight cache at the lowest share. -/
  | weightCacheFill
  /-- MODEL_CTL_UNLOAD (R248): A slot enters unloading and is emptied as its pins drop. -/
  | modelCtlUnload (q : Nat)
  /-- MODEL_CTL_SWITCH (R246): The staged generation becomes current at the next tick and the old one drains. -/
  | modelCtlSwitch (q : Nat)
  /-- GENERATION_FREE (R247): At the first tick after a draining generation's last pin drops, it is unmapped and freed. -/
  | generationFree (slot gen : Nat)
  /-- DIGEST_SWEEP (R249): A due generation is rebuilt from its pieces and checked against its shard digests. -/
  | digestSweep (slot : Nat) (w : SweepTurn)
  /-- BIND (R361): A camera output or an array beam output is bound to a ring from the next frame start or chunk. -/
  | bind (q : Nat)
  /-- UNBIND (R361): An output binding ends at the next frame start and completes once earlier frames are delivered. -/
  | unbind (q : Nat)
  /-- PARAM_COMMIT (R359): A parameter block is read, checked and staged for the context's next frame start. -/
  | paramCommit (q : Nat)
  /-- REQUEST (R311): A Token request is admitted, matched against the prefix tree and queued, or refused. -/
  | request (q : Nat)
  /-- SEQ_CTL_CANCEL (R331): A sequence is cancelled at once, or at the end of its batch. -/
  | seqCtlCancel (q : Nat)
  /-- SEQ_CTL_PAUSE (R327): A sequence is paused with a time to live and its image is written. -/
  | seqCtlPause (q : Nat)
  /-- SEQ_CTL_RESUME (R330): A paused or preempted sequence is restored and returned to QUEUED. -/
  | seqCtlResume (q : Nat)
  /-- PAUSE_IMAGE_WRITTEN (R328): A pause image is complete, its pages are freed, and the sequence becomes PAUSED. -/
  | pauseImageWritten (r : Nat)
  /-- RESUME_RESTORED (R330): An image is restored, freed and its key destroyed, or fails its tag and ends the sequence. -/
  | resumeRestored (r : Nat)
  /-- PAUSE_EXPIRY (R329): A paused sequence's time to live expires; its image and key are destroyed and it ends. -/
  | pauseExpiry (r : Nat)
  /-- BATCH_START (R318): The Token engine forms a batch, allocates pages, writes its tables and starts its program. -/
  | batchStart (p : Nat)
  /-- BATCH_END (R320): A batch ends and each member is sampled and committed, or the whole batch fails. -/
  | batchEnd (p : Nat)
  /-- PAGE_WAIT_RETRY (R334): Pool space is freed and WAIT_PAGE sequences retry, highest first. -/
  | pageWaitRetry (p : Nat)
  /-- PAGE_WAIT_TIMEOUT (R334): A sequence stays in WAIT_PAGE for page_wait_s and ends with reason 5. -/
  | pageWaitTimeout (r : Nat)
  /-- KV_INDEX_REBUILD (R297): Every rebuild_ticks the shadow index copy is rebuilt and swapped in at the next tick. -/
  | kvIndexRebuild (p : Nat)
  /-- KV_COMPACTION (R298): Free space in partly used chunks passes the threshold, pages are relocated, and lists flip at a tick. -/
  | kvCompaction (p : Nat)
  /-- STEP_ISSUE (R137): The sequencer issues the next step once every unit it names is free. -/
  | stepIssue (r : RegionRun)
  /-- STEP_NOP (R136): A NOP step does nothing on the sequencer. -/
  | stepNop (r : RegionRun)
  /-- MATMUL (R151): Selected engines compute a matrix product with corrections and scales and write their outputs. -/
  | matmul (r : RunRef) (cluster : Nat)
  /-- ENGINE_START (R166): A waiting engine start is released by its region's gust limiter. -/
  | engineStart (region : Nat)
  /-- ADD (R161): The vector unit adds two operands. -/
  | add (r : RunRef) (cluster : Nat)
  /-- MUL (R161): The vector unit multiplies two operands. -/
  | mul (r : RunRef) (cluster : Nat)
  /-- AXPBY (R161): The vector unit computes sa × a + sb × b. -/
  | axpby (r : RunRef) (cluster : Nat)
  /-- MAX (R161): The vector unit takes the element-wise maximum. -/
  | max (r : RunRef) (cluster : Nat)
  /-- CONVERT (R161): The vector unit scales by sa and converts to the output format. -/
  | convert (r : RunRef) (cluster : Nat)
  /-- EXP (R161): The vector unit computes e to the power of each element. -/
  | exp (r : RunRef) (cluster : Nat)
  /-- RECIP (R161): The vector unit computes reciprocals. -/
  | recip (r : RunRef) (cluster : Nat)
  /-- RSQRT (R161): The vector unit computes reciprocal square roots. -/
  | rsqrt (r : RunRef) (cluster : Nat)
  /-- TANH (R161): The vector unit computes tanh. -/
  | tanh (r : RunRef) (cluster : Nat)
  /-- SIGMOID (R161): The vector unit computes the sigmoid. -/
  | sigmoid (r : RunRef) (cluster : Nat)
  /-- GELU (R161): The vector unit computes GELU in its tanh form. -/
  | gelu (r : RunRef) (cluster : Nat)
  /-- SILU (R161): The vector unit computes a × sigmoid(a). -/
  | silu (r : RunRef) (cluster : Nat)
  /-- ROW_SUM (R162): The vector unit sums each row in its fixed reduction order. -/
  | rowSum (r : RunRef) (cluster : Nat)
  /-- ROW_MAX (R161): The vector unit takes the maximum of each row. -/
  | rowMax (r : RunRef) (cluster : Nat)
  /-- SOFTMAX (R161): The vector unit computes a row softmax. -/
  | softmax (r : RunRef) (cluster : Nat)
  /-- RMSNORM (R161): The vector unit applies RMS normalisation. -/
  | rmsnorm (r : RunRef) (cluster : Nat)
  /-- LAYERNORM (R161): The vector unit applies layer normalisation. -/
  | layernorm (r : RunRef) (cluster : Nat)
  /-- QUANT_ROW (R162): The vector unit quantises each row by its absmax scale and writes the scales. -/
  | quantRow (r : RunRef) (cluster : Nat)
  /-- TOPK_ROW (R161): The vector unit writes the k largest values and their indices per row. -/
  | topkRow (r : RunRef) (cluster : Nat)
  /-- GATHER_ROWS (R162): The vector unit gathers rows by an INT32 index. -/
  | gatherRows (r : RunRef) (cluster : Nat)
  /-- SCATTER_ROWS (R162): The vector unit scatters rows by an INT32 index. -/
  | scatterRows (r : RunRef) (cluster : Nat)
  /-- DMA (R163): The DMA mover moves bytes between buffers and partition addresses, judging each tile first. -/
  | dma (r : RunRef) (cluster : Nat)
  /-- LOAD_SCALES (R153): FP32 scales are loaded into the cluster's scale file and tagged with the tenant. -/
  | loadScales (r : RunRef) (cluster : Nat)
  /-- SYNC (R165): A barrier step holds later steps until every unit in its scope has finished. -/
  | sync (r : RegionRun)
  /-- SYNC_RELEASE (R165): The last unit in scope finishes and the release reaches the units after the scope's delay. -/
  | syncRelease (r : RunRef)
  /-- ATTEND (R281): The attention unit fetches the visible pages and merges scores with an online softmax. -/
  | attend (r : RunRef) (region : Nat)
  /-- APPEND (R283): Key and value rows are rotated, converted and written into their page slots. -/
  | append (r : RunRef) (region : Nat)
  /-- RING_XFER (R164): Region buffer bytes are moved to the neighbouring die over the halo ring, coded if asked. -/
  | ringXfer (r : RunRef) (region : Nat)
  /-- NVME_COMMAND_TIMEOUT (R213): An NVMe command takes more than 100 ms and is retried once or fails with 0x11. -/
  | nvmeCommandTimeout (drive : Nat)
  /-- NVME_SMART_READ (R525): The SMART / Health log page of each drive is read every hour. -/
  | nvmeSmartRead (drive : Nat)
  /-- RESET_DEVICE (R60): MG_RESET_REQ kind 1 acts as RESET_L. -/
  | resetDevice (value : W64)
  /-- RESET_PARTITION (R34): MG_RESET_REQ kind 2 resets every region of a partition, leaving its memory and tenants intact. -/
  | resetPartition (value : W64)
  /-- RESET_TENANT (R437): MG_RESET_REQ kind 3 destroys a tenant's keys, ends its work and starts its scrub. -/
  | resetTenant (value : W64)
  /-- RESET_CONTROL_CORE (R460): MG_RESET_REQ kind 4 restarts one control core. -/
  | resetControlCore (value : W64)
  /-- SCRUB_COMPLETE (R437): The last scrub line of a tenant's frames is written and its one-time key is destroyed. -/
  | scrubComplete (tenant : Nat)
  /-- TENANT_ENABLE (R437): At the tick after a scrub, new keys are generated and the tenant function is enabled again. -/
  | tenantEnable (tenant : Nat)
  /-- STAGE_IMAGE (R65): MG_STAGE_CTL reads a BCI or a recovery firmware image, checks it and writes it to the spare slot. -/
  | stageImage (value : W64) (host : List Host.Cell)
  /-- ATT_REPORT (R424): Mailbox op 1 writes a signed attestation report into the buffer. -/
  | attReport (party : Nat) (host : List Host.Cell)
  /-- SESSION_OPEN (R428): Mailbox op 2 runs ECDH, derives session keys and returns a bound report. -/
  | sessionOpen (tenant : Nat)
  /-- SESSION_CLOSE (R429): Mailbox op 3 ends the session and destroys its keys. -/
  | sessionClose (tenant : Nat)
  /-- ATT_CERTIFICATES (R423): Mailbox op 4 writes the attestation key certificate and the flash chain. -/
  | attCertificates (party : Nat)
  /-- DEBUG_UNLOCK (R443): SEC_DBG_CTL.go verifies an unlock token, making debug pending until RESET_L. -/
  | debugUnlock (host : List Host.Cell)
  /-- DEBUG_CANCEL (R446): SEC_DBG_CTL.cancel clears a pending unlock. -/
  | debugCancel
  /-- MR_EXTEND (R446): SEC_MR_EXT reads a digest and extends MR8–MR15 at the next tick. -/
  | mrExtend (value : W64) (host : List Host.Cell)
  /-- RNG_HEALTH_FAIL (R413): The entropy health tests fail and operations that need fresh keys are refused. -/
  | rngHealthFail
  /-- WATCHDOG_EXPIRY (R458): A control core fails to kick within 50 ms and restarts. -/
  | watchdogExpiry (core : Nat)
  /-- CC_RESTART_COMPLETE (R460): A restarted core has rebuilt its state and processed its held writes, and fw_restart clears. -/
  | ccRestartComplete (core : Nat)
  /-- ISLAND_WATCHDOG (R450): The island watchdog expires and the device resets as for RESET_L. -/
  | islandWatchdog
  /-- FW_UPDATE_GO (R462): FW_UPD_CTL.go reads, checks and stages a firmware image into flash and the spare bank. -/
  | fwUpdateGo (value : W64) (host : List Host.Cell)
  /-- FW_UPDATE_ABORT (R462): FW_UPD_CTL.abort ends an update that is staging or ready. -/
  | fwUpdateAbort
  /-- FW_IMAGE_READY (R462): The spare bank has been loaded and verified and the update becomes ready. -/
  | fwImageReady
  /-- FW_HANDOFF (R463): At the tick, cores quiesce, write the handoff record and start the new image. -/
  | fwHandoff
  /-- HANDOFF_ACK (R463): The new image acknowledges, the banks swap, and held writes are processed. -/
  | handoffAck
  /-- HANDOFF_ROLLBACK (R464): The new image has not acknowledged within 100 ms, so the old image restarts. -/
  | handoffRollback
  /-- TRACE_HIT (R469): An enabled trace point is hit, counts, and may log a record. -/
  | traceHit (point : Nat) (arg : W32)
  /-- COUNTER_EVENT_SELECT (R512): A write to an event select sets event, filter and owner and clears the count, or is refused. -/
  | counterEventSelect (set n : Nat) (value : W64)
  /-- COUNTER_CLEAR (R512): clr sets a counter's count to 0. -/
  | counterClear (set n : Nat)
  /-- TW_PMC_SELECT (R514): A tenant selects a unit, or an owned counter's event, in its counter view. -/
  | twPmcSelect (tenant off : Nat) (value : W64)
  /-- PERIODIC_SNAPSHOT (R516): A period boundary latches the selected counters and writes a record to the ring. -/
  | periodicSnapshot (party : Nat)
  /-- CSI_FRAME_START (R359): An FS advances the camera track, applies the staged parameter set and bindings, and picks output slots. -/
  | csiFrameStart (port vc : Nat)
  /-- CSI_LONG_PACKET (R345): A long packet is checked, advances the line count and enters the line pool. -/
  | csiLongPacket (port vc dt : Nat) (eccBad crcBad : Bool) (samples : List W16)
  /-- CSI_FRAME_END (R346): An FE ends a frame, which is delivered and its statistics latched, or dropped as malformed. -/
  | csiFrameEnd (port vc : Nat)
  /-- PIPELINE_BATCH (R365): A ready 16-line batch runs through the pipeline stages and scalers. -/
  | pipelineBatch (ctx : Nat)
  /-- I3C_LIST_RUN (R367): A fired list starts on its controller once the controller is idle. -/
  | i3cListRun (c : Nat)
  /-- I3C_LIST_COMPLETE (R369): A stamped list completes and the effect frame of its generation is computed. -/
  | i3cListComplete (c : Nat) (ends : List (Nat × Nat × Nat))
  /-- I3C_NACK (R371): A transaction is not acknowledged, or meets a bus error, and its list stops. -/
  | i3cNack (c done : Nat) (last : Option (Nat × Nat))
  /-- AES67_PACKET (R384): An AES67 packet is placed by its timestamp, or discarded as late. -/
  | aes67Packet (stream : Nat) (seq : W16) (ts : W32) (payload : List B8)
  /-- TDM_FRAME_SYNC (R385): A TDM frame sync delivers 16 slots and advances the TDM track. -/
  | tdmFrameSync (port : Nat) (samples : List W32) (periodOk : Bool)
  /-- AUDIO_FRAME (R386): A 10 ms frame of an array is beamformed, echo-cancelled and measured. -/
  | audioFrame (array : Nat)
  /-- PULSE_PROGRAM_DONE (R400): The last segment ends and the result is written. -/
  | pulseProgramDone (ch : Nat)
  /-- LIMIT_INPUT (R401): A GPIO limit input asserts and the channel stops with no further edge. -/
  | limitInput (pin : Nat)
  /-- UART_PROGRAM_RUN (R403): A fired byte program starts sending once the UART is idle. -/
  | uartProgramRun (u : Nat)
  /-- UART_CAPTURE_END (R403): Capture ends on count or terminator and the result is written. -/
  | uartCaptureEnd (u : Nat)
  /-- UART_CAPTURE_TIMEOUT (R403): recv_timeout_us passes, capture ends with 0x11 and the result is written. -/
  | uartCaptureTimeout (u : Nat)
  /-- UART_RX_BYTE (R403): A byte arrives and is captured, or is discarded and counted when no program captures. -/
  | uartRxByte (u : Nat) (byte : B8) (err : Bool)
  /-- ENTER_DUSK (R480): PWR_STATE_REQ target 2 is checked at the next tick, then drains and powers down into Dusk. -/
  | enterDusk (value : W64)
  /-- ENTER_NIGHT (R480): PWR_STATE_REQ target 3 is checked at the next tick, then drains and powers down into Night. -/
  | enterNight (value : W64)
  /-- ENTRY_DRAIN_TIMEOUT (R481): Running work has not ended by drain_ms and the entry is abandoned. -/
  | entryDrainTimeout
  /-- DUSK_WATCH (R486): The interval elapses and a watch powers up, captures a frame and audio, and compares. -/
  | duskWatch (samples : List W16) (audio : List W32)
  /-- DUSK_WATCH_TIMEOUT (R489): FE does not arrive within frame_timeout_ms and the watch is a fault. -/
  | duskWatchTimeout
  /-- RTC_ALARM (R491): The RTC reaches the alarm count and wakes the device or clears enable. -/
  | rtcAlarm
  /-- WAKE_L (R491): WAKE_L samples low on two consecutive AON edges and starts Dawn. -/
  | wakeL
  /-- DAWN (R492): The wake sequence restores state, powers regions and returns the package to Noon. -/
  | dawn (e : DawnEnv)
  /-- AGEING_READ (R508): A region's monitors are read and its margin or maximum operating point is re-planned. -/
  | ageingRead (region : Nat) (slacks : List Nat)
  /-- POWER_REMOVAL (R554): Rails are removed in any order, ending every state including a THERMTRIP_L assertion, and must stay below 10 % for 10 ms before power-up. -/
  | powerRemoval
  /-- PCIE_LINK_UP (R44): A PCIe endpoint or root port link trains to L0 after reset or PERST deassertion, and its functions or drive become reachable. -/
  | pcieLinkUp (port speed width : Nat) (drive : Option Nat)
  /-- ETH_LINK_UP (R526): An Ethernet port completes auto-negotiation and link training and its PCS locks. -/
  | ethLinkUp (port : Nat)
  /-- CSI_PORT_LOCK (R377): A CSI-2 receive port's PHY gains or loses reception and CAM_PORT_STATUS.locked changes. -/
  | csiPortLock (port : Nat) (locked : Bool)
  /-- ANNOUNCE_RECEIPT_TIMEOUT (R528): Three announce intervals pass without an Announce and the port loses its master, so best master selection may move the slave to the other port. -/
  | announceReceiptTimeout (port : Nat)
  /-- NVME_COMMAND_ERROR (R213): A drive completes an NVMe command with an error, so it is retried once or ends the access with 0x11 and sets err. -/
  | nvmeCommandError (drive : Nat)
  /-- NVME_TRAINING_TIMEOUT (R524): A root-port drive does not train within 1 s after boot or Dawn and is taken as absent from the tier. -/
  | nvmeTrainingTimeout (drive : Nat)
  /-- WAIT_POSITION_MET (R112): A track reaches the target of a waiting WAIT_POSITION and the command completes with 0x00. -/
  | waitPositionMet (q : Nat)
  /-- CC_CODE_ECC_ERROR (R458): A control core reads an uncorrectable ECC error in its own code and restarts. -/
  | ccCodeEccError (core : Nat)
  /-- PARTITION_RESET_COMPLETE (R61): A partition reset finishes its write-back and region reset, the busy bit clears, and the partition serves again. -/
  | partitionResetComplete (p : Nat)
  /-- PREEMPT_IMAGE_WRITTEN (R333): A preemption victim's NVMe image is complete, its pages are freed, and it enters PREEMPTED. -/
  | preemptImageWritten (r : Nat)
  /-- I3C_IBI_ATTEMPT (R534): A device on an I3C bus attempts an in-band interrupt or hot-join and the controller NACKs it. -/
  | i3cIbiAttempt (c : Nat)
deriving DecidableEq, Repr

end Sys2Proof
end

