-- ==== Sys2Proof/Decode.lean ====
section
/-! DEFINITION. The words of the operation table: none. -/
namespace Sys2Proof

/-- The command that a word of `nbits` bits spells. The operation table gives no row any bits: a command of this block is a register
write, a list command in a queue or an event, and none of them is spelled by one word, so every word spells none. -/
def decodeTableWord (_nbits _w : Nat) : Option Instr := none

end Sys2Proof
end

