-- ==== Sys2Proof/Config.lean ====
section
/-! DEFINITION. What the spec leaves to the implementation, and the free values: constants with no body. -/
namespace Sys2Proof.Config

/-- SHA-384 of a run of bytes (R48, R231, R417); the spec names the function and gives no algorithm. Byte 0 of the digest is bits 7..0. -/
opaque sha384 : List B8 → B384
/-- ECDSA on brainpoolP384r1 with SHA-384: public key, message, signature (R48, R234). -/
opaque ecdsaVerify : List B8 → List B8 → List B8 → Bool
/-- Whether the last 96 bytes of a signed image verify over the bytes before them with a public key whose SHA-384 is the given
one (R48, R456): R47 and R456 say which hash binds the key and not where the key itself is found. -/
opaque imageVerify : B384 → List B8 → Bool
/-- Public key, X then Y, of the first certificate of a chain (R415): its DER encoding is outside the spec. -/
opaque certKey : List B8 → List B8
/-- The attestation key certificate: identity private key, attestation public key, the two epochs (R415). -/
opaque attCert : List B8 → List B8 → W32 → W32 → List B8
/-- A signature made with a private key, in 96 bytes (R424). -/
opaque ecdsaSign : List B8 → List B8 → List B8
/-- Whether 96 bytes X, Y name a point on brainpoolP384r1 (R420). -/
opaque onCurve : List B8 → Bool
/-- Public key of a private key (R415). -/
opaque publicKey : List B8 → List B8
/-- ECDH shared secret (R428). -/
opaque ecdh : List B8 → List B8 → List B8
/-- HKDF-SHA-384: salt, input keying material, info, number of bytes (R414, R428). -/
opaque hkdf : List B8 → List B8 → List B8 → Nat → List B8
/-- Byte `i` of the AES-256-GCM key stream: key, 12-byte nonce (R211, R430). -/
opaque gcmStream : W256 → List B8 → Nat → B8
/-- The 16-byte AES-256-GCM tag: key, nonce, additional data, ciphertext (R430). -/
opaque gcmTag : W256 → List B8 → List B8 → List B8 → W128
/-- AES-256-XTS of one data unit: data key, tweak key, tweak, plaintext (R433). -/
opaque aesXts : W256 → W256 → W128 → List B8 → List B8
/-- SipHash-2-4 with a 128-bit key (R291). -/
opaque sipHash : W128 → List B8 → W64
/-- CRC of a received packet or record, where the spec names one. -/
opaque crc32 : List B8 → W32

/-- The n-th byte the entropy source draws, and every other value the spec leaves open, by draw number. -/
opaque freeByte : Nat → B8
opaque freeWord : Nat → W64
opaque freeKey : Nat → W256
opaque freeNat : Nat → Nat
opaque freeBool : Nat → Bool
/-- The FP32 value a transcendental unit returns within the 2 units in the last place of R162: function, operand bits. -/
opaque freeUlp : Nat → F32 → Int
/-- A value an arithmetic stage leaves open (NaN payload, audio filter output): draw number, position. -/
opaque freeF32 : Nat → Nat → F32

/-- The maker's JEDEC manufacturer identity in the IDCODE, whose number the spec does not give (R537). -/
opaque jedecMaker : BitVec 11

/-- The place in the system area that the device gives the page of a span: partition, span (R194). -/
opaque spanPage : Nat → Nat → Nat

/-- Y of a pixel in BT.709, full range or limited, from 16-bit R, G, B: R360 names the standard and gives no arithmetic. -/
opaque bt709Luma : Bool → W16 → W16 → W16 → B8
/-- Cb and Cr of a 2 x 2 block in BT.709. -/
opaque bt709Chroma : Bool → List (W16 × W16 × W16) → B8 × B8

end Sys2Proof.Config
end

