-- ==== Sys2Proof/Machine/State.lean ====
section
/-! DEFINITION. The state of the machine, as plain data; every field's default is its value at reset. -/
namespace Sys2Proof.Machine
open Sys2Proof

/-- R137: one unit that is executing a step of a program (05_matrix_engines_and_number_formats.md). -/
structure UnitRun where
  /-- R136: step kind. -/
  kind : Nat := 0
  /-- R139: step index, counted from 0 after the header. -/
  step : Nat := 0
  /-- R136: region. -/
  region : Nat := 0
  /-- R136: package-wide cluster; for a region-level unit the region's first cluster. -/
  cluster : Nat := 0
  /-- R166: engines still waiting at the gust limiter: bit 16 x ME + local cluster. -/
  engines : BitVec 128 := 0
  /-- R165: issued behind a cluster-scope SYNC that has not released its cluster. -/
  parked : Bool := false
  /-- R30,R298: when the unit began. -/
  began : W64 := 0
deriving DecidableEq, Repr, Inhabited

/-- R165: one release that a SYNC step waits for. -/
structure Hold where
  /-- R165: 0 cluster, 1 region, 2 program. -/
  scope : Nat := 0
  /-- R165: region of a region or cluster hold. -/
  region : Nat := 0
  /-- R165: cluster of a cluster hold. -/
  cluster : Nat := 0
  /-- R165: index of the SYNC step. -/
  step : Nat := 0
deriving DecidableEq, Repr, Inhabited

/-- R135, R137: a step program that runs on the sequencers of its regions. -/
structure Prog where
  /-- R135: program header (the device's copy, R104). -/
  hdr : W512 := 0
  /-- R135: step descriptors (the device's copy, R104). -/
  steps : List W512 := []
  /-- R107: party of the command: 0-63 or 0x40. -/
  party : Nat := 0
  /-- R91: partition. -/
  partition : Nat := 0
  /-- R114: region mask. -/
  mask : W16 := 0
  /-- R114: parameter block address. -/
  param : Nat := 0
  /-- R114: model slot, 0xFF = none. -/
  slot : Nat := 255
  /-- R245: pinned generation. -/
  gen : Nat := 0
  /-- R227,R308: workspace range that a batch's or a TUNE's program may write. -/
  ws : Option (Nat × Nat) := none
  /-- R137: next step of each region's sequencer. -/
  pcs : Tbl Nat := []
  /-- R137: units executing a step. -/
  units : List UnitRun := []
  /-- R165: releases the sequencer waits for. -/
  holds : List Hold := []
  /-- R511: tenant or 0x40 that events are attributed to; 0x7E none. -/
  attr : Nat := 0
  /-- R138: failing step with the lowest index: index, status, detail. -/
  fail : Option (Nat × B8 × W32) := none
  /-- R336: adapter slot of a TUNE, else 0xFF. -/
  adapter : Nat := 255
  /-- R335: adapter state address of a TUNE. -/
  stateAddr : Nat := 0
  /-- R337: iterations of a TUNE still to run. -/
  iters : Nat := 0
  /-- R337: iterations done. -/
  itersDone : Nat := 0
  /-- R336: training sequences held. -/
  tuneSeqs : List Nat := []
deriving DecidableEq, Repr, Inhabited

/-- R47-R55, R64: the BCI in use, by section (02_boot_configuration.md). -/
structure Cfg where
  /-- R49: bytes of each section by type; a byte not listed is 0. -/
  secs : Tbl Memory := []
  /-- R48: length of each section, 0 = absent. -/
  lens : Tbl Nat := []
  /-- R544: endpoint port that carries the management window. -/
  port : Nat := 0
  /-- R57: safe configuration. -/
  safe : Bool := false
  /-- R43: recovery. -/
  recovery : Bool := false
deriving DecidableEq, Repr, Inhabited

/-- R412: the fused values (13_security_and_tenancy.md); R498: test-table values (15_power_thermal_ageing.md). -/
structure Fuses where
  /-- R412: device unique secret; DESIGN CHOICE 0. -/
  dus : B384 := 0
  /-- R412: boot ROM digest; DESIGN CHOICE 0. -/
  romDigest : B384 := 0
  /-- R412: firmware signing key hash; DESIGN CHOICE 0. -/
  fwKeyHash : B384 := 0
  /-- R412: BCI signer slots 0-3, none = not written; DESIGN CHOICE unwritten. -/
  signer : Tbl (Option B384) := []
  /-- R412,R445: revocation bits; DESIGN CHOICE 0. -/
  revoked : BitVec 4 := 0
  /-- R412: BCI minimum version; DESIGN CHOICE 0. -/
  bciMin : Nat := 0
  /-- R412: firmware minimum version; DESIGN CHOICE 0. -/
  fwMin : Nat := 0
  /-- R412: debug never opens; DESIGN CHOICE false. -/
  debugClosed : Bool := false
  /-- R498: PWR_DIE_OP_j.vcode, j = 9d + k; DESIGN CHOICE 0. -/
  vcode : Tbl B8 := []
  /-- R498: PWR_DIE_OP_j whose supported bit is 0; DESIGN CHOICE none. -/
  unsupported : List Nat := []
  /-- R498: PWR_RG_n.fused_max stored as 8 - value; DESIGN CHOICE 8 for each region. -/
  fusedMax : Tbl Nat := []
deriving DecidableEq, Repr, Inhabited

/-- R41: the boot flash (02_boot_configuration.md). -/
structure Flash where
  /-- R41: flash bytes: header, certificate chain, BCI slots A/B, firmware slots A/B; DESIGN CHOICE empty. -/
  bytes : Memory := []
  /-- R38: first copy of the epoch record, none = not valid; DESIGN CHOICE none. -/
  epochA : Option W32 := none
  /-- R38: second copy of the epoch record; DESIGN CHOICE none. -/
  epochB : Option W32 := none
  /-- R46: LP5X training cache: data rate and devices it was stored for, none = empty; DESIGN CHOICE none. -/
  cacheRate : Option W32 := none
  /-- R38: the flash accepts the epoch write; the MODEL's own environment bit, DESIGN CHOICE true. -/
  writable : Bool := true
deriving DecidableEq, Repr, Inhabited

/-- R58, R59, R45, R57: boot progress (02_boot_configuration.md). -/
structure Boot where
  /-- R58: MG_BOOT_STATUS.stage. -/
  stage : Nat := 0
  /-- R58: MG_BOOT_STATUS.bci_slot, 0xF = none. -/
  bciSlot : Nat := 15
  /-- R58: MG_BOOT_STATUS.reason. -/
  reason : Nat := 0
  /-- R58: MG_BOOT_STATUS.detail. -/
  detail : Nat := 0
  /-- R58: MG_BOOT_STATUS.boot_time_ms. -/
  bootTimeMs : Nat := 0
  /-- R58: MG_BOOT_STATUS.fallback. -/
  fallback : Bool := false
  /-- R58: MG_BOOT_STATUS.cache_rejected. -/
  cacheRejected : Bool := false
  /-- R59: MG_BCI_INFO.sequence. -/
  sequence : Nat := 0
  /-- R59: security_version of the BCI in use (MG_BCI_INFO shows the low 16 bits). -/
  secVersion : Nat := 0
  /-- R59: image_length of the BCI in use, in bytes (MG_BCI_INFO shows /16). -/
  imageLen : Nat := 0
  /-- R45: boot lock. -/
  locked : Bool := false
  /-- R413: the entropy health tests failed at boot: the ROM stays in stage 0. -/
  romHeld : Bool := false
  /-- R505,R557: THERMTRIP_L asserted. -/
  thermtrip : Bool := false
  /-- R552,R554: the rails are up; the MODEL's own bit of the supply. -/
  powered : Bool := true
deriving DecidableEq, Repr, Inhabited

/-- R37: reset epochs (02_boot_configuration.md). -/
structure Epochs where
  /-- R37: MG_EPOCH_PON, from flash. -/
  pon : W32 := 0
  /-- R37: MG_EPOCH_RST. -/
  rst : W32 := 0
  /-- R37: MG_EPOCH_LINK_n. -/
  link : Tbl W32 := []
  /-- R37: MG_EPOCH_PART_n. -/
  part : Tbl W32 := []
  /-- R37: MG_EPOCH_TEN_n. -/
  ten : Tbl W32 := []
  /-- R37: MG_EPOCH_CC_n. -/
  cc : Tbl W32 := []
deriving DecidableEq, Repr, Inhabited

/-- R65: staging of a BCI or recovery firmware image (02_boot_configuration.md). -/
structure Stage where
  /-- R64: MG_STAGE_ADDR. -/
  addr : W64 := 0
  /-- R66: a staging runs: it ends at the next management tick. -/
  active : Bool := false
  /-- R65: the checked image that is being written. -/
  image : List B8 := []
deriving DecidableEq, Repr, Inhabited

/-- R67: one track TRK_n with its TB_TRK_ registers (03_position_timebase.md). -/
structure Track where
  /-- R67: TB_TRK_CTL.source (TRK_0 reads 1). -/
  source : Nat := 0
  /-- R67: TB_TRK_CTL.source_index. -/
  sourceIndex : Nat := 0
  /-- R75: TB_TRK_STATUS.preset_refused. -/
  presetRefused : Bool := false
  /-- R73: TB_TRK_STATUS.jump_cnt. -/
  jumpCnt : W16 := 0
  /-- R75: TB_TRK_STATUS.preset_cnt. -/
  presetCnt : W16 := 0
  /-- R484: invalidated at sleep entry: the first valid position is handled as after a jump. -/
  resuming : Bool := false
deriving DecidableEq, Repr, Inhabited

/-- R82: one position trigger with its TB_TRG_ registers (03_position_timebase.md). -/
structure Trigger where
  /-- R77: TB_TRG_CTL.track. -/
  track : Nat := 0
  /-- R77: TB_TRG_CTL.mode. -/
  mode : Nat := 0
  /-- R79: TB_TRG_CTL.late_ok. -/
  lateOk : Bool := false
  /-- R81: TB_TRG_CTL.interval. -/
  interval : W32 := 0
  /-- R82: TB_TRG_ACTION. -/
  action : W64 := 0
  /-- R80: TB_TRG_TARGET. -/
  target : W64 := 0
  /-- R80: the low half that the last write of TB_TRG_TARGET stored. -/
  lowHalf : W32 := 0
  /-- R79: TB_TRG_STATUS.armed. -/
  armed : Bool := false
  /-- R79: TB_TRG_STATUS.fired. -/
  fired : Bool := false
  /-- R79: TB_TRG_STATUS.missed. -/
  missed : Bool := false
  /-- R84: TB_TRG_STATUS.action_failed. -/
  actionFailed : Bool := false
  /-- R79: TB_TRG_STATUS.late. -/
  late : Bool := false
  /-- R73: TB_TRG_STATUS.jumped. -/
  jumped : Bool := false
  /-- R78: TB_TRG_STATUS.last_status. -/
  lastStatus : B8 := 0
  /-- R79: TB_TRG_STATUS.fired_cnt. -/
  firedCnt : W16 := 0
  /-- R81: TB_TRG_STATUS.missed_cnt. -/
  missedCnt : W16 := 0
  /-- R84: TB_TRG_STATUS.fail_cnt. -/
  failCnt : W16 := 0
  /-- R85: TB_TRG_TIME. -/
  time : W64 := 0
deriving DecidableEq, Repr, Inhabited

/-- R70, R71, R528: the PTP servo (03_position_timebase.md, 17_external_interfaces.md). -/
structure Ptp where
  /-- R71: TB_PTP_STATUS.valid. -/
  valid : Bool := false
  /-- R71: TB_PTP_STATUS.holdover. -/
  holdover : Bool := false
  /-- R70: TB_PTP_STATUS.offset_err. -/
  offsetErr : W32 := 0
  /-- R70: TB_PTP_CFG.step_ns. -/
  stepNs : W32 := 100000
  /-- R70: TB_PTP_CFG.slew_ppm. -/
  slewPpm : Nat := 500
  /-- R70: PTP time minus data-plane time. -/
  offset : W64 := 0
  /-- R70: error still to be slewed, ns. -/
  slewLeft : Int := 0
  /-- R70,R71: the servo's rate correction in ppm, toward the error it was measured for. -/
  rate : Int := 0
  /-- R528: best master heard on port 0 (priority vector and identity as one number). -/
  master0 : Option W64 := none
  /-- R528: best master heard on port 1. -/
  master1 : Option W64 := none
  /-- R528,R540: ETH_PORT_STATUS.ptp_slave. -/
  slavePort : Option Nat := none
deriving DecidableEq, Repr, Inhabited

/-- R9, R10: one progress register (00_scope.md). -/
structure Progress where
  /-- R9: kind. -/
  kind : Nat := 2
  /-- R9: value. -/
  value : Nat := 0
  /-- R131: the slot is in use by a command. -/
  busy : Bool := false
  /-- R11: tick of its last update, none = not updated since reset. -/
  upd : Option Nat := none
  /-- R11: kind and value of an update that waits for the next tick. -/
  next : Option (Nat × Nat) := none
deriving DecidableEq, Repr, Inhabited

/-- R122, R129, R518: one ring of 2^log2 entries with its registers (04_work_engines_and_command_lists.md). -/
structure Ring where
  /-- R122: _BASE. -/
  base : W64 := 0
  /-- R122: _MIRROR. -/
  mirror : W64 := 0
  /-- R122: _CTL.enable. -/
  enable : Bool := false
  /-- R122: _CTL.mirror_en. -/
  mirrorEn : Bool := false
  /-- R122: _CTL.log2_entries (global error ring and log ring: 12). -/
  log2 : Nat := 6
  /-- R518: PMC_RING_CTL.log2_slot. -/
  log2Slot : Nat := 12
  /-- R122: _HEAD. -/
  head : Nat := 0
  /-- R122: _TAIL.tail. -/
  tail : Nat := 0
  /-- R122,R125: _TAIL.phase. -/
  phase : Bool := true
  /-- R129: next record sequence number. -/
  seq : Nat := 1
  /-- R129: _CTL.dropped. -/
  dropped : W16 := 0
deriving DecidableEq, Repr, Inhabited

/-- R105: one posted write. -/
structure HeldWrite where
  /-- R105: window offset. -/
  off : Nat := 0
  /-- R105: written value. -/
  value : W64 := 0
  /-- R543: 64, or 32 with the half in the offset. -/
  width : Nat := 64
  /-- R105,R453: host memory that the write's effect reads when it is processed. -/
  host : List Host.Cell := []
deriving DecidableEq, Repr, Inhabited

/-- R113: one tenant barrier. -/
structure Barrier where
  /-- R113: queues that have arrived. -/
  count : Nat := 0
  /-- R113: participants of the current round. -/
  participants : Nat := 0
  /-- R113: queue keys waiting. -/
  waiting : List Nat := []
deriving DecidableEq, Repr, Inhabited

/-- R428-R431: a session. -/
structure Session where
  /-- R429: session_id. -/
  sid : W32 := 0
  /-- R428: K_d2h. -/
  keyD2H : W256 := 0
  /-- R428: K_h2d. -/
  keyH2D : W256 := 0
  /-- R421: TW_H2D_CTR. -/
  h2d : W64 := 0
  /-- R421: TW_D2H_CTR. -/
  d2h : W64 := 0
deriving DecidableEq, Repr, Inhabited

/-- R335-R337: one adapter slot. -/
structure Adapter where
  /-- R337: bound to a state block. -/
  bound : Bool := false
  /-- R336: a TUNE holds the slot. -/
  heldByTune : Bool := false
  /-- R335: adapter state address. -/
  addr : Nat := 0
deriving DecidableEq, Repr, Inhabited

/-- R96-R101, R421: one tenant function and its window (04_work_engines_and_command_lists.md). -/
structure Tenant where
  /-- R98: TW_STATUS.serving. -/
  serving : Bool := false
  /-- R98: TW_STATUS.fw_restart. -/
  fwRestart : Bool := false
  /-- R98: TW_STATUS.scrub. -/
  scrub : Bool := false
  /-- R98: TW_STATUS.update_hold. -/
  updateHold : Bool := false
  /-- R98: TW_STATUS.partition_reset. -/
  partReset : Bool := false
  /-- R99: TW_EVENT flags. -/
  event : BitVec 4 := 0
  /-- R100: TW_EVENT_CNT. -/
  eventCnt : Tbl W16 := []
  /-- R101: TW_EVENT_EN. -/
  eventEn : BitVec 4 := 0
  /-- R99,R521: MSI-X messages sent per vector (the MODEL's record of the pin-side effect). -/
  msix : Tbl Nat := []
  /-- R102: TW_SUBMIT_LO. -/
  submitLo : W32 := 0
  /-- R102: TW_SUBMIT_HI. -/
  submitHi : W32 := 0
  /-- R122: completion ring registers. -/
  compl : Ring := {}
  /-- R129: error ring registers. -/
  err : Ring := {}
  /-- R132: TW_PROGRESS_n. -/
  progress : Tbl Progress := []
  /-- R105,R453: posted writes not yet processed. -/
  held : List HeldWrite := []
  /-- R113: barrier counts. -/
  barriers : Tbl Barrier := []
  /-- R53,R522: the host has enabled the tenant's virtual function. -/
  vfEnabled : Bool := false
  /-- R522: Bus Master Enable of the virtual function. -/
  busMaster : Bool := false
  /-- R421: TW_ATT_ADDR. -/
  attAddr : W64 := 0
  /-- R421: TW_ATT_STATUS.last_status. -/
  attStatus : B8 := 0
  /-- R421: TW_ATT_STATUS.report_seq. -/
  reportSeq : W32 := 0
  /-- R425: a handoff completed since the tenant's previous report. -/
  handoffSeen : Bool := false
  /-- R421,R429: the open session and its keys. -/
  session : Option Session := none
  /-- R429: next session_id. -/
  sessionNext : W32 := 1
  /-- R514: TW_PMC_SEL.unit. -/
  pmcUnit : Nat := 0
  /-- R514: TW_PMC_SEL.kind. -/
  pmcKind : Nat := 0
  /-- R514: TW_PMC_SNAP_CFG.period_n. -/
  snapPeriod : Nat := 0
  /-- R514: TW_PMC_SNAP_SEL. -/
  snapSel : W64 := 0
  /-- R513: period boundary at which the last periodic snapshot was taken. -/
  snapAt : Option W64 := none
  /-- R514,R518: TW_PMC_RING_ registers. -/
  snapRing : Ring := {}
  /-- R432: the tenant's memory keys exist. -/
  keyed : Bool := false
  /-- R211,R437: the tenant's tier key exists. -/
  tierKeyed : Bool := false
  /-- R291: SipHash key of the tenant's prefix tree; drawn (free value). -/
  treeKey : W128 := 0
  /-- R335,R337: adapter slots. -/
  adapters : Tbl Adapter := []
  /-- R437: frames the running scrub has to write. -/
  scrubFrames : Nat := 0
  /-- R31,R437: tick at which the end of the scrub is due. -/
  scrubDue : Nat := 0
  /-- R437: the last scrub line has been written. -/
  scrubDone : Bool := false
  /-- R452,R459: read shadows of the emulated registers by offset, as they stood when the core stopped; in use while it is away. -/
  shadow : Tbl W64 := []
deriving DecidableEq, Repr, Inhabited

/-- R123: a completion entry (32 bytes). -/
structure Entry where
  /-- R123: time. -/
  time : W64 := 0
  /-- R123: tag. -/
  tag : W32 := 0
  /-- R123: sub_tag. -/
  subTag : W16 := 0
  /-- R123: status. -/
  status : B8 := 0
  /-- R124: kind. -/
  kind : Nat := 0
  /-- R123: queue [1:0]. -/
  engine : Nat := 0
  /-- R123: queue [4:2]. -/
  queue : Nat := 0
  /-- R107: byte 17 on the management ring. -/
  partition : Nat := 0
  /-- R123: index. -/
  index : Nat := 0
  /-- R123: result. -/
  result : W64 := 0
  /-- R126: order in which the entry was produced. -/
  order : Nat := 0
deriving DecidableEq, Repr, Inhabited

/-- R128: an error record (32 bytes). -/
structure ErrRec where
  /-- R128: time. -/
  time : W64 := 0
  /-- R128: tenant. -/
  tenant : Nat := 0
  /-- R128: status. -/
  status : B8 := 0
  /-- R128: unit path code. -/
  unit : Nat := 0
  /-- R128: detail. -/
  detail : W32 := 0
  /-- R128: address [47:0]. -/
  address : Nat := 0
  /-- R128: address [57:56]. -/
  space : Nat := 3
  /-- R128: partition. -/
  partition : Nat := 255
  /-- R128: queue byte. -/
  queue : Nat := 0
  /-- R128: index. -/
  index : Nat := 65535
  /-- R128: sub_tag. -/
  subTag : W16 := 0
  /-- R128: seq in the ring it is written to. -/
  seq : Nat := 0
deriving DecidableEq, Repr, Inhabited

/-- R92, R102: a queued list. -/
structure CmdList where
  /-- R102,R109: the device's copy of the 64-byte commands (R104). -/
  cmds : List W512 := []
  /-- R102: sub_tag. -/
  subTag : W16 := 0
  /-- R94: submission time. -/
  time : W64 := 0
  /-- R94: place in the submission order of the device. -/
  no : Nat := 0
  /-- R93: index of the command that is next or running. -/
  index : Nat := 0
  /-- R104: the device's copies of the step programs it names, header first, by command index. -/
  progs : Tbl (List W512) := []
  /-- R310: the request descriptors read at validation, by command index. -/
  reqs : Tbl W1024 := []
  /-- R121: index and status of the first failed command. -/
  firstFail : Option (Nat × B8) := none
deriving DecidableEq, Repr, Inhabited

/-- R93: a command that has started. -/
structure Running where
  /-- R93: the command. -/
  cmd : W512 := 0
  /-- R110: start time, for the timeout. -/
  started : W64 := 0
  /-- R135: the step program being run (STEP_PROGRAM, TUNE, Token batch). -/
  prog : Option Prog := none
  /-- -: command-specific: binding, sequence, progress slot taken, load index. -/
  aux : Nat := 0
  /-- R94,R214: parts a Move command has moved: tiles of a COPY or MIGRATE, elements of a SCATTER or GATHER. -/
  pos : Nat := 0
  /-- R286: a Move command whose next part waits and takes no turn. -/
  parked : Bool := false
  /-- R195: the next tile of a MIGRATE is marked busy by it. -/
  mark : Bool := false
deriving DecidableEq, Repr, Inhabited

/-- R92: one queue of one party on one work engine. -/
structure Queue where
  /-- R92: lists, the running one first. -/
  lists : List CmdList := []
  /-- R93: the command that has started and not ended. -/
  running : Option Running := none
  /-- R83: release count. -/
  release : B8 := 0
  /-- R126: completion FIFO. -/
  fifo : List Entry := []
  /-- R126: entries that found the FIFO full and wait at their source. -/
  atSource : List Entry := []
  /-- R95: the head command has reserved its regions. -/
  reserved : Bool := false
  /-- R95: time at which the head command began to wait. -/
  readySince : W64 := 0
deriving DecidableEq, Repr, Inhabited

/-- R107, R545: the management window's submission path, mailbox and rings. -/
structure MgmtPath where
  /-- R107: MG_SUBMIT_LO. -/
  submitLo : W32 := 0
  /-- R107: MG_SUBMIT_HI. -/
  submitHi : W32 := 0
  /-- R107: MG_COMPL_ registers. -/
  compl : Ring := {}
  /-- R130: MG_ERR_ registers (global error ring). -/
  gerr : Ring := { log2 := 12 }
  /-- R468: MG_LOG_ registers (log ring). -/
  log : Ring := { log2 := 12 }
  /-- R130: records unread in the global error ring, oldest first. -/
  globalRing : List ErrRec := []
  /-- R468: records unread in the log ring. -/
  logRing : List ErrRec := []
  /-- R468: log records buffered by each core in this tick. -/
  logBuf : Tbl (List ErrRec) := []
  /-- R468: records each core dropped in this tick. -/
  logDropped : Tbl Nat := []
  /-- R9: MG_PROGRESS_n. -/
  progress : Tbl Progress := []
  /-- R105: posted writes not yet processed. -/
  held : List HeldWrite := []
  /-- R455: MG_REPLY.status. -/
  replyStatus : B8 := 0
  /-- R455: MG_REPLY.offset. -/
  replyOffset : W16 := 0
  /-- R455: MG_REPLY.count. -/
  replyCount : W32 := 0
  /-- R545: MG_ATT_ADDR. -/
  attAddr : W64 := 0
  /-- R545: MG_ATT_STATUS.last_status. -/
  attStatus : B8 := 0
  /-- R545: MG_ATT_STATUS.report_seq. -/
  reportSeq : W32 := 0
  /-- R425: a handoff completed since the management function's previous report. -/
  handoffSeen : Bool := false
  /-- R452,R459: read shadows of the emulated registers by offset, as they stood when CC0 stopped; in use while it is away. -/
  shadow : Tbl W64 := []
deriving DecidableEq, Repr, Inhabited

/-- R317: the running batch of a partition. -/
structure Batch where
  /-- R317,R324: the batch runs the draft model. -/
  draft : Bool := false
  /-- R317: 0 prefill, 1 decode or verify, 2 draft. -/
  kind : Nat := 0
  /-- R317: model slot. -/
  slot : Nat := 0
  /-- R318: pinned generation. -/
  gen : Nat := 0
  /-- R317: adapter or 0xFF. -/
  adapter : Nat := 255
  /-- R511: the tenant when every member is its. -/
  tenant : Option Nat := none
  /-- R316,R318: (record index, rows, T as its programs read it: for a prefill T after its chunk, else T before the batch). -/
  members : List (Nat × Nat × Nat) := []
  /-- R318: program being run. -/
  prog : Option Prog := none
  /-- R318: prefill segment. -/
  segment : Nat := 0
  /-- R318: formation time. -/
  started : W64 := 0
  /-- R94,R318: its place among the submissions: the number of lists submitted before it formed. -/
  no : Nat := 0
  /-- R94,R318: it waits for the regions of its partition. -/
  waits : Bool := false
deriving DecidableEq, Repr, Inhabited

/-- R51, R60, R498: the run-time state of one partition. -/
structure PartState where
  /-- R61: MG_RESET_STATUS bit: a partition reset runs. -/
  resetting : Bool := false
  /-- R498: PWR_PART_n.op. -/
  op : Nat := 0
  /-- R496: PWR_PART_n.ceiling. -/
  ceiling : Nat := 0
  /-- R498: PWR_PART_n.duty. -/
  duty : Nat := 8
  /-- R500: suspended by the cap loop (PWR_PART_n.suspended shows this or thermSusp). -/
  loopSusp : Bool := false
  /-- R504: suspended for temperature. -/
  thermSusp : Bool := false
  /-- R498: PWR_PART_n.fixed. -/
  fixed : Bool := false
  /-- R498: PWR_PART_n.throttled. -/
  throttled : Bool := false
  /-- R498: PWR_PART_n.loop_op. -/
  loopOp : Nat := 0
  /-- R500: P in the tick before the loop suspended it, mW. -/
  powerBefore : Nat := 0
  /-- R500: saved(x), once the tick after the suspension has ended, mW. -/
  saved : Option Int := none
  /-- R304: KV_TREE_n.slow_cnt. -/
  slowCnt : BitVec 24 := 0
  /-- R297: tick of the last start of an index rebuild. -/
  rebuildTick : Option Nat := none
  /-- R31,R297: tick at which the rebuilt shadow index is to be swapped in. -/
  rebuildDue : Option Nat := none
  /-- R31,R298: tick at which the rebuilt page lists are to flip. -/
  compactDue : Option Nat := none
  /-- R342: TOK_SPEC_n.drafted. -/
  drafted : W32 := 0
  /-- R342: TOK_SPEC_n.accepted. -/
  accepted : W32 := 0
  /-- R342: TOK_BATCH_n.batches. -/
  batches : W32 := 0
  /-- R342: TOK_BATCH_n.last_rows. -/
  lastRows : Nat := 0
  /-- R317: the running batch. -/
  batch : Option Batch := none
  /-- R94: queues that have taken their turn in the Move engine's round. -/
  moveServed : List Nat := []
  /-- R317: prefill batches since the last decode batch. -/
  prefillSince : Nat := 0
deriving DecidableEq, Repr, Inhabited

/-- R24, R166, R498: the run-time state of one region. -/
structure RegionState where
  /-- R475: PWR_DOMAINS bit n. -/
  powered : Bool := false
  /-- R498: PWR_RG_n.op. -/
  op : Nat := 0
  /-- R497: point committed and not yet in force. -/
  target : Nat := 0
  /-- R498: PWR_RG_n.max_op (fuses). -/
  maxOp : Nat := 8
  /-- R498: PWR_RG_n.margin_mv. -/
  margin : Nat := 0
  /-- R508: PWR_RG_n.exhausted. -/
  exhausted : Bool := false
  /-- R498: PWR_RG_n.worst_ps. -/
  worstPs : Nat := 0
  /-- R498: PWR_RG_n.reads. -/
  reads : W16 := 0
  /-- R508: maximum that takes effect at the next tick. -/
  maxNext : Option Nat := none
  /-- R507: time of the next periodic ageing read. -/
  nextRead : W64 := 0
  /-- R507: powered at boot or by Dawn and not yet read. -/
  fresh : Bool := false
  /-- R168: RG_GUST_STATUS_n.ramp_cnt. -/
  rampCnt : W32 := 0
  /-- R168: RG_GUST_STATUS_n.last_len. -/
  lastLen : W16 := 0
  /-- R166: engine starts waiting at the gust limiter: (ME, local cluster). -/
  waiting : List (Nat × Nat) := []
  /-- R166,R168: number of the last release of its barrier controller: the MODEL's own count. -/
  relNo : Nat := 0
  /-- R165,R168: cycles from the last finish to that release. -/
  relDelay : Nat := 0
  /-- R168: time of that release. -/
  relAt : W64 := 0
  /-- R168: engines that it has ramped. -/
  ramped : Nat := 0
deriving DecidableEq, Repr, Inhabited

/-- R498, R504: the run-time state of one compute die. -/
structure DieState where
  /-- R498: PWR_DIE_n.vcode. -/
  vcode : B8 := 0
  /-- R498: PWR_DIE_n.op. -/
  op : Nat := 0
  /-- R504: t_max(d). -/
  tMax : Nat := 8
  /-- R504: t_duty(d). -/
  tDuty : Nat := 8
  /-- R551,R553: a setpoint has been committed and not yet reported reached. -/
  avsWait : Bool := false
deriving DecidableEq, Repr, Inhabited

/-- R186: one halo ring stop. -/
structure HaloStop where
  /-- R186: HALO_ENC_IN_s. -/
  bytesIn : W64 := 0
  /-- R186: HALO_ENC_OUT_s. -/
  bytesOut : W64 := 0
  /-- R186: HALO_DEC_STATUS_s.dec_err. -/
  decErr : Bool := false
  /-- R186: HALO_DEC_STATUS_s.dec_err_cnt. -/
  decErrCnt : W16 := 0
  /-- R185: frames of the next coded transfer that a device fault altered, by chunk, as they arrive: the MODEL's own mark of the environment. -/
  frames : Tbl (List B8) := []
deriving DecidableEq, Repr, Inhabited

/-- R200: the tag of one 16 KiB buffer tile. -/
structure BufTag where
  /-- R200: owner, none = untagged. -/
  owner : Option Nat := none
  /-- R200: valid mask. -/
  valid : W256 := 0
  /-- R200: write mask. -/
  written : W256 := 0
deriving DecidableEq, Repr, Inhabited

/-- R22, R23, R153, R510: one cluster beside its buffer. -/
structure Cluster where
  /-- R139,R153: scale file entries loaded since reset: loading party and value; an entry not listed is +0.0 with no tenant. -/
  scales : Tbl (Nat × F32) := []
  /-- R512: PMC_CL_CYC_c. -/
  cyc : W64 := 0
  /-- R166: time at which each engine's last step ended, none = no step since reset. -/
  idle : Tbl (Option W64) := []
  /-- R166: engines whose next start follows a SYNC release. -/
  rel : BitVec 8 := 0
  /-- R166,R168: number of that release. -/
  relNo : Nat := 0
  /-- R168: that release has ramped an engine. -/
  relDone : Bool := false
deriving DecidableEq, Repr, Inhabited

/-- R195: one tile table entry. -/
structure Tile where
  /-- R195: 0 LP5X, 1 NVMe. -/
  tier : Nat := 0
  /-- R195: a copy is in an on-chip slot. -/
  onchip : Bool := false
  /-- R195: the copy holds lines not yet in LP5X. -/
  dirty : Bool := false
  /-- R195: an NVMe copy exists. -/
  nvmeCopy : Bool := false
  /-- R195: EBF16 weight blocks. -/
  ebf16 : Bool := false
  /-- R195: writes are refused. -/
  readOnly : Bool := false
  /-- R195: a migration runs. -/
  busy : Bool := false
  /-- R195: 0-63 tenant, 0x40 management. -/
  owner : Nat := 0
  /-- R195: backing frame (device physical address / 16,384). -/
  frame : Nat := 0
  /-- R195: on-chip slot, cluster x 32 + tile index. -/
  slot : Nat := 0
  /-- R195: frame of the NVMe copy. -/
  copyFrame : Nat := 0
  /-- R195: line of the 32 block descriptors. -/
  descLine : Nat := 0
  /-- R212: order in which NVMe copies were made, for oldest first. -/
  age : Nat := 0
deriving DecidableEq, Repr, Inhabited

/-- R432: the keys of one key index, in the key tables of the memory controllers. -/
structure MemKey where
  /-- R432: the XTS key that encrypts data. -/
  data : W256 := 0
  /-- R432: the XTS key that encrypts the tweak. -/
  tweak : W256 := 0
  /-- R432: the MAC key. -/
  mac : W256 := 0
deriving DecidableEq, Repr, Inhabited

/-- R208,R434: a counter node of the version tree. -/
structure CtrNode where
  /-- R208,R434: major counter. -/
  major : BitVec 56 := 0
  /-- R208,R434: minor counters. -/
  minors : Tbl (BitVec 7) := []
deriving DecidableEq, Repr, Inhabited

/-- R194-R225: memory system (07_memory_tiers.md). -/
structure Mem where
  /-- R187: the bytes of LP5X, the SRAM aperture and the NVMe window, by device physical address. -/
  phys : Memory := []
  /-- R217: 8-byte SRAM words that hold an uncorrectable error. -/
  bad : List Nat := []
  /-- R217: 8-byte SRAM words that hold a correctable error. -/
  ceWords : List Nat := []
  /-- R207: LP5X lines whose read fails link ECC. -/
  badLp : List Nat := []
  /-- R207,R224: LP5X lines whose next read transfer link ECC corrects, with their channels. -/
  ceLines : List (Nat × Nat) := []
  /-- R207,R211,R436: LP5X lines that are corrupt (with protection 3 their MAC fails), and lines of NVMe blocks whose tag fails. -/
  badMac : List Nat := []
  /-- R200: buffer tile tags, by aperture tile number. -/
  tags : Tbl BufTag := []
  /-- R194,R195: tile table, key = generation x 2^30 + partition x 2^26 + tile (generation 0 outside the slot windows); directories and span pages are computed from it. -/
  tiles : Tbl (Option Tile) := []
  /-- R432: memory keys by key index (0-63 tenants, 64-79 sharing groups, 0x50 management, 0x51 system); none while destroyed. -/
  keys : Tbl (Option MemKey) := []
  /-- R208,R434: counter nodes of the version tree, level x 2^32 + index: level 0 holds the leaves. -/
  nodes : Tbl CtrNode := []
  /-- R197: sector masks by frame. -/
  sector : Tbl W256 := []
  /-- R219: MEM_CFG.capacity_gib. -/
  cfgCap : Nat := 0
  /-- R219: MEM_CFG.data_rate. -/
  cfgRate : Nat := 0
  /-- R219: MEM_CFG.protection. -/
  cfgProt : Nat := 0
  /-- R219: MEM_CFG.ranks. -/
  cfgRanks : Nat := 0
  /-- R219: MEM_CFG.density. -/
  cfgDensity : Nat := 0
  /-- R219: MEM_CFG.cached. -/
  cfgCached : Bool := false
  /-- R220: MEM_STATUS.trained. -/
  trained : Bool := false
  /-- R220: MEM_STATUS.self_refresh. -/
  selfRefresh : Bool := false
  /-- R220: MEM_STATUS.temp_high. -/
  tempHigh : Bool := false
  /-- R220: MEM_STATUS.temp_cnt. -/
  tempCnt : W16 := 0
  /-- R221: MEM_CAPACITY.usable_mib. -/
  usableMib : Nat := 0
  /-- R221: MEM_CAPACITY.system_mib. -/
  systemMib : Nat := 0
  /-- R222: MEM_ECC_SRAM ce, ue. -/
  sramFlags : BitVec 2 := 0
  /-- R222: MEM_ECC_SRAM.ce_cnt. -/
  sramCe : W16 := 0
  /-- R222: MEM_ECC_SRAM.ue_cnt. -/
  sramUe : W16 := 0
  /-- R222: MEM_ECC_DRAM link_ce, link_ue, mac_fail. -/
  dramFlags : BitVec 3 := 0
  /-- R222: MEM_ECC_DRAM.link_ce_cnt. -/
  dramCe : W16 := 0
  /-- R222: MEM_ECC_DRAM.link_ue_cnt. -/
  dramUe : W16 := 0
  /-- R222: MEM_ECC_DRAM.mac_fail_cnt. -/
  macCnt : W16 := 0
  /-- R223: MEM_NVME_STATUS.present. -/
  nvmePresent : BitVec 2 := 0
  /-- R223: MEM_NVME_STATUS.err. -/
  nvmeErr : BitVec 2 := 0
  /-- R223: MEM_NVME_STATUS.err_cnt_p. -/
  nvmeErrCnt : Tbl W16 := []
  /-- R210: usable 16 KiB places of drive p. -/
  nvmeCap : Tbl Nat := []
  /-- R213: the next access to drive p fails: its command failed twice. -/
  nvmeFail : Tbl Bool := []
  /-- R213: the outstanding command of drive p has been retried once. -/
  nvmeRetry : Tbl Bool := []
  /-- R525: SMART log pages read of drive p. -/
  smart : Tbl Nat := []
  /-- R525: time of the last such read of drive p. -/
  smartAt : Tbl (Option W64) := []
  /-- R224: MEM_CH_STATUS_n.refresh_rate. -/
  chRefresh : Tbl Nat := []
  /-- R224: MEM_CH_STATUS_n.retrain_cnt. -/
  chRetrain : Tbl W16 := []
  /-- R224: MEM_CH_STATUS_n.link_ce_cnt. -/
  chLinkCe : Tbl W16 := []
  /-- R212: next age number. -/
  freshCopy : Nat := 0
deriving DecidableEq, Repr, Inhabited

/-- R243, R245: one generation held in a slot. -/
structure GenState where
  /-- R243: generation number. -/
  number : Nat := 0
  /-- R246: 0 current, 1 staged, 2 draining. -/
  role : Nat := 0
  /-- R255: pins. -/
  pins : Nat := 0
  /-- R250: degraded. -/
  degraded : Bool := false
  /-- R243: the manifest whose SHA-384 attestation lists. -/
  manifest : List B8 := []
  /-- R249: time it took effect, or its last sweep ended. -/
  since : W64 := 0
  /-- R251: time at which its next sweep became due at once. -/
  sweepAt : Option W64 := none
  /-- R31,R247: tick at which it is due to be freed. -/
  freeDue : Option Nat := none
deriving DecidableEq, Repr, Inhabited

/-- R239-R242: a model load in progress. -/
structure Load where
  /-- R243: number the load would take. -/
  gen : Nat := 0
  /-- R239: copied manifest. -/
  manifest : List B8 := []
  /-- R244: key slot of the signing key. -/
  signer : Nat := 0
  /-- R242: shards verified. -/
  verified : List Nat := []
  /-- R240: failed fetches per shard. -/
  attempts : Tbl Nat := []
  /-- R228: loader. -/
  owner : Nat := 0
  /-- R239: queue key of the MODEL_LOAD. -/
  queue : Nat := 0
  /-- R242: every shard has verified: commits at the next tick. -/
  complete : Bool := false
  /-- R31,R242: tick at which it is due to take effect. -/
  due : Option Nat := none
  /-- R240: per-shard timeout in ms. -/
  timeoutMs : Nat := 10000
  /-- R240: when the present fetch of a shard began. -/
  started : Tbl W64 := []
  /-- R244: shards whose cache entry failed: the fetch from the primary source is not counted. -/
  uncounted : List Nat := []
deriving DecidableEq, Repr, Inhabited

/-- R246: a MODEL_CTL switch that waits for its tick. -/
structure Switch where
  /-- R246: staged generation that is to become current. -/
  gen : Nat := 0
  /-- R246: queue key of the command. -/
  queue : Nat := 0
  /-- R31,R246: tick at which it is due. -/
  due : Nat := 0
deriving DecidableEq, Repr, Inhabited

/-- R249: the digest sweep that runs. -/
structure Sweep where
  /-- R254: slot register index. -/
  slot : Nat := 0
  /-- R249: generation. -/
  gen : Nat := 0
  /-- R249: shards rebuilt and digested so far, over the copies of the dies in turn. -/
  next : Nat := 0
deriving DecidableEq, Repr, Inhabited

/-- R255: one model slot. -/
structure Slot where
  /-- R255: MDL_SLOT_n.owner. -/
  owner : Nat := 0
  /-- R248: unloading. -/
  unloading : Bool := false
  /-- R255: generations held. -/
  gens : List GenState := []
  /-- R239: load running into the slot. -/
  load : Option Load := none
  /-- R243: generation count. -/
  count : Nat := 0
  /-- R246: switches that wait for their tick, oldest first. -/
  switches : List Switch := []
  /-- R248: queue key of the waiting MODEL_CTL unload. -/
  unloadQ : Option Nat := none
  /-- R248: the staged generation is freed at the next tick. -/
  freeStaged : Bool := false
deriving DecidableEq, Repr, Inhabited

/-- R244: a weight cache entry. -/
structure CacheEntry where
  /-- R244: shard digest. -/
  digest : B384 := 0
  /-- R244: SHA-384 of the signing public key. -/
  signer : B384 := 0
  /-- R244: shard bytes. -/
  bytes : List B8 := []
  /-- R210: drive that holds it. -/
  drive : Nat := 0
deriving DecidableEq, Repr, Inhabited

/-- R253-R256: model registers and weight cache (08_model_residency.md). -/
structure Mdl where
  /-- R226: model slots, partition x 8 + slot. -/
  slots : Tbl Slot := []
  /-- R253: MDL_CFG.sweep_s. -/
  sweepS : Nat := 3600
  /-- R253: MDL_CFG.cache_max_pct. -/
  cacheMaxPct : Nat := 50
  /-- R254: MDL_SWEEP_STATUS.sweep_fail. -/
  sweepFail : Bool := false
  /-- R254: MDL_SWEEP_STATUS.fail_cnt. -/
  sweepFailCnt : W16 := 0
  /-- R254: MDL_SWEEP_STATUS.active and slot: the sweep that runs. -/
  sweep : Option Sweep := none
  /-- R244: weight cache entries in the NVMe tier, least recently used first. -/
  cache : List CacheEntry := []
  /-- R244: digests of verified shards still to be written to the cache, with the signing key's slot. -/
  fill : List (B384 × Nat) := []
deriving DecidableEq, Repr, Inhabited

/-- R265: metadata of one page object and its place. -/
structure Page where
  /-- R264: partition of the pool. -/
  partition : Nat := 0
  /-- R264: first granule. -/
  granule : Nat := 0
  /-- R261,R264: granules of the object. -/
  count : Nat := 1
  /-- R265: owner, 0x7F = counted against no tenant. -/
  owner : Nat := 127
  /-- R265: model slot. -/
  slot : Nat := 0
  /-- R265: scale_set. -/
  scaleSet : Bool := false
  /-- R265: key_scale. -/
  keyScale : F32 := 0
  /-- R265: value_scale. -/
  valueScale : F32 := 0
  /-- R299,R437: its owner is in reset: freed or not, its bytes wait for the scrub. -/
  scrub : Bool := false
  /-- R432: key index of the frames that hold it. -/
  keyIndex : Nat := 0
  /-- R298: a second place of a page that compaction moves: counts against no tenant. -/
  spare : Bool := false
deriving DecidableEq, Repr, Inhabited

/-- R268: a page list. -/
structure PageList where
  /-- R268: partition. -/
  partition : Nat := 0
  /-- R264,R268: first of its two granules. -/
  granule : Nat := 0
  /-- R265: refs. -/
  refs : Nat := 0
  /-- R265: sel. -/
  sel : Bool := false
  /-- R268: active copy: page identifier by layer x H + head. -/
  pages : Tbl (Option Nat) := []
  /-- R268,R298: the inactive copy of the page table. -/
  other : Tbl (Option Nat) := []
  /-- R298: compaction has written the inactive copy: it becomes active at the next tick. -/
  built : Bool := false
  /-- R298: when the copies last changed places. -/
  flipAt : W64 := 0
  /-- R287: sequence owner that allocated it. -/
  owner : Nat := 0
deriving DecidableEq, Repr, Inhabited

/-- R293: a prefix tree node. -/
structure Node where
  /-- R293: h_i. -/
  hash : W64 := 0
  /-- R293: parent hash. -/
  parent : W64 := 0
  /-- R293: page list. -/
  list : Nat := 0
  /-- R293: generation. -/
  gen : Nat := 0
  /-- R293: tick of last use. -/
  lastUse : W32 := 0
  /-- R264,R293: where the node lies: 128 x its granule number + its place there. -/
  place : Nat := 0
  /-- R293: model slot. -/
  slot : Nat := 0
  /-- R293: 0-63 tenant, 64-79 group. -/
  tree : Nat := 0
  /-- R293: inserting tenant. -/
  inserter : Nat := 0
  /-- R293: partition. -/
  partition : Nat := 0
  /-- R297: in the active on-chip index. -/
  indexed : Bool := false
  /-- R297: in the shadow copy of the on-chip index. -/
  shadow : Bool := false
deriving DecidableEq, Repr, Inhabited

/-- R301-R305: KV cache (09_attention_and_kv_cache.md). -/
structure Kv where
  /-- R301: KV_CFG.rebuild_ticks. -/
  rebuildTicks : Nat := 16
  /-- R301: KV_CFG.compact_eighths. -/
  compactEighths : Nat := 1
  /-- R302: KV_STATUS.insert_drop. -/
  insertDrop : Bool := false
  /-- R302: KV_STATUS.drop_cnt. -/
  dropCnt : W16 := 0
  /-- R265: pages by identifier. -/
  pages : Tbl (Option Page) := []
  /-- R268: page lists by identifier. -/
  lists : Tbl (Option PageList) := []
  /-- R293: prefix tree nodes. -/
  nodes : List Node := []
  /-- R291: SipHash keys of the sharing groups; drawn (free value). -/
  groupKeys : Tbl W128 := []
  /-- R264: next identifier of a page or list. -/
  nextId : Nat := 0
  /-- R264: granules of tree nodes: partition and granule number. -/
  nodeGranules : List (Nat × Nat) := []
  /-- R298: old pages of flipped lists: partition, pages, and when the lists flipped. -/
  retired : List (Nat × List Nat × W64) := []
deriving DecidableEq, Repr, Inhabited

/-- R328: a pause or preemption image. -/
structure Image where
  /-- R328: lies in the NVMe tier. -/
  nvme : Bool := false
  /-- R210: drive that holds it. -/
  drive : Nat := 0
  /-- R328: pool page objects that hold it. -/
  objs : List Nat := []
  /-- R328: pages or NVMe places it counts as. -/
  places : Nat := 0
  /-- R328: private pages: (block, model 0 main / 1 draft, entry), their metadata and their bytes. -/
  pages : List (Nat × Nat × Nat × Page × List B8) := []
  /-- R333: pause order. -/
  order : Nat := 0
  /-- R330: an image granule fails its tag. -/
  badTag : Bool := false
  /-- R328: still being written. -/
  writing : Bool := false
deriving DecidableEq, Repr, Inhabited

/-- R312, R313: a sequence record (10_token_serving.md). -/
structure Seq where
  /-- R312: sequence ID. -/
  id : Nat := 0
  /-- R312: owner. -/
  tenant : Nat := 0
  /-- R312: partition. -/
  partition : Nat := 0
  /-- R313: state code. -/
  state : Nat := 0
  /-- R309: request descriptor. -/
  req : W1024 := 0
  /-- R314: engine of the REQUEST. -/
  engine : Nat := 3
  /-- R314: queue of the REQUEST. -/
  queue : Nat := 0
  /-- R314: sub_tag of the REQUEST. -/
  subTag : W16 := 0
  /-- R245: pinned generation. -/
  gen : Nat := 0
  /-- R245: pinned generation of the draft. -/
  draftGen : Nat := 0
  /-- R284: committed tail T. -/
  tail : Nat := 0
  /-- R312: tail of the draft model. -/
  draftTail : Nat := 0
  /-- R318: prompt positions already committed. -/
  prefilled : Nat := 0
  /-- R312: output count. -/
  outCount : Nat := 0
  /-- R267: page list of block b of the main model. -/
  blocks : Tbl (Option Nat) := []
  /-- R312: page list of block b of the draft model. -/
  draftBlocks : Tbl (Option Nat) := []
  /-- R267: hash of each full block. -/
  hashes : Tbl (Option W64) := []
  /-- R267,R292: hash of each full block of the draft model. -/
  draftHashes : Tbl (Option W64) := []
  /-- R267: granule numbers of the block tables. -/
  root : Tbl (Option Nat) := []
  /-- R267,R312: granule numbers of the draft model's block tables. -/
  draftRoot : Tbl (Option Nat) := []
  /-- R323: count table. -/
  counts : List (Nat × Nat) := []
  /-- R323: the count table has filled. -/
  countSat : Bool := false
  /-- R324: committed tokens by position (prompt and output). -/
  tokens : Tbl Nat := []
  /-- R324: current draft length. -/
  k : Nat := 0
  /-- R324: draft tokens of the round. -/
  drafts : List Nat := []
  /-- R326: consecutive full rejections. -/
  rejects : Nat := 0
  /-- R326: consecutive full acceptances. -/
  accepts : Nat := 0
  /-- R326: 0 = not suspended, else 1 + tokens committed while suspended. -/
  suspended : Nat := 0
  /-- R333: admission order. -/
  admitted : W64 := 0
  /-- R317: time of its last batch. -/
  lastBatch : W64 := 0
  /-- R327: time to live, seconds. -/
  pauseTtl : Nat := 0
  /-- R329: tick at which the pause's time to live started. -/
  pauseTick : Nat := 0
  /-- R327: a pause waits for the batch end. -/
  pausePend : Bool := false
  /-- R331: a cancel waits for the batch end. -/
  cancelPend : Bool := false
  /-- R327: queue keys of the SEQ_CTLs that wait until it is PAUSED. -/
  pausers : List Nat := []
  /-- R330: queue keys of the SEQ_CTLs that wait until it is QUEUED again. -/
  resumers : List Nat := []
  /-- R328: pause or preemption image. -/
  image : Option Image := none
  /-- R334: time it entered WAIT_PAGE. -/
  waitSince : W64 := 0
  /-- R336: TUNE that holds it (queue key). -/
  heldBy : Option Nat := none
  /-- R286: queue keys of the kv SCATTERs that run on it. -/
  scatterHold : List Nat := []
  /-- R315: status once ENDED. -/
  endStatus : B8 := 0
  /-- R315: detail once ENDED. -/
  endDetail : W32 := 0
  /-- R315: end reason once ENDED. -/
  endReason : Nat := 0
deriving DecidableEq, Repr, Inhabited

/-- R339, R340: token engine registers. -/
structure Tok where
  /-- R339: TOK_CFG.page_wait_s. -/
  pageWaitS : Nat := 60
  /-- R339: TOK_CFG.prefill_per_decode. -/
  prefillPerDecode : Nat := 1
  /-- R340: TOK_STATUS count_sat, preempt, page_wait. -/
  flags : BitVec 3 := 0
  /-- R340: TOK_STATUS.count_sat_cnt. -/
  countSatCnt : W16 := 0
  /-- R340: TOK_STATUS.preempt_cnt. -/
  preemptCnt : W16 := 0
  /-- R340: TOK_STATUS.page_wait_cnt. -/
  pageWaitCnt : W16 := 0
  /-- R312: sequence records. -/
  seqs : Tbl (Option Seq) := []
  /-- R312: uses of each record. -/
  uses : Tbl Nat := []
deriving DecidableEq, Repr, Inhabited

/-- R365: one received line in the line pool. -/
structure Line where
  /-- R365: context. -/
  ctx : Nat := 0
  /-- R365: frame count. -/
  frame : Nat := 0
  /-- R365: line number in the frame. -/
  num : Nat := 0
  /-- R365: payload rounded up to 64 bytes. -/
  bytes : Nat := 0
  /-- R353: raw samples. -/
  samples : List W16 := []
  /-- R365: arrival. -/
  time : W64 := 0
deriving DecidableEq, Repr, Inhabited

/-- R361: the binding of one camera output or of one array. -/
structure OutBind where
  /-- R362: ring address. -/
  ring : Nat := 0
  /-- R362: ring entries N. -/
  entries : Nat := 0
  /-- R360: output format code. -/
  format : Nat := 0
  /-- R364: next slot. -/
  next : Nat := 0
  /-- R363: frames or chunks dropped since the previous entry. -/
  dropped : W32 := 0
  /-- R361,R394: waits for the next FS or chunk boundary. -/
  pending : Bool := true
  /-- R361: queue key of the UNBIND that waits. -/
  unbind : Option Nat := none
  /-- R361: the UNBIND has taken effect; earlier frames still deliver. -/
  leaving : Bool := false
  /-- R361: queue key of the BIND that waits. -/
  bindQ : Nat := 0
deriving DecidableEq, Repr, Inhabited

/-- R353: one pixel inside the pipeline. -/
structure Px where
  /-- R353: red. -/
  r : Nat := 0
  /-- R353: green. -/
  g : Nat := 0
  /-- R353: blue. -/
  b : Nat := 0
  /-- R353,R355: IR, C or the single channel. -/
  x : Nat := 0
deriving DecidableEq, Repr, Inhabited

/-- R346, R365: a frame that has started and is neither delivered nor dropped. -/
structure Frame where
  /-- R363: frame count of the track at its FS. -/
  no : Nat := 0
  /-- R369: number of the reference context's frame whose FS was the last at or before its own. -/
  ref : Option Nat := none
  /-- R359: the parameter set it is bound to. -/
  params : List B8 := []
  /-- R359: number of that set. -/
  setNo : Nat := 0
  /-- R363: time of FS. -/
  tStart : W64 := 0
  /-- R372: time of FE. -/
  tEnd : W64 := 0
  /-- R363: time of the last data write of each output. -/
  tDone : Tbl W64 := []
  /-- R346: FE has arrived. -/
  fe : Bool := false
  /-- R346: lines received. -/
  lines : Nat := 0
  /-- R365: lines whose batches have run. -/
  done : Nat := 0
  /-- R364: slot that each output took. -/
  slots : Tbl (Option Nat) := []
  /-- R360: a conversion of the output saturated. -/
  sats : Tbl Bool := []
  /-- R358: finished lines, from which the scalers' partial rows are formed. -/
  rows : List (List Px) := []
  /-- R373: histogram in the making. -/
  hist : Tbl W32 := []
  /-- R373: white-balance grid sums and counts in the making. -/
  wbSum : Tbl Nat := []
  /-- R373: sharpness in the making. -/
  sharp : Tbl Nat := []
  /-- R373: IR level in the making. -/
  irSum : Tbl Nat := []
  /-- R372: clipped in the making. -/
  clipped : W32 := 0
deriving DecidableEq, Repr, Inhabited

/-- R347, R379: one camera context (11_camera_pipeline.md) with its camera track (03_position_timebase.md). -/
structure CamCtx where
  /-- R68,R72: frame starts seen: the track's frame count plus 1. -/
  fsCount : Nat := 0
  /-- R72,R484: frame starts since boot or Dawn, at most 2: TB_TRK_STATUS.valid reads 1 at the second. -/
  fsValid : Nat := 0
  /-- R72: long packet headers since the frame start. -/
  hdrs : Nat := 0
  /-- R72: time of the frame's first line. -/
  firstLine : W64 := 0
  /-- R72: time of the last received line, from which lines are extrapolated. -/
  lastLine : W64 := 0
  /-- R72: TB_TRK_STATUS.line_period. -/
  linePeriod : W16 := 0
  /-- R72: TB_TRK_STATUS.extrapolating. -/
  extrapolating : Bool := false
  /-- R72: TB_TRK_STATUS.stalled. -/
  stalled : Bool := false
  /-- R73: line that the extrapolation of the previous frame reached. -/
  reach : Nat := 0
  /-- R379: CAM_CTX_STATUS_n.active. -/
  active : Bool := false
  /-- R379: CAM_CTX_STATUS_n.drop. -/
  drop : Bool := false
  /-- R379: CAM_CTX_STATUS_n.uncertain. -/
  uncertain : Bool := false
  /-- R379: CAM_CTX_STATUS_n.drop_cnt. -/
  dropCnt : W16 := 0
  /-- R379: CAM_CTX_STATUS_n.unc_cnt. -/
  uncCnt : W16 := 0
  /-- R379: CAM_CTX_STATUS_n.last_reason. -/
  lastReason : Nat := 0
  /-- R380: CAM_CTX_FRAMES_n.frames. -/
  frames : W32 := 0
  /-- R380: CAM_CTX_FRAMES_n.gen. -/
  gen : W32 := 0
  /-- R357: active parameter block ([] = the default block). -/
  params : List B8 := []
  /-- R359: staged parameter block. -/
  staged : Option (List B8) := none
  /-- R361: output bindings. -/
  outs : Tbl (Option OutBind) := []
  /-- R366: the victim's further lines are discarded until the next FS. -/
  discard : Bool := false
  /-- R359: number of the active set. -/
  setNo : Nat := 0
  /-- R359: parameter commits that wait for a set to be released: queue key and block. -/
  commits : List (Nat × List B8) := []
  /-- R346,R365: frames that have started, oldest first. -/
  inFlight : List Frame := []
  /-- R374: latchable statistics record. -/
  stats : Option (List B8) := none
deriving DecidableEq, Repr, Inhabited

/-- R369: settings generations of one sensor. -/
structure Sensor where
  /-- R369: (effect frame, generation, completion order). -/
  effects : List (W64 × W32 × Nat) := []
  /-- R369: lists completed while the track was invalid: generation and number of the first uncertain frame. -/
  invalidGen : List (W32 × Nat) := []
  /-- R370: ranges of uncertain frames. -/
  uncFrom : List (W64 × W64) := []
  /-- R371: a stopped stamped list's effect frame; uncertain from there. -/
  stopped : Option W64 := none
  /-- R369: completions so far. -/
  order : Nat := 0
deriving DecidableEq, Repr, Inhabited

/-- R368: one list slot of an I3C controller. -/
structure I3cSlot where
  /-- R368: trigger that holds it. -/
  trigger : Nat := 0
  /-- R368: fetched list. -/
  list : List B8 := []
  /-- R368: remembered failure: status and detail. -/
  fail : Option (B8 × W32) := none
deriving DecidableEq, Repr, Inhabited

/-- R378, R534: one I3C controller. -/
structure I3c where
  /-- R378: CAM_I3C_STATUS_n.nack. -/
  nack : Bool := false
  /-- R378: CAM_I3C_STATUS_n.nack_cnt. -/
  nackCnt : W16 := 0
  /-- R368: list slots held. -/
  slots : List I3cSlot := []
  /-- R368: fired lists waiting, with the owner, in firing order. -/
  queue : List (Nat × List B8) := []
  /-- R367: the list on the bus. -/
  running : Option (Nat × List B8) := none
  /-- R534: in-band interrupt and hot-join attempts NACKed. -/
  ibiNacks : Nat := 0
deriving DecidableEq, Repr, Inhabited

/-- R376, R377: camera block. -/
structure Cam where
  /-- R376: CAM_STATUS.overflow. -/
  overflow : Bool := false
  /-- R376: CAM_STATUS.overflow_cnt. -/
  overflowCnt : W16 := 0
  /-- R376: highest pool use in bytes (CAM_STATUS.peak_kib). -/
  peak : Nat := 0
  /-- R365: line pool. -/
  pool : List Line := []
  /-- R377: CAM_PORT_STATUS_n.locked. -/
  locked : Tbl Bool := []
  /-- R377: CAM_PORT_STATUS_n.crc, ecc. -/
  portFlags : Tbl (BitVec 2) := []
  /-- R377: CAM_PORT_STATUS_n.crc_cnt. -/
  crcCnt : Tbl W16 := []
  /-- R377: CAM_PORT_STATUS_n.ecc_cnt. -/
  eccCnt : Tbl W16 := []
  /-- R377: CAM_PORT_STATUS_n.unmatched_cnt. -/
  unmatched : Tbl W16 := []
  /-- R347: contexts. -/
  ctx : Tbl CamCtx := []
  /-- R350: sensors. -/
  sensors : Tbl Sensor := []
  /-- R378: I3C controllers. -/
  i3c : Tbl I3c := []
deriving DecidableEq, Repr, Inhabited

/-- R389-R395, R408: one microphone array (12_audio_and_control_outputs.md). -/
structure ArrayState where
  /-- R408: AUD_ARRAY_STATUS_n.running. -/
  running : Bool := false
  /-- R408: AUD_ARRAY_STATUS_n.drop. -/
  drop : Bool := false
  /-- R408: AUD_ARRAY_STATUS_n.drop_cnt. -/
  dropCnt : W16 := 0
  /-- R408: AUD_ARRAY_STATUS_n.frames. -/
  frames : W32 := 0
  /-- R390: beam azimuths. -/
  az : Tbl Nat := []
  /-- R390: beam elevations. -/
  el : Tbl Int := []
  /-- R390: frames since the beam last matched a peak. -/
  unmatched : Tbl Nat := []
  /-- R392: frames left of the speech hold. -/
  vadHold : Tbl Nat := []
  /-- R392: band levels of the last 150 frames. -/
  levels : Tbl (List Int) := []
  /-- R386: next frame number f. -/
  nextFrame : Nat := 0
  /-- R394: beam output binding. -/
  ring : Option OutBind := none
  /-- R394: samples of the chunk in the making, beam-major per frame. -/
  chunk : List F32 := []
  /-- R394: slot that the chunk in the making took. -/
  chunkSlot : Option Nat := none
  /-- R394: frames in the chunk in the making. -/
  chunkFrames : Nat := 0
  /-- R394: domain index of its first sample. -/
  chunkStart : W64 := 0
  /-- R394: time of its first frame. -/
  chunkTime : W64 := 0
  /-- R394: gap, ref_missing. -/
  chunkFlags : Nat := 0
  /-- R394: vad bits. -/
  chunkVad : W64 := 0
  /-- R395: latchable measurement record. -/
  record : Option (List B8) := none
deriving DecidableEq, Repr, Inhabited

/-- R406, R407: audio block. -/
structure Aud where
  /-- R406: AUD_STATUS.gap. -/
  gap : Bool := false
  /-- R406: AUD_STATUS.gap_cnt. -/
  gapCnt : W16 := 0
  /-- R386,R406: the PTP track has been valid (ptp_wait is its negation). -/
  ptpEver : Bool := false
  /-- R384: received samples by channel reference and domain index. -/
  samples : Tbl (Tbl F32) := []
  /-- R407: time of the stream's last packet plus 1 (receiving). -/
  lastPkt : Tbl W64 := []
  /-- R407: AUD_STREAM_STATUS_n.late. -/
  late : Tbl Bool := []
  /-- R407: AUD_STREAM_STATUS_n.late_cnt. -/
  lateCnt : Tbl W16 := []
  /-- R407: AUD_STREAM_STATUS_n.lost_pkts. -/
  lost : Tbl W32 := []
  /-- R407: last RTP sequence number. -/
  rtpSeq : Tbl (Option W16) := []
  /-- R74: frame syncs of the port: its track position plus 1. -/
  tdmSyncs : Tbl Nat := []
  /-- R74,R484: the TDM track is valid. -/
  tdmValid : Tbl Bool := []
  /-- R407: AUD_TDM_STATUS_n.locked. -/
  tdmLocked : Tbl Bool := []
  /-- R407: AUD_TDM_STATUS_n.fs_err. -/
  fsErr : Tbl Bool := []
  /-- R407: AUD_TDM_STATUS_n.fs_err_cnt. -/
  fsErrCnt : Tbl W16 := []
  /-- R408: arrays. -/
  arrays : Tbl ArrayState := []
deriving DecidableEq, Repr, Inhabited

/-- R399: a program slot of a pulse channel or UART. -/
structure HeldProg where
  /-- R399: trigger that holds it. -/
  trigger : Nat := 0
  /-- R399: partition address. -/
  addr : Nat := 0
  /-- R399: arming party. -/
  party : Nat := 0
  /-- R399: fetched program. -/
  bytes : List B8 := []
  /-- R399: status and detail of the failed arming check. -/
  fail : Option (B8 × W32) := none
deriving DecidableEq, Repr, Inhabited

/-- R397-R409: one pulse channel. -/
structure Pulse where
  /-- R409: PLS_CH_STATUS_n.limit. -/
  limit : Bool := false
  /-- R409: PLS_CH_STATUS_n.limit_cnt. -/
  limitCnt : W16 := 0
  /-- R409: PLS_CH_STATUS_n.runs. -/
  runs : W32 := 0
  /-- R399: program slots. -/
  held : List HeldProg := []
  /-- R400: running program (PLS_CH_STATUS_n.running). -/
  running : Option HeldProg := none
  /-- R75: position of the pulse track when the running program started, or at rest. -/
  pos : W64 := 0
  /-- R400: firing time of the running program. -/
  start : W64 := 0
  /-- R399,R401: steps of the deceleration that precedes an abort program's own segments. -/
  brake : Int := 0
  /-- R399: velocity from which it decelerates, in 10^-9 steps per second. -/
  brakeV : Nat := 0
  /-- R399: its deceleration, steps per second squared. -/
  brakeD : Nat := 0
  /-- R476,R559: level of PLS_n_STEP. -/
  stepPin : Bool := false
  /-- R400,R559: level of PLS_n_DIR. -/
  dirPin : Bool := false
deriving DecidableEq, Repr, Inhabited

/-- R402-R409: one UART. -/
structure Uart where
  /-- R409: PLS_UART_STATUS_n.rx_drop. -/
  rxDrop : Bool := false
  /-- R409: PLS_UART_STATUS_n.rx_err. -/
  rxErr : Bool := false
  /-- R409: PLS_UART_STATUS_n.rx_drop_cnt. -/
  rxDropCnt : W16 := 0
  /-- R409: PLS_UART_STATUS_n.rx_err_cnt. -/
  rxErrCnt : W16 := 0
  /-- R403: program slots. -/
  held : List HeldProg := []
  /-- R403: fired programs waiting. -/
  queue : List HeldProg := []
  /-- R403: running program (busy). -/
  running : Option HeldProg := none
  /-- R402: bytes put on UART_u_TX by the running program. -/
  sent : List B8 := []
  /-- R403: bytes captured by the running program. -/
  captured : List B8 := []
  /-- R403: a captured byte had a framing or parity error. -/
  capErr : Bool := false
  /-- R403: data-plane time at which the running program began to send. -/
  start : W64 := 0
  /-- R402,R476,R559: UART_u_DE is driven high while the running program sends. -/
  dePin : Bool := false
deriving DecidableEq, Repr, Inhabited

/-- R410: control outputs. -/
structure Pls where
  /-- R397: pulse channels. -/
  ch : Tbl Pulse := []
  /-- R402: UARTs. -/
  uarts : Tbl Uart := []
  /-- R410: PLS_GPIO_IN. -/
  gpioIn : BitVec 48 := 0
  /-- R410: PLS_GPIO_OUT. -/
  gpioOut : BitVec 48 := 0
  /-- R410: PLS_GPIO_DIR. -/
  gpioDir : BitVec 48 := 0
deriving DecidableEq, Repr, Inhabited

/-- R421, R422: a mailbox request being served. -/
structure AttReq where
  /-- R421: tenant, or 0x40. -/
  party : Nat := 0
  /-- R421: TW_ATT_REQ.op. -/
  op : Nat := 0
  /-- R421: TW_ATT_REQ.units. -/
  units : Nat := 0
  /-- R422: TW_ATT_ADDR as it was at the write. -/
  addr : Nat := 0
deriving DecidableEq, Repr, Inhabited

/-- R444-R446: security block (13_security_and_tenancy.md). -/
structure Sec where
  /-- R444: SEC_STATUS.debug_open. -/
  debugOpen : Bool := false
  /-- R444: SEC_STATUS.debug_pending, with the accepted token. -/
  debugPending : Option (List B8) := none
  /-- R444: SEC_STATUS.chain_bad. -/
  chainBad : Bool := false
  /-- R444: SEC_STATUS.rng_fail. -/
  rngFail : Bool := false
  /-- R444: SEC_STATUS.tree_fail. -/
  treeFail : Bool := false
  /-- R444: SEC_STATUS.tree_fail_cnt. -/
  treeFailCnt : W16 := 0
  /-- R444: SEC_STATUS.reports. -/
  reports : W16 := 0
  /-- R446: SEC_DBG_NONCE_n; drawn (free value); DESIGN CHOICE 0 before the first draw. -/
  nonce : W256 := 0
  /-- R446: SEC_DBG_ADDR. -/
  dbgAddr : W64 := 0
  /-- R446: SEC_MR_EXT_ADDR. -/
  mrExtAddr : W64 := 0
  /-- R417: MR0-MR15. -/
  mr : Tbl B384 := []
  /-- R446: extensions waiting for the next tick. -/
  mrPend : List (Nat × B384) := []
  /-- R415: attestation key pair (a draw); DESIGN CHOICE 0 before the first draw. -/
  attKey : B384 := 0
  /-- R421,R422: requests being served, in arrival order: TW_ATT_STATUS.busy of a party reads 1 while it has one. -/
  mailbox : List AttReq := []
  /-- R436: failed version-tree nodes: first LP5X address and length under the node, and the node's own device physical address. -/
  badNodes : List (Nat × Nat × Nat) := []
deriving DecidableEq, Repr, Inhabited

/-- R448-R460: one control core (14_firmware.md). -/
structure Core where
  /-- R470: FW_STATUS.restarting bit. -/
  restarting : Bool := false
  /-- R467: cause of the running restart. -/
  cause : Nat := 0
  /-- R460: restart start time. -/
  since : W64 := 0
deriving DecidableEq, Repr, Inhabited

/-- R473: one trace point. -/
structure TracePt where
  /-- R473: FW_TRACE_CTL_n.enable. -/
  enable : Bool := false
  /-- R473: FW_TRACE_CTL_n.log. -/
  log : Bool := false
  /-- R473: FW_TRACE_CTL_n.hits. -/
  hits : W32 := 0
  /-- R473: FW_TRACE_LAST_n. -/
  last : W64 := 0
  /-- R469: a 0x92 record was written in this tick. -/
  logged : Bool := false
deriving DecidableEq, Repr, Inhabited

/-- R470-R473: firmware block. -/
structure Fw where
  /-- R470: FW_STATUS.generation. -/
  generation : W32 := 0
  /-- R470: FW_STATUS.bank. -/
  bank : Nat := 0
  /-- R470: FW_STATUS.slot. -/
  slot : Nat := 0
  /-- R457: the running image. -/
  image : List B8 := []
  /-- R456: security_version of the running image. -/
  secVersion : Nat := 0
  /-- R456: handoff_version of the running image. -/
  handoffVersion : Nat := 0
  /-- R470: FW_STATUS.upd_state. -/
  updState : Nat := 0
  /-- R471: FW_UPD_ADDR. -/
  updAddr : W64 := 0
  /-- R471: defer_ticks of the running update. -/
  deferTicks : Nat := 0
  /-- R463: tick at which the update became ready. -/
  readyTick : Nat := 0
  /-- R462: the image being staged or handed off. -/
  newImage : List B8 := []
  /-- R472: FW_UPD_STATUS.status. -/
  status : B8 := 0
  /-- R472: FW_UPD_STATUS.detail. -/
  detail : B8 := 0
  /-- R472: FW_UPD_STATUS.hold_us. -/
  holdUs : Nat := 0
  /-- R472: FW_UPD_STATUS.staged_gen. -/
  stagedGen : W32 := 0
  /-- R463: time at which the handoff set update_hold. -/
  holdSince : W64 := 0
  /-- R463: MG_PROGRESS_2 reads done at the next tick. -/
  doneTick : Bool := false
  /-- R448: control cores. -/
  cores : Tbl Core := []
  /-- R473: trace points. -/
  trace : Tbl TracePt := []
  /-- R63: adjustable items applied at this tick. -/
  applied : Nat := 0
deriving DecidableEq, Repr, Inhabited

/-- R475-R508: power, always-on domain (15_power_thermal_ageing.md). -/
structure Pwr where
  /-- R479: PWR_STATE.state. -/
  state : Nat := 0
  /-- R479: PWR_STATE.entering. -/
  entering : Bool := false
  /-- R479: PWR_STATE.dawn. -/
  dawn : Bool := false
  /-- R479: PWR_STATE.req_status. -/
  reqStatus : B8 := 0
  /-- R479: PWR_STATE.sleeps. -/
  sleeps : W32 := 0
  /-- R475: PWR_DOMAINS. -/
  domains : BitVec 24 := 0
  /-- R480: requests that their tick checks: target and drain_ms. -/
  req : List (Nat × Nat) := []
  /-- R481: target of the running entry. -/
  entryTarget : Nat := 0
  /-- R481: T of the running entry. -/
  entryAt : W64 := 0
  /-- R481: drain limit of the running entry. -/
  drainMs : Nat := 50
  /-- R502: PWR_CAP.cap_w; cap_boot_w from event 13. -/
  capW : Nat := 0
  /-- R31,R502: tick at which the accepted cap request is due. -/
  capDue : Nat := 0
  /-- R502: accepted cap request waiting for its tick. -/
  capNext : Option Nat := none
  /-- R502: PWR_CAP.raise_w. -/
  raiseW : Nat := 8
  /-- R503: PWR_POWER.power_mw. -/
  powerMw : Nat := 0
  /-- R503: PWR_POWER.max_mw. -/
  maxMw : Nat := 0
  /-- R503: PWR_STATUS cap_floor, unattainable, hw_guard. -/
  flags : BitVec 3 := 0
  /-- R503: PWR_STATUS.floor_cnt. -/
  floorCnt : W16 := 0
  /-- R503: PWR_STATUS.unatt_cnt. -/
  unattCnt : W16 := 0
  /-- R503: PWR_STATUS.guard_cnt. -/
  guardCnt : W16 := 0
  /-- R500: package duty. -/
  duty : Nat := 8
  /-- R500: floor_start. -/
  floorStart : Option Nat := none
  /-- R505: PWR_THERM.throttle. -/
  throttle : Bool := false
  /-- R505: PWR_THERM.over_temp. -/
  overTemp : Bool := false
  /-- R505: PWR_THERM.throttle_cnt. -/
  throttleCnt : W16 := 0
  /-- R505: PWR_THERM.over_cnt. -/
  overCnt : W16 := 0
  /-- R505: PWR_TEMP_n.temp. -/
  temp : Tbl Int := []
  /-- R505: PWR_TEMP_n.max. -/
  tempMax : Tbl Int := []
  /-- R493: AON cycles counted before the last RESET_L; PWR_RTC adds those of data-plane time. -/
  rtc : W64 := 0
  /-- R493: PWR_ALARM.alarm. -/
  alarm : BitVec 48 := 0
  /-- R493: PWR_ALARM.enable. -/
  alarmEn : Bool := false
  /-- R491: an alarm matured during an entry. -/
  alarmLatched : Bool := false
  /-- R491: an alarm was lost in the last 4 AON cycles; shown at the next Dawn. -/
  alarmLostPend : Bool := false
  /-- R536: SMBus command 0x10 holds WAKE_L low until Dawn begins. -/
  wakePin : Bool := false
  /-- R491: WAKE_L was low at a moment of the running entry. -/
  wakeSeen : Bool := false
  /-- R507: tick of the last periodic ageing read. -/
  ageTick : Nat := 0
  /-- R493: PWR_WAKE.cause. -/
  wakeCause : Nat := 0
  /-- R493: PWR_WAKE.alarm_lost. -/
  alarmLost : Bool := false
  /-- R493: PWR_WAKE.dawn_us. -/
  dawnUs : Nat := 0
  /-- R493: PWR_WAKE.slept_s. -/
  sleptS : Nat := 0
  /-- R493: time of the end of entry. -/
  sleepAt : W64 := 0
  /-- R490: PWR_DUSK_CFG. -/
  duskCfg : W64 := 0x00000064000000C8
  /-- R490: PWR_DUSK_THR. -/
  duskThr : W64 := 0x000000D800080800
  /-- R490: PWR_DUSK_LIST_n. -/
  duskList : Tbl W64 := []
  /-- R490: PWR_DUSK_STATUS.watches. -/
  watches : W32 := 0
  /-- R490: PWR_DUSK_STATUS.changed. -/
  changed : Nat := 0
  /-- R490: PWR_DUSK_STATUS.level. -/
  level : B8 := 0
  /-- R490: PWR_DUSK_STATUS.faults. -/
  faults : B8 := 0
  /-- R487: reference block means. -/
  duskRef : Option (List Nat) := none
  /-- R536: SMB_ALERT_L asserted. -/
  alert : Bool := false
  /-- R536: bytes of the last SMBus reply. -/
  smbOut : List B8 := []
  /-- R536,R559: SMB_ADDR as sampled at power-on reset; DESIGN CHOICE low. -/
  smbAddr : Bool := false
  /-- R483: link resets whose other effects wait for Dawn. -/
  linkResetPend : List Nat := []
  /-- R486: start of the last watch, or the end of entry before the first. -/
  watchAt : W64 := 0
deriving DecidableEq, Repr, Inhabited

/-- R512: an event select and its count. -/
structure CtrSel where
  /-- R512: event. -/
  event : Nat := 0
  /-- R512: filter. -/
  filter : Nat := 127
  /-- R512: owner. -/
  owner : Nat := 127
  /-- R512: count. -/
  count : BitVec 48 := 0
deriving DecidableEq, Repr, Inhabited

/-- R510-R518: performance counters (16_performance_counters.md). -/
structure Pmc where
  /-- R513: PMC_CFG.period_n. -/
  period : Nat := 0
  /-- R513: PMC_SNAP_SEL. -/
  snapSel : W64 := 0
  /-- R513: period boundary at which the last periodic snapshot was taken. -/
  snapAt : Option W64 := none
  /-- R518: PMC_RING_ registers. -/
  ring : Ring := {}
  /-- R512: PMC_CL_EVT_n and PMC_CL_CNT_n, n = 8c + k. -/
  cl : Tbl CtrSel := []
  /-- R512: PMC_RG_EVT_n and PMC_RG_CNT_n, n = 4r + k. -/
  rg : Tbl CtrSel := []
  /-- R512: PMC_HUB_EVT_n and PMC_HUB_CNT_n, n = 4h + k. -/
  hub : Tbl CtrSel := []
deriving DecidableEq, Repr, Inhabited

/-- R540: one PCIe port (17_external_interfaces.md). -/
structure Port where
  /-- R540: PCIE_PORT_STATUS_n.link_up. -/
  up : Bool := false
  /-- R540: PCIE_PORT_STATUS_n.speed. -/
  speed : Nat := 0
  /-- R540: PCIE_PORT_STATUS_n.width. -/
  width : Nat := 0
  /-- R540: PCIE_PORT_STATUS_n.dma_err. -/
  dmaErr : Bool := false
  /-- R540: PCIE_PORT_STATUS_n.dma_err_cnt. -/
  dmaErrCnt : W16 := 0
  /-- R540: PCIE_PORT_STATUS_n.aer_ce_cnt. -/
  aerCnt : W16 := 0
  /-- R522: NumVFs enabled by the host. -/
  numVfs : Nat := 0
deriving DecidableEq, Repr, Inhabited

/-- R540: one Ethernet port. -/
structure EthPort where
  /-- R540: ETH_PORT_STATUS_p.link_up. -/
  up : Bool := false
  /-- R540: ETH_PORT_STATUS_p.rate. -/
  rate : Nat := 0
  /-- R540: ETH_PORT_STATUS_p.rx_drop. -/
  rxDrop : Bool := false
  /-- R540: ETH_PORT_STATUS_p.rx_drop_cnt. -/
  rxDropCnt : W16 := 0
  /-- R540: ETH_PORT_STATUS_p.fec_uncorr_cnt. -/
  fecUncorr : W16 := 0
  /-- R540: ETH_FEC_CE_p. -/
  fecCe : W64 := 0
  /-- R527: addresses resolved by ARP. -/
  arp : Tbl W64 := []
  /-- R527: packets whose next hop ARP has not resolved: the hop, and the frame behind its destination address. -/
  waiting : List (Nat × List B8) := []
  /-- R527,R530,R531: frames handed to the transmitter, oldest first (the MODEL's record of the wire side). -/
  tx : List (List B8) := []
deriving DecidableEq, Repr, Inhabited

/-- R531, R540: one RTP stream. -/
structure RtpSt where
  /-- R540: ETH_RTP_STATUS_s.drop. -/
  drop : Bool := false
  /-- R540: ETH_RTP_STATUS_s.drop_cnt. -/
  dropCnt : W16 := 0
  /-- R540: ETH_RTP_STATUS_s.packets. -/
  packets : W32 := 0
  /-- R531: RTP sequence number. -/
  seq : W16 := 0
deriving DecidableEq, Repr, Inhabited

/-- R41, R412: what keeps its value without power. -/
structure NonVol where
  /-- R412: fused values. -/
  fuses : Fuses := {}
  /-- R41: boot flash. -/
  flash : Flash := {}
  /-- R66: BCI slot in use at the last boot: the MODEL's own field, for a slot whose sequence is equal. -/
  bciUsed : Option Nat := none
deriving DecidableEq, Repr, Inhabited

/-- everything a reset of the whole device acts on (R33). -/
structure Dev where
  /-- R29: data-plane time, ns (TB_DPT, TRK_0). -/
  time : W64 := 0
  /-- R58: boot progress. -/
  boot : Boot := {}
  /-- R37: reset epochs. -/
  epochs : Epochs := {}
  /-- R65: staging. -/
  stage : Stage := {}
  /-- R47: boot configuration in use. -/
  cfg : Cfg := {}
  /-- R67: tracks. -/
  tracks : Tbl Track := []
  /-- R82: position triggers. -/
  triggers : Tbl Trigger := []
  /-- R85: first nanosecond at which the next trigger can dispatch. -/
  trgNext : W64 := 0
  /-- R70: PTP servo and best master choice. -/
  ptp : Ptp := {}
  /-- R96: tenant functions and windows. -/
  tenants : Tbl Tenant := []
  /-- R107: management submission path and rings. -/
  mgmt : MgmtPath := {}
  /-- R92,R107: queues, key = party' x 32 + engine x 8 + queue; party' = tenant, or 64 + partition for the management queue. -/
  queues : Tbl Queue := []
  /-- R51: partitions. -/
  parts : Tbl PartState := []
  /-- R24: regions. -/
  regions : Tbl RegionState := []
  /-- R25: compute dies. -/
  dies : Tbl DieState := []
  /-- R186: halo ring stops. -/
  halo : Tbl HaloStop := []
  /-- R23: clusters. -/
  clusters : Tbl Cluster := []
  /-- R167: RG_GUST_CFG.rate. -/
  gustRate : Nat := 16
  /-- R187: memory system. -/
  mem : Mem := {}
  /-- R226: models and the weight cache. -/
  mdl : Mdl := {}
  /-- R264: KV cache. -/
  kv : Kv := {}
  /-- R312: token engine. -/
  tok : Tok := {}
  /-- R347: camera pipeline. -/
  cam : Cam := {}
  /-- R381: audio. -/
  aud : Aud := {}
  /-- R397: control outputs. -/
  pls : Pls := {}
  /-- R412: security block. -/
  sec : Sec := {}
  /-- R448: firmware block. -/
  fw : Fw := {}
  /-- R475: power and the always-on domain. -/
  pwr : Pwr := {}
  /-- R510: performance counters. -/
  pmc : Pmc := {}
  /-- R540: PCIe ports: 0-3 endpoint, 4-5 root. -/
  ports : Tbl Port := []
  /-- R526: Ethernet ports. -/
  eth : Tbl EthPort := []
  /-- R531: RTP streams. -/
  rtp : Tbl RtpSt := []
  /-- R104,R523: bytes the device has written to host memory, by endpoint port (management: by the management port). -/
  hostMem : Tbl Memory := []
  /-- R126: completion entries produced so far. -/
  produced : Nat := 0
  /-- R94: lists submitted so far. -/
  submitted : Nat := 0
  /-- MODEL: the MODEL's own field: number of free values drawn so far; DESIGN CHOICE 0. -/
  draw : Nat := 0
deriving DecidableEq, Repr, Inhabited

/-- the whole machine and its queue of waiting commands. -/
structure State where
  /-- R33: fuses and flash. -/
  nv : NonVol := {}
  /-- R33: the device. -/
  dev : Dev := {}
  /-- R452,R481,R483: the read shadows in Dusk and Night: the device as step 7 of the entry latched it. -/
  latch : Option Dev := none
  /-- MODEL: commands waiting, first in, first out. -/
  pending : List Instr := []
deriving DecidableEq, Repr

/-- The machine right after reset, before the first boot event: every field at the value its declaration names. -/
def State.reset : State := {}

/-- Why the device stops: never. Every command of the table has a next state (R33 to R572 name no event after which the block
stops answering commands), so the type has no value and no command can answer a fault. Safe. -/
inductive Fault where
deriving DecidableEq, Repr

/-- Why a command has no meaning. -/
inductive Refusal where
  /-- A row of the table whose meaning is not written yet, by its mnemonic. Safe. -/
  | notModelled (mnemonic : String)
deriving DecidableEq, Repr

end Sys2Proof.Machine
end

