-- ==== Sys2Proof/Machine/Table.lean ====
section
/-! DEFINITION. Reading and writing tables and byte memories, bit fields, little-endian numbers and saturating counters. -/
namespace Sys2Proof

/-- The entry of number `k`, or the default `e` where none is listed. -/
def Tbl.get {α : Type} (t : Tbl α) (k : Nat) (e : α) : α :=
  match t with
  | [] => e
  | (i, v) :: r => if i = k then v else Tbl.get r k e

/-- The table with entry `k` at `v`. -/
def Tbl.set {α : Type} (t : Tbl α) (k : Nat) (v : α) : Tbl α :=
  match t with
  | [] => [(k, v)]
  | (i, w) :: r => if k < i then (k, v) :: (i, w) :: r else if i = k then (k, v) :: r else (i, w) :: Tbl.set r k v

/-- The byte at address `a`; a byte not listed is 0. -/
def Memory.get (m : Memory) (a : Nat) : B8 :=
  match m with
  | [] => 0
  | (x, b) :: r => if x = a then b else Memory.get r a

/-- The memory with byte `b` at address `a`, in canonical form. -/
def Memory.put (m : Memory) (a : Nat) (b : B8) : Memory :=
  match m with
  | [] => if b = 0 then [] else [(a, b)]
  | (x, c) :: r =>
    if a < x then (if b = 0 then (x, c) :: r else (a, b) :: (x, c) :: r)
    else if x = a then (if b = 0 then r else (a, b) :: r)
    else (x, c) :: Memory.put r a b

/-- The canonical form of a memory. -/
abbrev Memory.wf (m : Memory) : Prop := m.Pairwise (fun x y => x.1 < y.1) ∧ ∀ c ∈ m, c.2 ≠ 0

/-- `n` bytes from address `a` upward. -/
def Memory.read (m : Memory) (a n : Nat) : List B8 := (List.range n).map (fun i => m.get (a + i))

/-- The memory with the bytes of `l` stored from address `a` upward. -/
def Memory.write (m : Memory) (a : Nat) (l : List B8) : Memory :=
  match l with
  | [] => m
  | b :: r => Memory.write (m.put a b) (a + 1) r

/-- The memory with the `n` bytes from `a` upward at 0. -/
def Memory.clear (m : Memory) (a n : Nat) : Memory := m.filter (fun c => c.1 < a || a + n ≤ c.1)

/-- The memory with the cells of `l` laid over it, in order. -/
def Memory.overlay (m : Memory) (l : List Host.Cell) : Memory :=
  l.foldl (fun m c => m.put c.1 c.2) m

/-- Bits `lo` to `lo + len - 1`. -/
def fld {w : Nat} (x : BitVec w) (lo len : Nat) : Nat := (x.toNat >>> lo) % 2 ^ len

/-- Bits of a number. -/
def nfld (x lo len : Nat) : Nat := (x >>> lo) % 2 ^ len

/-- `n` bytes at byte offset `off` of a record, as a little-endian number. -/
def bytesAt {w : Nat} (x : BitVec w) (off n : Nat) : Nat := fld x (8 * off) (8 * n)

/-- The `n` bytes of a number, least significant first. -/
def leBytes (n v : Nat) : List B8 := (List.range n).map (fun i => BitVec.ofNat 8 (v >>> (8 * i)))

/-- The number that little-endian bytes spell. -/
def leNat (l : List B8) : Nat :=
  match l with
  | [] => 0
  | b :: r => b.toNat + 256 * leNat r

/-- The number that big-endian bytes spell. -/
def beNat (l : List B8) : Nat := leNat l.reverse

/-- `n` bytes at offset `off` of a byte string, little-endian. -/
def leAt (l : List B8) (off n : Nat) : Nat := leNat ((l.drop off).take n)

/-- A two's-complement number of `w` bits. -/
def toSigned (w v : Nat) : Int := if v % 2 ^ w < 2 ^ (w - 1) then (v % 2 ^ w : Nat) else (v % 2 ^ w : Nat) - (2 ^ w : Nat)

/-- The low `w` bits of a signed number. -/
def ofSigned (w : Nat) (i : Int) : Nat := (i % (2 ^ w : Nat)).toNat

/-- A counter of `w` bits, increased by `n` and stopped at its highest value (R6). -/
def satAdd {w : Nat} (c : BitVec w) (n : Nat) : BitVec w :=
  if c.toNat + n < 2 ^ w then BitVec.ofNat w (c.toNat + n) else BitVec.allOnes w

/-- A counter increased by one event (R6). -/
def satInc {w : Nat} (c : BitVec w) : BitVec w := satAdd c 1

/-- The least number at or above `i` that `used` does not name, looking at `fuel` numbers. -/
def lowestFree (used : List Nat) (i : Nat) : Nat → Nat
  | 0 => i
  | fuel + 1 => if used.contains i then lowestFree used (i + 1) fuel else i

/-- Division rounded up. -/
def cdiv (a b : Nat) : Nat := (a + b - 1) / b

/-- The pieces of the `n` units from `a` that lie between multiples of `g`: start and length of each. -/
def pieces (g : Nat) : Nat → Nat → Nat → List (Nat × Nat)
  | _, 0, _ => []
  | a, n + 1, fuel =>
    match fuel with
    | 0 => []
    | f + 1 => let k := min (n + 1) (g - a % g); (a, k) :: pieces g (a + k) (n + 1 - k) f

/-- Splits a list into pieces of `n`. -/
def chunksOf {α : Type} (n : Nat) : List α → Nat → List (List α)
  | _, 0 => []
  | l, f + 1 => if l.isEmpty then [] else l.take n :: chunksOf n (l.drop n) f

/-- Replaces list element `i`. -/
def listSet {α : Type} : List α → Nat → α → List α
  | [], _, _ => []
  | _ :: r, 0, v => v :: r
  | x :: r, i + 1, v => x :: listSet r i v

/-- The largest number below 2^`k` above `r` whose square is at most `x`, bit by bit from bit `k` - 1. -/
def rootFrom (x : Nat) : Nat → Nat → Nat
  | 0, r => r
  | k + 1, r => if (r + 2 ^ k) * (r + 2 ^ k) ≤ x then rootFrom x k (r + 2 ^ k) else rootFrom x k r
/-- Square root rounded down of a number below 4^`bits`. -/
def intRoot (bits x : Nat) : Nat := rootFrom x bits 0

end Sys2Proof
end

