-- ==== Sys2Proof/Machine/Operands.lean ====
section
/-! DEFINITION. Numbering of units, fields of commands, entries of the boot configuration, and the entries of the state's tables. -/
namespace Sys2Proof.Machine
open Sys2Proof

/-! ## Unit path codes (R18-R21) -/

/-- Unit code of a unit in a cluster (R19, R20). -/
def unitCluster (c u : Nat) : Nat := (c / 64) * 0x2000 + (c / 16) * 0x200 + (c % 16) * 0x20 + u
/-- Unit code of a region-level unit. -/
def unitRegion (r u : Nat) : Nat := (r / 4) * 0x2000 + r * 0x200 + u
/-- Unit code of a die-level unit. -/
def unitDie (k u : Nat) : Nat := k * 0x2000 + 4 * k * 0x200 + u
/-- Unit code of a hub unit: block and instance (R19, R21). -/
def unitHub (b i : Nat) : Nat := 0x8000 + b * 0x100 + i

/-! ## Parties and queue keys (R92, R107) -/

/-- The management function as a party. -/
def mgmtParty : Nat := 0x40
/-- Key of a tenant's queue. -/
def qkey (t e q : Nat) : Nat := t * 32 + e * 8 + q
/-- Key of the management queue of partition `p` on engine `e`. -/
def qkeyMgmt (p e : Nat) : Nat := (64 + p) * 32 + e * 8
def qIsMgmt (k : Nat) : Bool := decide (64 ≤ k / 32)
/-- Party of a queue: the tenant, or 0x40. -/
def qParty (k : Nat) : Nat := if qIsMgmt k then mgmtParty else k / 32
def qEngine (k : Nat) : Nat := k % 32 / 8
def qIndex (k : Nat) : Nat := k % 8
/-- Byte 16 of a completion entry and [4:0] of byte 25 of a record. -/
def qByte (k : Nat) : Nat := qEngine k + 4 * qIndex k

/-! ## Fields of a command (R109) -/

def cmdOp (c : W512) : Nat := bytesAt c 0 1
def cmdNotify (c : W512) : Bool := c.getLsbD 8
def cmdContinue (c : W512) : Bool := c.getLsbD 9
def cmdArg (c : W512) : Nat := bytesAt c 2 2
def cmdTag (c : W512) : W32 := BitVec.ofNat 32 (bytesAt c 4 4)

/-! ## The boot configuration in use -/

/-- Byte `off` of section `sec`; 0 where the section is absent. -/
def Cfg.u8 (c : Cfg) (sec off : Nat) : Nat := ((c.secs.get sec []).get off).toNat
def Cfg.u16 (c : Cfg) (sec off : Nat) : Nat := c.u8 sec off + 256 * c.u8 sec (off + 1)
def Cfg.u32 (c : Cfg) (sec off : Nat) : Nat := c.u16 sec off + 65536 * c.u16 sec (off + 2)
def Cfg.u64 (c : Cfg) (sec off : Nat) : Nat := c.u32 sec off + 4294967296 * c.u32 sec (off + 4)
def Cfg.bit (c : Cfg) (sec off i : Nat) : Bool := (c.u8 sec off).testBit i
def Cfg.bytes (c : Cfg) (sec off n : Nat) : List B8 := (c.secs.get sec []).read off n
/-- Section present (R49). -/
def Cfg.has (c : Cfg) (sec : Nat) : Bool := decide (c.lens.get sec 0 ≠ 0)

/-- MEMORY (R50). -/
def Cfg.capacityGib (c : Cfg) : Nat := c.u16 1 0
def Cfg.dataRate (c : Cfg) : Nat := c.u16 1 2
def Cfg.useCache (c : Cfg) : Bool := decide (c.u8 1 4 = 1)
def Cfg.protection (c : Cfg) : Nat := c.u8 1 5

/-- PARTITIONS (R51). -/
def Cfg.regionMask (c : Cfg) (p : Nat) : Nat := c.u16 2 (16 * p)
def Cfg.partPriority (c : Cfg) (p : Nat) : Nat := c.u8 2 (16 * p + 2)
def Cfg.partSlots (c : Cfg) (p : Nat) : Nat := c.u8 2 (16 * p + 3)
def Cfg.partSeqs (c : Cfg) (p : Nat) : Nat := c.u16 2 (16 * p + 4)
def Cfg.partMaxOp (c : Cfg) (p : Nat) : Nat := c.u8 2 (16 * p + 6) % 16
def Cfg.partFixed (c : Cfg) (p : Nat) : Bool := c.bit 2 (16 * p + 6) 4
def Cfg.kvPoolMib (c : Cfg) (p : Nat) : Nat := c.u32 2 (16 * p + 8)
/-- The partition exists. -/
def Cfg.partOn (c : Cfg) (p : Nat) : Bool := decide (p < 16) && decide (c.regionMask p ≠ 0)
/-- Regions of a partition, ascending. -/
def Cfg.partRegions (c : Cfg) (p : Nat) : List Nat := (List.range 16).filter (fun r => (c.regionMask p).testBit r)
/-- Partition that holds region `r`. -/
def Cfg.regionPart (c : Cfg) (r : Nat) : Option Nat := (List.range 16).find? (fun p => (c.regionMask p).testBit r)
/-- Dies of a partition, ascending. -/
def Cfg.partDies (c : Cfg) (p : Nat) : List Nat := (List.range 4).filter (fun k => decide (nfld (c.regionMask p) (4 * k) 4 ≠ 0))

/-- TENANTS (R52). -/
def Cfg.tenOn (c : Cfg) (t : Nat) : Bool := decide (t < 64) && c.bit 3 (32 * t) 0
def Cfg.tenCounterRead (c : Cfg) (t : Nat) : Bool := c.bit 3 (32 * t) 1
def Cfg.tenSnapshot (c : Cfg) (t : Nat) : Bool := c.bit 3 (32 * t) 2
def Cfg.tenPart (c : Cfg) (t : Nat) : Nat := c.u8 3 (32 * t + 1)
def Cfg.tenPort (c : Cfg) (t : Nat) : Nat := c.u8 3 (32 * t + 2)
def Cfg.tenVf (c : Cfg) (t : Nat) : Nat := c.u8 3 (32 * t + 3)
def Cfg.tenQueues (c : Cfg) (t e : Nat) : Nat := c.u8 3 (32 * t + 4 + e)
def Cfg.tenQuotaMib (c : Cfg) (t : Nat) : Nat := c.u32 3 (32 * t + 8)
def Cfg.tenKvQuota (c : Cfg) (t : Nat) : Nat := c.u32 3 (32 * t + 12)
def Cfg.tenSeqs (c : Cfg) (t : Nat) : Nat := c.u16 3 (32 * t + 16)
def Cfg.tenSlots (c : Cfg) (t : Nat) : Nat := c.u8 3 (32 * t + 18)
/-- Enabled tenants, ascending. -/
def Cfg.tenants (c : Cfg) : List Nat := (List.range 64).filter c.tenOn
/-- Enabled tenants of partition `p`. -/
def Cfg.partTenants (c : Cfg) (p : Nat) : List Nat := c.tenants.filter (fun t => decide (c.tenPart t = p))
/-- Enabled tenants reached through port `n`. -/
def Cfg.portTenants (c : Cfg) (n : Nat) : List Nat := c.tenants.filter (fun t => decide (c.tenPort t = n))
/-- The enabled tenant of a virtual function. -/
def Cfg.vfTenant (c : Cfg) (port vf : Nat) : Option Nat :=
  c.tenants.find? (fun t => decide (c.tenPort t = port) && decide (c.tenVf t = vf))

/-- HOST_PORTS (R53). -/
def Cfg.portOn (c : Cfg) (n : Nat) : Bool := c.bit 4 (8 * n) 0
def Cfg.portMgmt (c : Cfg) (n : Nat) : Bool := c.bit 4 (8 * n) 1
def Cfg.portMaxRate (c : Cfg) (n : Nat) : Nat := c.u8 4 (8 * n + 1)
def Cfg.portVfs (c : Cfg) (n : Nat) : Nat := c.u8 4 (8 * n + 2)

/-- CAMERA (R348-R350). -/
def Cfg.camPortOn (c : Cfg) (n : Nat) : Bool := c.bit 5 (16 * n) 0
def Cfg.ctxOn (c : Cfg) (n : Nat) : Bool := decide (n < 128) && c.bit 5 (0x80 + 32 * n) 0
def Cfg.ctxOwner (c : Cfg) (n : Nat) : Nat := c.u8 5 (0x80 + 32 * n + 1)
def Cfg.ctxPort (c : Cfg) (n : Nat) : Nat := c.u8 5 (0x80 + 32 * n + 2)
def Cfg.ctxVc (c : Cfg) (n : Nat) : Nat := c.u8 5 (0x80 + 32 * n + 3)
def Cfg.ctxType (c : Cfg) (n : Nat) : Nat := c.u8 5 (0x80 + 32 * n + 4)
def Cfg.ctxMosaic (c : Cfg) (n : Nat) : Nat := c.u8 5 (0x80 + 32 * n + 5)
def Cfg.ctxPriority (c : Cfg) (n : Nat) : Nat := c.u8 5 (0x80 + 32 * n + 6)
def Cfg.ctxDefault (c : Cfg) (n : Nat) : Nat := c.u8 5 (0x80 + 32 * n + 7)
def Cfg.ctxWidth (c : Cfg) (n : Nat) : Nat := c.u16 5 (0x80 + 32 * n + 8)
def Cfg.ctxHeight (c : Cfg) (n : Nat) : Nat := c.u16 5 (0x80 + 32 * n + 10)
def Cfg.ctxRate (c : Cfg) (n : Nat) : Nat := c.u16 5 (0x80 + 32 * n + 12)
def Cfg.ctxSensor (c : Cfg) (n : Nat) : Nat := c.u8 5 (0x80 + 32 * n + 14)
def Cfg.sensorOn (c : Cfg) (n : Nat) : Bool := decide (n < 128) && c.bit 5 (0x1080 + 32 * n) 0
def Cfg.sensorI3c (c : Cfg) (n : Nat) : Nat := c.u8 5 (0x1080 + 32 * n + 1)
def Cfg.sensorRef (c : Cfg) (n : Nat) : Nat := c.u8 5 (0x1080 + 32 * n + 2)
def Cfg.latchLine (c : Cfg) (n k : Nat) : Nat := c.u16 5 (0x1080 + 32 * n + 4 + 4 * k)
def Cfg.latchDelay (c : Cfg) (n k : Nat) : Nat := c.u8 5 (0x1080 + 32 * n + 6 + 4 * k)
def Cfg.classUsed (c : Cfg) (n k : Nat) : Bool := c.bit 5 (0x1080 + 32 * n + 7 + 4 * k) 0
def Cfg.defaultBlock (c : Cfg) (k : Nat) : List B8 := c.bytes 5 (0x20C0 + 0xA80 * k) 0xA80
/-- Enabled contexts, ascending. -/
def Cfg.contexts (c : Cfg) : List Nat := (List.range 128).filter c.ctxOn

/-- AUDIO (R387). -/
def Cfg.streamOn (c : Cfg) (n : Nat) : Bool := decide (n < 1024) && c.bit 6 (32 * n) 0
def Cfg.streamL24 (c : Cfg) (n : Nat) : Bool := c.bit 6 (32 * n) 1
def Cfg.streamOwner (c : Cfg) (n : Nat) : Nat := c.u8 6 (32 * n + 1)
def Cfg.streamChannels (c : Cfg) (n : Nat) : Nat := c.u8 6 (32 * n + 2)
def Cfg.streamPtime (c : Cfg) (n : Nat) : Nat := c.u8 6 (32 * n + 3)
def Cfg.streamEth (c : Cfg) (n : Nat) : Nat := c.u8 6 (32 * n + 4)
def Cfg.streamLink (c : Cfg) (n : Nat) : Nat := c.u16 6 (32 * n + 6)
def Cfg.streamAddr (c : Cfg) (n : Nat) : Nat := c.u32 6 (32 * n + 8)
def Cfg.streamUdp (c : Cfg) (n : Nat) : Nat := c.u16 6 (32 * n + 12)
def Cfg.mediaOffset (c : Cfg) (n : Nat) : Int := toSigned 64 (c.u64 6 (32 * n + 16))
def Cfg.tdmOn (c : Cfg) (n : Nat) : Bool := decide (n < 4) && c.bit 6 (0x8000 + 16 * n) 0
def Cfg.tdmMaster (c : Cfg) (n : Nat) : Bool := c.bit 6 (0x8000 + 16 * n) 1
def Cfg.tdmOwner (c : Cfg) (n : Nat) : Nat := c.u8 6 (0x8000 + 16 * n + 1)
def Cfg.tdmBits (c : Cfg) (n : Nat) : Nat := c.u8 6 (0x8000 + 16 * n + 2)
/-- First byte of array entry `n`. -/
def arrayOff (n : Nat) : Nat := 0x8040 + 256 * n
def Cfg.arrayOn (c : Cfg) (n : Nat) : Bool := decide (n < 64) && c.bit 6 (arrayOff n) 0
def Cfg.arrayFollow (c : Cfg) (n : Nat) : Bool := c.bit 6 (arrayOff n) 1
def Cfg.arrayAec (c : Cfg) (n : Nat) : Bool := c.bit 6 (arrayOff n) 2
def Cfg.arrayOwner (c : Cfg) (n : Nat) : Nat := c.u8 6 (arrayOff n + 1)
def Cfg.arrayMics (c : Cfg) (n : Nat) : Nat := c.u8 6 (arrayOff n + 2)
def Cfg.arrayBeams (c : Cfg) (n : Nat) : Nat := c.u8 6 (arrayOff n + 3)
def Cfg.chunkFrames (c : Cfg) (n : Nat) : Nat := c.u8 6 (arrayOff n + 4)
def Cfg.vadThr (c : Cfg) (n : Nat) : Nat := c.u8 6 (arrayOff n + 5)
def Cfg.peakThr (c : Cfg) (n : Nat) : Nat := c.u8 6 (arrayOff n + 6)
def Cfg.elStep (c : Cfg) (n : Nat) : Nat := c.u8 6 (arrayOff n + 7)
def Cfg.elMin (c : Cfg) (n : Nat) : Int := toSigned 8 (c.u8 6 (arrayOff n + 8))
def Cfg.elMax (c : Cfg) (n : Nat) : Int := toSigned 8 (c.u8 6 (arrayOff n + 9))
def Cfg.aecTaps (c : Cfg) (n : Nat) : Nat := c.u16 6 (arrayOff n + 10)
def Cfg.aecRef (c : Cfg) (n k : Nat) : Nat := c.u16 6 (arrayOff n + 12 + 2 * k)
def Cfg.fixedAz (c : Cfg) (n b : Nat) : Nat := c.u16 6 (arrayOff n + 16 + 2 * b)
def Cfg.fixedEl (c : Cfg) (n b : Nat) : Int := toSigned 8 (c.u8 6 (arrayOff n + 24 + b))
def Cfg.micChan (c : Cfg) (n i : Nat) : Nat := c.u16 6 (arrayOff n + 64 + 12 * i)
def Cfg.micPos (c : Cfg) (n i k : Nat) : Int := toSigned 16 (c.u16 6 (arrayOff n + 66 + 12 * i + 2 * k))
def Cfg.micWeight (c : Cfg) (n i : Nat) : Nat := c.u16 6 (arrayOff n + 72 + 12 * i)

/-- NETWORK (R532). -/
def Cfg.ethOn (c : Cfg) (p : Nat) : Bool := decide (p < 2) && c.bit 7 (64 * p) 0
def Cfg.ethVlanOn (c : Cfg) (p : Nat) : Bool := c.bit 7 (64 * p) 1
def Cfg.ethRate (c : Cfg) (p : Nat) : Nat := c.u8 7 (64 * p + 1)
def Cfg.ethMac (c : Cfg) (p : Nat) : List B8 := c.bytes 7 (64 * p + 4) 6
def Cfg.ethIp (c : Cfg) (p : Nat) : List B8 := c.bytes 7 (64 * p + 12) 4
def Cfg.ethVlan (c : Cfg) (p : Nat) : Nat := c.u16 7 (64 * p + 20)
def Cfg.ptpOn (c : Cfg) : Bool := c.bit 7 0x80 0
def Cfg.ptpDomain (c : Cfg) : Nat := c.u8 7 0x81
def Cfg.targetOn (c : Cfg) (k : Nat) : Bool := decide (k < 16) && c.bit 7 (0x100 + 256 * k) 0
def Cfg.rtpOn (c : Cfg) (k : Nat) : Bool := decide (k < 64) && c.bit 7 (0x1100 + 32 * k) 0
def Cfg.rtpPort (c : Cfg) (k : Nat) : Nat := (c.u8 7 (0x1100 + 32 * k)) / 2 % 2
def Cfg.rtpOwner (c : Cfg) (k : Nat) : Nat := c.u8 7 (0x1100 + 32 * k + 1)
def Cfg.rtpPt (c : Cfg) (k : Nat) : Nat := c.u8 7 (0x1100 + 32 * k + 2)
def Cfg.rtpDscp (c : Cfg) (k : Nat) : Nat := c.u8 7 (0x1100 + 32 * k + 3)
def Cfg.rtpDest (c : Cfg) (k : Nat) : List B8 := c.bytes 7 (0x1100 + 32 * k + 4) 4
def Cfg.rtpUdp (c : Cfg) (k : Nat) : Nat := c.u16 7 (0x1100 + 32 * k + 8)
def Cfg.rtpSsrc (c : Cfg) (k : Nat) : Nat := c.u32 7 (0x1100 + 32 * k + 12)

/-- TRACKS (R88): source type and index of a track, and a tenant's triggers. -/
def Cfg.trkSource (c : Cfg) (n : Nat) : Nat := if n = 0 then 1 else c.u8 8 (4 * n)
def Cfg.trkIndex (c : Cfg) (n : Nat) : Nat := c.u16 8 (4 * n + 2)
def Cfg.trgFirst (c : Cfg) (t : Nat) : Nat := c.u16 8 (1024 + 4 * t)
def Cfg.trgCount (c : Cfg) (t : Nat) : Nat := c.u16 8 (1024 + 4 * t + 2)
/-- The tenant that holds global trigger `n` (R88, R571). -/
def Cfg.trgOwner (c : Cfg) (n : Nat) : Option Nat :=
  c.tenants.find? (fun t => decide (c.trgFirst t ≤ n) && decide (n < c.trgFirst t + c.trgCount t))

/-- POWER (R54). -/
def Cfg.capMin (c : Cfg) : Nat := c.u16 9 0
def Cfg.capMax (c : Cfg) : Nat := c.u16 9 2
def Cfg.capBoot (c : Cfg) : Nat := c.u16 9 4
def Cfg.gustRate (c : Cfg) : Nat := c.u8 9 6
def Cfg.retain (c : Cfg) : Nat := c.u16 9 8

/-- SECURITY (R419). -/
def Cfg.debugAllowed (c : Cfg) : Bool := c.bit 10 0 0
def Cfg.commitVersion (c : Cfg) : Bool := c.bit 10 0 1
def Cfg.debugSlot (c : Cfg) : Nat := c.u8 10 1
def Cfg.operatorSlot (c : Cfg) : Nat := c.u8 10 2
def Cfg.revokeMask (c : Cfg) : Nat := c.u8 10 3 % 16
def Cfg.confidential (c : Cfg) (t : Nat) : Bool := c.bit 10 (0x40 + 8 * t) 0
def Cfg.operatorOk (c : Cfg) (t : Nat) : Bool := c.bit 10 (0x40 + 8 * t) 1
def Cfg.shareOptIn (c : Cfg) (t : Nat) : Bool := c.bit 10 (0x40 + 8 * t) 2
def Cfg.modelKeySlot (c : Cfg) (t : Nat) : Nat := c.u8 10 (0x40 + 8 * t + 1)
def Cfg.authKeySlot (c : Cfg) (t : Nat) : Nat := c.u8 10 (0x40 + 8 * t + 2)
def Cfg.shareGroup (c : Cfg) (t : Nat) : Nat := c.u8 10 (0x40 + 8 * t + 3)
def Cfg.groupOn (c : Cfg) (g : Nat) : Bool := decide (g < 16) && c.bit 10 (0x240 + 8 * g) 0
def Cfg.groupPart (c : Cfg) (g : Nat) : Nat := c.u8 10 (0x240 + 8 * g + 1)
/-- Public key in slot `k`, X then Y. -/
def Cfg.key (c : Cfg) (k : Nat) : List B8 := c.bytes 10 (0x300 + 96 * k) 96

/-- CONTROL_OUTPUTS (R396): a unit's owner, none when it is 0xFF or not an enabled tenant. -/
def Cfg.ownerAt (c : Cfg) (off : Nat) : Option Nat :=
  if c.has 11 && c.tenOn (c.u8 11 off) then some (c.u8 11 off) else none
def Cfg.pulseOwner (c : Cfg) (n : Nat) : Option Nat := if n < 32 then c.ownerAt (16 * n) else none
def Cfg.uartOwner (c : Cfg) (n : Nat) : Option Nat := if n < 4 then c.ownerAt (0x200 + 16 * n) else none
def Cfg.i3cOwner (c : Cfg) (n : Nat) : Option Nat := if n < 8 then c.ownerAt (0x240 + 8 * n) else none

/-- Pulse entry (R397), UART entry (R402), I3C entry (R396) and GPIO entry (R404). -/
def Cfg.pulsePwm (c : Cfg) (n : Nat) : Bool := decide (c.u8 11 (16 * n + 1) = 1)
def Cfg.pulseNs (c : Cfg) (n : Nat) : Nat := c.u16 11 (16 * n + 2)
def Cfg.dirSetup (c : Cfg) (n : Nat) : Nat := c.u16 11 (16 * n + 4)
def Cfg.dirInvert (c : Cfg) (n : Nat) : Bool := c.bit 11 (16 * n + 6) 0
def Cfg.idleHigh (c : Cfg) (n : Nat) : Bool := c.bit 11 (16 * n + 6) 1
def Cfg.vMin (c : Cfg) (n : Nat) : Nat := c.u32 11 (16 * n + 8)
def Cfg.posLimit (c : Cfg) (n : Nat) : Nat := c.u32 11 (16 * n + 12)
def Cfg.uartDe (c : Cfg) (n : Nat) : Bool := c.bit 11 (0x200 + 16 * n + 2) 0
/-- Bits of a byte on the line: start, data, parity and stop bits of 8N1, 8E1, 8O1 and 8N2. -/
def Cfg.uartBits (c : Cfg) (n : Nat) : Nat := if c.u8 11 (0x201 + 16 * n) = 0 then 10 else 11
def Cfg.uartBaud (c : Cfg) (n : Nat) : Nat := c.u32 11 (0x204 + 16 * n)
def Cfg.gpioFunction (c : Cfg) (n : Nat) : Nat := c.u8 11 (0x280 + 4 * n)
def Cfg.gpioChannel (c : Cfg) (n : Nat) : Nat := c.u8 11 (0x280 + 4 * n + 1)
def Cfg.gpioLow (c : Cfg) (n : Nat) : Bool := c.bit 11 (0x280 + 4 * n + 2) 0

/-- ADJUSTABLE (R55): whether item `i` may change after boot lock. -/
def Cfg.adjustable (c : Cfg) (i : Nat) : Bool := c.bit 12 0 i

/-! ## Entries of the state's tables -/

def Dev.ten (d : Dev) (n : Nat) : Tenant := d.tenants.get n {}
def Dev.putTen (d : Dev) (n : Nat) (v : Tenant) : Dev := { d with tenants := d.tenants.set n v }
def Dev.modTen (d : Dev) (n : Nat) (f : Tenant → Tenant) : Dev := d.putTen n (f (d.ten n))
def Dev.trk (d : Dev) (n : Nat) : Track := d.tracks.get n {}
def Dev.modTrk (d : Dev) (n : Nat) (f : Track → Track) : Dev := { d with tracks := d.tracks.set n (f (d.trk n)) }
def Dev.trg (d : Dev) (n : Nat) : Trigger := d.triggers.get n {}
def Dev.modTrg (d : Dev) (n : Nat) (f : Trigger → Trigger) : Dev := { d with triggers := d.triggers.set n (f (d.trg n)) }
def Dev.que (d : Dev) (k : Nat) : Queue := d.queues.get k {}
def Dev.modQue (d : Dev) (k : Nat) (f : Queue → Queue) : Dev := { d with queues := d.queues.set k (f (d.que k)) }
def Dev.part (d : Dev) (p : Nat) : PartState := d.parts.get p {}
def Dev.modPart (d : Dev) (p : Nat) (f : PartState → PartState) : Dev := { d with parts := d.parts.set p (f (d.part p)) }
def Dev.region (d : Dev) (r : Nat) : RegionState := d.regions.get r {}
def Dev.modRegion (d : Dev) (r : Nat) (f : RegionState → RegionState) : Dev := { d with regions := d.regions.set r (f (d.region r)) }
def Dev.die (d : Dev) (k : Nat) : DieState := d.dies.get k {}
def Dev.modDie (d : Dev) (k : Nat) (f : DieState → DieState) : Dev := { d with dies := d.dies.set k (f (d.die k)) }
def Dev.stop (d : Dev) (k : Nat) : HaloStop := d.halo.get k {}
def Dev.modStop (d : Dev) (k : Nat) (f : HaloStop → HaloStop) : Dev := { d with halo := d.halo.set k (f (d.stop k)) }
def Dev.cluster (d : Dev) (c : Nat) : Cluster := d.clusters.get c {}
def Dev.modCluster (d : Dev) (c : Nat) (f : Cluster → Cluster) : Dev := { d with clusters := d.clusters.set c (f (d.cluster c)) }
def Dev.port (d : Dev) (n : Nat) : Port := d.ports.get n {}
def Dev.modPort (d : Dev) (n : Nat) (f : Port → Port) : Dev := { d with ports := d.ports.set n (f (d.port n)) }
def Dev.ethPort (d : Dev) (n : Nat) : EthPort := d.eth.get n {}
def Dev.modEth (d : Dev) (n : Nat) (f : EthPort → EthPort) : Dev := { d with eth := d.eth.set n (f (d.ethPort n)) }
def Dev.rtpSt (d : Dev) (n : Nat) : RtpSt := d.rtp.get n {}
def Dev.modRtp (d : Dev) (n : Nat) (f : RtpSt → RtpSt) : Dev := { d with rtp := d.rtp.set n (f (d.rtpSt n)) }
def Dev.slot (d : Dev) (n : Nat) : Slot := d.mdl.slots.get n {}
def Dev.modSlot (d : Dev) (n : Nat) (f : Slot → Slot) : Dev := { d with mdl := { d.mdl with slots := d.mdl.slots.set n (f (d.slot n)) } }
/-- Number of slot `s` of partition `p`. -/
def slotNo (p s : Nat) : Nat := p * 8 + s
/-- The generation that new work pins: the current one (R245). -/
def Dev.currentGen (d : Dev) (slot : Nat) : Option GenState := (d.slot slot).gens.find? (fun g => decide (g.role = 0))
def Dev.camCtx (d : Dev) (n : Nat) : CamCtx := d.cam.ctx.get n {}
def Dev.modCtx (d : Dev) (n : Nat) (f : CamCtx → CamCtx) : Dev := { d with cam := { d.cam with ctx := d.cam.ctx.set n (f (d.camCtx n)) } }
def Dev.sensor (d : Dev) (n : Nat) : Sensor := d.cam.sensors.get n {}
def Dev.modSensor (d : Dev) (n : Nat) (f : Sensor → Sensor) : Dev := { d with cam := { d.cam with sensors := d.cam.sensors.set n (f (d.sensor n)) } }
def Dev.i3c (d : Dev) (n : Nat) : I3c := d.cam.i3c.get n {}
def Dev.modI3c (d : Dev) (n : Nat) (f : I3c → I3c) : Dev := { d with cam := { d.cam with i3c := d.cam.i3c.set n (f (d.i3c n)) } }
def Dev.array (d : Dev) (n : Nat) : ArrayState := d.aud.arrays.get n {}
def Dev.modArray (d : Dev) (n : Nat) (f : ArrayState → ArrayState) : Dev := { d with aud := { d.aud with arrays := d.aud.arrays.set n (f (d.array n)) } }
def Dev.pulse (d : Dev) (n : Nat) : Pulse := d.pls.ch.get n {}
def Dev.modPulse (d : Dev) (n : Nat) (f : Pulse → Pulse) : Dev := { d with pls := { d.pls with ch := d.pls.ch.set n (f (d.pulse n)) } }
def Dev.uart (d : Dev) (n : Nat) : Uart := d.pls.uarts.get n {}
def Dev.modUart (d : Dev) (n : Nat) (f : Uart → Uart) : Dev := { d with pls := { d.pls with uarts := d.pls.uarts.set n (f (d.uart n)) } }
def Dev.core (d : Dev) (n : Nat) : Core := d.fw.cores.get n {}
def Dev.modCore (d : Dev) (n : Nat) (f : Core → Core) : Dev := { d with fw := { d.fw with cores := d.fw.cores.set n (f (d.core n)) } }
def Dev.seq (d : Dev) (r : Nat) : Option Seq := d.tok.seqs.get r none
def Dev.putSeq (d : Dev) (r : Nat) (v : Option Seq) : Dev := { d with tok := { d.tok with seqs := d.tok.seqs.set r v } }
def Dev.modSeq (d : Dev) (r : Nat) (f : Seq → Seq) : Dev :=
  match d.seq r with
  | some q => d.putSeq r (some (f q))
  | none => d

/-- A register from its fields: lowest bit, width, value. -/
def regOf (l : List (Nat × Nat × Nat)) : W64 := BitVec.ofNat 64 ((l.map (fun f => f.2.2 % 2 ^ f.2.1 * 2 ^ f.1)).sum)
def one (b : Bool) : Nat := if b then 1 else 0

/-- The owning control core of a window (R52, R570). -/
def coreOf (party : Nat) : Nat := if party < 64 then party % 8 else 0

/-- The management tick (R69). -/
def Dev.tick (d : Dev) : Nat := d.time.toNat / 1000000

/-- Arithmetic clock of an operating point, in MHz (R494). -/
def opMhz (k : Nat) : Nat := [1000, 1200, 1400, 1600, 1800, 2000, 2300, 2600, 2900].getD k 1000

/-- The time is that of a tick boundary: a management-plane change may take effect (R30, R31). -/
def Dev.atTick (d : Dev) : Bool := decide (d.time.toNat % 1000000 = 0)

/-- Takes the next free value's number. -/
def Dev.drawn (d : Dev) : Dev := { d with draw := d.draw + 1 }

/-- Partition of a queue. -/
def Dev.qPart (d : Dev) (k : Nat) : Nat := if qIsMgmt k then k / 32 - 64 else d.cfg.tenPart (k / 32)

/-- Partition that a party acts in; 0xFF for the management window (R570). -/
def Dev.partyPart (d : Dev) (party : Nat) : Nat := if party < 64 then d.cfg.tenPart party else 0xFF

/-- Applies `f` for each number of a list, in order. -/
def Dev.each (d : Dev) (l : List Nat) (f : Dev → Nat → Dev) : Dev := l.foldl f d

end Sys2Proof.Machine
end

