-- ==== Sys2Proof/Machine/Motion.lean ====
section
/-! DEFINITION. Pulse programs: their segments, the instants of their steps, and how far a running program has come (R398-R401). -/
namespace Sys2Proof.Machine
open Sys2Proof

/-- Header fields of a pulse program. -/
def pulCount (b : List B8) : Nat := leAt b 0 1
def pulAbort (b : List B8) : Bool := (leAt b 1 1).testBit 0

/-- One stretch of motion: signed steps from velocity `v0` (in 10^-9 steps per second), or a dwell of `rest` ns. A braking leg only
slows down; a PWM leg issues a step at the end of every `rest` ns. -/
structure Leg where
  steps : Int
  rest : Nat := 0
  v0 : Nat := 0
  vmax : Nat := 0
  up : Nat := 1
  down : Nat := 1
  brake : Bool := false
  pwm : Bool := false
  /-- A PWM leg of 0 periods holds until the next program. -/
  hold : Bool := false
deriving DecidableEq, Repr, Inhabited

/-- 10^18: squares of velocities are in units of 10^-18 steps² per second². -/
def squareUnit : Nat := 1000000000000000000
/-- The velocity whose square is `num` / `den`, in 10^-12 steps per second, rounded down. -/
def rootVel (num den : Nat) : Nat := intRoot 96 (num * 1000000 / den)

/-- The square of the top velocity of a leg of `n` steps, times up + down: the lesser of v_max and v_p (R400). -/
def Leg.peak2 (g : Leg) (n : Nat) : Nat :=
  min (g.vmax * g.vmax * squareUnit * (g.up + g.down)) (g.v0 * g.v0 * (g.up + g.down) + 2 * g.up * g.down * n * squareUnit)

/-- Time from a leg's origin to its step edge `k` of `n`, in ps (R400). -/
def Leg.edgePs (g : Leg) (n k : Nat) : Nat :=
  let s0 := g.v0 * 1000
  if g.pwm then 1000 * g.rest * k
  else if g.brake then (s0 - rootVel (g.v0 * g.v0 - 2 * g.down * k * squareUnit) 1) / g.down
  else
    let s := g.up + g.down
    let p2 := g.peak2 n
    let gain := p2 - g.v0 * g.v0 * s
    if 2 * g.up * k * s * squareUnit ≤ gain then (rootVel (g.v0 * g.v0 + 2 * g.up * k * squareUnit) 1 - s0) / g.up
    else
      let ta := (rootVel p2 s - s0) / g.up
      if 2 * g.down * (n - k) * s * squareUnit ≤ gain then
        let top := if p2 = g.vmax * g.vmax * squareUnit * s then
          (2 * n * g.up * g.down * squareUnit - gain) * 1000000000000 / (2 * g.up * g.down * squareUnit * g.vmax) else 0
        ta + top + (rootVel p2 s - rootVel (g.v0 * g.v0 + 2 * g.down * (n - k) * squareUnit) 1) / g.down
      else ta + (k * 2 * g.up * s * squareUnit - gain) * 1000000000000 / (2 * g.up * s * squareUnit * g.vmax)
/-- The same, to the nearest ns. -/
def Leg.edge (g : Leg) (n k : Nat) : Nat := (g.edgePs n k + 500) / 1000

/-- Length of a leg in ns: to its last edge, or its dwell. -/
def Leg.length (g : Leg) : Nat := if g.steps = 0 then (if g.pwm then 0 else g.rest) else g.edge g.steps.natAbs g.steps.natAbs

/-- Steps of a leg issued `t` ns after its origin: the largest edge number at or before `t`, by halving. -/
def Leg.count (g : Leg) (t : Nat) : Nat → Nat → Nat → Nat
  | 0, lo, _ => lo
  | f + 1, lo, hi =>
    if hi ≤ lo then lo
    else
      let mid := (lo + hi + 1) / 2
      if g.edge g.steps.natAbs mid ≤ t then g.count t f mid hi else g.count t f lo (mid - 1)
def Leg.issued (g : Leg) (t : Nat) : Nat :=
  if g.hold then t / max 1 g.rest else if g.steps = 0 then 0 else g.count t 40 0 g.steps.natAbs

/-- Velocity of a leg `t` ns after its origin, in 10^-9 steps per second. -/
def Leg.speed (g : Leg) (t : Nat) : Nat :=
  if g.pwm ∨ g.steps = 0 then 0
  else if g.brake then g.v0 - g.down * t
  else min (min (g.v0 + g.up * t) (g.v0 + g.down * (g.length - t))) (g.vmax * 1000000000)

def Leg.forward (g : Leg) : Bool := decide (0 ≤ g.steps)
def signedSteps (g : Leg) (n : Nat) : Int := if 0 ≤ g.steps then (n : Int) else -(n : Int)

/-- How far a run of legs has come. -/
structure Travel where
  steps : Int := 0
  speed : Nat := 0
  leg : Nat := 0
deriving DecidableEq, Repr, Inhabited

/-- Progress of the legs `t` ns after firing: the first leg waits `setup` ns, and a later one when the direction changes (R400). -/
def travel (setup : Nat) : List Leg → Option Bool → Nat → Travel → Travel
  | [], _, _, s => { s with speed := 0 }
  | g :: r, dir, t, s =>
    let wait := if g.brake || g.pwm then 0 else match dir with
      | none => setup
      | some b => if g.steps ≠ 0 ∧ b ≠ g.forward then setup else 0
    if !g.hold && decide (wait + g.length ≤ t) then
      travel setup r (if g.steps = 0 then (match dir with | none => some true | x => x) else some g.forward) (t - wait - g.length)
        { s with steps := s.steps + g.steps, leg := s.leg + 1 }
    else { s with steps := s.steps + signedSteps g (g.issued (t - wait)), speed := if t < wait then g.v0 else g.speed (t - wait) }

/-- The legs of a program's own segments on a channel. -/
def Cfg.legs (c : Cfg) (n : Nat) (b : List B8) : List Leg :=
  (List.range (pulCount b)).map (fun j =>
    let o := 16 + 16 * j
    if c.pulsePwm n then { steps := (leAt b (o + 8) 4 : Nat), rest := leAt b o 4, pwm := true, hold := decide (leAt b (o + 8) 4 = 0) }
    else
      let k := toSigned 32 (leAt b o 4)
      if k = 0 then { steps := 0, rest := 1000 * leAt b (o + 4) 4 }
      else { steps := k, v0 := 1000000000 * c.vMin n, vmax := leAt b (o + 4) 4, up := leAt b (o + 8) 4, down := leAt b (o + 12) 4 })

/-- The running program's legs, the braking of the one it aborted first (R401). -/
def Dev.pulseLegs (d : Dev) (n : Nat) (h : HeldProg) : List Leg :=
  let v := d.pulse n
  (if v.brake = 0 then [] else [{ steps := v.brake, v0 := v.brakeV, down := max 1 v.brakeD, brake := true }]) ++ d.cfg.legs n h.bytes

/-- Progress of channel `n` at the present time. -/
def Dev.pulseTravel (d : Dev) (n : Nat) : Travel :=
  let v := d.pulse n
  match v.running with
  | none => {}
  | some h => travel (d.cfg.dirSetup n) (d.pulseLegs n h) (if v.brake = 0 then none else some (decide (0 < v.brake))) (d.time - v.start).toNat {}

/-- Position of channel `n`'s pulse track (R75). -/
def Dev.pulsePos (d : Dev) (n : Nat) : W64 := (d.pulse n).pos + BitVec.ofInt 64 (d.pulseTravel n).steps

/-- The leg that runs now. -/
def Dev.pulseLeg (d : Dev) (n : Nat) : Option Leg :=
  match (d.pulse n).running with
  | none => none
  | some h => (d.pulseLegs n h)[(d.pulseTravel n).leg]?

/-- Steps the running leg needs to slow down to v_min at its deceleration, in its direction (R399). -/
def Dev.brakeSteps (d : Dev) (n : Nat) : Int × Nat × Nat :=
  match d.pulseLeg n with
  | none => (0, 0, 1)
  | some g =>
    let v := (d.pulseTravel n).speed
    let k := cdiv (v * v - d.cfg.vMin n * d.cfg.vMin n * squareUnit) (2 * max 1 g.down * squareUnit)
    (if g.pwm ∨ g.steps = 0 then 0 else signedSteps g k, v, max 1 g.down)

/-- The result word of a pulse program (R398). -/
def pulseResult (status : Nat) (steps : Int) : List B8 := leBytes 8 (status + 256 * ofSigned 32 steps + 2 ^ 63)

end Sys2Proof.Machine
end

