-- ==== Sys2Proof/Machine/Ops.lean ====
section
/-! DEFINITION. Memory: tile tables and tiers behind the partition address range (R187-R217), and the tagged on-chip buffers (R200). -/
namespace Sys2Proof.Machine
open Sys2Proof

/-- What ends an access: status, detail code, detail [31:8], record address and its space (R128). -/
structure Fail where
  status : B8
  code : Nat
  val : Nat := 0
  addr : Nat := 0
  space : Nat := 3
deriving DecidableEq, Repr, Inhabited

/-! ## Addresses (R187, R189) -/

def sramBase : Nat := 0x10000000000
/-- Device physical address of a cluster buffer byte (R140). -/
def clusterDpa (c off : Nat) : Nat := sramBase + c * 0x80000 + off
/-- Device physical address of a region buffer byte (R140). -/
def regionDpa (r off : Nat) : Nat := sramBase + 0x8000000 + r * 0x100000 + off
/-- The areas of the on-chip SRAM aperture (R189). -/
inductive SramArea where
  | clusters
  | regions
  | mediaLines
  | systemTables
  | firmware
  | island
  | retention
deriving DecidableEq, Repr
/-- First byte and size of an area. -/
def SramArea.range : SramArea → Nat × Nat
  | .clusters => (sramBase, 0x8000000)
  | .regions => (sramBase + 0x8000000, 0x1000000)
  | .mediaLines => (sramBase + 0x9000000, 0x800000)
  | .systemTables => (sramBase + 0x9800000, 0x400000)
  | .firmware => (sramBase + 0x9C00000, 0x200000)
  | .island => (sramBase + 0x9E00000, 0x100000)
  | .retention => (sramBase + 0x9F00000, 0x100000)
/-- The area that holds an address of the aperture. -/
def sramArea (a : Nat) : Option SramArea :=
  [SramArea.clusters, .regions, .mediaLines, .systemTables, .firmware, .island, .retention].find? (fun x => decide (x.range.1 ≤ a) && decide (a < x.range.1 + x.range.2))
def nvmeFrameBase : Nat := 0xC000000
def tileSize : Nat := 16384
/-- Key in the tile table of tile `t` of partition `p`; a tile of a slot window belongs to a generation `g` of the slot (R245), any
other tile has `g` 0. -/
def tileKey (p t g : Nat) : Nat := g * 1073741824 + p * 67108864 + t
def keyGen (k : Nat) : Nat := k / 1073741824
def keyPart (k : Nat) : Nat := k / 67108864 % 16
def keyAddr (k : Nat) : Nat := k % 67108864 * tileSize

/-- Who accesses a partition's range: the party, the partition, the slot and generation that the work pins (R245), and the
workspace range it may write in the slot's window (R227, R308). -/
structure View where
  party : Nat
  part : Nat
  pin : Option (Nat × Nat) := none
  ws : Option (Nat × Nat) := none
deriving DecidableEq, Repr, Inhabited

/-- Whether an address lies in the slot windows (R227). -/
def inWindow (a : Nat) : Bool := decide (0x8000000000 ≤ a)
/-- Slot whose window holds an address, and the first address of a slot's window (R227). -/
def windowSlot (a : Nat) : Nat := (a - 0x8000000000) / 0x1000000000
def windowBase (s : Nat) : Nat := 0x8000000000 + s * 0x1000000000

/-- The generation that an address resolves to: the pinned one, else the slot's current one (R245). -/
def Dev.genAt (d : Dev) (v : View) (a : Nat) : Nat :=
  if !inWindow a then 0
  else
    let cur := match d.currentGen (slotNo v.part (windowSlot a)) with | some g => g.number | none => 0
    match v.pin with
    | some (s, g) => if s = windowSlot a then g else cur
    | none => cur
/-- Whether a view may write an address of a slot window (R227). -/
def View.mayWrite (v : View) (a : Nat) : Bool :=
  match v.ws with
  | some (b, n) => decide (b ≤ a) && decide (a < b + n)
  | none => false
/-- Device physical address of an on-chip slot. -/
def slotDpa (k : Nat) : Nat := clusterDpa (k / 32) (k % 32 * tileSize)
/-- Tag number of an on-chip byte. -/
def tagNo (dpa : Nat) : Nat := (dpa - sramBase) / tileSize

/-- Usable capacity in MiB (R209) and the system area in MiB (R208). -/
def usableOf (capGib prot : Nat) : Nat := if prot = 3 then capGib * 876 - 64 else capGib * 1020 - 64
def systemOf (capGib : Nat) : Nat := capGib * 4 + 64

/-- First address of the integrity tags and of the version tree, which lie at the top of the installed capacity (R208). -/
def tagBase (capGib : Nat) : Nat := capGib * 1073741824 - capGib * 1073741824 / 8
def treeBase (capGib : Nat) : Nat := tagBase capGib - capGib * 1073741824 / 64
/-- First address of the system area, which follows the data area (R208, R209). -/
def systemBase (capGib prot : Nat) : Nat := usableOf capGib prot * 1048576
/-- Where the MAC of the line at `a` lies, and the leaf that covers it (R208). -/
def tagAddr (capGib a : Nat) : Nat := tagBase capGib + a / 8
def leafAddr (capGib a : Nat) : Nat := treeBase capGib + a / 4096 * 64
/-- A leaf counter node: a 56-bit major counter, then 64 minor counters of 7 bits (R208; the order in the line is the model's, DESIGN
CHOICE). -/
def leafWord (major : BitVec 56) (minors : List (BitVec 7)) : W512 :=
  BitVec.ofNat 512 (major.toNat + ((minors.take 64).mapIdx (fun i m => m.toNat * 2 ^ (56 + 7 * i))).sum)

/-- KV pools together, in 16 KiB frames: they lie at the top of the data area (R209). -/
def Dev.kvFrames (d : Dev) : Nat := ((List.range 16).map (fun p => if d.cfg.partOn p then d.cfg.kvPoolMib p * 64 else 0)).sum
/-- Frames of the data area that tiles may take. -/
def Dev.tileFrames (d : Dev) : Nat := d.mem.usableMib * 64 - d.kvFrames

/-! ## The KV pools (R264) -/

def Dev.kvMetaMib (d : Dev) (p : Nat) : Nat := cdiv (d.cfg.kvPoolMib p) 512 * 2
def Dev.kvChunks (d : Dev) (p : Nat) : Nat := (d.cfg.kvPoolMib p - d.kvMetaMib p) / 2
/-- First byte of the pool of partition `p`: the pools lie at the top of the data area, ascending by partition (R209). -/
def Dev.kvBase (d : Dev) (p : Nat) : Nat :=
  (d.tileFrames + ((List.range p).map (fun q => if d.cfg.partOn q then d.cfg.kvPoolMib q * 64 else 0)).sum) * tileSize
/-- Device physical address of a granule. -/
def Dev.granuleDpa (d : Dev) (p g : Nat) : Nat := d.kvBase p + d.kvMetaMib p * 1048576 + g * 4096

/-- Objects of a pool: class (kind, granules) and first granule. Kinds are those of R265: pages, page lists, block tables, tree nodes. -/
def Dev.kvObjects (d : Dev) (p : Nat) : List ((Nat × Nat) × Nat) :=
  (d.kv.pages.filterMap (fun e => e.2.bind (fun g => if g.partition = p then some ((1, g.count), g.granule) else none)))
  ++ (d.kv.lists.filterMap (fun e => e.2.bind (fun g => if g.partition = p then some ((3, 2), g.granule) else none)))
  ++ (d.tok.seqs.flatMap (fun e => match e.2 with
    | some q => if q.partition = p then ((q.root ++ q.draftRoot).filterMap (fun x => x.2)).map (fun g => ((4, 1), g)) else []
    | none => []))
  ++ ((d.kv.nodeGranules.filter (fun x => decide (x.1 = p))).map (fun x => ((5, 1), x.2)))
/-- The tree of a tenant: its group's (64 + g) where it has opted into one, else its own (R291). -/
def Dev.treeOf (d : Dev) (t : Nat) : Nat :=
  let g := d.cfg.shareGroup t
  if d.cfg.shareOptIn t && d.cfg.groupOn g then 64 + g else t

def Dev.tile (d : Dev) (k : Nat) : Option Tile := d.mem.tiles.get k none
def Dev.putTile (d : Dev) (k : Nat) (v : Option Tile) : Dev := { d with mem := { d.mem with tiles := d.mem.tiles.set k v } }
/-- Capacity, in tiles, that the quotas promise to the tenants; the management function's tiles come from the rest (R192). -/
def Dev.promised (d : Dev) : Nat := ((List.range 64).map (fun t => d.cfg.tenQuotaMib t * 64)).sum
/-- Key of the tile that holds an address. -/
def Dev.keyAt (d : Dev) (v : View) (a : Nat) : Nat := tileKey v.part (a / tileSize) (d.genAt v a)

/-- The mapped tiles with their keys. -/
def Dev.mapped (d : Dev) : List (Nat × Tile) := d.mem.tiles.filterMap (fun e => e.2.map (fun v => (e.1, v)))

/-- Spans that hold at least one tile of a party; a span holding tiles of two generations counts once for each (R192, R229). -/
def Dev.spans (d : Dev) (owner : Nat) : List Nat :=
  ((d.mapped.filter (fun e => decide (e.2.owner = owner))).map (fun e => e.1 / 16384)).eraseDups

/-- The tile table entry of a tile (R195). -/
def Tile.word0 (t : Tile) : W64 :=
  regOf [(0, 1, 1), (1, 1, t.tier), (2, 1, one t.onchip), (3, 1, one t.dirty), (4, 1, one t.nvmeCopy), (5, 1, one t.ebf16), (6, 1, one t.readOnly), (7, 1, one t.busy),
    (8, 7, t.owner), (16, 32, t.frame), (48, 13, t.slot)]
def Tile.word1 (t : Tile) : W64 := if t.ebf16 then regOf [(0, 42, t.descLine)] else regOf [(0, 32, t.copyFrame)]
/-- Tiles mapped in span `s` of partition `p` (R194). -/
def Dev.spanMapped (d : Dev) (p s : Nat) : Nat := (d.mapped.filter (fun e => decide (keyPart e.1 = p) && decide (keyAddr e.1 / 0x10000000 = s))).length
/-- Device physical address of a span page: a place of 256 KiB in the system area that the device chooses (R194). -/
def Dev.spanPage (d : Dev) (p s : Nat) : Nat := (systemBase d.mem.cfgCap d.cfg.protection / 0x40000 + Config.spanPage p s % (d.mem.systemMib * 4)) * 0x40000
/-- The directory entry of a span: its page exists while a tile of it is mapped (R194). -/
def Dev.dirEntry (d : Dev) (p s : Nat) : W64 :=
  let n := d.spanMapped p s
  if n = 0 then 0 else regOf [(0, 1, 1), (18, 30, d.spanPage p s / 0x40000), (48, 15, n)]

/-- Tiles a party holds in LP5X, and its NVMe places as backing or as copy (R192, R225). -/
def Dev.lp5xTiles (d : Dev) (owner : Nat) : Nat := (d.mapped.filter (fun e => decide (e.2.owner = owner) && decide (e.2.tier = 0))).length
def Dev.nvmeTilePlaces (d : Dev) (owner : Nat) : Nat :=
  (d.mapped.filter (fun e => decide (e.2.owner = owner) && (decide (e.2.tier = 1) || e.2.nvmeCopy))).length
/-- NVMe places of a tenant's images (R328). -/
def Dev.imagePlaces (d : Dev) (owner : Nat) : Nat :=
  ((d.tok.seqs.filterMap (fun e => e.2)).map (fun q =>
    if q.tenant = owner then (match q.image with | some im => if im.nvme then im.places else 0 | none => 0) else 0)).sum
def Dev.nvmePlaces (d : Dev) (owner : Nat) : Nat := d.nvmeTilePlaces owner + d.imagePlaces owner

/-- `n` more LP5X places for a party take nothing that is promised to a quota (R192). -/
def Dev.mayPlace (d : Dev) (owner n : Nat) : Bool := decide (owner < 64) || decide (d.lp5xTiles owner + n + d.promised ≤ d.tileFrames)

/-- A free LP5X frame for a tile: the lowest. -/
def Dev.freeFrame (d : Dev) : Option Nat :=
  let used := (d.mapped.filter (fun e => decide (e.2.tier = 0))).map (fun e => e.2.frame)
  let f := lowestFree used 0 (used.length + 1)
  if f < d.tileFrames then some f else none

/-! ## The NVMe tier (R210-R213) -/

/-- NVMe frames in use by tiles. -/
def Dev.nvmeFrames (d : Dev) : List Nat :=
  (d.mapped.filter (fun e => decide (e.2.tier = 1))).map (fun e => e.2.frame)
    ++ (d.mapped.filter (fun e => decide (e.2.tier = 0) && e.2.nvmeCopy)).map (fun e => e.2.copyFrame)
/-- Drive of an NVMe frame. -/
def driveOf (f : Nat) : Nat := (f - nvmeFrameBase) / 268435456
def Dev.cachePlaces (d : Dev) (drv : Nat) : Nat :=
  ((d.mdl.cache.filter (fun e => decide (e.drive = drv))).map (fun e => cdiv e.bytes.length tileSize)).sum
def Dev.imagesOn (d : Dev) (drv : Nat) : Nat :=
  ((d.tok.seqs.filterMap (fun e => e.2)).map (fun q =>
    match q.image with | some im => if im.nvme && decide (im.drive = drv) then im.places else 0 | none => 0)).sum
def Dev.nvmeUsed (d : Dev) (drv : Nat) : Nat :=
  (d.nvmeFrames.filter (fun f => decide (driveOf f = drv))).length + d.cachePlaces drv + d.imagesOn drv
/-- Free places of a drive. -/
def Dev.nvmeFree (d : Dev) (drv : Nat) : Nat :=
  if (d.mem.nvmePresent).getLsbD drv then d.mem.nvmeCap.get drv 0 - d.nvmeUsed drv else 0
/-- The drive with more free space, drive 0 on a tie (R211). -/
def Dev.nvmeDrive (d : Dev) : Nat := if d.nvmeFree 0 < d.nvmeFree 1 then 1 else 0

/-- The oldest NVMe copy that `ok` admits: its key. -/
def Dev.oldestCopy (d : Dev) (ok : Tile → Bool) : Option (Nat × Tile) :=
  (d.mapped.filter (fun e => decide (e.2.tier = 0) && e.2.nvmeCopy && ok e.2)).foldl
    (fun b e => match b with
      | none => some e
      | some x => if e.2.age < x.2.age then some e else some x) none
/-- Drops a copy: its tile stays in LP5X alone (R212). -/
def Dev.dropCopy (d : Dev) (e : Nat × Tile) : Dev :=
  { d with mem := { d.mem with tiles := d.mem.tiles.set e.1 (some { e.2 with nvmeCopy := false, copyFrame := 0 }) } }

/-- Frees tier space until `n` places are free: cache entries least recently used first, then copies oldest first (R212). -/
def Dev.nvmeMake (d : Dev) (n : Nat) : Nat → Dev
  | 0 => d
  | fuel + 1 =>
    if n ≤ d.nvmeFree d.nvmeDrive then d
    else match d.mdl.cache with
      | _ :: r => Dev.nvmeMake { d with mdl := { d.mdl with cache := r } } n fuel
      | [] => match d.oldestCopy (fun _ => true) with
        | some e => Dev.nvmeMake (d.dropCopy e) n fuel
        | none => d

/-- Drops a party's own copies, oldest first, until `n` more places keep its limit (R212). -/
def Dev.dropOwn (d : Dev) (owner n : Nat) : Nat → Dev
  | 0 => d
  | fuel + 1 =>
    if d.nvmePlaces owner + n ≤ d.cfg.tenQuotaMib owner * 64 then d
    else match d.oldestCopy (fun t => decide (t.owner = owner)) with
      | some e => Dev.dropOwn (d.dropCopy e) owner n fuel
      | none => d
/-- Takes an NVMe place for a tile of `owner`: the frame, or the failure of R192 or R212. -/
def Dev.takeNvme (d : Dev) (owner : Nat) : Dev × Except Fail Nat :=
  let lim := d.cfg.tenQuotaMib owner * 64
  let d1 := if lim ≤ d.nvmePlaces owner then
      (match d.oldestCopy (fun t => decide (t.owner = owner)) with | some e => d.dropCopy e | none => d) else d
  if lim ≤ d1.nvmePlaces owner then (d1, .error { status := 0x0F, code := 0xB4 })
  else
    let d2 := d1.nvmeMake 1 (d1.mdl.cache.length + d1.mem.tiles.length + 1)
    let drv := d2.nvmeDrive
    if d2.nvmeFree drv = 0 then (d2, .error { status := 0x01, code := 0xB7 })
    else
      let used := d2.nvmeFrames
      (d2, .ok (lowestFree used (nvmeFrameBase + drv * 268435456) (used.length + 1)))

/-- A command to a drive: it fails when it failed twice; one that succeeds leaves no retry behind it (R213). -/
def Dev.driveUse (d : Dev) (drv : Nat) : Dev × Bool :=
  if d.mem.nvmeFail.get drv false then ({ d with mem := { d.mem with nvmeFail := d.mem.nvmeFail.set drv false } }, false)
  else if d.mem.nvmeRetry.get drv false then ({ d with mem := { d.mem with nvmeRetry := d.mem.nvmeRetry.set drv false } }, true)
  else (d, true)
/-- An access to the drive that holds NVMe frame `f`. -/
def Dev.driveCheck (d : Dev) (f : Nat) : Dev × Option Fail :=
  match d.driveUse (driveOf f) with
  | (d1, true) => (d1, none)
  | (d1, false) => (d1, some { status := 0x11, code := 0xB8, addr := f * tileSize, space := 1 })

/-! ## External memory protection (R432-R436) -/

/-- The key index of the frame that holds an address of LP5X: that of the tile or of the page there, 0x51 in the system area and for the
tables of a pool, 0xFE where the frame is free (R432). -/
def Dev.keyIndexAt (d : Dev) (a : Nat) : Nat :=
  match d.mapped.find? (fun e => decide (e.2.tier = 0) && decide (e.2.frame = a / tileSize)) with
  | some e => if e.2.owner < 64 then e.2.owner else 0x50
  | none =>
    match (d.kv.pages.filterMap (fun e => e.2)).find? (fun x => decide (d.granuleDpa x.partition x.granule ≤ a) && decide (a < d.granuleDpa x.partition x.granule + 4096 * x.count)) with
    | some x => x.keyIndex
    | none =>
      if d.mem.usableMib * 1048576 ≤ a then 0x51
      else if a / tileSize < d.tileFrames then 0xFE
      else match ((List.range 16).filter d.cfg.partOn).find? (fun p => decide (d.kvBase p ≤ a) && decide (a < d.kvBase p + d.cfg.kvPoolMib p * 1048576)) with
      | none => 0xFE
      | some p =>
        let g := (a - d.granuleDpa p 0) / 4096
        if a < d.granuleDpa p 0 ∨ (d.kvObjects p).any (fun o => decide (o.1.1 ≠ 1) && decide (o.2 ≤ g) && decide (g < o.2 + o.1.2)) = true then 0x51 else 0xFE
/-- The key map's byte for a frame (R432); a frame that pages of several owners share has the byte of the first (DESIGN CHOICE). -/
def Dev.keyMap (d : Dev) (f : Nat) : Nat := (((List.range 4).map (fun i => d.keyIndexAt (f * tileSize + 4096 * i))).find? (fun k => decide (k ≠ 0xFE))).getD 0xFE

/-- A child of a counter node is written: its minor counter rises; at 128 the major counter rises first and every minor is 0 (R434). -/
def CtrNode.bump (v : CtrNode) (i : Nat) : CtrNode :=
  if v.minors.get i 0 = 127 then { major := v.major + 1, minors := [(i, 1)] } else { v with minors := v.minors.set i (v.minors.get i 0 + 1) }
/-- A write of the line or node `i` below level `lvl` counts in its leaf and in every node above it (R434). -/
def bumpUp : Nat → Nat → Nat → Tbl CtrNode → Tbl CtrNode
  | 0, _, _, t => t
  | f + 1, lvl, i, t => let k := lvl * 4294967296 + i / 64; bumpUp f (lvl + 1) (i / 64) (t.set k ((t.get k {}).bump (i % 64)))
/-- The lines of LP5X that a write of `n` bytes touches have new versions; only protection 3 has a version tree (R208, R434). -/
def Dev.versions (d : Dev) (a n : Nat) : Tbl CtrNode :=
  if d.cfg.protection ≠ 3 ∨ sramBase ≤ a then d.mem.nodes
  else (List.range (cdiv (a + n) 64 - a / 64)).foldl (fun t i => bumpUp 6 0 (a / 64 + i) t) d.mem.nodes
/-- The version of the line at `a` (R433, R434). -/
def Dev.lineVersion (d : Dev) (a : Nat) : Nat :=
  if d.cfg.protection ≠ 3 then 0
  else let v := d.mem.nodes.get (a / 4096) {}; v.major.toNat * 128 + (v.minors.get (a / 64 % 64) 0).toNat
/-- The 64 bytes that LP5X holds for the line at `a`: ciphertext under the keys of its frame with protection 1 or 3 (R433). -/
def Dev.lineStored (d : Dev) (a : Nat) : Option (List B8) :=
  let l := d.mem.phys.read (a / 64 * 64) 64
  if d.cfg.protection = 0 then some l
  else (d.mem.keys.get (d.keyIndexAt a) none).map (fun k => Config.aesXts k.data k.tweak (BitVec.ofNat 128 (a / 64 + 18446744073709551616 * d.lineVersion a)) l)
/-- The first 8 bytes of the GMAC tag of a line or node at `a` with version `v` (R435). -/
def macOf (key : W256) (a v : Nat) (l : List B8) : List B8 :=
  (leBytes 16 (Config.gcmTag key ((leBytes 4 (a / 64)).reverse ++ (leBytes 8 v).reverse) (leBytes 8 a ++ leBytes 8 v ++ l) []).toNat).take 8
/-- The MAC that the tag area holds for the line at `a` (R435). -/
def Dev.lineMac (d : Dev) (a : Nat) : Option (List B8) :=
  match d.lineStored a, d.mem.keys.get (d.keyIndexAt a) none with
  | some l, some k => some (macOf k.mac (a / 64 * 64) (d.lineVersion a) l)
  | _, _ => none
/-- The bytes of a leaf, and its MAC under the system key with its parent's counter for it as version (R208, R435). -/
def Dev.leafBytes (d : Dev) (i : Nat) : List B8 :=
  let v := d.mem.nodes.get i {}
  leBytes 64 (leafWord v.major ((List.range 64).map (fun j => v.minors.get j 0))).toNat
def Dev.leafMac (d : Dev) (i : Nat) : Option (List B8) :=
  let u := d.mem.nodes.get (4294967296 + i / 64) {}
  (d.mem.keys.get 0x51 none).map (fun k =>
    macOf k.mac (leafAddr d.mem.cfgCap (i * 4096)) (u.major.toNat * 128 + (u.minors.get (i % 64) 0).toNat) (d.leafBytes i))

/-! ## ECC and integrity of what is read (R207, R217, R436) -/

def Dev.countUe (d : Dev) (n : Nat := 1) : Dev :=
  { d with mem := { d.mem with sramFlags := d.mem.sramFlags ||| 2, sramUe := satAdd d.mem.sramUe n } }
def Dev.countLinkUe (d : Dev) : Dev :=
  { d with mem := { d.mem with dramFlags := d.mem.dramFlags ||| 2, dramUe := satInc d.mem.dramUe } }
def Dev.countMac (d : Dev) : Dev :=
  { d with mem := { d.mem with dramFlags := d.mem.dramFlags ||| 4, macCnt := satInc d.mem.macCnt } }

/-- A version-tree node fails (R436, R444). -/
def Dev.countTree (d : Dev) : Dev := { d with sec := { d.sec with treeFail := true, treeFailCnt := satInc d.sec.treeFailCnt } }

/-- A marked unit of `w` bytes at `x` lies in part in a range; the first one that a list names. -/
def touches (w a n x : Nat) : Bool := decide (x < a + n) && decide (a < x + w)
def firstIn (w : Nat) (l : List Nat) (a n : Nat) : Option Nat := (l.filter (touches w a n)).min?

/-- Reads `n` bytes of SRAM whose words `live` admits: corrected words are written back, and every uncorrectable word is counted; the
first of them fails the read (R217). -/
def Dev.readSram (d : Dev) (live : Nat → Bool) (a n : Nat) : Dev × Except Fail (List B8) :=
  let hit (x : Nat) : Bool := touches 8 a n x && live x
  let ce := (d.mem.ceWords.filter hit).length
  let d1 := if ce = 0 then d else
    { d with mem := { d.mem with ceWords := d.mem.ceWords.filter (fun x => !hit x), sramFlags := d.mem.sramFlags ||| 1, sramCe := satAdd d.mem.sramCe ce } }
  match (d.mem.bad.filter live).filter (touches 8 a n) with
  | [] => (d1, .ok (d.mem.phys.read a n))
  | x :: xs => (d1.countUe (xs.length + 1), .error { status := 0x0C, code := 0x93, addr := xs.foldl min x / 64 * 64, space := 1 })

/-- Reads of LP5X whose transfers link ECC corrects, with the channel of each: counted on the device and on the channel (R207, R224). -/
def Dev.countLinkCe (d : Dev) (a n : Nat) : Dev :=
  let ce := d.mem.ceLines.filter (fun x => touches 64 a n x.1)
  if ce.isEmpty then d
  else { d with mem := { d.mem with
      ceLines := d.mem.ceLines.filter (fun x => !touches 64 a n x.1), dramFlags := d.mem.dramFlags ||| 1, dramCe := satAdd d.mem.dramCe ce.length
      chLinkCe := ce.foldl (fun t x => t.set x.2 (satInc (t.get x.2 0))) d.mem.chLinkCe } }

/-- Reads `n` bytes at a device physical address, with the failures of R207, R211, R217 and R436. A block of the NVMe tier is read whole,
for its tag covers all of it; a free frame of LP5X reads zeros, and without protection 3 a corrupt line is delivered with the bytes that the
error left. -/
def Dev.readPhys (d : Dev) (a n : Nat) : Dev × Except Fail (List B8) :=
  if sramBase ≤ a ∧ a < 0x20000000000 then d.readSram (fun _ => true) a n
  else if sramBase ≤ a then
    match firstIn 64 d.mem.badMac (a / 4096 * 4096) (cdiv (a + n) 4096 * 4096 - a / 4096 * 4096) with
    | some x => (d, .error { status := 0x0D, code := 0xB9, addr := x / 64 * 64, space := 1 })
    | none => (d, .ok (d.mem.phys.read a n))
  else
    if d.keyIndexAt a = 0xFE then (d, .ok (List.replicate n 0))
    else
    let d1 := d.countLinkCe a n
    match firstIn 64 d.mem.badLp a n with
    | some x => (d1.countLinkUe, .error { status := 0x0C, code := 0xBA, addr := x / 64 * 64, space := 1 })
    | none =>
      if d.cfg.protection ≠ 3 then (d1, .ok (d.mem.phys.read a n))
      else match firstIn 64 d.mem.badMac a n, d.sec.badNodes.find? (fun r => decide (a < r.1 + r.2.1) && decide (r.1 < a + n)) with
        | some x, _ => (d1.countMac, .error { status := 0x0D, code := 0xBB, addr := x / 64 * 64, space := 1 })
        | none, some r => (d1.countTree, .error { status := 0x0D, code := 0xAA, addr := r.2.2, space := 1 })
        | none, none => (d1, .ok (d.mem.phys.read a n))

/-- Words and lines written in full lose their errors (R217). -/
def Mem.unmark (m : Mem) (a n : Nat) : Mem :=
  let keep (w x : Nat) : Bool := decide (x < a) || decide (a + n < x + w)
  { m with bad := m.bad.filter (keep 8), ceWords := m.ceWords.filter (keep 8), badLp := m.badLp.filter (keep 64),
           ceLines := m.ceLines.filter (fun x => keep 64 x.1), badMac := m.badMac.filter (keep 64) }

/-- Writes bytes at a device physical address. -/
def Dev.writePhys (d : Dev) (a : Nat) (l : List B8) : Dev :=
  { d with mem := { d.mem.unmark a l.length with phys := d.mem.phys.write a l, nodes := d.versions a l.length } }
/-- Fills `n` bytes at a device physical address with zeros. -/
def Dev.clearPhys (d : Dev) (a n : Nat) : Dev := { d with mem := { d.mem.unmark a n with phys := d.mem.phys.clear a n, nodes := d.versions a n } }
/-- A scrub overwrites `n` bytes under a key that it destroys: what they held is gone, and no version, tag or tree node is written (R437). -/
def Dev.scrubPhys (d : Dev) (a n : Nat) : Dev := { d with mem := { d.mem.unmark a n with phys := d.mem.phys.clear a n } }

/-- Copies a whole 16 KiB place. -/
def Dev.copyPlace (d : Dev) (src dst : Nat) : Dev :=
  let cells := (d.mem.phys.filter (fun c => decide (src ≤ c.1) && decide (c.1 < src + tileSize))).map (fun c => (c.1 - src + dst, c.2))
  { d with mem := { d.mem.unmark dst tileSize with phys := (d.mem.phys.clear dst tileSize).overlay cells, nodes := d.versions dst tileSize } }
/-- The blocks of a place of the NVMe tier that pieces touch are sealed anew (R211). -/
def Dev.sealBlocks (d : Dev) (dst : Nat) (ps : List (Nat × Nat)) : Dev :=
  if dst < nvmeFrameBase * tileSize then d
  else { d with mem := { d.mem with badMac := d.mem.badMac.filter (fun x =>
      !(ps.any (fun p => touches 64 ((dst + p.1) / 4096 * 4096) (cdiv (dst + p.1 + p.2) 4096 * 4096 - (dst + p.1) / 4096 * 4096) x))) } }
/-- Copies some pieces (offset, length) of a place; the rest of the destination keeps its contents (R181). -/
def Dev.copyPieces (d : Dev) (src dst : Nat) (ps : List (Nat × Nat)) : Dev :=
  if ps = [(0, tileSize)] then d.copyPlace src dst
  else (ps.foldl (fun d x => d.writePhys (dst + x.1) (d.mem.phys.read (src + x.1) x.2)) d).sealBlocks dst ps
def Dev.clearPlace (d : Dev) (dst : Nat) : Dev := d.clearPhys dst tileSize

/-! ## Moves between tiers (R199, R214) -/

/-- Lines (0-255) of a mask, ascending. -/
def maskLines (m : W256) : List Nat := (List.range 256).filter (fun i => m.getLsbD i)

/-- An on-chip copy gives up its slot: the lines written since are written to LP5X and marked (R199, R201). -/
def Dev.writeBack (d : Dev) (key : Nat) (v : Tile) : Dev :=
  let src := slotDpa v.slot
  let tag := d.mem.tags.get (tagNo src) {}
  let good := (maskLines tag.written).filter (fun i => (firstIn 8 d.mem.bad (src + 64 * i) 64).isNone)
  let d1 := good.foldl (fun d i =>
    match d.readPhys (src + 64 * i) 64 with
    | (d', .ok l) => d'.writePhys (v.frame * tileSize + 64 * i) l
    | (d', .error _) => d') d
  let sm := if v.nvmeCopy then good.foldl (fun m i => m ||| (1#256 <<< i)) (d.mem.sector.get v.frame 0) else d.mem.sector.get v.frame 0
  { d1 with mem := { d1.mem with
      tiles := d1.mem.tiles.set key (some { v with onchip := false, dirty := false, slot := 0 })
      sector := d1.mem.sector.set v.frame sm } }

/-- Reads some pieces (offset, length) of a place for a move: the first that cannot be read ends it. -/
def Dev.readPieces (d : Dev) (src : Nat) (ps : List (Nat × Nat)) : Dev × Option Fail :=
  ps.foldl (fun s x =>
    match s with
    | (d, some e) => (d, some e)
    | (d, none) => (match d.readPhys (src + x.1) x.2 with | (d1, .error e) => (d1, some e) | (d1, .ok _) => (d1, none))) (d, none)

/-- Brings a tile of the NVMe tier to a new LP5X place, by the pieces that the mover carries (R214 target 1, R215). -/
def Dev.bringUp (d : Dev) (key : Nat) (v : Tile) (ps : List (Nat × Nat) := [(0, tileSize)]) : Dev × Option Fail :=
  if v.tier = 0 then (d, none)
  else if decide (v.owner < 64) && decide (d.cfg.tenQuotaMib v.owner * 64 ≤ d.lp5xTiles v.owner) then (d, some { status := 0x0F, code := 0xB3 })
  else match d.freeFrame with
    | none => (d, some { status := 0x01, code := 0xB7 })
    | some f =>
      match d.driveCheck v.frame with
      | (d1, some e) => (d1, some e)
      | (d1, none) =>
        match d1.readPieces (v.frame * tileSize) ps with
        | (d2, some e) => (d2, some e)
        | (d2, none) =>
          let d3 := d2.copyPieces (v.frame * tileSize) (f * tileSize) ps
          let v' := if v.ebf16 then { v with tier := 0, frame := f } else { v with tier := 0, frame := f, nvmeCopy := true, copyFrame := v.frame, age := d3.mem.freshCopy }
          ({ d3 with mem := { d3.mem with tiles := d3.mem.tiles.set key (some v'), sector := d3.mem.sector.set f 0, freshCopy := d3.mem.freshCopy + 1 } }, none)

/-- Sends a tile to the NVMe tier (R214 target 2): blocks with a set mask bit where a copy exists, else all of it. -/
def Dev.sendDown (d : Dev) (key : Nat) (v : Tile) (ps : List (Nat × Nat) := [(0, tileSize)]) : Dev × Option Fail :=
  if v.tier = 1 then (d, none)
  else if v.nvmeCopy then
    match d.driveCheck v.copyFrame with
    | (d1, some e) => (d1, some e)
    | (d1, none) =>
      let mask := d1.mem.sector.get v.frame 0
      let blocks := (List.range 4).filter (fun b => decide (fld mask (64 * b) 64 ≠ 0))
      match d1.readPieces (v.frame * tileSize) (blocks.map (fun b => (4096 * b, 4096))) with
      | (d2, some e) => (d2, some e)
      | (d2, none) =>
        let d3 := (d2.copyPieces (v.frame * tileSize) (v.copyFrame * tileSize) (blocks.map (fun b => (4096 * b, 4096)))).clearPlace (v.frame * tileSize)
        ({ d3 with mem := { d3.mem with tiles := d3.mem.tiles.set key (some { v with tier := 1, frame := v.copyFrame, nvmeCopy := false, copyFrame := 0 }), sector := d3.mem.sector.set v.frame 0 } }, none)
  else
    match d.takeNvme v.owner with
    | (d1, .error e) => (d1, some e)
    | (d1, .ok f) =>
      match d1.driveCheck f with
      | (d2, some e) => (d2, some e)
      | (d2, none) =>
        match d2.readPieces (v.frame * tileSize) ps with
        | (d3, some e) => (d3, some e)
        | (d3, none) =>
          let d4 := (d3.copyPieces (v.frame * tileSize) (f * tileSize) ps).clearPlace (v.frame * tileSize)
          ({ d4 with mem := { d4.mem with tiles := d4.mem.tiles.set key (some { v with tier := 1, frame := f }) } }, none)

/-! ## Access by partition address (R190, R191) -/

/-- The place of a tile's bytes: its slot, or its frame. -/
def tileDpa (v : Tile) : Nat := if v.onchip then slotDpa v.slot else v.frame * tileSize

/-- A failure to bring a tile up, at partition address `a`; a block whose tag fails keeps the device address of its line (R211). -/
def Fail.inTile (e : Fail) (a : Nat) : Fail := if e.status = 0x0D then e else { e with addr := a, space := 0 }

/-- Reads `n` bytes inside one tile. -/
def Dev.readIn (d : Dev) (v : View) (a n : Nat) : Dev × Except Fail (List B8) :=
  let k := d.keyAt v a
  if 0x10000000000 ≤ a then (d, .error { status := 0x03, code := 0xB2, addr := a, space := 0 })
  else match d.tile k with
    | none => (d, .ok (List.replicate n 0))
    | some t =>
      if t.owner ≠ v.party ∧ t.owner ≠ mgmtParty then (d, .error { status := 0x03, code := 0xB0, addr := a, space := 0 })
      else match d.bringUp k t with
        | (d1, some e) => (d1, .error (e.inTile a))
        | (d1, none) =>
          match d1.tile k with
          | none => (d1, .ok (List.replicate n 0))
          | some w => d1.readPhys (tileDpa w + a % tileSize) n

/-- Maps a tile for its first write: limits, a zero-filled LP5X place, owner (R191, R192). -/
def Dev.mapTile (d : Dev) (party k : Nat) : Dev × Option Fail :=
  let isNew := !(d.spans party).contains (k / 16384)
  if decide (party < 64) && decide (d.cfg.tenQuotaMib party * 64 ≤ d.lp5xTiles party) then (d, some { status := 0x0F, code := 0xB3 })
  else if decide (party < 64) && isNew && decide (cdiv (d.cfg.tenQuotaMib party) 128 ≤ (d.spans party).length) then (d, some { status := 0x0F, code := 0xB5 })
  else if (decide (64 ≤ party) && isNew && decide (64 ≤ (d.spans party).length)) || !d.mayPlace party 1 then (d, some { status := 0x01, code := 0xB7 })
  else match d.freeFrame with
    | none => (d, some { status := 0x01, code := 0xB7 })
    | some f =>
      let d1 := (d.clearPlace (f * tileSize)).putTile k (some { owner := party, frame := f })
      ({ d1 with mem := { d1.mem with sector := d1.mem.sector.set f 0 } }, none)

/-- Line mask of `n` bytes from byte `o` of a tile. -/
def lineMask (o n : Nat) : W256 := ((List.range 256).filter (fun i => decide (64 * i < o + n) && decide (o < 64 * i + 64))).foldl (fun m i => m ||| (1#256 <<< i)) 0

/-- Stores bytes in the place of a mapped tile, and marks the lines written (R198, R199). -/
def Dev.storeTile (d : Dev) (k a : Nat) (l : List B8) (w : Tile) : Dev :=
  let d1 := d.writePhys (tileDpa w + a % tileSize) l
  let lm := lineMask (a % tileSize) l.length
  if w.onchip then
    let g := d1.mem.tags.get (tagNo (slotDpa w.slot)) {}
    { d1 with mem := { d1.mem with
        tiles := d1.mem.tiles.set k (some { w with dirty := true })
        tags := d1.mem.tags.set (tagNo (slotDpa w.slot)) { g with written := g.written ||| lm } } }
  else if w.nvmeCopy then
    { d1 with mem := { d1.mem with sector := d1.mem.sector.set w.frame (d1.mem.sector.get w.frame 0 ||| lm) } }
  else d1

/-- Writes bytes inside one tile (R191, R227). -/
def Dev.writeIn (d : Dev) (v : View) (a : Nat) (l : List B8) : Dev × Option Fail :=
  let k := d.keyAt v a
  if 0x10000000000 ≤ a then (d, some { status := 0x03, code := 0xB2, addr := a, space := 0 })
  else if inWindow a && !v.mayWrite a then (d, some { status := 0x03, code := 0xC0, addr := a, space := 0 })
  else
    match (match d.tile k with | some _ => (d, none) | none => d.mapTile v.party k) with
    | (d1, some e) => (d1, some { e with addr := a, space := 0 })
    | (d1, none) =>
      match d1.tile k with
      | none => (d1, none)
      | some t =>
        if !inWindow a && decide (t.owner = mgmtParty ∧ v.party ≠ mgmtParty) then (d1, some { status := 0x03, code := 0xB1, addr := a, space := 0 })
        else if !inWindow a && decide (t.owner ≠ v.party) then (d1, some { status := 0x03, code := 0xB0, addr := a, space := 0 })
        else if !inWindow a && t.readOnly then (d1, some { status := 0x03, code := 0xB1, addr := a, space := 0 })
        else match d1.bringUp k t with
          | (d2, some e) => (d2, some (e.inTile a))
          | (d2, none) =>
            match d2.tile k with
            | none => (d2, none)
            | some w => (d2.storeTile k a l w, none)

/-- The parts of `n` bytes from `a` that lie in one tile each. -/
def tileParts (a n : Nat) : List (Nat × Nat) := pieces tileSize a n (n / tileSize + 2)

/-- A migration of one of these tiles runs, so an access waits (R195, R216). -/
def Dev.busyIn (d : Dev) (v : View) (a n : Nat) : Bool := (tileParts a n).any (fun x => match d.tile (d.keyAt v x.1) with | some t => t.busy | none => false)

/-- A partition is suspended: by the cap loop, or for temperature (R501, R504). -/
def Dev.isSuspended (d : Dev) (p : Nat) : Bool := (d.part p).loopSusp || (d.part p).thermSusp
/-- A Move command that reaches one of these tiles waits: a migration of it runs (R216), or it has an on-chip copy, in a cluster buffer of a
suspended partition, whose clocks stand still (DEDUCED from R501: these are the commands that use its DMA movers). -/
def Dev.moveHeld (d : Dev) (v : View) (a n : Nat) : Bool :=
  d.busyIn v a n || d.isSuspended v.part && (tileParts a n).any (fun x => match d.tile (d.keyAt v x.1) with | some t => t.onchip | none => false)

/-- Reads `n` bytes of a partition's range, tile by tile; the first tile that refuses ends it (R191). -/
def Dev.readMem (d : Dev) (v : View) (a n : Nat) : Dev × Except Fail (List B8) :=
  (tileParts a n).foldl (fun s x =>
    match s with
    | (d, .error e) => (d, .error e)
    | (d, .ok l) =>
      match d.readIn v x.1 x.2 with
      | (d', .error e) => (d', .error e)
      | (d', .ok m) => (d', .ok (l ++ m))) (d, .ok [])

/-- Writes bytes to a partition's range, tile by tile; what was written before the refusing tile stays (R191). -/
def Dev.writeMem (d : Dev) (v : View) (a : Nat) (l : List B8) : Dev × Option Fail :=
  (tileParts a l.length).foldl (fun s x =>
    match s with
    | (d, some e) => (d, some e)
    | (d, none) => d.writeIn v x.1 ((l.drop (x.1 - a)).take x.2)) (d, none)

/-- The device's own write of a ring entry or a record for a party; what the tile table refuses is not written. -/
def Dev.deviceWrite (d : Dev) (party p a : Nat) (l : List B8) : Dev := (d.writeMem { party := party, part := p } a l).1

/-! ## On-chip buffers with their tags (R200) -/

/-- Bytes of one buffer tile as `party` reads them: lines that are not valid read as zeros, whatever their words hold. -/
def Dev.bufTile (d : Dev) (party a n : Nat) : Dev × Except Fail (List B8) :=
  let g := d.mem.tags.get (tagNo a) {}
  match g.owner with
  | none => (d, .ok (List.replicate n 0))
  | some o =>
    if o ≠ party then (d, .error { status := 0x03, code := 0x94, addr := a / tileSize * tileSize, space := 1 })
    else match d.readSram (fun x => g.valid.getLsbD (x % tileSize / 64)) a n with
      | (d', .error e) => (d', .error e)
      | (d', .ok m) => (d', .ok (m.mapIdx (fun i b => if g.valid.getLsbD ((a + i) % tileSize / 64) then b else 0)))

/-- Bytes of a buffer as `party` reads them, or the first failure of R139; the rest of the range is read and checked in either case
(R138). -/
def Dev.bufRead (d : Dev) (party dpa n : Nat) : Dev × Except Fail (List B8) :=
  (tileParts dpa n).foldl (fun s x =>
    match s.1.bufTile party x.1 x.2 with
    | (d', .ok m) => (d', match s.2 with | .ok l => .ok (l ++ m) | .error e => .error e)
    | (d', .error e) => (d', match s.2 with | .ok _ => .error e | .error e0 => .error e0)) (d, .ok [])

/-- Writes bytes to a buffer: the writer becomes the owner, written lines become valid, and the rest of a line that
becomes valid is zero (R200). -/
def Dev.bufWrite (d : Dev) (party dpa : Nat) (l : List B8) : Dev :=
  (tileParts dpa l.length).foldl (fun d x =>
    let g0 := d.mem.tags.get (tagNo x.1) {}
    let g : BufTag := if g0.owner = some party then g0 else { owner := some party, valid := 0, written := 0 }
    let lm := lineMask (x.1 % tileSize) x.2
    let fresh := maskLines (lm &&& ~~~ g.valid)
    let base := x.1 / tileSize * tileSize
    let d1 := fresh.foldl (fun d i => d.clearPhys (base + 64 * i) 64) d
    let d2 := d1.writePhys x.1 ((l.drop (x.1 - dpa)).take x.2)
    { d2 with mem := { d2.mem with tags := d2.mem.tags.set (tagNo x.1) { g with valid := g.valid ||| lm, written := g.written ||| lm } } }) d

/-! ## Host memory (R104, R523) -/

/-- Bytes of host memory as a DMA read finds them: what the command says it holds, over what the device wrote. -/
def Dev.hostRead (d : Dev) (port : Nat) (host : List Host.Cell) (a n : Nat) : List B8 :=
  (Memory.overlay (d.hostMem.get port []) host).read a n
def Dev.hostWrite (d : Dev) (port a : Nat) (l : List B8) : Dev :=
  { d with hostMem := d.hostMem.set port ((d.hostMem.get port []).write a l) }

end Sys2Proof.Machine
end

