-- ==== Sys2Proof/Machine/Counters.lean ====
section
/-! DEFINITION. Events of the performance counters (R510, R511). -/
namespace Sys2Proof.Machine
open Sys2Proof

/-- A counter after `n` events of code `ev` attributed to `who`: it counts when its code matches and its filter is 0x7F
or names the tenant; it wraps (R510, R511). -/
def CtrSel.tally (c : CtrSel) (ev who n : Nat) : CtrSel :=
  if ev ≠ 0 ∧ c.event = ev ∧ (c.filter = 0x7F ∨ c.filter = who) then { c with count := c.count + BitVec.ofNat 48 n } else c

/-- The counters `lo` to `lo + k - 1` of a set after the events; a counter not listed has event NONE. -/
def tallyAll (t : Tbl CtrSel) (lo k ev who n : Nat) : Tbl CtrSel :=
  t.map (fun e => if lo ≤ e.1 ∧ e.1 < lo + k then (e.1, e.2.tally ev who n) else e)

def Dev.countCl (d : Dev) (c ev who n : Nat) : Dev := { d with pmc := { d.pmc with cl := tallyAll d.pmc.cl (8 * c) 8 ev who n } }
def Dev.countRg (d : Dev) (r ev who n : Nat) : Dev := { d with pmc := { d.pmc with rg := tallyAll d.pmc.rg (4 * r) 4 ev who n } }
/-- `h` is 32 × hub block + instance. -/
def Dev.countHub (d : Dev) (h ev who n : Nat) : Dev := { d with pmc := { d.pmc with hub := tallyAll d.pmc.hub (4 * h) 4 ev who n } }
/-- A record that names a hub unit counts ERRORS there. -/
def Dev.countUnit (d : Dev) (unit who : Nat) : Dev :=
  if 0x8000 ≤ unit then d.countHub (32 * ((unit - 0x8000) / 256) + unit % 256) 6 who 1 else d

end Sys2Proof.Machine
end

