-- ==== Sys2Proof/Machine/Flags.lean ====
section
/-! DEFINITION. Flags and their counters, event flags, progress registers, completion entries, error and log records and their rings. -/
namespace Sys2Proof.Machine
open Sys2Proof

/-! ## TW_EVENT (R99, R100) -/

/-- A setting event of flag `k`: the flag, its counter, and the vector when the flag was 0 and is enabled. -/
def Tenant.raise (v : Tenant) (k : Nat) : Tenant :=
  { v with
    event := v.event ||| (1#4 <<< k)
    eventCnt := v.eventCnt.set k (satInc (v.eventCnt.get k 0))
    msix := if v.eventEn.getLsbD k && !v.event.getLsbD k && !v.scrub then v.msix.set k (v.msix.get k 0 + 1) else v.msix }

def Dev.event (d : Dev) (t k : Nat) : Dev := d.modTen t (fun v => v.raise k)

/-- A change of TW_STATUS [6:0] (R99 flag 3). -/
def Dev.statusEvent (d : Dev) (t : Nat) : Dev := d.event t 3

/-! ## Progress registers (R9-R11, R132) -/

/-- A progress register of a party. -/
def Dev.progReg (d : Dev) (party slot : Nat) : Progress := if party < 64 then (d.ten party).progress.get slot {} else d.mgmt.progress.get slot {}
def Dev.putProg (d : Dev) (party slot : Nat) (v : Progress) : Dev :=
  if party < 64 then d.modTen party (fun t => { t with progress := t.progress.set slot v })
  else { d with mgmt := { d.mgmt with progress := d.mgmt.progress.set slot v } }

/-- An update is shown: the whole value in one write (R11); a tenant's status flag is set when it is done or failed (R99). -/
def Dev.showProgress (d : Dev) (party slot kind value : Nat) : Dev :=
  let d1 := d.putProg party slot { d.progReg party slot with kind := kind, value := value, upd := some d.tick, next := none }
  if party < 64 ∧ 2 ≤ kind then d1.statusEvent party else d1

/-- An update of a progress register: shown at once, or at the next tick where the register was updated in this tick (R11). -/
def Dev.setProgress (d : Dev) (party slot kind value : Nat) : Dev :=
  if (d.progReg party slot).upd = some d.tick then d.putProg party slot { d.progReg party slot with next := some (kind, value) }
  else d.showProgress party slot kind value

/-- The updates of a party that wait for a tick are shown at it. -/
def Dev.flushProgress (d : Dev) (party : Nat) : Dev :=
  (List.range 8).foldl (fun d k =>
    match (d.progReg party k).next with
    | some x => if (d.progReg party k).upd = some d.tick then d else d.showProgress party k x.1 x.2
    | none => d) d

/-- A progress slot is in use by a command (R131). -/
def Dev.slotBusy (d : Dev) (party slot : Nat) : Bool := (d.progReg party slot).busy
def Dev.setBusy (d : Dev) (party slot : Nat) (b : Bool) : Dev := d.putProg party slot { d.progReg party slot with busy := b }

/-- Part of a total, in units of 0.01 percent (R10). -/
def percentOf (done total : Nat) : Nat := if total = 0 then 10000 else min 10000 (10000 * done / total)

/-- The 32 bits of a progress register (R9). -/
def Progress.bits (p : Progress) : Nat := p.kind * 0x40000000 + p.value % 0x40000000

/-! ## Rings (R122, R125, R129) -/

def Ring.size (r : Ring) : Nat := 2 ^ r.log2
/-- Entries written and not yet read. -/
def Ring.unread (r : Ring) : Nat := (r.tail + r.size - r.head) % r.size
/-- The ring holds 2^log2_entries - 1 unread entries (R126). -/
def Ring.full (r : Ring) : Bool := decide (r.size ≤ r.unread + 1)
/-- The tail moves on; the phase flips on a wrap (R125). -/
def Ring.step (r : Ring) : Ring :=
  if r.tail + 1 = r.size then { r with tail := 0, phase := !r.phase } else { r with tail := r.tail + 1 }
/-- The next record sequence number: 1 to 0xFFFF, then 1 again (R129). -/
def Ring.nextSeq (r : Ring) : Ring := { r with seq := if r.seq = 0xFFFF then 1 else r.seq + 1 }

/-- The 32 bytes of a completion entry (R123) under a phase; byte 17 is the partition on the management ring (R107). -/
def Entry.bytes (e : Entry) (phase : Bool) : List B8 :=
  leBytes 8 e.time.toNat ++ leBytes 4 e.tag.toNat ++ leBytes 2 e.subTag.toNat ++ leBytes 1 e.status.toNat ++ leBytes 1 e.kind
    ++ leBytes 1 (e.engine + 4 * e.queue) ++ leBytes 1 e.partition ++ leBytes 2 e.index ++ leBytes 8 e.result.toNat
    ++ leBytes 3 0 ++ leBytes 1 (if phase then 1 else 0)

/-- The 32 bytes of an error or log record (R128). -/
def ErrRec.bytes (r : ErrRec) : List B8 :=
  leBytes 8 r.time.toNat ++ leBytes 1 r.tenant ++ leBytes 1 r.status.toNat ++ leBytes 2 r.unit ++ leBytes 4 r.detail.toNat
    ++ leBytes 8 (r.address % 281474976710656 + r.space * 72057594037927936) ++ leBytes 1 r.partition ++ leBytes 1 r.queue
    ++ leBytes 2 r.index ++ leBytes 2 r.subTag.toNat ++ leBytes 2 r.seq

/-! ## Error records (R128-R130) -/

/-- Endpoint port of a party's function: its own, or the management port. -/
def Dev.portOf (d : Dev) (party : Nat) : Nat := if party < 64 then d.cfg.tenPort party else d.cfg.port

/-- A record to the global ring: kept in hub SRAM and copied to its mirror, or dropped and counted (R130). -/
def Dev.globalRec (d : Dev) (r : ErrRec) : Dev :=
  let g := d.mgmt.gerr
  let r1 := { r with seq := g.seq }
  if g.full then { d with mgmt := { d.mgmt with gerr := { g.nextSeq with dropped := satInc g.dropped } } }
  else
    let d1 := if g.mirrorEn && decide (g.mirror ≠ 0) then d.hostWrite d.cfg.port (g.mirror.toNat + 32 * g.tail) r1.bytes else d
    { d1 with mgmt := { d1.mgmt with gerr := g.nextSeq.step, globalRing := d1.mgmt.globalRing ++ [r1] } }

/-- A record to a tenant's ring in its partition memory, or dropped and counted; a ring not enabled takes none (R129). -/
def Dev.tenantRec (d : Dev) (t : Nat) (r : ErrRec) : Dev :=
  let g := (d.ten t).err
  if !g.enable then d
  else if g.full then d.modTen t (fun v => { v with err := { g.nextSeq with dropped := satInc g.dropped } })
  else
    let b := ({ r with seq := g.seq } : ErrRec).bytes
    let d1 := d.deviceWrite t (d.cfg.tenPart t) (g.base.toNat + 32 * g.tail) b
    let d2 := if g.mirrorEn && decide (g.mirror ≠ 0) then d1.hostWrite (d.cfg.tenPort t) (g.mirror.toNat + 32 * g.tail) b else d1
    (d2.modTen t (fun v => { v with err := g.nextSeq.step })).event t 1

/-- A record to the rings of R129. -/
def Dev.record (d : Dev) (r : ErrRec) : Dev :=
  ((if r.tenant < 64 then d.tenantRec r.tenant r else d).globalRec r).countUnit r.unit r.tenant

/-- The detail word: code in [7:0], value in [31:8]. -/
def detailOf (code val : Nat) : W32 := BitVec.ofNat 32 (code + 256 * val)

/-- Offset of the register that holds byte `off` of a window: the MG_EPOCH registers have 32 bits, all others 64 (R62, R543). -/
def regOff (party off : Nat) : Nat := if 64 ≤ party ∧ 0x2100 ≤ off ∧ off < 0x2320 then off / 4 * 4 else off / 8 * 8

/-- The record of a register access (R570): its address is the window offset of the register. -/
def Dev.regRec (d : Dev) (party : Nat) (status : B8) (code val off : Nat) : Dev :=
  d.record { time := d.time, tenant := if party < 64 then party else mgmtParty, status := status, unit := 0x8000 + coreOf party,
             detail := detailOf code val, address := regOff party off, space := 3, partition := d.partyPart party }

/-- The record of a failure that a party's work met. -/
def Dev.failRec (d : Dev) (party unit : Nat) (f : Fail) : Dev :=
  d.record { time := d.time, tenant := if party < 64 then party else mgmtParty, status := f.status, unit := unit,
             detail := detailOf f.code f.val, address := f.addr, space := f.space, partition := d.partyPart party }

/-- The reply to an emulated write (R455): a status other than 0x00 is recorded, and MG_REPLY holds the last one. -/
def Dev.reply (d : Dev) (party : Nat) (status : B8) (code off : Nat) : Dev :=
  let d1 := if status = 0 then d else d.regRec party status code 0 off
  if party < 64 then d1
  else { d1 with mgmt := { d1.mgmt with replyStatus := status, replyOffset := BitVec.ofNat 16 off, replyCount := d1.mgmt.replyCount + 1 } }

/-! ## Log records (R466-R468) -/

/-- A log record: buffered by its core, or dropped and counted. -/
def Dev.logRec (d : Dev) (core code tenant unit a b : Nat) : Dev :=
  let l := d.mgmt.logBuf.get core []
  if 256 ≤ l.length then { d with mgmt := { d.mgmt with logDropped := d.mgmt.logDropped.set core (d.mgmt.logDropped.get core 0 + 1) } }
  else
    { d with mgmt := { d.mgmt with logBuf := d.mgmt.logBuf.set core (l ++ [{
        time := d.time, tenant := tenant, status := 0, unit := unit, detail := detailOf code a, address := b, space := 3,
        partition := if tenant < 64 then d.cfg.tenPart tenant else 0xFF }]) } }

/-- A management change that takes effect at a later tick than it was due is logged by the core whose duty it is (R31, R467). -/
def Dev.deferred (d : Dev) (core tenant due : Nat) : Dev :=
  if due < d.tick then d.logRec core 0x82 tenant (unitHub 0 core) (d.tick - due) d.tick else d

/-- Codes whose records also go to the tenant's ring (R467). -/
def logTenantCodes : List Nat := [0x82, 0x8B, 0x8C, 0x8D, 0x8F, 0x90]

/-- A log record to the log ring, or dropped and counted; a tenant's record goes to its ring too (R467, R468). -/
def Dev.putLog (d : Dev) (r : ErrRec) : Dev :=
  let d0 := if r.tenant < 64 ∧ logTenantCodes.contains (r.detail.toNat % 256) then d.tenantRec r.tenant r else d
  let g := d0.mgmt.log
  let r1 := { r with seq := g.seq }
  if g.full then { d0 with mgmt := { d0.mgmt with log := { g.nextSeq with dropped := satInc g.dropped } } }
  else
    let d1 := if g.mirrorEn && decide (g.mirror ≠ 0) then d0.hostWrite d0.cfg.port (g.mirror.toNat + 32 * g.tail) r1.bytes else d0
    { d1 with mgmt := { d1.mgmt with log := g.nextSeq.step, logRing := d1.mgmt.logRing ++ [r1] } }

/-- Inserts a record behind those of the same or an earlier time. -/
def insertByTime (r : ErrRec) : List ErrRec → List ErrRec
  | [] => [r]
  | x :: l => if r.time.toNat < x.time.toNat then r :: x :: l else x :: insertByTime r l

/-- LOG_FLUSH: CC7 merges the buffered records in time order and writes them to the log ring (R468). -/
def Dev.logFlush (d : Dev) : Dev :=
  let lost := (List.range 8).filterMap (fun k =>
    let n := d.mgmt.logDropped.get k 0
    if n = 0 then none else some ({ time := d.time, tenant := 0xFF, status := 0, unit := unitHub 0 k, detail := detailOf 0x91 n, space := 3 } : ErrRec))
  let all := ((List.range 8).map (fun k => d.mgmt.logBuf.get k [])).flatten ++ lost
  let sorted := all.foldl (fun l r => insertByTime r l) []
  sorted.foldl (fun d r => d.putLog r) { d with mgmt := { d.mgmt with logBuf := [], logDropped := [] } }

/-! ## Completion entries (R123-R127) -/

def Dev.complRing (d : Dev) (party : Nat) : Ring := if party < 64 then (d.ten party).compl else d.mgmt.compl
def Dev.setCompl (d : Dev) (party : Nat) (r : Ring) : Dev :=
  if party < 64 then d.modTen party (fun v => { v with compl := r }) else { d with mgmt := { d.mgmt with compl := r } }

/-- Writes an entry at the tail of the party's ring, and its mirror copy (R125). -/
def Dev.putEntry (d : Dev) (party : Nat) (e : Entry) : Dev :=
  let r := d.complRing party
  let b := e.bytes r.phase
  if party < 64 then
    let d1 := d.deviceWrite party (d.cfg.tenPart party) (r.base.toNat + 32 * r.tail) b
    let d2 := if r.mirrorEn && decide (r.mirror ≠ 0) then d1.hostWrite (d.cfg.tenPort party) (r.mirror.toNat + 32 * r.tail) b else d1
    (d2.setCompl party r.step).event party 0
  else
    (d.hostWrite d.cfg.port (r.base.toNat + 32 * r.tail) b).setCompl party r.step

/-- Queue keys of a party that hold entries in their FIFO. -/
def Dev.heldQueues (d : Dev) (party : Nat) : List Nat :=
  (d.queues.filter (fun e => decide (qParty e.1 = party) && !e.2.fifo.isEmpty)).map (fun e => e.1)

/-- TW_STATUS.compl_stalled (R98). -/
def Dev.stalled (d : Dev) (party : Nat) : Bool := !(d.heldQueues party).isEmpty

/-- Entries that a queue's completion FIFO holds (R126). -/
def fifoSize : Nat := 1024
/-- An entry joins the FIFO, or waits at its source while that is full (R126). -/
def Queue.hold (v : Queue) (e : Entry) : Queue :=
  if v.fifo.length < fifoSize then { v with fifo := v.fifo ++ [e] } else { v with atSource := v.atSource ++ [e] }
/-- The FIFO gives up its oldest entry, and the first that waits at its source joins it. -/
def Queue.unhold (v : Queue) : Queue := { v with fifo := v.fifo.drop 1 ++ v.atSource.take 1, atSource := v.atSource.drop 1 }

/-- A completion entry is produced: written to the ring, or held in its queue's FIFO (R126). -/
def Dev.emit (d : Dev) (q : Nat) (e : Entry) : Dev :=
  let party := qParty q
  let e1 := { e with time := d.time, engine := qEngine q, queue := qIndex q, order := d.produced,
                     partition := if qIsMgmt q then d.qPart q else 0 }
  let d0 := { d with produced := d.produced + 1 }
  let r := d0.complRing party
  if r.enable && !r.full && !d0.stalled party then d0.putEntry party e1
  else
    let was := d0.stalled party
    let d1 := d0.modQue q (fun v => v.hold e1)
    if !was && decide (party < 64) then d1.statusEvent party else d1

/-- The queue of a party whose oldest held entry was produced first. -/
def Dev.firstHeld (d : Dev) (party : Nat) : Option Nat :=
  (d.heldQueues party).foldl (fun b q =>
    match b with
    | none => some q
    | some x => if ((d.que q).fifo.headD {}).order < ((d.que x).fifo.headD {}).order then some q else some x) none

/-- Writes the oldest held entry of queue `q`, when the ring has room. -/
def Dev.drainOne (d : Dev) (q : Nat) : Dev :=
  let party := qParty q
  match (d.que q).fifo with
  | [] => d
  | e :: _ =>
    let r := d.complRing party
    if r.enable && !r.full then
      let d1 := (d.modQue q (fun v => let w := v.unhold; if w.fifo.isEmpty then { w with readySince := d.time } else w)).putEntry party e
      if !d1.stalled party && decide (party < 64) then d1.statusEvent party else d1
    else d

/-- Writes held entries in the order they were produced, while the ring has room (R126). -/
def Dev.drainAll (d : Dev) (party : Nat) : Nat → Dev
  | 0 => d
  | fuel + 1 =>
    match d.firstHeld party with
    | none => d
    | some q =>
      let r := d.complRing party
      if r.enable && !r.full then Dev.drainAll (d.drainOne q) party fuel else d

/-- The number of entries a party's queues hold. -/
def Dev.heldCount (d : Dev) (party : Nat) : Nat := ((d.heldQueues party).map (fun q => (d.que q).fifo.length + (d.que q).atSource.length)).sum

end Sys2Proof.Machine
end

