-- ==== Sys2Proof/Machine/Pmc.lean ====
section
/-! DEFINITION. Performance counters: event selects, the tenant's counter view, and snapshots (R510-R518). -/
namespace Sys2Proof.Machine
open Sys2Proof

/-! ## Counter sets: 0 cluster, 1 region, 2 hub (R510, R512) -/

/-- Instances of each hub block (R21). -/
def hubInstances (b : Nat) : Nat := [8, 1, 1, 1, 5, 8, 8, 4, 4, 2, 2, 8, 1, 1, 32, 4, 8, 1, 1, 16, 1, 1].getD b 0
/-- Every hub instance, as h = 32 × block + instance, ascending. -/
def hubUnits : List Nat := ((List.range 22).map (fun b => (List.range (hubInstances b)).map (fun i => 32 * b + i))).flatten

/-- Counters of a set's unit, and whether number `n` of a set exists. -/
def setWidth (s : Nat) : Nat := if s = 0 then 8 else 4
def counterExists (s n : Nat) : Bool :=
  if s = 0 then decide (n < 2048) else if s = 1 then decide (n < 64) else decide (n / 4 % 32 < hubInstances (n / 128))
/-- Events that are not reserved (R511). -/
def eventKnown (s e : Nat) : Bool :=
  if s = 0 then decide (e ≤ 0x0E) else if s = 1 then decide (e ≤ 0x0B) else decide (e ≤ 6) || (decide (0x10 ≤ e) && decide (e ≤ 0x12))
/-- Window offset of an event select. -/
def eventOff (s n : Nat) : Nat :=
  0x100000 + (if s = 0 then 0x10040 + 256 * (n / 8) + 8 * (n % 8) else if s = 1 then 0x20000 + 128 * (n / 4) + 8 * (n % 4) else 0x30000 + 128 * (n / 4) + 8 * (n % 4))

def Dev.counters (d : Dev) (s : Nat) : Tbl CtrSel := if s = 0 then d.pmc.cl else if s = 1 then d.pmc.rg else d.pmc.hub
def Dev.counter (d : Dev) (s n : Nat) : CtrSel := (d.counters s).get n {}
def Dev.putCounter (d : Dev) (s n : Nat) (v : CtrSel) : Dev :=
  if s = 0 then { d with pmc := { d.pmc with cl := d.pmc.cl.set n v } }
  else if s = 1 then { d with pmc := { d.pmc with rg := d.pmc.rg.set n v } }
  else { d with pmc := { d.pmc with hub := d.pmc.hub.set n v } }

/-- Region of a cluster or region counter's unit. -/
def counterRegion (s n : Nat) : Nat := if s = 0 then n / 8 / 16 else n / 4

/-- A write of an event select (R512). -/
def Dev.selectEvent (d : Dev) (s n : Nat) (value : W64) : Dev :=
  let ev := fld value 0 8
  let filter := fld value 8 7
  let owner := fld value 16 7
  let log (st : B8) : Dev := d.regRec mgmtParty st 0 0 (eventOff s n)
  if !counterExists s n then d
  else if !eventKnown s ev ∨ !(filter < 64 ∨ filter = 0x40 ∨ filter = 0x7F) then log 0x04
  else if s = 2 ∨ owner = 0x7F then d.putCounter s n { event := ev, filter := filter, owner := 0x7F, count := 0 }
  else if 64 ≤ owner then log 0x04
  else if !d.cfg.tenOn owner ∨ d.cfg.regionPart (counterRegion s n) ≠ some (d.cfg.tenPart owner) ∨ !d.cfg.tenCounterRead owner then log 0x03
  else d.putCounter s n { event := ev, filter := owner, owner := owner, count := 0 }

/-- The record of an ignored access to the counter view: status, detail code, window offset (R514). -/
def Dev.viewRec (d : Dev) (t : Nat) (st : B8) (code off : Nat) : Dev := d.regRec t st code off off

/-- A write in the counter view at 0x1000-0x10BF (R514). -/
def Dev.writeView (d : Dev) (t off : Nat) (value : W64) : Dev :=
  let v := d.ten t
  if !d.cfg.tenCounterRead t then d.viewRec t 0x03 0x86 off
  else if off = 0x1000 then
    let unit := fld value 0 8
    let kind := fld value 8 1
    let region := if kind = 0 then unit / 16 else unit
    if d.cfg.regionPart region = some (d.cfg.tenPart t) ∧ region < 16 then d.putTen t { v with pmcUnit := unit, pmcKind := kind } else d.viewRec t 0x03 0x86 off
  else if 0x1040 ≤ off ∧ off < 0x1080 then
    let k := (off - 0x1040) / 8
    let s := v.pmcKind
    if setWidth s ≤ k then d
    else
      let n := setWidth s * v.pmcUnit + k
      let c := d.counter s n
      if c.owner ≠ t then d.viewRec t 0x03 0x86 off
      else if !eventKnown s (fld value 0 8) then d.viewRec t 0x04 0x85 off
      else d.putCounter s n { c with event := fld value 0 8, count := 0 }
  else d

/-! ## Snapshots (R515-R518) -/

/-- Regions that a selector includes. -/
def snapRegions (sel : W64) : List Nat := (List.range 16).filter (fun r => sel.getLsbD r)
/-- Entries of a record, and its length with padding (R517). -/
def snapEntries (sel : W64) : Nat :=
  let r := (snapRegions sel).length
  (if sel.getLsbD 16 then 16 * r else 0) + (if sel.getLsbD 17 then r else 0) + (if sel.getLsbD 18 then 118 else 0)
def snapLength (sel : W64) : Nat :=
  let r := (snapRegions sel).length
  cdiv (64 + (if sel.getLsbD 16 then 16 * r * 88 else 0) + (if sel.getLsbD 17 then r * 40 else 0) + (if sel.getLsbD 18 then 118 * 40 else 0)) 64 * 64

/-- A counter as a party's record shows it: its own, or 0 and 0. -/
def CtrSel.shown (c : CtrSel) (party : Nat) : Nat × Nat := if 64 ≤ party ∨ c.owner = party then (c.event, c.count.toNat) else (0, 0)

/-- The entry of a unit: kind 0 cluster, 1 region, 2 hub. R517 and R20 name no code for a whole cluster or region: a cluster's entry
carries that of its buffer (10), a region's that of its sequencer (16) (DESIGN CHOICE). -/
def Dev.snapUnit (d : Dev) (party kind u : Nat) : List B8 :=
  let k := setWidth kind
  let cs := (List.range k).map (fun i => (d.counter kind (k * u + i)).shown party)
  let path := if kind = 0 then unitCluster u 10 else if kind = 1 then unitRegion u 16 else unitHub (u / 32) (u % 32)
  let evs := (cs.map (fun c => leBytes 1 c.1)).flatten
  let cnts := (cs.map (fun c => leBytes 8 c.2)).flatten
  if kind = 0 then leBytes 2 path ++ leBytes 1 0 ++ leBytes 5 0 ++ leBytes 8 (d.cluster u).cyc.toNat ++ evs ++ cnts
  else leBytes 2 path ++ leBytes 1 kind ++ leBytes 1 0 ++ evs ++ cnts

/-- What a marker adds to the header: tag, sub_tag, marker value, queue byte. -/
abbrev MarkerRef := W32 × W16 × Nat × Nat

/-- The bytes of a snapshot record (R517). -/
def Dev.snapBytes (d : Dev) (party seq : Nat) (sel : W64) (m : Option MarkerRef) : List B8 :=
  let mk := m.getD (0, 0, 0, 0)
  let hdr := leBytes 4 0x434D5051 ++ leBytes 2 seq ++ leBytes 1 (if m.isSome then 1 else 0) ++ leBytes 1 (if party < 64 then party else mgmtParty)
    ++ leBytes 8 d.time.toNat ++ leBytes 8 sel.toNat ++ leBytes 4 (snapLength sel) ++ leBytes 2 (snapEntries sel) ++ leBytes 2 0
    ++ leBytes 4 mk.1.toNat ++ leBytes 2 mk.2.1.toNat ++ leBytes 2 mk.2.2.1 ++ leBytes 1 mk.2.2.2 ++ leBytes 23 0
  let rs := snapRegions sel
  let cl := if sel.getLsbD 16 then (rs.map (fun r => ((List.range 16).map (fun i => d.snapUnit party 0 (16 * r + i))).flatten)).flatten else []
  let rg := if sel.getLsbD 17 then (rs.map (fun r => d.snapUnit party 1 r)).flatten else []
  let hb := if sel.getLsbD 18 then (hubUnits.map (fun h => d.snapUnit party 2 h)).flatten else []
  let all := hdr ++ cl ++ rg ++ hb
  all ++ List.replicate (snapLength sel - all.length) 0

def Dev.snapRing (d : Dev) (party : Nat) : Ring := if party < 64 then (d.ten party).snapRing else d.pmc.ring
def Dev.setSnapRing (d : Dev) (party : Nat) (r : Ring) : Dev :=
  if party < 64 then d.modTen party (fun v => { v with snapRing := r }) else { d with pmc := { d.pmc with ring := r } }

/-- Takes a snapshot for a party: its record goes to the party's ring, or is dropped and counted (R516, R518). -/
def Dev.snapshot (d : Dev) (party : Nat) (sel : W64) (m : Option MarkerRef) : Dev :=
  let r := d.snapRing party
  if sel = 0 ∨ !r.enable then d
  else if r.full then d.setSnapRing party { r.nextSeq with dropped := satInc r.dropped }
  else
    let b := d.snapBytes party r.seq sel m
    let a := r.base.toNat + r.tail * 2 ^ r.log2Slot
    let d1 := if party < 64 then d.deviceWrite party (d.cfg.tenPart party) a b else d.hostWrite d.cfg.port a b
    d1.setSnapRing party r.nextSeq.step

/-- Whether a tenant's selector keeps to its rights (R515). -/
def Cfg.selectorOk (c : Cfg) (party : Nat) (sel : W64) : Bool :=
  decide (64 ≤ party) || (!sel.getLsbD 18 && decide (fld sel 0 16 &&& c.regionMask (c.tenPart party) = fld sel 0 16))

/-- Period of a party's snapshots and its selector. -/
def Dev.periodOf (d : Dev) (party : Nat) : Nat × W64 := if party < 64 then ((d.ten party).snapPeriod, (d.ten party).snapSel) else (d.pmc.period, d.pmc.snapSel)

/-- The period boundary that a party's snapshot is taken at: TRK_0 is a multiple of the period, and this multiple has had none (R513, R516). -/
def Dev.snapDue (d : Dev) (party : Nat) : Bool :=
  let n := (d.periodOf party).1
  let last := if party < 64 then (d.ten party).snapAt else d.pmc.snapAt
  decide (4 ≤ n) && decide (d.time.toNat % (2 ^ n * 1000) = 0) && decide (last ≠ some d.time)
def Dev.markSnap (d : Dev) (party : Nat) : Dev :=
  if party < 64 then d.modTen party (fun v => { v with snapAt := some d.time }) else { d with pmc := { d.pmc with snapAt := some d.time } }

/-! ## The rows -/

/-- PERIODIC_SNAPSHOT (R513): a period boundary of a party whose snapshots run. -/
def execPeriodicSnapshot (party : Nat) (s : State) : Host.Outcome State Fault Refusal :=
  .next { s with dev := if s.dev.snapDue party = true ∧ s.dev.pwr.state ≤ 1 then (s.dev.markSnap party).snapshot party (s.dev.periodOf party).2 none else s.dev }

end Sys2Proof.Machine
end

