-- ==== Sys2Proof/Machine/Float.lean ====
section
/-! DEFINITION. Number formats, conversions and FP32 arithmetic (R134, R148-R150, R155-R157, R162). -/
namespace Sys2Proof.Machine
open Sys2Proof

/-- A value of a floating format: sign, significand and power of two; an infinity; or a NaN. -/
inductive FV where
  | fin (neg : Bool) (man : Nat) (exp : Int)
  | inf (neg : Bool)
  | nan
deriving DecidableEq, Repr, Inhabited

/-- A floating format (R148): bits, precision, exponent of the smallest normal, largest finite magnitude, NaN code. -/
structure Fmt where
  bits : Nat
  prec : Nat
  emin : Int
  maxMag : Nat
  nanCode : Nat
  hasInf : Bool
deriving DecidableEq, Repr

def fmtF32 : Fmt := ⟨32, 24, -126, 0x7F7FFFFF, 0x7FC00000, true⟩
def fmtBF16 : Fmt := ⟨16, 8, -126, 0x7F7F, 0x7FC0, true⟩
def fmtF16 : Fmt := ⟨16, 11, -14, 0x7BFF, 0x7E00, true⟩
def fmtE4M3 : Fmt := ⟨8, 4, -6, 0x7E, 0x7F, false⟩
def fmtE5M2 : Fmt := ⟨8, 3, -14, 0x7B, 0x7F, true⟩

/-- The value of a code of a floating format. -/
def Fmt.dec (f : Fmt) (code : Nat) : FV :=
  let neg := code.testBit (f.bits - 1)
  let mag := code % 2 ^ (f.bits - 1)
  let e := mag / 2 ^ (f.prec - 1)
  let m := mag % 2 ^ (f.prec - 1)
  if f.maxMag < mag then (if f.hasInf && decide (mag = f.maxMag + 1) then .inf neg else .nan)
  else if e = 0 then .fin neg m (f.emin - (f.prec - 1 : Nat))
  else .fin neg (m + 2 ^ (f.prec - 1)) (f.emin + (e - 1 : Nat) - (f.prec - 1 : Nat))

/-- The number of bits of a non-zero number, less one. -/
def ilog2 (n : Nat) : Nat := Nat.log2 n

/-- A significand divided by 2^k, rounded to nearest, ties to even (R155). -/
def rne (man k : Nat) : Nat :=
  let q := man >>> k
  let r := man % 2 ^ k
  if k = 0 then man
  else if r < 2 ^ (k - 1) then q
  else if 2 ^ (k - 1) < r then q + 1
  else q + q % 2

/-- The magnitude code of man × 2^exp, rounded as if the exponent range were unbounded above (R155). -/
def Fmt.roundMag (f : Fmt) (man : Nat) (exp : Int) : Nat :=
  if man = 0 then 0
  else
    let top : Int := (ilog2 man : Int) + exp
    let qe : Int := max (top - (f.prec - 1 : Nat)) (f.emin - (f.prec - 1 : Nat))
    let m := if exp ≤ qe then rne man (qe - exp).toNat else man <<< (exp - qe).toNat
    let ef : Nat := (qe - (f.emin - (f.prec - 1 : Nat))).toNat
    m + ef * 2 ^ (f.prec - 1)

/-- A sign and a magnitude as a code. -/
def Fmt.code (f : Fmt) (neg : Bool) (mag : Nat) : Nat := if neg then mag + 2 ^ (f.bits - 1) else mag

/-- The FP32 code of a value; a sum or product beyond the range is an infinity (R150). -/
def packF32 (v : FV) : F32 :=
  match v with
  | .nan => 0x7FC00000#32
  | .inf neg => if neg then 0xFF800000#32 else 0x7F800000#32
  | .fin neg m e =>
    let mag := fmtF32.roundMag m e
    BitVec.ofNat 32 (fmtF32.code neg (if fmtF32.maxMag < mag then 0x7F800000 else mag))

def unpackF32 (x : F32) : FV := fmtF32.dec x.toNat

/-- Conversion to a narrow floating format: the code, and the number of SAT_EVENTS (R155-R157). -/
def Fmt.convert (f : Fmt) (v : FV) : Nat × Nat :=
  match v with
  | .nan => (f.nanCode, 0)
  | .inf neg => (f.code neg f.maxMag, 1)
  | .fin neg m e =>
    let mag := f.roundMag m e
    if f.maxMag < mag then (f.code neg f.maxMag, 1) else (f.code neg mag, 0)

/-- Conversion to a two's-complement integer of `w` bits: the code and the number of SAT_EVENTS (R155-R157, R263). -/
def toInt (w : Nat) (v : FV) : Nat × Nat :=
  match v with
  | .nan => (0, 1)
  | .inf neg => (if neg then 2 ^ (w - 1) else 2 ^ (w - 1) - 1, 1)
  | .fin neg m e =>
    let n := if e < 0 then rne m (-e).toNat else if 64 < e then (if m = 0 then 0 else 2 ^ 64) else m <<< e.toNat
    if neg then (if 2 ^ (w - 1) < n then (2 ^ (w - 1), 1) else ((2 ^ w - n) % 2 ^ w, 0))
    else if 2 ^ (w - 1) - 1 < n then (2 ^ (w - 1) - 1, 1) else (n, 0)

/-! ## FP32 arithmetic: one rounding to nearest even per operation -/

/-- The exact sum of two values, with the sign of an exact zero as IEEE 754 gives it. R150's "infinite products that overflow or meet an
infinity of the other sign give NaN" is read as IEEE 754 has it (DEDUCED): an infinite product alone stays an infinity, and only
infinities of opposite signs give NaN. -/
def FV.add (a b : FV) : FV :=
  match a, b with
  | .nan, _ => .nan
  | _, .nan => .nan
  | .inf s, .inf t => if s = t then .inf s else .nan
  | .inf s, .fin _ _ _ => .inf s
  | .fin _ _ _, .inf t => .inf t
  | .fin s m e, .fin t n g =>
    let x : Int := min e g
    let p : Int := (m <<< (e - x).toNat : Nat)
    let q : Int := (n <<< (g - x).toNat : Nat)
    let r := (if s then -p else p) + (if t then -q else q)
    if r = 0 then .fin (s && t) 0 x else .fin (decide (r < 0)) r.natAbs x

/-- The exact product of two values; an infinity times zero is a NaN (R150). -/
def FV.mul (a b : FV) : FV :=
  match a, b with
  | .nan, _ => .nan
  | _, .nan => .nan
  | .inf s, .inf t => .inf (s != t)
  | .inf s, .fin t n _ => if n = 0 then .nan else .inf (s != t)
  | .fin s m _, .inf t => if m = 0 then .nan else .inf (s != t)
  | .fin s m e, .fin t n g => .fin (s != t) (m * n) (e + g)

def FV.neg (a : FV) : FV :=
  match a with
  | .nan => .nan
  | .inf s => .inf (!s)
  | .fin s m e => .fin (!s) m e

/-- num / den × 2^e to 30 significant bits and a sticky bit, for rounding. -/
def ratFV (neg : Bool) (num den : Nat) (e : Int) : FV :=
  if num = 0 then .fin neg 0 0
  else
    let s : Int := 30 - ((ilog2 num : Int) - (ilog2 den : Int))
    let n := if 0 ≤ s then num <<< s.toNat else num
    let k := if 0 ≤ s then den else den <<< (-s).toNat
    .fin neg (2 * (n / k) + (if n % k = 0 then 0 else 1)) (e - s - 1)

def FV.div (a b : FV) : FV :=
  match a, b with
  | .nan, _ => .nan
  | _, .nan => .nan
  | .inf _, .inf _ => .nan
  | .inf s, .fin t _ _ => .inf (s != t)
  | .fin s _ _, .inf t => .fin (s != t) 0 0
  | .fin s m e, .fin t n g =>
    if n = 0 then (if m = 0 then .nan else .inf (s != t)) else ratFV (s != t) m n (e - g)

def fadd (a b : F32) : F32 := packF32 ((unpackF32 a).add (unpackF32 b))
def fsub (a b : F32) : F32 := packF32 ((unpackF32 a).add (unpackF32 b).neg)
def fmul (a b : F32) : F32 := packF32 ((unpackF32 a).mul (unpackF32 b))
def fdiv (a b : F32) : F32 := packF32 ((unpackF32 a).div (unpackF32 b))
/-- Adds an exact product to an accumulator with one rounding (R134). -/
def fmac (acc : F32) (a b : FV) : F32 := packF32 ((unpackF32 acc).add (a.mul b))
def f32OfInt (i : Int) : F32 := packF32 (.fin (decide (i < 0)) i.natAbs 0)
def f32Zero : F32 := 0#32
def f32One : F32 := 0x3F800000#32

/-- Whether a code is an infinity or a NaN. -/
def f32Special (x : F32) : Bool := decide (fld x 23 8 = 255)
def f32Nan (x : F32) : Bool := f32Special x && decide (fld x 0 23 ≠ 0)
/-- A whole number that orders FP32 codes by value. -/
def f32Key (x : F32) : Int := if x.getLsbD 31 then -(fld x 0 31 : Int) else fld x 0 31
def flt (a b : F32) : Bool := decide (f32Key a < f32Key b)
/-- The larger of two; a NaN when either is (R162). -/
def fmax (a b : F32) : F32 := if f32Nan a || f32Nan b then 0x7FC00000#32 else if flt a b then b else a
def fabs (x : F32) : F32 := x &&& 0x7FFFFFFF#32

/-! ## Formats by code (R143, R149) -/

def fmtBits (f : Nat) : Nat :=
  match f with
  | 0 => 16 | 1 => 16 | 2 => 8 | 3 => 8 | 4 => 8 | 5 => 4 | 6 => 4 | 7 => 16 | _ => 32

/-- The floating format of a code, where it names one. -/
def fmtOf (f : Nat) : Option Fmt :=
  match f with
  | 0 => some fmtBF16 | 1 => some fmtF16 | 2 => some fmtE4M3 | 3 => some fmtE5M2 | 8 => some fmtF32 | _ => none

/-- The value of a stored element: a floating code, or a two's-complement integer. -/
def elemFV (f code : Nat) : FV :=
  match fmtOf f with
  | some g => g.dec code
  | none => let i := toSigned (fmtBits f) code; .fin (decide (i < 0)) i.natAbs 0

/-- Conversion of FP32 to a stored format: code and SAT_EVENTS; FP32 keeps its bits and its infinities (R155-R157). -/
def convertTo (f : Nat) (x : F32) : Nat × Nat :=
  if f = 8 then (x.toNat, 0)
  else match fmtOf f with
    | some g => g.convert (unpackF32 x)
    | none => toInt (fmtBits f) (unpackF32 x)

/-! ## Transcendental functions: within 2 units in the last place of FP32 (R162)

The true value is enclosed far more tightly than one unit by fixed-point series; which of the codes within 2 units the
unit returns is free (Config.freeUlp). -/

def fixBits : Nat := 160
def fixOne : Nat := 1 <<< fixBits
/-- ln 2 in 160 fractional bits. -/
def ln2Fix : Nat := 0xB17217F7D1CF79ABC9E3B39803F2F6AF40F34326

/-- e^r for 0 ≤ r < 1 in fixed point, by its series. -/
def expSeries (r : Nat) : Nat :=
  ((List.range 48).foldl (fun (s : Nat × Nat) i => (s.1 + s.2, s.2 * r / fixOne / (i + 1))) (0, fixOne)).1

/-- e^(-x) for x ≥ 0 in fixed point: a significand of 160 fractional bits and a power of two. -/
def expNeg (x : Nat) : Nat × Int :=
  let k := x / ln2Fix + 1
  (expSeries (k * ln2Fix - x), -(k : Int))

/-- A magnitude m × 2^e in fixed point. -/
def toFix (m : Nat) (e : Int) : Nat :=
  let s := e + (fixBits : Int)
  if 0 ≤ s then m <<< s.toNat else m >>> (-s).toNat

/-- The spacing of FP32 codes at a code's magnitude, as a power of two. -/
def ulpExp (mag : Nat) : Int := (max (mag / 8388608) 1 : Nat) - 150

/-- The code `n` units from the rounding of num / den × 2^e, when that lies within 2 units of it; else the rounding. -/
def nearUlp (fn : Nat) (x : F32) (neg : Bool) (num den : Nat) (e : Int) : F32 :=
  let r0 := packF32 (ratFV neg num den e)
  let n := max (-2) (min 2 (Config.freeUlp fn x))
  let mag : Int := (fld r0 0 31 : Int) + n
  if mag < 0 ∨ (fmtF32.maxMag : Int) < mag ∨ fmtF32.maxMag < fld r0 0 31 then r0
  else
    match unpackF32 (BitVec.ofNat 32 mag.toNat) with
    | .fin _ m g =>
      let u := ulpExp (fld r0 0 31)
      let b := min (min g e) u
      let l : Int := (m <<< (g - b).toNat * den : Nat)
      let r : Int := (num <<< (e - b).toNat : Nat)
      if (l - r).natAbs ≤ (2 * den) <<< (u - b).toNat then BitVec.ofNat 32 (fmtF32.code neg mag.toNat) else r0
    | _ => r0

def fexp (x : F32) : F32 :=
  match unpackF32 x with
  | .nan => 0x7FC00000#32
  | .inf neg => if neg then 0#32 else 0x7F800000#32
  | .fin neg m e =>
    let f := if 8 < (ilog2 m : Int) + e then 512 * fixOne else toFix m e
    let r := expNeg f
    if m = 0 then f32One
    else if neg then nearUlp 6 x false r.1 fixOne r.2 else nearUlp 6 x false fixOne r.1 (-r.2)

def frecip (x : F32) : F32 :=
  match unpackF32 x with
  | .nan => 0x7FC00000#32
  | .inf neg => if neg then 0x80000000#32 else 0#32
  | .fin neg m e => if m = 0 then (if neg then 0xFF800000#32 else 0x7F800000#32) else nearUlp 7 x neg 1 m (-e)

def frsqrt (x : F32) : F32 :=
  match unpackF32 x with
  | .nan => 0x7FC00000#32
  | .inf neg => if neg then 0x7FC00000#32 else 0#32
  | .fin neg m e =>
    if m = 0 then (if neg then 0xFF800000#32 else 0x7F800000#32)
    else if neg then 0x7FC00000#32
    else
      let g := if e % 2 = 0 then e else e - 1
      let n := if e % 2 = 0 then m else 2 * m
      let root := intRoot 128 (n <<< 200)
      nearUlp 8 x false (1 <<< 100) root (-(g / 2))

/-- 1 / (1 + e^(-x)) of a signed fixed-point argument, as a fraction and a power of two. -/
def sigmoidRat (neg : Bool) (f : Nat) : Nat × Nat × Int :=
  let r := expNeg f
  let t := (-r.2).toNat
  if neg then (r.1, (fixOne <<< t) + r.1, 0) else (fixOne <<< t, (fixOne <<< t) + r.1, 0)

def fsigmoid (x : F32) : F32 :=
  match unpackF32 x with
  | .nan => 0x7FC00000#32
  | .inf neg => if neg then 0#32 else f32One
  | .fin neg m e =>
    let f := if 8 < (ilog2 m : Int) + e then 512 * fixOne else toFix m e
    let r := sigmoidRat neg f
    nearUlp 10 x false r.1 r.2.1 r.2.2

def ftanh (x : F32) : F32 :=
  match unpackF32 x with
  | .nan => 0x7FC00000#32
  | .inf neg => if neg then 0xBF800000#32 else f32One
  | .fin neg m e =>
    if m = 0 ∨ (ilog2 m : Int) + e < -40 then (if m = 0 then x else nearUlp 9 x neg m 1 e)
    else
      let f := if 8 < (ilog2 m : Int) + e then 512 * fixOne else toFix m e
      let r := expNeg (2 * f)
      let t := (-r.2).toNat
      nearUlp 9 x neg ((fixOne <<< t) - r.1) ((fixOne <<< t) + r.1) 0

/-- x × sigmoid(u) for a signed fixed-point u. -/
def timesSigmoid (fn : Nat) (x : F32) (neg : Bool) (m : Nat) (e : Int) (f : Nat) : F32 :=
  let r := sigmoidRat neg f
  nearUlp fn x neg (m * r.1) r.2.1 (e + r.2.2)

def fsilu (x : F32) : F32 :=
  match unpackF32 x with
  | .nan => 0x7FC00000#32
  | .inf neg => if neg then 0x7FC00000#32 else 0x7F800000#32
  | .fin neg m e =>
    if m = 0 then x
    else timesSigmoid 12 x neg m e (if 8 < (ilog2 m : Int) + e then 512 * fixOne else toFix m e)

/-- √(2/π) in 160 fractional bits. -/
def sqrt2PiFix : Nat := intRoot 168 ((2 <<< 480) / 0x3243F6A8885A308D313198A2E03707344A4093822)

/-- GELU in its tanh form: x × sigmoid(2 √(2/π) (x + 0.044715 x³)). -/
def fgelu (x : F32) : F32 :=
  match unpackF32 x with
  | .nan => 0x7FC00000#32
  | .inf neg => if neg then 0x7FC00000#32 else 0x7F800000#32
  | .fin neg m e =>
    if m = 0 then x
    else
      let f := if 8 < (ilog2 m : Int) + e then 512 * fixOne else toFix m e
      let cube := f * f / fixOne * f / fixOne
      let u := 2 * sqrt2PiFix * (f + 44715 * cube / 1000000) / fixOne
      timesSigmoid 11 x neg m e u

end Sys2Proof.Machine
end

