-- ==== Sys2Proof/Machine/Engine.lean ====
section
/-! DEFINITION. The matrix engine: stored operands, the expander for Q4E and EBF16 blocks, the output path (R142-R159, R169-R179). -/
namespace Sys2Proof.Machine
open Sys2Proof

/-- The codes of packed elements of 4, 8, 16 or 32 bits (R149). -/
def codes4 : List B8 → List Nat
  | [] => []
  | b :: r => b.toNat % 16 :: b.toNat / 16 :: codes4 r
def codes16 : List B8 → List Nat
  | a :: b :: r => (a.toNat + 256 * b.toNat) :: codes16 r
  | _ => []
def codes32 : List B8 → List Nat
  | a :: b :: c :: e :: r => (a.toNat + 256 * b.toNat + 65536 * c.toNat + 16777216 * e.toNat) :: codes32 r
  | _ => []
def codesOf (bits : Nat) (l : List B8) : List Nat :=
  if bits = 4 then codes4 l else if bits = 8 then l.map (fun b => b.toNat) else if bits = 16 then codes16 l else codes32 l

/-- Bytes of a 16 × 16 sub-tile (R144). -/
def subTile (f : Nat) : Nat :=
  match f with
  | 8 => 1024 | 0 => 512 | 1 => 512 | 7 => 512 | 2 => 256 | 3 => 256 | 4 => 256 | 6 => 160 | _ => 128

/-- The index of element (row, col) of a tensor of `cols` columns in sub-tile order (R144). -/
def subIndex (cols row col : Nat) : Nat := ((row / 16) * (cols / 16) + col / 16) * 256 + row % 16 * 16 + col % 16

/-- Fields of a MATMUL descriptor (R142). -/
structure MatDesc where
  accIn : Bool
  scaleEn : Bool
  zpMode : Nat
  engines : Nat
  act : Nat
  wgt : Nat
  out : Nat
  zp : Int
  m : Nat
  n : Nat
  k : Nat
  aOff : Nat
  bOff : Nat
  cOff : Nat
  auxOff : Nat
  wsumOff : Nat
  scaleBase : Nat
  actScale : F32
  outMul : F32

def matDesc (s : W512) : MatDesc :=
  { accIn := s.getLsbD 8, scaleEn := s.getLsbD 9, zpMode := fld s 10 2, engines := bytesAt s 4 1, act := fld s 40 4, wgt := fld s 44 4,
    out := fld s 48 4, zp := toSigned 8 (bytesAt s 7 1), m := bytesAt s 8 2, n := bytesAt s 10 2, k := bytesAt s 12 4, aOff := bytesAt s 16 4,
    bOff := bytesAt s 20 4, cOff := bytesAt s 24 4, auxOff := bytesAt s 28 4, wsumOff := bytesAt s 32 4, scaleBase := bytesAt s 36 2,
    actScale := BitVec.ofNat 32 (bytesAt s 40 4), outMul := BitVec.ofNat 32 (bytesAt s 44 4) }

/-- The engines a descriptor selects, ascending. -/
def MatDesc.selected (v : MatDesc) : List Nat := (List.range 8).filter (fun j => v.engines.testBit j)

/-- Cycles per block and row group, and whether the accumulator is INT32; none for a pair R133 does not list. -/
def matMode (act wgt : Nat) : Option (Nat × Bool) :=
  if act = 0 ∨ act = 1 then (if [0, 7, 2, 4, 5, 6].contains wgt then some (64, false) else none)
  else if act = 2 ∨ act = 3 then (if wgt = 2 then some (16, false) else if wgt = 5 ∨ wgt = 6 then some (8, false) else none)
  else if act = 4 then (if wgt = 4 then some (16, true) else if wgt = 5 ∨ wgt = 6 then some (8, true) else none)
  else none

/-- One weight as the expander hands it on: its value, and whether it is an escape. -/
abbrev WElem := FV × Bool

/-- A Q4E block from its codes and its side list (R149, R154). -/
def q4eElems : List Nat → List Nat → List WElem
  | [], _ => []
  | c :: r, side =>
    if c = 8 then (fmtBF16.dec (side.headD 0), true) :: q4eElems r (side.drop 1)
    else (elemFV 6 c, false) :: q4eElems r side

/-- An EBF16 coded block's deltas (R172). -/
def ebfDelta (blk : List B8) (w i : Nat) : Nat := leAt blk (258 + i * w / 8) 2 / 2 ^ (i * w % 8) % 2 ^ w

/-- Decodes an EBF16 place under the checks of R177 rows 2-9: the 256 codes and the number of exceptions, or the detail code. -/
def ebfDecode (blk : List B8) (desc : Nat) : Except Nat (List Nat × Nat) :=
  let units := desc % 32 + 1
  let width := desc / 32 % 4
  let raw := desc.testBit 7
  if 256 ≤ desc ∨ width = 3 ∨ (raw ∧ desc ≠ 0x9F) then .error 0xA3
  else if raw then .ok ((codes16 blk).take 256, 0)
  else
    let hdr := leAt blk 0 2
    let e0 := hdr % 256
    let w := width + 2
    let deltas := (List.range 256).map (ebfDelta blk w)
    let ones := 2 ^ w - 1
    let x := (deltas.filter (fun t => decide (t = ones))).length
    if 1024 ≤ hdr ∨ hdr / 256 % 4 ≠ width ∨ e0 = 0 ∨ e0 = 255 then .error 0xA4
    else if 16 * units < 258 + 32 * w then .error 0xA0
    else if 8 < x then .error 0xA5
    else if deltas.any (fun t => decide (t ≠ 0) && decide (t ≠ ones) && decide (254 < e0 + t - 1)) then .error 0xA6
    else if 16 * units < 258 + 32 * w + x then .error 0xA0
    else if 258 + 32 * w + x ≤ 16 * (units - 1) then .error 0xA1
    else if ((blk.take (16 * units)).drop (258 + 32 * w + x)).any (fun b => decide (b ≠ 0)) then .error 0xA2
    else
      let exps := (deltas.foldl (fun (s : List Nat × Nat) t =>
        if t = 0 then (0 :: s.1, s.2)
        else if t = ones then (leAt blk (258 + 32 * w + s.2) 1 :: s.1, s.2 + 1)
        else ((e0 + t - 1) :: s.1, s.2)) ([], 0)).1.reverse
      .ok (exps.mapIdx (fun i e => let sm := leAt blk (2 + i) 1; sm / 128 * 32768 + e * 128 + sm % 128), x)

/-- Cycles that the expander spends on a block: 4, and one for each escape or exception (R158). -/
abbrev Block := List WElem × Nat

/-- A block that fails: what is reported, and the cycles spent on it, which count as those of a block that passes (R138). Where its
number of escapes or exceptions is not known, the cycles are a free value. -/
def Dev.blockFails (d : Dev) (e : Fail) (n : Option Nat) : Dev × Except (Fail × Nat) Block :=
  match n with
  | some k => (d, .error (e, 4 + k))
  | none => (d.drawn, .error (e, 4 + Config.freeNat d.draw))

/-- A Q4E block: header, codes and side list are read; the header is judged first, then the number of codes, then the side list (R139). -/
def Dev.expandQ4e (d : Dev) (party hdrAt at_ : Nat) : Dev × Except (Fail × Nat) Block :=
  match d.bufRead party hdrAt 1 with
  | (d1, h) =>
    match d1.bufRead party at_ 128 with
    | (d2, cs) =>
      let n := match h with | .ok b => if leNat b ≤ 16 then leNat b else 0 | .error _ => 0
      match d2.bufRead party (at_ + 128) (2 * n) with
      | (d3, sb) =>
        match h, cs, sb with
        | .error e, _, _ => d3.blockFails e none
        | .ok b, cs, sb =>
          if 16 < leNat b then d3.blockFails { status := 0x04, code := 0x90, addr := hdrAt, space := 1 } none
          else match cs, sb with
            | .error e, _ => d3.blockFails e (some n)
            | .ok c, sb =>
              let cl := codes4 c
              if (cl.filter (fun c => decide (c = 8))).length ≠ n then d3.blockFails { status := 0x04, code := 0x91, addr := at_, space := 1 } none
              else match sb with
                | .error e => d3.blockFails e (some n)
                | .ok sb =>
                  let side := codes16 sb
                  match side.findIdx? (fun c => decide (0x7F80 ≤ c % 32768)) with
                  | some i => d3.blockFails { status := 0x04, code := 0x92, addr := at_ + 128 + 2 * i, space := 1 } (some n)
                  | none => (d3, .ok (q4eElems cl side, 4 + n))

/-- The exceptions of an EBF16 block that fails with a code, where the checks before it have counted them (R177). -/
def ebfCounted (blk : List B8) (desc code : Nat) : Option Nat :=
  let w := desc / 32 % 4 + 2
  if [0xA6, 0xA1, 0xA2].contains code ∨ (code = 0xA0 ∧ 258 + 32 * w ≤ 16 * (desc % 32 + 1)) then
    some (((List.range 256).filter (fun i => decide (ebfDelta blk w i = 2 ^ w - 1))).length)
  else none

/-- An EBF16 block: its descriptor's line, then the lines of its first 16L bytes, then the checks of R177. -/
def Dev.expandEbf (d : Dev) (party descAt at_ : Nat) : Dev × Except (Fail × Nat) Block :=
  match d.bufRead party (descAt / 64 * 64) 64 with
  | (d1, .error e) => d1.blockFails e none
  | (d1, .ok line) =>
    let desc := leAt line (descAt % 64) 2
    match d1.bufRead party at_ (cdiv (16 * (desc % 32 + 1)) 64 * 64) with
    | (d2, .error e) => d2.blockFails e none
    | (d2, .ok place) =>
      match ebfDecode place desc with
      | .error c => d2.blockFails { status := 0x04, code := c, addr := at_, space := 1 } (ebfCounted place desc c)
      | .ok (cs, x) => (d2, .ok (cs.map (fun c => (fmtBF16.dec c, false)), 4 + x))

/-- The expander's reading of one weight block: its 256 elements and its cycles (R158), or what R139 and R177 report. -/
def Dev.expand (d : Dev) (party base : Nat) (v : MatDesc) (kb nb : Nat) : Dev × Except (Fail × Nat) Block :=
  let idx := kb * (v.n / 16) + nb
  let at_ := base + v.bOff + idx * subTile v.wgt
  if v.wgt = 6 then d.expandQ4e party (base + v.auxOff + idx) at_
  else if v.wgt = 7 then d.expandEbf party (base + v.auxOff + 2 * idx) at_
  else
    match d.bufRead party at_ (subTile v.wgt) with
    | (d1, .error e) => (d1, .error (e, 4))
    | (d1, .ok b) => (d1, .ok ((codesOf (fmtBits v.wgt) b).map (fun c => (elemFV v.wgt c, false)), 4))

/-- Every block of an engine's columns in the order of R178; the first failing block is remembered and the rest still read. -/
def Dev.expandAll (d : Dev) (party base : Nat) (v : MatDesc) (nb0 per : Nat) : Dev × List (List WElem) × List Nat × Option Fail :=
  let order := ((List.range (v.k / 16)).map (fun kb => (List.range per).map (fun j => (kb, nb0 + j)))).flatten
  order.foldl (fun s x =>
    match s.1.expand party base v x.1 x.2 with
    | (d', .ok (l, c)) => (d', s.2.1 ++ [l], s.2.2.1 ++ [c], s.2.2.2)
    | (d', .error (e, c)) => (d', s.2.1 ++ [[]], s.2.2.1 ++ [c], match s.2.2.2 with | none => some e | some f => some f)) (d, [], [], none)

/-- Row groups of each pass (R159). -/
def passes (m : Nat) : List Nat :=
  let g := cdiv m 16
  let k := cdiv g 4
  (List.range k).map (fun i => g / k + (if i < g % k then 1 else 0))

/-- Cycles of a step on one engine and its waits on the expander (R147, R158); `w` is the bytes written. -/
def matCycles (m c : Nat) (xs : List Nat) (w : Nat) : Nat × Nat :=
  let ps := passes m
  (24 + (ps.map (fun g => (xs.map (fun x => max (c * g) x)).sum)).sum + cdiv w 64,
   (ps.map (fun g => (xs.map (fun x => x - c * g)).sum)).sum)

/-- A saturating INT32 value and whether it saturated (R134). -/
def sat32 (i : Int) : Int × Nat := if 2147483647 < i then (2147483647, 1) else if i < -2147483648 then (-2147483648, 1) else (i, 0)

/-- A finite whole value as an integer. -/
def fvInt (v : FV) : Int := match v with | .fin s m e => (if s then -1 else 1) * ((m <<< e.toNat : Nat) : Int) | _ => 0

/-- What an engine holds ready for its output path: activations by row and K, weights by K and column. -/
structure MatData where
  a : List FV
  w : List (List WElem)
  c32 : List Nat
  ws : List Nat
  scales : List F32

/-- Weight (kk, jj) of an engine with `per` blocks across. -/
def MatData.wAt (x : MatData) (per kk jj : Nat) : WElem := ((x.w.drop (kk / 16 * per + jj / 16)).headD []).getD (kk % 16 * 16 + jj % 16) (.fin false 0 0, false)

/-- The output path for one element (R151, R152): the value before conversion, and its SAT_EVENTS. -/
def matElem (v : MatDesc) (isInt lane : Bool) (x : MatData) (per r jj : Nat) : F32 × Nat :=
  let a (kk : Nat) : FV := x.a.getD (subIndex v.k r kk) (.fin false 0 0)
  let ks := List.range v.k
  let e : F32 := if lane then
      ks.foldl (fun s kk => let w := x.wAt per kk jj; if w.2 then fmac s (a kk) w.1 else s) f32Zero
    else f32Zero
  let ps : F32 × Nat :=
    if isInt then
      let t := ks.foldl (fun (s : Int × Nat) kk =>
        let w := x.wAt per kk jj
        let y := sat32 (s.1 + (if w.2 then 0 else fvInt (a kk) * fvInt w.1))
        (y.1, s.2 + y.2)) (0, 0)
      let t1 : Int × Nat := if v.zpMode = 1 ∧ v.wgt ≠ 6 then
          let p := sat32 (v.zp * toSigned 32 (x.ws.getD jj 0))
          let y := sat32 (t.1 - p.1)
          (y.1, t.2 + p.2 + y.2)
        else t
      (fadd (f32OfInt t1.1) e, t1.2)
    else
      let p0 : F32 := if v.accIn then BitVec.ofNat 32 (x.c32.getD (subIndex (16 * per) r jj) 0) else f32Zero
      (fadd (ks.foldl (fun s kk => let w := x.wAt per kk jj; if lane && w.2 then s else fmac s (a kk) w.1) p0) e, 0)
  let p1 := if isInt && decide (v.zpMode = 1) && decide (v.wgt = 6) then
      fsub ps.1 (fmul (f32OfInt v.zp) (BitVec.ofNat 32 (x.ws.getD jj 0))) else ps.1
  let p2 := if v.scaleEn then fmul p1 (x.scales.getD jj f32Zero) else p1
  (fmul (fmul p2 v.actScale) v.outMul, ps.2)

/-- Bytes of codes of a stored format. -/
def packCodes (f : Nat) (l : List Nat) : List B8 := (l.map (fun c => leBytes (fmtBits f / 8) c)).flatten

/-- The result of one engine: bytes to write with their buffer offsets, or its failure; and its event counts. -/
structure EngRes where
  writes : List (Nat × List B8) := []
  fail : Option Fail := none
  sat : Nat := 0
  busy : Nat := 0
  stall : Nat := 0

/-- Reads a list of ranges' bytes in order. -/
def Dev.bufCodes (d : Dev) (party dpa n bits : Nat) : Dev × Except Fail (List Nat) :=
  match d.bufRead party dpa n with
  | (d1, .error e) => (d1, .error e)
  | (d1, .ok b) => (d1, .ok (codesOf bits b))

/-- The accumulator input of an engine: the sub-tiles of its own columns, row group by row group (R142, R145). -/
def Dev.accCodes (d : Dev) (party base : Nat) (v : MatDesc) (col0 per : Nat) : Dev × Except Fail (List Nat) :=
  (List.range (cdiv v.m 16)).foldl (fun s g =>
    match s.1.bufCodes party (base + v.cOff + (g * (v.n / 16) + col0 / 16) * 1024) (per * 1024) 32 with
    | (d', .ok c) => (d', match s.2 with | .ok l => .ok (l ++ c) | .error e => .error e)
    | (d', .error e) => (d', match s.2 with | .ok _ => .error e | .error e0 => .error e0)) (d, .ok [])

/-- What a read failed with, and what it gave. -/
def failOf {α : Type} (r : Except Fail α) : Option Fail := match r with | .error e => some e | .ok _ => none
def gotOf (r : Except Fail (List Nat)) : List Nat := match r with | .error _ => [] | .ok l => l

/-- One engine's step: every input is read and checked before any output is written, after a fault too, and the fault that is reported
comes first in the order of R138. The zero rows of R32 are not converted: they count no SAT_EVENTS (DEDUCED: R32 has no output written
for them). -/
def Dev.engineStep (d : Dev) (party c : Nat) (v : MatDesc) (col0 cols : Nat) : Dev × EngRes :=
  let base := clusterDpa c 0
  let per := cols / 16
  let mode := (matMode v.act v.wgt).getD (64, false)
  let lane := decide (mode.1 = 8) && decide (v.wgt = 6)
  let cl := d.cluster c
  let entry (j : Nat) : Nat × F32 := cl.scales.get (v.scaleBase + col0 + j) (0xFF, f32Zero)
  let fScale : Option Fail := if v.scaleEn && (List.range cols).any (fun j => decide ((entry j).1 ≠ party)) then some { status := 0x03, code := 0x95 } else none
  match d.expandAll party base v (col0 / 16) per with
  | (d1, w, xs, fW) =>
    match d1.bufCodes party (base + v.aOff) (cdiv v.m 16 * (v.k / 16) * subTile v.act) (fmtBits v.act) with
    | (d2, a) =>
      match (if v.accIn then d2.accCodes party base v col0 per else (d2, .ok [])) with
      | (d3, c32) =>
        match (if v.zpMode = 1 then d3.bufCodes party (base + v.wsumOff + 4 * col0) (4 * cols) 32 else (d3, .ok [])) with
        | (d4, ws) =>
          match [fScale, fW, failOf a, failOf c32, failOf ws].findSome? id with
          | some e => let cy := matCycles v.m mode.1 xs 0; (d4, { fail := some e, busy := cy.1, stall := cy.2 })
          | none =>
            let x : MatData := { a := (gotOf a).map (elemFV v.act), w := w, c32 := gotOf c32, ws := gotOf ws, scales := (List.range cols).map (fun j => (entry j).2) }
            let eb := fmtBits v.out / 8
            let rows := (List.range v.m).map (fun r =>
              (List.range per).map (fun nb =>
                let es := (List.range 16).map (fun j =>
                  let p := matElem v mode.2 lane x per r (nb * 16 + j)
                  let o := convertTo v.out p.1
                  (o.1, o.2 + p.2))
                (((v.cOff + ((r / 16) * (v.n / 16) + col0 / 16 + nb) * subTile v.out + r % 16 * 16 * eb), packCodes v.out (es.map (fun y => y.1))),
                 (es.map (fun y => y.2)).sum)))
            let flat := rows.flatten
            let cy := matCycles v.m mode.1 xs (v.m * cols * eb)
            (d4, { writes := flat.map (fun y => y.1), sat := (flat.map (fun y => y.2)).sum, busy := cy.1, stall := cy.2 })

end Sys2Proof.Machine
end

