-- ==== Sys2Proof/Machine/Queue.lean ====
section
/-! DEFINITION. Queues and the life of a command: which one may start, how one ends, and what its list does then (R92-R95, R121). -/
namespace Sys2Proof.Machine
open Sys2Proof

/-- The command at the head of a queue, with its list. -/
def Dev.headCmd (d : Dev) (q : Nat) : Option (CmdList × W512) :=
  match (d.que q).lists with
  | [] => none
  | l :: _ => match l.cmds.drop l.index with
    | [] => none
    | c :: _ => some (l, c)

/-- The queue may start a command: none runs, no completion entry waits (R93, R126), and neither its partition nor its
tenant is in reset, nor is the package falling asleep (R34, R35, R481). -/
def Dev.mayStart (d : Dev) (q : Nat) : Bool :=
  let v := d.que q
  v.running.isNone && v.fifo.isEmpty && !(d.part (d.qPart q)).resetting && !(decide (qParty q < 64) && (d.ten (qParty q)).scrub)
    && !d.pwr.entering && decide (d.pwr.state ≤ 1)

/-- The command that queue `q` would start now, when its opcode is `op`. -/
def Dev.startable (d : Dev) (q op : Nat) : Option W512 :=
  match d.headCmd q with
  | none => none
  | some (_, c) => if d.mayStart q && decide (cmdOp c = op) then some c else none

/-- Place in the submission order of the head list of a queue. -/
def Dev.headNo (d : Dev) (q : Nat) : Nat := match (d.que q).lists with | l :: _ => l.no | [] => 0

/-- Media and Token commands start in submission order across the queues of a partition (R94). -/
def Dev.firstInOrder (d : Dev) (q : Nat) : Bool :=
  !(d.queues.any (fun e => decide (e.1 ≠ q) && decide (qEngine e.1 = qEngine q) && decide (d.qPart e.1 = d.qPart q)
      && !e.2.lists.isEmpty && d.mayStart e.1 && decide (d.headNo e.1 < d.headNo q)))

/-- A command has started. -/
def Dev.startCmd (d : Dev) (q : Nat) (c : W512) : Dev :=
  d.modQue q (fun v => { v with running := some { cmd := c, started := d.time }, reserved := false })

def Dev.running (d : Dev) (q : Nat) : Option Running := (d.que q).running
def Dev.setRunning (d : Dev) (q : Nat) (r : Running) : Dev := d.modQue q (fun v => { v with running := some r })

/-- The record of a command of queue `q` (R128). -/
def Dev.cmdRec (d : Dev) (q unit : Nat) (f : Fail) (index : Nat) (subTag : W16) : Dev :=
  d.record { time := d.time, tenant := qParty q, status := f.status, unit := unit, detail := detailOf f.code f.val,
             address := f.addr, space := f.space, partition := d.qPart q, queue := qByte q + 0x80, index := index, subTag := subTag }

/-! ## Pins of generations (R245) -/

def pinGen (n : Nat) (l : List GenState) : List GenState := l.map (fun g => if g.number = n then { g with pins := g.pins + 1 } else g)
def unpinGen (n : Nat) (l : List GenState) : List GenState := l.map (fun g => if g.number = n then { g with pins := g.pins - 1 } else g)
def Dev.pin (d : Dev) (slot gen : Nat) : Dev := d.modSlot slot (fun v => { v with gens := pinGen gen v.gens })
def Dev.unpin (d : Dev) (slot gen : Nat) : Dev := d.modSlot slot (fun v => { v with gens := unpinGen gen v.gens })

/-! ## The end of a command (R121) -/

/-- Control core `k` is restarting or held, so its duties wait (R31, R449). -/
def Dev.coreOut (d : Dev) (k : Nat) : Bool := (d.core k).restarting || decide (d.fw.updState = 3)

/-- Progress slot a command reports through (R115): MIGRATE and MODEL_LOAD name one. -/
def cmdSlot (c : W512) : Option Nat :=
  if cmdOp c = 0x23 then some (nfld (cmdArg c) 2 3) else if cmdOp c = 0x24 then some (cmdArg c % 8) else none

/-- The gust limiters of a program's regions forget the engines and the release of an earlier program. -/
def Dev.clearRegions (d : Dev) (mask : W16) : Dev :=
  ((List.range 16).filter (fun r => mask.getLsbD r)).foldl (fun d r => d.modRegion r (fun v => { v with waiting := [] })) d

/-- A TUNE gives up its adapter slot and its sequences (R336). -/
def Dev.adapterFree (d : Dev) (party k : Nat) (seqs : List Nat) : Dev :=
  seqs.foldl (fun d s => d.modSeq s (fun v => { v with heldBy := none }))
    (d.modTen party (fun v => { v with adapters := v.adapters.set k { v.adapters.get k {} with heldByTune := false } }))

/-- The end of a TUNE (R337): the ready flag of its state block is set or cleared, and the slot is bound to the block or left unbound. -/
def Dev.tuneEnd (d : Dev) (party : Nat) (p : Prog) (ok : Bool) : Dev :=
  let d1 := d.modTen party (fun v => { v with adapters := v.adapters.set p.adapter { v.adapters.get p.adapter {} with bound := ok, addr := if ok then p.stateAddr else 0 } })
  let v : View := { party := party, part := p.partition }
  match d1.readMem v (p.stateAddr + 6) 2 with
  | (d2, .error _) => d2
  | (d2, .ok b) => (d2.writeMem v (p.stateAddr + 6) (leBytes 2 (if ok then leNat b ||| 2 else leNat b &&& 0xFFFD))).1

/-- A BIND, UNBIND or PARAM_COMMIT of queue `q` that ends leaves nothing waiting (R361). -/
def Dev.mediaRelease (d : Dev) (q : Nat) : Dev :=
  let clean (b : OutBind) : Option OutBind := if b.pending && decide (b.bindQ = q) then none else some (if b.unbind = some q then { b with unbind := none } else b)
  { d with
    cam := { d.cam with ctx := d.cam.ctx.map (fun e => (e.1, { e.2 with
      outs := e.2.outs.map (fun o => (o.1, o.2.bind clean)), commits := e.2.commits.filter (fun x => decide (x.1 ≠ q)) })) }
    aud := { d.aud with arrays := d.aud.arrays.map (fun e => (e.1, { e.2 with ring := e.2.ring.bind clean })) } }

/-- A command gives up its progress slot: it shows the status of a failed one (R115, R131). -/
def Dev.releaseSlot (d : Dev) (q : Nat) (r : Running) (status : B8) : Dev :=
  match cmdSlot r.cmd with
  | some k =>
    if r.aux = 0 then d
    else if status = 0 then d.setBusy (qParty q) k false
    else (d.setProgress (qParty q) k 3 status.toNat).setBusy (qParty q) k false
  | none => d

/-- A program gives up its pin, its regions, and a TUNE its adapter and sequences (R245, R336). -/
def Dev.releaseProg (d : Dev) (party : Nat) (p : Prog) (status : B8) : Dev :=
  let d1 := (if p.slot < 8 then d.unpin (slotNo p.partition p.slot) p.gen else d).clearRegions p.mask
  if p.adapter < 8 then (d1.adapterFree party p.adapter p.tuneSeqs).tuneEnd party p (decide (status = 0)) else d1

/-- A SCATTER holds no sequence any more. -/
def Dev.scatterRelease (d : Dev) (q : Nat) : Dev :=
  { d with tok := { d.tok with seqs := d.tok.seqs.map (fun e => (e.1, e.2.map (fun v => { v with scatterHold := v.scatterHold.filter (fun x => decide (x ≠ q)) }))) } }

/-- A failed BARRIER leaves the barrier it waits at (R113). -/
def Dev.barrierLeave (d : Dev) (q b : Nat) : Dev :=
  d.modTen (qParty q) (fun v =>
    let g := v.barriers.get b {}
    { v with barriers := if g.waiting.contains q then v.barriers.set b { g with count := g.count - 1, waiting := g.waiting.filter (fun x => decide (x ≠ q)) } else v.barriers })

/-- The tile that a MIGRATE was about to move is busy no more (R195). -/
def Dev.unmarkTile (d : Dev) (q : Nat) (r : Running) : Dev :=
  if r.mark then
    (let k := d.keyAt { party := qParty q, part := d.qPart q } (bytesAt r.cmd 8 8 + r.pos * tileSize)
     match d.tile k with
     | some t => { d with mem := { d.mem with tiles := d.mem.tiles.set k (some { t with busy := false }) } }
     | none => d)
  else d

/-- A MODEL_CTL leaves the slot it waits on; an unload goes on without its command (R246, R248). -/
def Dev.ctlRelease (d : Dev) (q : Nat) (c : W512) : Dev :=
  if 1 < cmdArg c % 4 then d
  else d.modSlot (slotNo (d.qPart q) (cmdArg c / 256)) (fun v =>
    { v with switches := v.switches.filter (fun w => decide (w.queue ≠ q)), unloadQ := if v.unloadQ = some q then none else v.unloadQ })

/-- No sequence makes a SEQ_CTL of queue `q` wait any more (R327, R330). -/
def Dev.seqCtlRelease (d : Dev) (q : Nat) : Dev :=
  { d with tok := { d.tok with seqs := d.tok.seqs.map (fun e => (e.1, e.2.map (fun v =>
      { v with pausers := v.pausers.filter (fun x => decide (x ≠ q)), resumers := v.resumers.filter (fun x => decide (x ≠ q)) }))) } }

/-- What a command held is given up: its progress slot, its pin, its place at a barrier, its adapter and sequences. -/
def Dev.release (d : Dev) (q : Nat) (r : Running) (status : B8) : Dev :=
  let d1 := d.releaseSlot q r status
  let d2 := match r.prog with | some p => d1.releaseProg (qParty q) p status | none => d1
  if qEngine q = 2 then d2.mediaRelease q
  else if cmdOp r.cmd = 0x21 then d2.scatterRelease q
  else if cmdOp r.cmd = 0x23 then d2.unmarkTile q r
  else if cmdOp r.cmd = 0x25 then d2.ctlRelease q r.cmd
  else if cmdOp r.cmd = 0x41 then d2.seqCtlRelease q
  else if cmdOp r.cmd = 0x07 ∧ status ≠ 0 then d2.barrierLeave q (cmdArg r.cmd % 16)
  else d2

/-- The list at the head of a queue ends: its kind 0 entry, and the queue moves to the next list (R121). -/
def Dev.endList (d : Dev) (q : Nat) (l : CmdList) (last : Nat) : Dev :=
  let st := (l.firstFail.map (fun x => x.2)).getD 0
  let ix := (l.firstFail.map (fun x => x.1)).getD last
  let tag := cmdTag ((l.cmds.drop ix).headD 0)
  let d1 := d.modQue q (fun v => { v with lists := v.lists.drop 1, readySince := d.time })
  d1.emit q { tag := tag, subTag := l.subTag, status := st, kind := 0, index := ix }

/-- The record of a failed command: `f` names the failure and the unit that found it. -/
def Dev.endRecord (d : Dev) (q : Nat) (l : CmdList) (f : Option (Fail × Nat)) : Dev :=
  match f with
  | some (e, unit) => d.cmdRec q unit e l.index l.subTag
  | none => d

/-- The kind 1 entry of a command that failed or asks for one. -/
def Dev.endEntry (d : Dev) (q : Nat) (c : W512) (l : CmdList) (status : B8) (result : W64) : Dev :=
  if status ≠ 0 ∨ cmdNotify c then
    d.emit q { tag := cmdTag c, subTag := l.subTag, status := status, kind := 1, index := l.index, result := result }
  else d

/-- The list remembers its first failed command. -/
def CmdList.failed (l : CmdList) (status : B8) : CmdList :=
  if status ≠ 0 ∧ l.firstFail = none then { l with firstFail := some (l.index, status) } else l

/-- The running command of queue `q` ends with a status and a result word. A failed command writes a kind 1 entry and a record, and skips
the rest of its list unless it may continue. -/
def Dev.endCmd (d : Dev) (q : Nat) (status : B8) (result : W64) (f : Option (Fail × Nat)) : Dev :=
  match d.running q, (d.que q).lists with
  | some r, l :: rest =>
    let d1 := (((d.release q r status).modQue q (fun v => { v with running := none })).endRecord q l f).endEntry q r.cmd l status result
    if (status ≠ 0 ∧ !cmdContinue r.cmd) ∨ l.cmds.length ≤ l.index + 1 then d1.endList q (l.failed status) l.index
    else d1.modQue q (fun v => { v with lists := { l.failed status with index := l.index + 1 } :: rest, readySince := d1.time })
  | _, _ => d

/-- The command ends as requested. -/
def Dev.finish (d : Dev) (q : Nat) (result : W64) : Dev := d.endCmd q 0 result none

/-- The dispatcher of a partition as a unit (R21). -/
def dispatcher (p : Nat) : Nat := unitHub 0x13 p

/-- The command fails with the failure `f` found by `unit`. -/
def Dev.failCmd (d : Dev) (q : Nat) (f : Fail) (unit : Nat) : Dev := d.endCmd q f.status 0 (some (f, unit))

/-- The command fails as its work engine's dispatcher reports it. -/
def Dev.failDisp (d : Dev) (q : Nat) (f : Fail) : Dev := d.failCmd q f (dispatcher (d.qPart q))

/-- The command ends, in failure where there is one. -/
def Dev.endWith (d : Dev) (q : Nat) (f : Option Fail) (result : W64) : Dev :=
  match f with
  | some e => d.failDisp q e
  | none => d.finish q result

/-! ## Regions in use -/

/-- The region mask of a running program. -/
def progMask (r : Option Prog) : Nat := match r with | some p => p.mask.toNat | none => 0

/-- Regions of partition `p` on which a program runs. -/
def Dev.busyMask (d : Dev) (p : Nat) : Nat :=
  (d.queues.foldl (fun m e =>
    if d.qPart e.1 = p then (match e.2.running with | some r => m ||| progMask r.prog | none => m) else m) 0)
  ||| (match (d.part p).batch with | some b => progMask b.prog | none => 0)

/-- The region mask that a Compute command names (R114). -/
def cmdMask (c : W512) : Nat := if cmdOp c = 0x10 ∨ cmdOp c = 0x11 then cmdArg c else 0

/-- A Compute command that has waited 2 ms for busy regions holds them reserved (R95). -/
def Dev.reserved (d : Dev) (q : Nat) : Bool := (d.que q).reserved

/-- The batch of a partition that waits for its regions (R318). -/
def Dev.waitingBatch (d : Dev) (p : Nat) : Option Batch := (d.part p).batch.filter (fun b => b.waits)
/-- A batch that has waited 2 ms for busy regions holds them reserved (R95, R318). -/
def Batch.reserved (b : Batch) (t : W64) : Bool := b.waits && decide (b.started.toNat + 2000000 ≤ t.toNat)

/-- Another Compute command of the partition, or its waiting batch, holds a reservation on one of these regions, and goes before the head
command of queue `q` (R95). -/
def Dev.heldBack (d : Dev) (q mask : Nat) : Bool :=
  d.queues.any (fun e => decide (e.1 ≠ q) && decide (qEngine e.1 = 0) && decide (d.qPart e.1 = d.qPart q) && e.2.reserved &&
    (match d.headCmd e.1 with | some (_, c) => decide (cmdMask c &&& mask ≠ 0) | none => false) &&
    (!(d.que q).reserved || decide (d.headNo e.1 < d.headNo q)))
  || (match d.waitingBatch (d.qPart q) with
    | some b => b.reserved d.time && decide (mask &&& d.cfg.regionMask (d.qPart q) ≠ 0) && (!(d.que q).reserved || decide (b.no ≤ d.headNo q))
    | none => false)

/-- The head command of a Compute queue, with regions `mask`, could start but for the order: its regions are free and not reserved. -/
def Dev.regionsFree (d : Dev) (q mask : Nat) : Bool := decide (mask &&& d.busyMask (d.qPart q) = 0) && !d.heldBack q mask

/-- The waiting batch of partition `p`, which needs all of its regions, could start but for the order (R94, R95, R318). -/
def Dev.batchFree (d : Dev) (p : Nat) (b : Batch) : Bool :=
  decide (d.busyMask p = 0) &&
  !(d.queues.any (fun e => decide (qEngine e.1 = 0) && decide (d.qPart e.1 = p) && e.2.reserved &&
      (match d.headCmd e.1 with | some (_, c) => decide (cmdMask c ≠ 0) | none => false) && (!b.reserved d.time || decide (d.headNo e.1 < b.no))))

/-- A Compute command starts when its regions are free and no older one of the partition, nor an older batch, is ready with free regions
(R94, R95, R318). -/
def Dev.computeTurn (d : Dev) (q mask : Nat) : Bool :=
  d.regionsFree q mask &&
  !(d.queues.any (fun e =>
      decide (e.1 ≠ q) && decide (qEngine e.1 = 0) && decide (d.qPart e.1 = d.qPart q) && d.mayStart e.1 && decide (d.headNo e.1 < d.headNo q) &&
      (match d.headCmd e.1 with | some (_, c) => d.regionsFree e.1 (cmdMask c) | none => false))) &&
  !(match d.waitingBatch (d.qPart q) with | some b => decide (b.no ≤ d.headNo q) && d.batchFree (d.qPart q) b | none => false)

/-- A batch starts when its regions are free and no older Compute command is ready with free regions (R94, R318). -/
def Dev.batchTurn (d : Dev) (p : Nat) (b : Batch) : Bool :=
  d.batchFree p b &&
  !(d.queues.any (fun e =>
      decide (qEngine e.1 = 0) && decide (d.qPart e.1 = p) && d.mayStart e.1 && decide (d.headNo e.1 < b.no) &&
      (match d.headCmd e.1 with | some (_, c) => d.regionsFree e.1 (cmdMask c) | none => false)))

/-- The turn of queue `q` among the queues of its engine has come to start command `c`; Move commands start at once and share the engine
by turns (R94). -/
def Dev.turnOf (d : Dev) (q : Nat) (c : W512) : Bool :=
  if qEngine q = 0 then d.computeTurn q (cmdMask c) else if qEngine q = 1 then true else d.firstInOrder q

/-! ## Turns of the Move engine (R94) -/

/-- A Move command that moves tiles. -/
def movesTiles (c : W512) : Bool := decide (0x20 ≤ cmdOp c) && decide (cmdOp c ≤ 0x23)

/-- Queue `q` has a tile transfer to make: its running command does not wait, or its head command may start. -/
def Dev.moveReady (d : Dev) (q : Nat) : Bool :=
  match d.running q with
  | some r => movesTiles r.cmd && !r.parked
  | none => match d.headCmd q with
    | some (_, c) => movesTiles c && d.mayStart q
    | none => false

/-- The other queues of the partition's Move engine that have a transfer to make. -/
def Dev.moveRivals (d : Dev) (q : Nat) : List Nat :=
  (d.queues.filter (fun e => decide (e.1 ≠ q) && decide (qEngine e.1 = 1) && decide (d.qPart e.1 = d.qPart q) && d.moveReady e.1)).map (fun e => e.1)

/-- Queue `q` takes its turn in the round; none where it has had it and another still waits for its own. -/
def Dev.takeTurn (d : Dev) (q : Nat) : Option Dev :=
  let w := d.moveRivals q
  let served := (d.part (d.qPart q)).moveServed
  if served.contains q then
    if w.all (fun x => served.contains x) then some (d.modPart (d.qPart q) (fun v => { v with moveServed := [q] })) else none
  else some (d.modPart (d.qPart q) (fun v => { v with moveServed := q :: v.moveServed }))

/-- Transfers that queue `q` may make now of the `total` of its command: one where another queue waits, else `turns`, 0 standing for all. -/
def Dev.turnsNow (d : Dev) (q turns total : Nat) : Nat := if d.moveRivals q ≠ [] then 1 else if turns = 0 then total else turns

/-! ## Regions of a Compute command (R95) -/

/-- A Compute command of queue `q` that began to wait for its regions now. -/
def Queue.waitsFrom (v : Queue) (t : W64) : Queue := { v with readySince := t }
/-- Heads of queues begin their wait for regions anew: what held them back was not the regions. -/
def Dev.waitAnew (d : Dev) (mine : Nat → Bool) : Dev := { d with queues := d.queues.map (fun e => if mine e.1 then (e.1, e.2.waitsFrom d.time) else e) }

end Sys2Proof.Machine
end

