-- ==== Sys2Proof/Machine/Models.lean ====
section
/-! DEFINITION. Model bundles: the manifest, the placement of its stream in a slot's window, generations, loads and the sweep (08_model_residency.md). -/
namespace Sys2Proof.Machine
open Sys2Proof

/-! ## The manifest (R230-R233) -/

abbrev Manifest := List B8
def manLength (m : Manifest) : Nat := leAt m 8 4
def manCacheFlag (m : Manifest) : Bool := (leAt m 6 2).testBit 0
def manShards (m : Manifest) : Nat := leAt m 0x0C 2
def manSigner (m : Manifest) : Nat := leAt m 0x0E 1
def manTensors (m : Manifest) : Nat := leAt m 0x10 4
def manStream (m : Manifest) : Nat := leAt m 0x18 8
def manShardSize (m : Manifest) : Nat := leAt m 0x20 4

/-- A range of bytes that is all zero. -/
def zeroAt (m : List B8) (off n : Nat) : Bool := ((m.drop off).take n).all (fun b => decide (b = 0))

/-- The offset of the first header field outside its values (R230). -/
def manHeaderBad (m : Manifest) : Option Nat :=
  let sz := manShardSize m
  if leAt m 0 4 ≠ 0x424C5251 then some 0
  else if leAt m 4 2 ≠ 1 then some 4
  else if 1 < leAt m 6 2 then some 6
  else if manLength m ≠ 256 + 96 * manShards m + 32 * manTensors m + 96 then some 8
  else if manShards m = 0 ∨ 1024 < manShards m ∨ sz = 0 ∨ manShards m ≠ cdiv (manStream m) sz then some 0x0C
  else if 1 < manSigner m then some 0x0E
  else if !zeroAt m 0x0F 1 then some 0x0F
  else if manTensors m = 0 ∨ 65536 < manTensors m then some 0x10
  else if leAt m 0x14 2 ≠ 1 then some 0x14
  else if !zeroAt m 0x16 2 then some 0x16
  else if manStream m = 0 ∨ 274877906944 < manStream m then some 0x18
  else if sz % 4096 ≠ 0 ∨ 268435456 < sz then some 0x20
  else if !zeroAt m 0x24 28 then some 0x24
  else if !zeroAt m 0xE0 32 then some 0xE0
  else none

/-- Offset of shard entry `i` and of tensor entry `i` (R231, R233). -/
def shardOff (i : Nat) : Nat := 256 + 96 * i
def tensorOff (m : Manifest) (i : Nat) : Nat := 256 + 96 * manShards m + 32 * i
/-- Digest of shard `i`. -/
def shardDigest (m : Manifest) (i : Nat) : B384 := BitVec.ofNat 384 (leAt m (shardOff i) 48)
/-- First stream byte and length of shard `i` (R231). -/
def shardStart (m : Manifest) (i : Nat) : Nat := i * manShardSize m
def shardLen (m : Manifest) (i : Nat) : Nat := min (manShardSize m) (manStream m - i * manShardSize m)

/-- A source entry (R232): type, target, address. -/
structure Source where
  typ : Nat
  target : Nat
  addr : Nat
/-- Source `j` (0 primary, 1 alternate) of shard `i`. -/
def source (m : Manifest) (i j : Nat) : Source :=
  let o := shardOff i + 48 + 24 * j
  { typ := leAt m o 1, target := leAt m (o + 1) 1, addr := leAt m (o + 8) 8 }

/-- A tensor table entry (R233). -/
structure Tensor where
  kind : Nat
  fmt : Nat
  split : Nat
  flags : Nat
  k : Nat
  n : Nat
  ref : Nat
  off : Nat
  len : Nat
deriving Inhabited
def tensor (m : Manifest) (i : Nat) : Tensor :=
  let o := tensorOff m i
  { kind := leAt m o 1, fmt := leAt m (o + 1) 1, split := leAt m (o + 2) 1, flags := leAt m (o + 3) 1, k := leAt m (o + 4) 4,
    n := leAt m (o + 8) 4, ref := leAt m (o + 12) 4, off := leAt m (o + 16) 8, len := leAt m (o + 24) 8 }
def tensors (m : Manifest) : List Tensor := (List.range (manTensors m)).map (tensor m)

/-- The first byte in a tensor entry that R233 does not allow. -/
def tensorBad (m : Manifest) (ts : List Tensor) (i : Nat) (t : Tensor) : Option Nat :=
  let r := ts.getD t.ref default
  let want := if t.kind = 0 then t.k / 16 * (t.n / 16) * subTile t.fmt
    else if t.kind = 1 then r.k / 16 * (r.n / 16) * (if r.fmt = 6 then 1 else 2)
    else if t.kind = 2 then 4 * t.n else t.len
  if 3 < t.kind then some 0
  else if (t.kind = 0 ∧ 8 < t.fmt) ∨ (t.kind ≠ 0 ∧ t.fmt ≠ 0) then some 1
  else if 3 < t.split ∨ (t.kind = 3 ∧ (t.split = 1 ∨ t.split = 2)) then some 2
  else if 1 < t.flags then some 3
  else if (t.kind = 0 ∧ (t.k = 0 ∨ t.k % 16 ≠ 0)) ∨ (t.kind ≠ 0 ∧ t.k ≠ 0) then some 4
  else if ((t.kind = 0 ∨ t.kind = 2) ∧ (t.n = 0 ∨ t.n % 16 ≠ 0)) ∨ (t.kind ≠ 0 ∧ t.kind ≠ 2 ∧ t.n ≠ 0) then some 8
  else if (t.kind = 1 ∧ (ts.length ≤ t.ref ∨ r.kind ≠ 0 ∨ (r.fmt ≠ 6 ∧ r.fmt ≠ 7) ∨ r.split ≠ t.split)) ∨ (t.kind ≠ 1 ∧ t.ref ≠ 0) then some 12
  else if t.off % 64 ≠ 0 ∨ manStream m < t.off + t.len then some 16
  else if t.len ≠ want then some 24
  else if t.kind = 0 ∧ t.fmt = 7 ∧ !(ts.any (fun u => decide (u.kind = 1) && decide (u.ref = i))) then some 1
  else none

/-! ## What a model declares (R259, R307) -/

def attLayers (m : Manifest) : Nat := leAt m 0x60 2
def attHeads (m : Manifest) : Nat := leAt m 0x62 1
def attGroup (m : Manifest) : Nat := leAt m 0x63 1
def attDim (m : Manifest) : Nat := leAt m 0x64 2
def attKeyFmt (m : Manifest) : Nat := leAt m 0x66 1
def attValFmt (m : Manifest) : Nat := leAt m 0x67 1
def attByPos (m : Manifest) : Bool := decide (leAt m 0x68 1 = 1)
def attRotary (m : Manifest) : Bool := (leAt m 0x69 1).testBit 0
def attRotSplit (m : Manifest) : Bool := (leAt m 0x69 1).testBit 1
def attBias (m : Manifest) : Bool := (leAt m 0x69 1).testBit 2
def attSpan (m : Manifest) : Nat := leAt m 0x6A 2
def attMaxPos (m : Manifest) : Nat := leAt m 0x6C 4
def attRotTensor (m : Manifest) : Nat := leAt m 0x70 4
def attBiasTensor (m : Manifest) : Nat := leAt m 0x74 4
def attScaleTensor (m : Manifest) : Nat := leAt m 0x78 4
def attRotDims (m : Manifest) : Nat := leAt m 0x7C 2
def attBiasLen (m : Manifest) : Nat := leAt m 0x80 4
/-- Pages carry scales: an INT8 or INT4 part (R263). -/
def attScaled (m : Manifest) : Bool := decide (attKeyFmt m = 4 ∨ attKeyFmt m = 5 ∨ attValFmt m = 4)
/-- Bytes of the keys and of the values of a page, and its granules (R261). -/
def pageKeyBytes (m : Manifest) : Nat := 4 * (attDim m / 16) * subTile (attKeyFmt m)
def pageValBytes (m : Manifest) : Nat := 4 * (attDim m / 16) * subTile (attValFmt m)
def pageGranules (m : Manifest) : Nat := cdiv (pageKeyBytes m + pageValBytes m) 4096

def srvVocab (m : Manifest) : Nat := leAt m 0xA0 4
def srvEndCount (m : Manifest) : Nat := leAt m 0xA4 1
def srvLogitsFmt (m : Manifest) : Nat := leAt m 0xA5 1
def srvDraft (m : Manifest) : Bool := (leAt m 0xA6 1).testBit 0
def srvAdapters (m : Manifest) : Bool := (leAt m 0xA6 1).testBit 1
def srvEndToken (m : Manifest) (i : Nat) : Nat := leAt m (0xA8 + 4 * i) 4
def srvTable (m : Manifest) : Nat := leAt m 0xB8 4
def srvBatchRows (m : Manifest) : Nat := leAt m 0xBC 2
def srvChunk (m : Manifest) : Nat := leAt m 0xBE 2
def srvClusters (m : Manifest) : Nat := leAt m 0xC0 2

/-- The first byte of the attention parameters outside R259's table. -/
def attBad (m : Manifest) : Option Nat :=
  if attLayers m = 0 then none
  else if 255 < attLayers m then some 0x60
  else if attHeads m = 0 ∨ 64 < attHeads m then some 0x62
  else if attGroup m = 0 ∨ 16 < attGroup m then some 0x63
  else if attDim m < 32 ∨ 256 < attDim m ∨ attDim m % 16 ≠ 0 then some 0x64
  else if ! [0, 2, 4, 5].contains (attKeyFmt m) then some 0x66
  else if ! [0, 2, 4].contains (attValFmt m) then some 0x67
  else if 1 < leAt m 0x68 1 then some 0x68
  else if 7 < leAt m 0x69 1 then some 0x69
  else if (attByPos m && (decide (attSpan m = 0) || decide (1024 < attSpan m))) || (!attByPos m && decide (attSpan m ≠ 0)) then some 0x6A
  else if attMaxPos m < 64 ∨ 262144 < attMaxPos m ∨ attMaxPos m % 64 ≠ 0 then some 0x6C
  else if attRotDims m < 2 ∨ attDim m < attRotDims m ∨ attRotDims m % 2 ≠ 0 then some 0x7C
  else if !zeroAt m 0x7E 2 then some 0x7E
  else if attBiasLen m = 0 ∨ 262144 < attBiasLen m then some 0x80
  else if !zeroAt m 0x84 28 then some 0x84
  else none

/-- A table tensor that the attention parameters name: kind 3, split 3, of a length. -/
def tableBad (ts : List Tensor) (i len : Nat) : Bool :=
  let t := ts.getD i default
  decide (ts.length ≤ i) || decide (t.kind ≠ 3) || decide (t.split ≠ 3) || decide (t.len ≠ len)

/-- The offset in the parameter block that R260 rejects for a partition of `R` regions on `D` dies. -/
def attUnfit (m : Manifest) (R D : Nat) : Option Nat :=
  let ts := tensors m
  if attLayers m = 0 then none
  else if 1024 < attLayers m * attHeads m then some 0
  else if (!attByPos m && decide (attHeads m % R ≠ 0)) || (attByPos m && decide (attHeads m % 4 ≠ 0)) then some 2
  else if attByPos m && decide (D = 3) && decide (131072 < attMaxPos m) then some 0x0C
  else if (!attByPos m && decide (65536 < attMaxPos m)) || (attByPos m && decide (attSpan m * 64 * D < attMaxPos m)) then some 0x0C
  else if attRotary m && tableBad ts (attRotTensor m) (4 * attMaxPos m * attRotDims m) then some 0x10
  else if attBias m && tableBad ts (attBiasTensor m) (4 * attBiasLen m * attHeads m * attGroup m) then some 0x14
  else if attScaled m && tableBad ts (attScaleTensor m) (8 * attLayers m * attHeads m) then some 0x18
  else none

/-- The first byte of the serving parameters outside R307's table. -/
def srvBad (m : Manifest) : Option Nat :=
  let t := tensor m (srvTable m)
  if srvVocab m = 0 then none
  else if 262144 < srvVocab m then some 0xA0
  else if 4 < srvEndCount m then some 0xA4
  else if srvLogitsFmt m ≠ 0 ∧ srvLogitsFmt m ≠ 8 then some 0xA5
  else if 3 < leAt m 0xA6 1 then some 0xA6
  else if !zeroAt m 0xA7 1 then some 0xA7
  else match (List.range 4).find? (fun i => decide (srvVocab m ≤ srvEndToken m i)) with
    | some i => some (0xA8 + 4 * i)
    | none =>
      if manTensors m ≤ srvTable m ∨ t.kind ≠ 3 ∨ (t.split ≠ 0 ∧ t.split ≠ 3) then some 0xB8
      else if srvBatchRows m < 16 ∨ 4096 < srvBatchRows m ∨ srvBatchRows m % 16 ≠ 0 then some 0xBC
      else if srvChunk m < 64 ∨ 4096 < srvChunk m ∨ srvChunk m % 64 ≠ 0 then some 0xBE
      else if srvClusters m = 0 then some 0xC0
      else if !zeroAt m 0xC2 30 then some 0xC2
      else none

/-! ## Placement (R235, R236) -/

def align16k (n : Nat) : Nat := cdiv n tileSize * tileSize

/-- Where a tensor is placed: base, stride, pieces, bytes of a piece. -/
structure Placed where
  base : Nat
  stride : Nat
  pieces : Nat
  bytes : Nat
deriving Inhabited

/-- Pieces of a tensor in a partition of `R` regions on `D` dies, and the bytes of each. -/
def piecesOf (t : Tensor) (R D : Nat) : Nat × Nat :=
  if t.split = 0 then (1, t.len)
  else if t.split = 3 then (D, t.len)
  else if t.split = 2 ∧ t.kind = 2 then (R, t.len)
  else (R, t.len / R)

/-- The placement of the tensors from window offset `base` on. -/
def placeFrom (R D : Nat) : List Tensor → Nat → List Placed
  | [], _ => []
  | t :: r, base =>
    let x := piecesOf t R D
    let st := align16k x.2
    { base := base, stride := st, pieces := x.1, bytes := x.2 } :: placeFrom R D r (base + x.1 * st)
def placement (m : Manifest) (R D : Nat) : List Placed := placeFrom R D (tensors m) (align16k (16 * manTensors m))
/-- The first window offset behind the placement. -/
def placeEnd (m : Manifest) (R D : Nat) : Nat :=
  (placement m R D).foldl (fun b x => max b (x.base + x.pieces * x.stride)) (align16k (16 * manTensors m))

/-- A run of stream bytes and the window bytes that hold it: stream offset, length, window offset, copy number. -/
structure Run where
  stream : Nat
  len : Nat
  win : Nat
  copy : Nat

/-- The runs of one tensor (R236). -/
def runsOf (ts : List Tensor) (t : Tensor) (p : Placed) : List Run :=
  let whole := decide (t.split = 0) || decide (t.split = 3) || (decide (t.kind = 2) && decide (t.split = 2))
  if whole then (List.range p.pieces).map (fun j => { stream := t.off, len := t.len, win := p.base + j * p.stride, copy := j })
  else if t.split = 2 ∨ t.kind = 2 then
    (List.range p.pieces).map (fun j => { stream := t.off + j * p.bytes, len := p.bytes, win := p.base + j * p.stride, copy := 0 })
  else
    let r := if t.kind = 0 then t else ts.getD t.ref default
    let u := if t.kind = 0 then subTile r.fmt else if r.fmt = 6 then 1 else 2
    let nbs := r.n / 16
    let per := nbs / p.pieces
    ((List.range (r.k / 16)).map (fun kb => (List.range p.pieces).map (fun j =>
      ({ stream := t.off + (kb * nbs + j * per) * u, len := per * u, win := p.base + j * p.stride + kb * per * u, copy := 0 } : Run)))).flatten

def runs (m : Manifest) (R D : Nat) : List Run :=
  let ts := tensors m
  ((ts.zip (placement m R D)).map (fun x => runsOf ts x.1 x.2)).flatten

/-- The part of a run that lies in the `n` stream bytes from `a`. -/
def Run.clip (r : Run) (a n : Nat) : Option Run :=
  let lo := max r.stream a
  let hi := min (r.stream + r.len) (a + n)
  if lo < hi then some { r with stream := lo, len := hi - lo, win := r.win + (lo - r.stream) } else none

/-- The shard whose stream bytes a window offset holds; none for the model map and zero tails (R251). -/
def shardOfOffset (m : Manifest) (R D off : Nat) : Option Nat :=
  ((runs m R D).find? (fun r => decide (r.win ≤ off) && decide (off < r.win + r.len))).map (fun r => (r.stream + (off - r.win)) / manShardSize m)

/-- The window offset of a stream byte in its first placed piece. -/
def firstPlace (m : Manifest) (R D x : Nat) : Option Nat :=
  ((runs m R D).find? (fun r => decide (r.stream ≤ x) && decide (x < r.stream + r.len))).map (fun r => r.win + (x - r.stream))

/-! ## The program table and the workspace (R307, R308) -/

/-- An entry of the program table. -/
structure ProgEntry where
  cls : Nat
  segment : Nat
  scatter : Nat
  rows : Nat
  items : Nat
  off : Nat
  len : Nat
deriving Inhabited
def progEntry (b : List B8) (i : Nat) : ProgEntry :=
  let o := 16 + 16 * i
  { cls := leAt b o 1, segment := leAt b (o + 1) 1, scatter := leAt b (o + 2) 1, rows := leAt b (o + 4) 2, items := leAt b (o + 6) 2,
    off := leAt b (o + 8) 4, len := leAt b (o + 12) 4 }
def progEntries (b : List B8) : List ProgEntry := (List.range (leAt b 0 4)).map (progEntry b)

/-- The parts of the workspace (R308): first offsets of the batch header, the item table, the scatter area, the logits
area and the count tables, and the end. -/
structure Workspace where
  header : Nat
  items : Nat
  scatter : Nat
  logits : Nat
  counts : Nat
  stop : Nat
deriving Inhabited
/-- Key and value row bytes of one position of one KV head. -/
def rowBytes (m : Manifest) : Nat :=
  (attDim m * fmtBits (attKeyFmt m)) / 8 + (attDim m * fmtBits (attValFmt m)) / 8
def logitsStride (m : Manifest) : Nat := cdiv (srvVocab m * (if srvLogitsFmt m = 8 then 4 else 2)) 64 * 64
def workspace (m : Manifest) (base maxItems maxSeqs : Nat) : Workspace :=
  let a := base + align16k (64 + 16 * srvBatchRows m)
  let b := a + align16k (32 * maxItems)
  let c := b + align16k (srvChunk m * attHeads m * rowBytes m)
  let e := c + align16k (srvBatchRows m * logitsStride m)
  { header := base, items := a, scatter := b, logits := c, counts := e, stop := e + maxSeqs * 32768 }

/-! ## Tiles of a generation -/

/-- Regions and dies of a partition (R235). -/
def Dev.partR (d : Dev) (p : Nat) : Nat := (d.cfg.partRegions p).length
def Dev.partD (d : Dev) (p : Nat) : Nat := (d.cfg.partDies p).length

/-- The first `n` numbers from `i` that `used` does not name. -/
def takeFree (used : List Nat) (i n : Nat) : Nat → List Nat
  | 0 => []
  | fuel + 1 => if n = 0 then [] else if used.contains i then takeFree used (i + 1) n fuel else i :: takeFree used (i + 1) (n - 1) fuel
/-- `n` free LP5X frames, lowest first; fewer where there are not so many. -/
def Dev.freeFrames (d : Dev) (n : Nat) : List Nat :=
  let used := (d.mapped.filter (fun e => decide (e.2.tier = 0))).map (fun e => e.2.frame)
  (takeFree used 0 n (used.length + n)).filter (fun f => decide (f < d.tileFrames))

/-- Whether a tile key belongs to generation `g` of slot `s` of partition `p`. -/
def keyOf (p s g k : Nat) : Bool := decide (keyGen k = g) && decide (keyPart k = p) && inWindow (keyAddr k) && decide (windowSlot (keyAddr k) = s)

/-- Unmaps the tiles of a generation and frees their places. -/
def Dev.unmapGen (d : Dev) (p s g : Nat) : Dev :=
  { d with mem := { d.mem with tiles := d.mem.tiles.filter (fun e => !keyOf p s g e.1) } }

/-- Tiles that a generation maps. -/
def Dev.genTiles (d : Dev) (p s g : Nat) : Nat := (d.mapped.filter (fun e => keyOf p s g e.1)).length

/-- Descriptor line of a tile of an EBF16 weight piece (R237). -/
def descLineOf (m : Manifest) (R D s off : Nat) : Option Nat :=
  let ts := tensors m
  let ps := placement m R D
  let hit := (ts.zip ps).mapIdx (fun i x => (i, x)) |>.find? (fun y =>
    decide (y.2.1.kind = 0) && decide (y.2.1.fmt = 7) && decide (y.2.2.base ≤ off) && decide (off < y.2.2.base + y.2.2.pieces * y.2.2.stride))
  match hit with
  | none => none
  | some (i, _, p) =>
    match (ts.zip ps).find? (fun x => decide (x.1.kind = 1) && decide (x.1.ref = i)) with
    | none => none
    | some (_, q) => some ((windowBase s + q.base + (off - p.base) / p.stride * q.stride + 64 * ((off - p.base) % p.stride / tileSize)) / 64)

/-- The shards in flight: the first 16 that have not verified (R240). -/
def Load.inFlight (l : Load) : List Nat := ((List.range (manShards l.manifest)).filter (fun i => !l.verified.contains i)).take 16

/-- Where a shard in flight is fetched from: its primary source at first, and where its cache entry failed; then its alternate, where it
has one (R240, R244). -/
def Load.sourceOf (l : Load) (i : Nat) : Source :=
  let alt := source l.manifest i 1
  if l.attempts.get i 0 = 0 ∨ l.uncounted.contains i ∨ alt.typ = 0 then source l.manifest i 0 else alt

/-- A load begins to fetch each shard that has come in flight (R240). -/
def Load.begin (l : Load) (t : W64) : Load := { l with started := l.inFlight.foldl (fun s i => if s.any (fun e => decide (e.1 = i)) then s else s.set i t) l.started }

/-- Maps the window tiles `first` to `first + n - 1` of a load: tier 0, read-only, the loader as owner, zero-filled; or the
failure of steps 8 and 9 (R192, R239). -/
def Dev.mapModel (d : Dev) (p s g owner first n : Nat) (desc : Nat → Option Nat) : Dev × Option Fail :=
  let held := d.lp5xTiles owner
  let keys := (List.range n).map (fun i => tileKey p ((windowBase s) / tileSize + first + i) g)
  let spans := (d.spans owner ++ keys.map (fun k => k / 16384)).eraseDups.length
  let fs := d.freeFrames n
  if decide (owner < 64) && decide (d.cfg.tenQuotaMib owner * 64 < held + n) then (d, some { status := 0x0F, code := 0xB3 })
  else if decide (owner < 64) && decide (cdiv (d.cfg.tenQuotaMib owner) 128 < spans) then (d, some { status := 0x0F, code := 0xB5 })
  else if (decide (64 ≤ owner) && decide (64 < spans)) || !d.mayPlace owner n || decide (fs.length < n) then (d, some { status := 0x01, code := 0xB7 })
  else
    ((fs.mapIdx (fun i f => (i, f))).foldl (fun d x =>
      let dl := desc ((first + x.1) * tileSize)
      let t : Tile := { owner := owner, frame := x.2, readOnly := true, ebf16 := dl.isSome, descLine := dl.getD 0 }
      let d1 := (d.clearPlace (x.2 * tileSize)).putTile (tileKey p ((windowBase s) / tileSize + first + x.1) g) (some t)
      { d1 with mem := { d1.mem with sector := d1.mem.sector.set x.2 0 } }) d, none)

/-- Stores bytes at a window offset of a generation being loaded. -/
def Dev.loadWrite (d : Dev) (p s g off : Nat) (l : List B8) : Dev :=
  (tileParts (windowBase s + off) l.length).foldl (fun d x =>
    let k := tileKey p (x.1 / tileSize) g
    match d.tile k with
    | some t => d.writePhys (tileDpa t + x.1 % tileSize) ((l.drop (x.1 - (windowBase s + off))).take x.2)
    | none => d) d

/-- The model map (R238). -/
def modelMap (m : Manifest) (R D s : Nat) : List B8 :=
  (((tensors m).zip (placement m R D)).map (fun x =>
    leBytes 8 (windowBase s + x.2.base) ++ leBytes 4 (x.2.stride / tileSize) ++ leBytes 2 x.2.pieces ++ leBytes 1 x.1.split ++ leBytes 1 x.1.kind)).flatten

/-- How the device reads a generation's window. -/
def Dev.genView (d : Dev) (p s g : Nat) : View := { party := (d.slot (slotNo p s)).owner, part := p, pin := some (s, g) }

/-- Reads back the `n` stream bytes from `a`, from copy `c` of what is placed per die; a stream byte of no tensor reads 0. -/
def Dev.rebuild (d : Dev) (p s g : Nat) (m : Manifest) (c a n : Nat) : Dev × Except Fail (List B8) :=
  let rs := ((runs m (d.partR p) (d.partD p)).filter (fun r => decide (r.copy = 0) || decide (r.copy = c))).filterMap (fun r => r.clip a n)
  let rs1 := (rs.filter (fun r => decide (r.copy = 0))) ++ rs.filter (fun r => decide (r.copy ≠ 0))
  let out := rs1.foldl (fun (st : Dev × Except Fail Memory) r =>
    match st with
    | (d, .error e) => (d, .error e)
    | (d, .ok l) =>
      match d.readMem (d.genView p s g) (windowBase s + r.win) r.len with
      | (d', .error e) => (d', .error e)
      | (d', .ok b) => (d', .ok (Memory.write l (r.stream - a) b))) (d, .ok [])
  match out with
  | (d1, .error e) => (d1, .error e)
  | (d1, .ok l) => (d1, .ok (Memory.read l 0 n))

/-! ## Slot states (R255) and generations -/

def Slot.staged (v : Slot) : Option GenState := v.gens.find? (fun g => decide (g.role = 1))
def Slot.current (v : Slot) : Option GenState := v.gens.find? (fun g => decide (g.role = 0))
def Slot.draining (v : Slot) : Option GenState := v.gens.find? (fun g => decide (g.role = 2))
def Slot.degraded (v : Slot) : Bool := match v.current with | some g => g.degraded | none => false
def Slot.empty (v : Slot) : Bool := v.gens.isEmpty && v.load.isNone
/-- MDL_SLOT_n.state. -/
def Slot.code (v : Slot) : Nat :=
  if v.empty && !v.unloading then 0 else if v.unloading then 7 else if v.degraded then 6
  else if v.current.isNone then 1 else if v.load.isSome then 3 else if v.staged.isSome then 4 else if v.draining.isSome then 5 else 2

def Dev.modGen (d : Dev) (slot g : Nat) (f : GenState → GenState) : Dev :=
  d.modSlot slot (fun v => { v with gens := v.gens.map (fun x => if x.number = g then f x else x) })

/-! ## The end of a load (R241), degradation (R250, R251) -/

/-- A load ends in failure: nothing of it stays, and its command ends. -/
def Dev.endLoad (d : Dev) (slot : Nat) (f : Fail) : Dev :=
  match (d.slot slot).load with
  | none => d
  | some l =>
    let d1 := (d.unmapGen (slot / 8) (slot % 8) l.gen).modSlot slot (fun v => { v with load := none })
    d1.failDisp l.queue f

/-- A generation is found bad: the record, and the outcomes of R250; a draining one changes nothing further. -/
def Dev.degrade (d : Dev) (slot g shard : Nat) : Dev :=
  match (d.slot slot).gens.find? (fun x => decide (x.number = g)) with
  | none => d
  | some x =>
    if x.degraded then d
    else
      let own := (d.slot slot).owner
      let d1 := d.record { time := d.time, tenant := own, status := 0x10, unit := dispatcher (slot / 8), detail := detailOf 0xCB shard,
                           space := 3, partition := slot / 8 }
      if x.role = 2 then d1
      else
        let d2 := { d1 with mdl := { d1.mdl with sweepFail := true, sweepFailCnt := satInc d1.mdl.sweepFailCnt } }
        if x.role = 1 then d2.modSlot slot (fun v => { v with freeStaged := true })
        else (d2.modGen slot g (fun y => { y with degraded := true })).endLoad slot { status := 0x10, code := 0xCA }

/-- What a failed read of LP5X or of the NVMe tier means to the generation whose tile holds the line: MAC failures degrade it, a link
failure makes its next sweep due at once (R251). -/
def Dev.modelFault (d : Dev) (f : Fail) : Dev :=
  match d.mapped.find? (fun e => decide (keyGen e.1 ≠ 0) && !e.2.onchip && decide (e.2.frame = f.addr / tileSize)) with
  | none => d
  | some e =>
    if f.space ≠ 1 then d
    else
      let p := keyPart e.1
      let s := windowSlot (keyAddr e.1)
      let off := keyAddr e.1 - windowBase s + f.addr % tileSize
      if f.status = 0x0D then
        match (d.slot (slotNo p s)).gens.find? (fun x => decide (x.number = keyGen e.1)) with
        | none => d
        | some x => d.degrade (slotNo p s) x.number ((shardOfOffset x.manifest (d.partR p) (d.partD p) off).getD 0xFFFFFF)
      else if f.code = 0xBA then d.modGen (slotNo p s) (keyGen e.1) (fun y => { y with sweepAt := some (y.sweepAt.getD d.time) })
      else d

/-- A read of the Token engine, with what its failure means to a model. -/
def Dev.blamed {α : Type} (x : Dev × Except Fail α) : Dev × Except Fail α :=
  match x with
  | (d, .error e) => (d.modelFault e, .error e)
  | (d, .ok b) => (d, .ok b)

/-- A generation is no longer there to be swept. -/
def Dev.stopSweep (d : Dev) (n g : Nat) : Dev :=
  match d.mdl.sweep with
  | some w => if w.slot = n ∧ w.gen = g then { d with mdl := { d.mdl with sweep := none } } else d
  | none => d

/-- The work of a party is done with a slot: an unload or a degradation empties it once nothing holds it (R247, R248). -/
def Dev.settle (d : Dev) (slot : Nat) : Dev :=
  let v := d.slot slot
  if v.unloading && v.empty then
    let d1 := d.modSlot slot (fun v => { v with unloading := false, unloadQ := none, owner := 0 })
    match v.unloadQ with
    | some q => d1.finish q 0
    | none => d1
  else if v.empty then d.modSlot slot (fun v => { v with owner := 0, freeStaged := false })
  else d

end Sys2Proof.Machine
end

