-- ==== Sys2Proof/Machine/Vector.lean ====
section
/-! DEFINITION. The vector unit: the operations of R161 on tensors of a cluster buffer, with the reduction order of R162. -/
namespace Sys2Proof.Machine
open Sys2Proof

/-- Fields of a VECTOR descriptor (R160). -/
structure VecDesc where
  op : Nat
  inF : Nat
  outF : Nat
  bcast : Bool
  rows : Nat
  cols : Nat
  src0 : Nat
  src1 : Nat
  dst : Nat
  sa : F32
  sb : F32

def vecDesc (s : W512) : VecDesc :=
  { op := bytesAt s 1 1, inF := fld s 32 4, outF := fld s 36 4, bcast := s.getLsbD 40, rows := bytesAt s 8 2, cols := bytesAt s 10 2,
    src0 := bytesAt s 12 4, src1 := bytesAt s 16 4, dst := bytesAt s 20 4, sa := BitVec.ofNat 32 (bytesAt s 24 4), sb := BitVec.ofNat 32 (bytesAt s 28 4) }

/-- Bytes of a tensor of a format in sub-tile order (R144). -/
def tensorBytes (f rows cols : Nat) : Nat := cdiv rows 16 * (cols / 16) * subTile f

/-- The rows of a tensor as FP32 codes. -/
def Dev.readTensor (d : Dev) (party dpa f rows cols : Nat) : Dev × Except Fail (List (List F32)) :=
  match d.bufCodes party dpa (tensorBytes f rows cols) (fmtBits f) with
  | (d1, .error e) => (d1, .error e)
  | (d1, .ok cs) =>
    (d1, .ok ((List.range rows).map (fun r => (List.range cols).map (fun c => packF32 (elemFV f (cs.getD (subIndex cols r c) 0))))))

/-- The writes of a tensor's rows in sub-tile order, row by row, and the SAT_EVENTS of its conversions. -/
def tensorWrites (off f cols : Nat) (rows : List (List F32)) : List (Nat × List B8) × Nat :=
  let eb := fmtBits f / 8
  let out := rows.mapIdx (fun r l =>
    (List.range (cols / 16)).map (fun cb =>
      let cs := ((l.drop (16 * cb)).take 16).map (convertTo f)
      ((off + ((r / 16) * (cols / 16) + cb) * subTile f + r % 16 * 16 * eb, packCodes f (cs.map (fun x => x.1))), (cs.map (fun x => x.2)).sum)))
  (out.flatten.map (fun x => x.1), (out.flatten.map (fun x => x.2)).sum)

/-- The sum of a row in the order of R162: lane j mod 128 in ascending j, then lanes in pairs. -/
def rowSum (l : List F32) : F32 :=
  let lane (i : Nat) : F32 :=
    ((l.mapIdx (fun j x => (j, x))).filter (fun y => decide (y.1 % 128 = i))).foldl (fun s y => fadd s y.2) f32Zero
  let lanes := (List.range 128).map lane
  let fold (l : List F32) (h : Nat) : List F32 := (List.range h).map (fun i => fadd (l.getD i f32Zero) (l.getD (i + h) f32Zero))
  ((fold (fold (fold (fold (fold (fold (fold lanes 64) 32) 16) 8) 4) 2) 1).headD f32Zero)

def rowMax (l : List F32) : F32 := match l with | [] => f32Zero | x :: r => r.foldl fmax x

/-- Elementwise results (R161 codes 0x01-0x0C): first operand, second operand. -/
def vecElem (v : VecDesc) (a b : F32) : F32 :=
  match v.op with
  | 1 => fadd a b
  | 2 => fmul a b
  | 3 => fadd (fmul v.sa a) (fmul v.sb b)
  | 4 => fmax a b
  | 5 => fmul v.sa a
  | 6 => fexp a
  | 7 => frecip a
  | 8 => frsqrt a
  | 9 => ftanh a
  | 10 => fsigmoid a
  | 11 => fgelu a
  | _ => fsilu a

/-- SOFTMAX of a row. -/
def vecSoftmax (a : List F32) : List F32 :=
  let m := rowMax a
  let e := a.map (fun x => fexp (fsub x m))
  let r := frecip (rowSum e)
  e.map (fun x => fmul x r)

/-- RMSNORM of a row with the row `b`. -/
def vecRms (v : VecDesc) (a b : List F32) : List F32 :=
  let ms := fdiv (rowSum (a.map (fun x => fmul x x))) (f32OfInt v.cols)
  let r := frsqrt (fadd ms v.sa)
  a.mapIdx (fun j x => fmul (fmul x r) (b.getD j f32Zero))

/-- LAYERNORM of a row with rows 0 and 1 of `b`. -/
def vecLayer (v : VecDesc) (a b0 b1 : List F32) : List F32 :=
  let mean := fdiv (rowSum a) (f32OfInt v.cols)
  let x := a.map (fun y => fsub y mean)
  let var := fdiv (rowSum (x.map (fun y => fmul y y))) (f32OfInt v.cols)
  let r := frsqrt (fadd var v.sa)
  x.mapIdx (fun j y => fadd (fmul (fmul y r) (b0.getD j f32Zero)) (b1.getD j f32Zero))

/-- The largest magnitude of a quantised format (R162); 127 for INT8. -/
def qmax (f : Nat) : F32 := if f = 2 then 0x43E00000#32 else if f = 3 then 0x47600000#32 else 0x42FE0000#32

/-- QUANT_ROW of a row: its scale and its scaled values. -/
def vecQuant (v : VecDesc) (a : List F32) : F32 × List F32 :=
  let am := a.foldl (fun s x => fmax s (fabs x)) f32Zero
  if am = f32Zero then (f32One, a.map (fun _ => f32Zero))
  else let s := fdiv am (qmax v.outF); (s, a.map (fun x => fdiv x s))

/-- The k largest of a row, ties to the lower index (R161). The spec does not rank a NaN; here values compare by `flt`, so that a NaN
is below or above the numbers as its sign says (DESIGN CHOICE, safe or unsafe as the log says). -/
def vecTopk : Nat → List (Nat × F32) → List (Nat × F32)
  | 0, _ => []
  | k + 1, l =>
    match l.foldl (fun (b : Option (Nat × F32)) x => match b with | none => some x | some y => if flt y.2 x.2 then some x else some y) none with
    | none => []
    | some m => m :: vecTopk k (l.filter (fun x => decide (x.1 ≠ m.1)))

/-- The whole number that an FP32 scalar holds. -/
def f32Nat (x : F32) : Nat := match unpackF32 x with | .fin _ m e => if e < 0 then m >>> (-e).toNat else m <<< e.toNat | _ => 0

/-- What a vector step leaves: writes, failure, SAT_EVENTS. -/
abbrev VecRes := EngRes

/-- The k elements that TOPK_ROW writes for a row: past its columns the spec states none, and they are free values. -/
def topkRow (draw k i : Nat) (l : List F32) : List (Nat × F32) :=
  let t := vecTopk k (l.mapIdx (fun j x => (j, x)))
  t ++ (List.range (k - t.length)).map (fun j => ((Config.freeF32 draw (2 * (i * k + j))).toNat, Config.freeF32 draw (2 * (i * k + j) + 1)))

/-- Writes of one value a row, contiguous from `off` (R162). -/
def columnWrites (off f : Nat) (l : List F32) : List (Nat × List B8) × Nat :=
  let cs := l.map (convertTo f)
  ([(off, packCodes f (cs.map (fun x => x.1)))], (cs.map (fun x => x.2)).sum)

/-- One row of the second operand: its own, or row 0 where it is broadcast. -/
def rowOf (v : VecDesc) (b : List (List F32)) (r : Nat) : List F32 := b.getD (if v.bcast then 0 else r) []

/-- A vector step on one cluster, operand by operand as R161 and R162 give it. GATHER_ROWS and SCATTER_ROWS pass their elements through
FP32 like every vector operation, so that a NaN takes its produced code and a narrow format's infinity saturates (DEDUCED from R162:
arithmetic is in FP32 and rounded once); LAYERNORM takes rows 0 and 1 of b for every row, whatever the broadcast flag says (DEDUCED
from R161's "row 1 of b"). -/
def Dev.vecStep (d : Dev) (party c : Nat) (v : VecDesc) : Dev × VecRes :=
  let base := clusterDpa c 0
  let fail (d : Dev) (e : Fail) : Dev × VecRes := (d, { fail := some e })
  if v.op = 0x17 ∨ v.op = 0x18 then
    match d.bufCodes party (base + v.src1) (4 * v.rows) 32 with
    | (d1, .error e) => fail d1 e
    | (d1, .ok idx) =>
      if idx.any (fun i => decide (v.rows ≤ i)) then
        fail d1.drawn { status := 0x03, code := (Config.freeByte d1.draw).toNat }
      else match d1.readTensor party (base + v.src0) v.inF v.rows v.cols with
        | (d2, .error e) => fail d2 e
        | (d2, .ok a) =>
          if v.op = 0x17 then
            let w := tensorWrites v.dst v.outF v.cols (idx.map (fun i => a.getD i []))
            (d2, { writes := w.1, sat := w.2 })
          else
            let ws := idx.mapIdx (fun i t =>
              let one := tensorWrites v.dst v.outF v.cols ((List.replicate t []) ++ [a.getD i []])
              (one.1.drop (t * (v.cols / 16)), one.2))
            (d2, { writes := (ws.map (fun x => x.1)).flatten, sat := (ws.map (fun x => x.2)).sum })
  else
    let rows1 := if v.op = 0x14 then 2 else if v.bcast then 1 else v.rows
    let two := decide (1 ≤ v.op ∧ v.op ≤ 4) || decide (v.op = 0x13) || decide (v.op = 0x14)
    match d.readTensor party (base + v.src0) v.inF v.rows v.cols with
    | (d1, .error e) => fail d1 e
    | (d1, .ok a) =>
      match (if two then d1.readTensor party (base + v.src1) v.inF rows1 v.cols else (d1, .ok [])) with
      | (d2, .error e) => fail d2 e
      | (d2, .ok b) =>
        if v.op = 0x10 then let w := columnWrites v.dst v.outF (a.map rowSum); (d2, { writes := w.1, sat := w.2 })
        else if v.op = 0x11 then let w := columnWrites v.dst v.outF (a.map rowMax); (d2, { writes := w.1, sat := w.2 })
        else if v.op = 0x15 then
          let q := a.map (vecQuant v)
          let w := tensorWrites v.dst v.outF v.cols (q.map (fun x => x.2))
          let s := columnWrites v.src1 8 (q.map (fun x => x.1))
          (d2, { writes := w.1 ++ s.1, sat := w.2 })
        else if v.op = 0x16 then
          let k := f32Nat v.sa
          let t := a.mapIdx (fun i l => topkRow d2.draw k i l)
          ((if v.cols < k then d2.drawn else d2), { writes := [(v.dst, (t.flatten.map (fun x => leBytes 4 x.1)).flatten), (v.src1, (t.flatten.map (fun x => leBytes 4 x.2.toNat)).flatten)] })
        else
          let out := a.mapIdx (fun r l =>
            if v.op = 0x12 then vecSoftmax l
            else if v.op = 0x13 then vecRms v l (rowOf v b r)
            else if v.op = 0x14 then vecLayer v l (b.getD 0 []) (b.getD 1 [])
            else let br := rowOf v b r; l.mapIdx (fun j x => vecElem v x (br.getD j f32Zero)))
          let w := tensorWrites v.dst v.outF v.cols out
          (d2, { writes := w.1, sat := w.2 })

end Sys2Proof.Machine
end

