-- ==== Sys2Proof/Machine/Steps.lean ====
section
/-! DEFINITION. Running a step program: issue, units in flight, barriers and the gust limiter, DMA and ring steps, failure of a step
(R137-R139, R153, R163-R168, R181, R183). -/
namespace Sys2Proof.Machine
open Sys2Proof

/-! ## The program being run -/

/-- How a program's steps reach memory. -/
def Prog.view (g : Prog) : View :=
  { party := g.party, part := g.partition, pin := if g.slot < 8 then some (g.slot, g.gen) else none, ws := g.ws }

def Dev.prog (d : Dev) (r : RunRef) : Option Prog :=
  match r with
  | .queue q => match d.running q with | some v => v.prog | none => none
  | .batch p => match (d.part p).batch with | some b => b.prog | none => none

def Dev.setProg (d : Dev) (r : RunRef) (v : Prog) : Dev :=
  match r with
  | .queue q => d.modQue q (fun k => match k.running with | some x => { k with running := some { x with prog := some v } } | none => k)
  | .batch p => d.modPart p (fun k => match k.batch with | some b => { k with batch := some { b with prog := some v } } | none => k)

/-- The record of a failing unit (R139): the command's, or the batch's. -/
def Dev.stepRec (d : Dev) (r : RunRef) (g : Prog) (unit step : Nat) (f : Fail) : Dev :=
  let f1 := { f with val := step }
  match r with
  | .queue q =>
    match (d.que q).lists with
    | l :: _ => d.cmdRec q unit f1 l.index l.subTag
    | [] => d.cmdRec q unit f1 0xFFFF 0
  | .batch p => d.record { time := d.time, tenant := if g.attr < 64 then g.attr else 0xFF, status := f1.status, unit := unit,
                           detail := detailOf f1.code f1.val, address := f1.addr, space := f1.space, partition := p }

/-- Step descriptor of index `i`. -/
def Prog.step (g : Prog) (i : Nat) : W512 := g.steps.getD i 0
def stepKind (s : W512) : Nat := bytesAt s 0 1
def stepMask (s : W512) : Nat := bytesAt s 2 2
/-- Regions of a program, ascending. -/
def Prog.regions (g : Prog) : List Nat := (List.range 16).filter (fun r => g.mask.getLsbD r)
/-- The next step of a region's sequencer, and the program with that step behind it (R137). -/
def Prog.pc (g : Prog) (region : Nat) : Nat := g.pcs.get region 0
def Prog.advance (g : Prog) (region : Nat) : Prog := { g with pcs := g.pcs.set region (g.pc region + 1) }
/-- Every region's sequencer has issued every step. -/
def Prog.issued (g : Prog) : Bool := g.regions.all (fun r => decide (g.steps.length ≤ g.pc r))
/-- The sequencer of a region has a step of a kind to take: a failed step ends all issue (R138). -/
def Prog.next (g : Prog) (region : Nat) (ok : W512 → Bool) : Bool :=
  g.mask.getLsbD region && decide (region < 16) && decide (g.pc region < g.steps.length) && g.fail.isNone && ok (g.step (g.pc region))
/-- Clusters a step names in a region (R136). -/
def stepClusters (s : W512) (region : Nat) : List Nat := ((List.range 16).filter (fun k => (stepMask s).testBit k)).map (fun k => 16 * region + k)

/-- The step is run once per region: ATTENTION and RING_XFER. -/
def perRegion (kind : Nat) : Bool := decide (kind = 6) || decide (kind = 7)

/-- The units a step names in a region (R136, R142, R164). -/
def Prog.unitsOf (g : Prog) (region : Nat) (i : Nat) : List UnitRun :=
  let s := g.step i
  let k := stepKind s
  if perRegion k then [{ kind := k, step := i, region := region, cluster := 16 * region }]
  else (stepClusters s region).map (fun c => { kind := k, step := i, region := region, cluster := c })

/-- Scale file entries a MATMUL reads or a LOAD_SCALES writes: first and count; none where it touches none (R153). -/
def scaleRange (s : W512) : Option (Nat × Nat) :=
  if stepKind s = 1 then (if s.getLsbD 9 then some (bytesAt s 36 2, bytesAt s 10 2) else none)
  else if stepKind s = 4 then some (bytesAt s 12 2, bytesAt s 14 2) else none

def overlap (a b : Nat × Nat) : Bool := decide (a.1 < b.1 + b.2) && decide (b.1 < a.1 + a.2)

/-- An ATTEND uses the engines of the clusters in its mask (R282); an APPEND uses none (R283). -/
def attUses (s : W512) (c : Nat) : Bool := decide (stepKind s = 6) && decide (bytesAt s 1 1 = 0) && (stepMask s).testBit (c % 16)

/-- Two steps on one place need one unit: the same engines, the vector unit, the DMA mover, the attention unit with the
engines of the clusters it names, the ring stop of one direction; or one loads scale entries that the other reads (R137, R153). -/
def unitClash (g : Prog) (a b : UnitRun) : Bool :=
  let sa := g.step a.step
  let sb := g.step b.step
  if a.kind = 6 ∨ b.kind = 6 then
    decide (a.region = b.region) && (decide (a.kind = 6 ∧ b.kind = 6) || (decide (a.kind = 1) && attUses sb a.cluster) || (decide (b.kind = 1) && attUses sa b.cluster))
  else if a.kind = 7 ∨ b.kind = 7 then decide (a.kind = b.kind) && decide (a.region = b.region) && decide (sa.getLsbD 8 = sb.getLsbD 8)
  else decide (a.cluster = b.cluster) &&
    (if a.kind = 1 ∧ b.kind = 1 then decide (bytesAt sa 4 1 &&& bytesAt sb 4 1 ≠ 0)
     else if a.kind = 2 ∧ b.kind = 2 then true
     else if (a.kind = 3 ∨ a.kind = 4) ∧ (b.kind = 3 ∨ b.kind = 4) then true
     else match scaleRange sa, scaleRange sb with
       | some x, some y => decide (a.kind ≠ b.kind) && overlap x y
       | _, _ => false)

/-- A unit in the scope of a SYNC: of its cluster, which an ATTENTION or RING_XFER step is in where its mask names it, of its region, or
of the program (R165). -/
def holdHits (g : Prog) (h : Hold) (u : UnitRun) : Bool :=
  if h.scope = 0 then (if perRegion u.kind then decide (h.region = u.region) && (stepMask (g.step u.step)).testBit (h.cluster % 16) else decide (h.cluster = u.cluster))
  else if h.scope = 1 then decide (h.region = u.region) else true

/-! ## The end of a unit's step, and of the program -/

/-- Every step has been issued, or one failed, and no unit runs. -/
def Prog.over (g : Prog) : Bool := g.units.isEmpty && (g.fail.isSome || (g.issued && g.holds.isEmpty))

/-- When a program is over, its command ends with the status of the failing step of lowest index (R138); a TUNE goes on
with TUNE_ITERATION, and a batch with BATCH_END. -/
def Dev.progEnd (d : Dev) (r : RunRef) : Dev :=
  match r, d.prog r with
  | .queue q, some g =>
    if g.over then
      match g.fail with
      | some x => d.endCmd q x.2.1 0 none
      | none => if g.adapter < 8 then d else d.finish q 0
    else d
  | _, _ => d

/-- Engines that a unit's step starts: (ME, local cluster). -/
def unitEngines (g : Prog) (u : UnitRun) : List (Nat × Nat) :=
  let s := g.step u.step
  if u.kind = 1 then ((List.range 8).filter (fun j => (bytesAt s 4 1).testBit j)).map (fun j => (j, u.cluster % 16))
  else (List.range 8).flatMap (fun j => ((List.range 16).filter (attUses s)).map (fun l => (j, l)))

/-- The engines of a unit are idle from now on (R166). -/
def Dev.idleEngines (d : Dev) (g : Prog) (u : UnitRun) : Dev :=
  (unitEngines g u).foldl (fun d x => d.modCluster (16 * u.region + x.2) (fun v => { v with idle := v.idle.set x.1 (some d.time) })) d

/-- A unit's step has ended: it is free again; a failure is recorded, stops further issue and drops what has not started (R138). -/
def Dev.unitDone (d : Dev) (r : RunRef) (g : Prog) (u : UnitRun) (fails : List (Nat × Fail)) (n : Nat) : Dev :=
  let d1 := fails.foldl (fun d x => d.stepRec r g x.1 u.step x.2) d
  let d2 := if perRegion u.kind then d1 else
    (d1.countCl u.cluster 0x0C g.attr (n - fails.length)).countCl u.cluster 0x0D g.attr fails.length
  let d3 := (if perRegion u.kind then d2 else
    d2.countCl u.cluster 0x0B g.attr ((fails.filter (fun x => decide (x.2.code = 0x94))).length)).idleEngines g u
  let g1 : Prog := match fails with
    | [] => { g with units := g.units.filter (fun x => decide (x ≠ u)) }
    | x :: _ =>
      let here := (u.step, x.2.status, detailOf x.2.code u.step)
      let f := match g.fail with
        | some y => if y.1 ≤ u.step then y else here
        | none => here
      { g with units := g.units.filter (fun y => decide (y ≠ u) && !y.parked), fail := some f, holds := [] }
  (d3.setProg r g1).progEnd r

/-- The unit of a kind that runs on a place, its engines all started. -/
def Prog.findUnit (g : Prog) (kind place : Nat) (ok : W512 → Bool) : Option UnitRun :=
  g.units.find? (fun u => decide (u.kind = kind) && decide (u.engines = 0) && !u.parked &&
    decide ((if perRegion kind then u.region else u.cluster) = place) && ok (g.step u.step))

/-! ## Issue, barriers and the gust limiter -/

/-- The partition's clocks run: it is not suspended (R501) and no reset of it runs. -/
def Dev.clocked (d : Dev) (p : Nat) : Bool := !(d.isSuspended p || (d.part p).resetting)

/-- The program that runs at a place, while its partition's clocks run: without them its steps pause in place (R501). -/
def Dev.runProg (d : Dev) (r : RunRef) : Option Prog := (d.prog r).filter (fun g => d.clocked g.partition)

/-- A step names a unit of a cluster that a cluster-scope SYNC still holds. -/
def Prog.isHeld (g : Prog) (u : UnitRun) : Bool := g.holds.any (fun h => decide (h.scope = 0) && decide (h.step < u.step) && holdHits g h u)

/-- The next step of a region may issue: none of the units it names runs an earlier step (R137), and no region or program release is
awaited in the region. A unit of a cluster that a cluster-scope SYNC still holds only must not be wanted by another step behind that
SYNC: it starts at its own cluster's release, and no cluster waits for another (R165). -/
def Prog.canIssue (g : Prog) (region : Nat) : Bool :=
  g.next region (fun s => decide (stepKind s ≠ 0) && decide (stepKind s ≠ 5)) &&
  !(g.holds.any (fun h => decide (h.scope ≠ 0) && decide (h.region = region))) &&
  (g.unitsOf region (g.pc region)).all (fun u => !(g.units.any (fun x => (x.parked || !g.isHeld u) && unitClash g u x)))

/-- An engine's start passes the gust limiter: it follows a SYNC release, or the engine has been idle for 16 cycles (R166). -/
def Dev.engineWaits (d : Dev) (c j : Nat) : Bool :=
  let v := d.cluster c
  v.rel.getLsbD j || (match v.idle.get j none with
    | none => true
    | some t => decide (16000 ≤ (d.time.toNat - t.toNat) * opMhz (d.region (c / 16)).op))

/-- `n` engines of cluster `c` are ramped by the release that they follow: the first counts the release, and last_len is that of the
region's last release (R168). -/
def Dev.rampCluster (d : Dev) (g : Prog) (c n : Nat) : Dev :=
  let v := d.cluster c
  let r := c / 16
  if n = 0 then d
  else
    let d1 := if v.relDone then d else
      ((((List.range 16).filter (fun l => decide ((d.cluster (16 * r + l)).relNo = v.relNo))).foldl (fun d l => d.modCluster (16 * r + l) (fun x => { x with relDone := true })) d).modRegion r
        (fun x => { x with rampCnt := satInc x.rampCnt })).countRg r 0x0A g.attr 1
    if v.relNo ≠ (d.region r).relNo then d1
    else d1.modRegion r (fun x =>
      let gone := (d.time.toNat - x.relAt.toNat) * opMhz x.op / 1000
      { x with ramped := x.ramped + n, lastLen := BitVec.ofNat 16 (min 0xFFFF (x.relDelay + gone + 16 * (x.ramped + n - 1) / d.gustRate)) })

/-- A unit starts: those of its engines that must pass the limiter wait at it, the others start at once (R166). -/
def Dev.startUnit (d : Dev) (g : Prog) (u : UnitRun) : Dev × UnitRun :=
  let es := unitEngines g u
  let ws := es.filter (fun x => d.engineWaits (16 * u.region + x.2) x.1)
  let n (l : Nat) : Nat := (ws.filter (fun x => decide (x.2 = l) && (d.cluster (16 * u.region + l)).rel.getLsbD x.1)).length
  let d1 := (es.map (fun x => x.2)).eraseDups.foldl (fun d l => d.rampCluster g (16 * u.region + l) (n l)) d
  let d2 := es.foldl (fun d x => d.modCluster (16 * u.region + x.2) (fun v => { v with rel := v.rel &&& ~~~ (1#8 <<< x.1) })) d1
  let d3 := if ws.isEmpty then d2 else d2.modRegion u.region (fun v => { v with waiting := v.waiting ++ ws })
  (d3, { u with engines := ws.foldl (fun m x => m ||| (1#128 <<< (16 * x.1 + x.2))) 0, parked := false, began := d.time })

/-- Units start one after the other. -/
def Dev.startUnits (d : Dev) (g : Prog) (us : List UnitRun) : Dev × List UnitRun :=
  us.foldl (fun s u => if u.parked then (s.1, s.2 ++ [u]) else match s.1.startUnit g u with | (d, w) => (d, s.2 ++ [w])) (d, [])

/-- STEP_ISSUE: the sequencer of a region issues its next step to the units it names. -/
def Dev.issue (d : Dev) (r : RunRef) (region : Nat) : Dev :=
  match d.prog r with
  | none => d
  | some g =>
    if g.canIssue region && d.clocked g.partition then
      let us := (g.unitsOf region (g.pc region)).map (fun u => { u with parked := g.isHeld u })
      match d.startUnits g us with
      | (d1, ws) => (d1.setProg r { g.advance region with units := g.units ++ ws }).countRg region 0x01 g.attr 1
    else d

/-- Takes an engine of a region out of the waiting mask of the unit that starts it. -/
def startEngine (region j l : Nat) (g : Prog) : Prog :=
  { g with units := g.units.map (fun u => if u.region = region ∧ (u.kind = 1 → u.cluster = 16 * region + l) then { u with engines := u.engines &&& ~~~ (1#128 <<< (16 * j + l)) } else u) }

/-- ENGINE_START: the waiting engine first in the order 16 × ME + local cluster starts (R166). -/
def Dev.gustStart (d : Dev) (region : Nat) : Dev :=
  if !d.clocked ((d.cfg.regionPart region).getD 16) then d else
  match (d.region region).waiting.foldl (fun (b : Option (Nat × Nat)) x =>
      match b with | none => some x | some y => if 16 * x.1 + x.2 < 16 * y.1 + y.2 then some x else some y) none with
  | none => d
  | some m =>
    let d1 := d.modRegion region (fun v => { v with waiting := v.waiting.filter (fun x => decide (x ≠ m)) })
    let go (g : Option Prog) : Option Prog := g.map (fun g => if g.mask.getLsbD region then startEngine region m.1 m.2 g else g)
    let qs := d1.queues.map (fun e => (e.1, { e.2 with running := e.2.running.map (fun x => { x with prog := go x.prog }) }))
    let ps := d1.parts.map (fun e => (e.1, { e.2 with batch := e.2.batch.map (fun b => { b with prog := go b.prog }) }))
    { d1 with queues := qs, parts := ps }

/-- The releases that a region's sequencer waits for at a SYNC step (R165). -/
def Prog.syncHolds (g : Prog) (s : W512) (region : Nat) : List Hold :=
  let sc := bytesAt s 1 1
  if sc = 0 then (stepClusters s region).map (fun c => { scope := 0, region := region, cluster := c, step := g.pc region })
  else [{ scope := min sc 2, region := region, step := g.pc region }]

/-- SYNC: the barrier step holds the steps after it in the region. -/
def Dev.syncStep (d : Dev) (r : RunRef) (region : Nat) : Dev :=
  match d.prog r with
  | none => d
  | some g =>
    if g.next region (fun s => decide (stepKind s = 5)) && d.clocked g.partition then
      ((d.setProg r { g.advance region with holds := g.holds ++ g.syncHolds (g.step (g.pc region)) region }).countRg region 0x01 g.attr 1).progEnd r
    else d

/-- Cycles from the last finish to a release (R165). -/
def releaseDelay (g : Prog) (h : Hold) : Nat :=
  if h.scope = 0 then 2 else if h.scope = 1 then 4
  else if (g.regions.map (fun r => r / 4)).eraseDups.length ≤ 1 then 16 else 64

/-- A hold whose every unit has finished; a program-scope one that every region's sequencer has reached. -/
def Prog.holdDone (g : Prog) (h : Hold) : Bool :=
  !(g.units.any (fun u => decide (u.step < h.step) && holdHits g h u)) && (decide (h.scope ≠ 2) || g.regions.all (fun r => decide (h.step < g.pc r)))

/-- A release of a region's barrier controller reaches clusters: the next start of each of their engines follows it (R166). -/
def Dev.barrierOpen (d : Dev) (region delay : Nat) (ls : List Nat) : Dev :=
  let n := (d.region region).relNo + 1
  ls.foldl (fun d c => d.modCluster c (fun v => { v with rel := 0xFF, relNo := n, relDone := false }))
    (d.modRegion region (fun v => { v with relNo := n, relDelay := delay, relAt := d.time, ramped := 0 }))
/-- Clusters of a region that a release reaches. -/
def releaseTo (h : Hold) (region : Nat) : List Nat := if h.scope = 0 then [h.cluster] else (List.range 16).map (fun l => 16 * region + l)

/-- A program after a release: its holds are gone, and units that waited for them alone may start. -/
def Prog.released (g : Prog) (h : Hold) : Prog :=
  let g1 := { g with holds := g.holds.filter (fun x => decide (x ≠ h) && !(decide (h.scope = 2 ∧ x.scope = 2 ∧ x.step = h.step))) }
  { g1 with units := g.units.map (fun u => { u with parked := u.parked && g1.isHeld u }) }

/-- SYNC_RELEASE: the first hold whose scope has finished is released, and its regions' barrier controllers with it; units that were
issued behind it start. -/
def Dev.syncRelease (d : Dev) (r : RunRef) : Dev :=
  match d.runProg r with
  | none => d
  | some g =>
    match g.holds.find? g.holdDone with
    | none => d
    | some h =>
      let rs := if h.scope = 2 then g.regions else [h.region]
      let d1 := rs.foldl (fun d k => d.barrierOpen k (releaseDelay g h) (releaseTo h k)) d
      let g1 := g.released h
      let freed := g1.units.filter (fun u => !u.parked && g.units.any (fun x => decide (x = { u with parked := true })))
      match d1.startUnits g freed with
      | (d2, ws) => (d2.setProg r { g1 with units := g1.units.filter (fun u => !freed.contains u) ++ ws }).progEnd r

/-- STEP_NOP: the sequencer of a region passes a NOP step. -/
def Dev.nopStep (d : Dev) (r : RunRef) (region : Nat) : Dev :=
  match d.prog r with
  | none => d
  | some g =>
    if g.next region (fun s => decide (stepKind s = 0)) && d.clocked g.partition then
      ((d.setProg r (g.advance region)).countRg region 0x01 g.attr 1).progEnd r
    else d

/-! ## Steps of a cluster -/

/-- Writes the outputs of a unit to its buffer. -/
def Dev.putWrites (d : Dev) (party c : Nat) (ws : List (Nat × List B8)) : Dev :=
  ws.foldl (fun d w => d.bufWrite party (clusterDpa c w.1) w.2) d
/-- Writes the output of a step, and counts its lines as the output cycles of R147 do. -/
def Dev.putOutput (d : Dev) (g : Prog) (c : Nat) (ws : List (Nat × List B8)) : Dev :=
  (d.putWrites g.party c ws).countCl c 0x09 g.attr (cdiv (ws.map (fun w => w.2.length)).sum 64)

/-- MATMUL on one cluster: each selected engine writes its whole output or nothing (R138, R145). -/
def Dev.matStep (d : Dev) (r : RunRef) (c : Nat) : Dev :=
  match d.runProg r with
  | none => d
  | some g =>
    match g.findUnit 1 c (fun _ => true) with
    | none => d
    | some u =>
      let v := matDesc (g.step u.step)
      let sel := v.selected
      let cols := v.n / sel.length
      let out := (sel.mapIdx (fun i j => (i, j))).foldl (fun (s : Dev × List (Nat × EngRes)) x =>
        match s.1.engineStep g.party c v (x.1 * cols) cols with
        | (d', e) => (d', s.2 ++ [(x.2, e)])) (d, [])
      let d1 := out.2.foldl (fun d x => match x.2.fail with | some _ => d | none => d.putOutput g c x.2.writes) out.1
      let d2 := out.2.foldl (fun d x => ((d.countCl c 0x05 g.attr x.2.sat).countCl c 0x01 g.attr x.2.busy).countCl c 0x02 g.attr x.2.stall) d1
      let fails := out.2.filterMap (fun x => x.2.fail.map (fun e => (unitCluster c x.1, e)))
      d2.unitDone r g u fails out.2.length

/-- Cycles of a vector step at the rates of R161: elements a cycle for 32-bit output, twice that for narrower output, or
64 bytes of rows a cycle; TOPK_ROW's rate is given as "about", so its cycles are open. -/
def vecCycles (v : VecDesc) : Option Nat :=
  let n := v.rows * v.cols
  let at_ (rate : Nat) : Option Nat := some (max 1 (cdiv n (if fmtBits v.outF < 32 then 2 * rate else rate)))
  if v.op = 0x16 then none
  else if v.op = 0x17 ∨ v.op = 0x18 then some (max 1 (cdiv (n * fmtBits v.inF / 8) 64))
  else if v.op ≤ 5 ∨ v.op = 0x10 ∨ v.op = 0x11 then at_ 128
  else if v.op ≤ 0x0C ∨ v.op = 0x12 then at_ 32
  else at_ 64
/-- VEC_BUSY; cycles that the spec leaves open are a free value. -/
def Dev.countVec (d : Dev) (c who : Nat) (n : Option Nat) : Dev :=
  match n with
  | some k => d.countCl c 0x06 who k
  | none => d.drawn.countCl c 0x06 who (Config.freeNat d.draw)

/-- A VECTOR step of operation `op` on one cluster. -/
def Dev.vectorStep (d : Dev) (op : Nat) (r : RunRef) (c : Nat) : Dev :=
  match d.runProg r with
  | none => d
  | some g =>
    match g.findUnit 2 c (fun s => decide (bytesAt s 1 1 = op)) with
    | none => d
    | some u =>
      match d.vecStep g.party c (vecDesc (g.step u.step)) with
      | (d1, e) =>
        let v := vecDesc (g.step u.step)
        match e.fail with
        | some f => (d1.countVec c g.attr none).unitDone r g u [(unitCluster c 8, f)] 1
        | none => (((d1.putOutput g c e.writes).countCl c 0x05 g.attr e.sat).countVec c g.attr (vecCycles v)).unitDone r g u [] 1

/-- LOAD_SCALES on one cluster (R153). -/
def Dev.scalesStep (d : Dev) (r : RunRef) (c : Nat) : Dev :=
  match d.runProg r with
  | none => d
  | some g =>
    match g.findUnit 4 c (fun _ => true) with
    | none => d
    | some u =>
      let s := g.step u.step
      match d.bufCodes g.party (clusterDpa c (bytesAt s 8 4)) (4 * bytesAt s 14 2) 32 with
      | (d1, .error e) => d1.unitDone r g u [(unitCluster c 9, e)] 1
      | (d1, .ok vs) =>
        let f := bytesAt s 12 2
        let put (t : Tbl (Nat × F32)) : Tbl (Nat × F32) :=
          (vs.mapIdx (fun i x => (i, x))).foldl (fun t x => t.set (f + x.1) (g.party, BitVec.ofNat 32 x.2)) t
        let d2 := d1.modCluster c (fun v => { v with scales := put v.scales })
        d2.unitDone r g u [] 1

/-! ## Moves -/

/-- Where a mover reads and writes: a cluster buffer, a region buffer, or the partition's range. -/
inductive Place where
  | cluster (c : Nat)
  | region (r : Nat)
  | memory
deriving DecidableEq, Repr

def Dev.readPlace (d : Dev) (v : View) (k : Place) (a n : Nat) : Dev × Except Fail (List B8) :=
  match k with
  | .cluster c => d.bufRead v.party (clusterDpa c a) n
  | .region r => d.bufRead v.party (regionDpa r a) n
  | .memory => d.readMem v a n

def Dev.writePlace (d : Dev) (v : View) (k : Place) (a : Nat) (l : List B8) : Dev × Option Fail :=
  match k with
  | .cluster c => (d.bufWrite v.party (clusterDpa c a) l, none)
  | .region r => (d.bufWrite v.party (regionDpa r a) l, none)
  | .memory => d.writeMem v a l

/-- The pieces of one source tile that a mover carries: all of it, or the coded lines of each block of a marked tile
that is moved whole (R181). -/
def Dev.movePieces (d : Dev) (v : View) (k : Place) (a n : Nat) : Dev × Except Fail (List (Nat × Nat)) :=
  match k with
  | .memory =>
    match d.tile (d.keyAt v a) with
    | some t =>
      if t.ebf16 && decide (a % tileSize = 0) && decide (n = tileSize) && decide (a < 0x10000000000) then
        match d.readMem v (t.descLine * 64) 64 with
        | (d1, .error e) => (d1, .error e)
        | (d1, .ok l) => (d1, .ok ((List.range 32).map (fun j => (a + 512 * j, cdiv (16 * (leAt l (2 * j) 1 % 32 + 1)) 64 * 64))))
      else (d, .ok [(a, n)])
    | none => (d, .ok [(a, n)])
  | _ => (d, .ok [(a, n)])

/-- Lines of a move, for the counters of R511: all of them, and those read and written over the star link. -/
structure Moved where
  lines : Nat := 0
  rd : Nat := 0
  wr : Nat := 0
deriving DecidableEq, Repr

/-- An access to a place in the partition's range crosses the star link unless an on-chip copy serves it (R199). -/
def Dev.crossesStar (d : Dev) (v : View) (k : Place) (a : Nat) : Bool :=
  match k with
  | .memory => (match d.tile (d.keyAt v a) with | some t => !t.onchip | none => true)
  | _ => false

/-- The count after `n` bytes went from `a` to `b`, judged on the device after the access. -/
def Moved.add (w : Moved) (d : Dev) (v : View) (ks kd : Place) (a b n : Nat) : Moved :=
  { lines := w.lines + cdiv n 64
    rd := w.rd + (if d.crossesStar v ks a then cdiv n 64 else 0)
    wr := w.wr + (if d.crossesStar v kd b then cdiv n 64 else 0) }

/-- Moves bytes from one place to another, source tile by source tile; the first refusing tile ends the move and what
was moved stays (R163, R191). -/
def Dev.moveBytes (d : Dev) (v : View) (ks kd : Place) (src dst n : Nat) : Dev × Option Fail × Moved :=
  (tileParts src n).foldl (fun s x =>
    match s with
    | (d, some e, w) => (d, some e, w)
    | (d, none, w) =>
      match d.movePieces v ks x.1 x.2 with
      | (d1, .error e) => (d1, some e, w)
      | (d1, .ok ps) =>
        ps.foldl (fun s y =>
          match s with
          | (d, some e, w) => (d, some e, w)
          | (d, none, w) =>
            match d.readPlace v ks y.1 y.2 with
            | (d2, .error e) => (d2, some e, w)
            | (d2, .ok b) =>
              match d2.writePlace v kd (y.1 - src + dst) b with
              | (d3, some e) => (d3, some e, w)
              | (d3, none) => (d3, none, w.add d3 v ks kd y.1 (y.1 - src + dst) y.2)) (d1, none, w)) (d, none, {})

/-- The buffer line counters of the clusters that a move reads and writes (R511). -/
def Dev.countPlace (d : Dev) (k : Place) (ev who n : Nat) : Dev := match k with | .cluster c => d.countCl c ev who n | _ => d

/-- The place that a DMA space code names. -/
def dmaPlace (c sp named : Nat) : Place :=
  if sp = 0 then .cluster c else if sp = 1 then .region (c / 16) else if sp = 2 then .memory else .cluster named

/-- DMA on one cluster (R163). -/
def Dev.dmaStep (d : Dev) (r : RunRef) (c : Nat) : Dev :=
  match d.runProg r with
  | none => d
  | some g =>
    match g.findUnit 3 c (fun _ => true) with
    | none => d
    | some u =>
      let s := g.step u.step
      let named := bytesAt s 4 2
      let src := dmaPlace c (fld s 8 2) named
      let dst := dmaPlace c (fld s 10 2) named
      let busy (k : Place) (a : Nat) : Bool := decide (k = .memory) && d.busyIn g.view a (bytesAt s 24 4)
      if busy src (bytesAt s 8 8) || busy dst (bytesAt s 16 8) then d else
      match d.moveBytes g.view src dst (bytesAt s 8 8) (bytesAt s 16 8) (bytesAt s 24 4) with
      | (d1, e, w) =>
        let d2 := ((d1.countCl c 0x07 g.attr w.lines).countRg (c / 16) 0x08 g.attr w.rd).countRg (c / 16) 0x09 g.attr w.wr
        let d3 := (d2.countPlace src 0x08 g.attr w.lines).countPlace dst 0x09 g.attr w.lines
        match e with
        | some e => (d3.modelFault e).unitDone r g u [(unitCluster c 9, e)] 1
        | none => d3.unitDone r g u [] 1

/-! ## The halo ring (R164, R180, R183-R186) -/

/-- Exponents of a 512-byte chunk of BF16 data that are not 0. -/
def chunkExps (l : List B8) : List Nat := ((codes16 l).map (fun c => c / 128 % 256)).filter (fun e => decide (e ≠ 0))

/-- The fewest exceptions that some base E0 of 1 to 254 leaves at width `w` (R173, R174, R180): a base covers 2^w - 2 exponents, and
never 255. -/
def leastExceptions (es : List Nat) (w : Nat) : Nat :=
  ((List.range 254).map (fun i => (es.filter (fun e => decide (e < i + 1) || decide (i + 2 ^ w - 2 < e) || decide (254 < e))).length)).foldl min es.length

/-- Bytes of the frame of a chunk: its descriptor and 16 L bytes, or 514 for a raw one (R180, R184). -/
def frameBytes (l : List B8) : Nat :=
  let es := chunkExps l
  match [2, 3, 4].find? (fun w => decide (leastExceptions es w ≤ 8)) with
  | some w => 2 + 16 * cdiv (258 + 32 * w + leastExceptions es w) 16
  | none => 514

/-- The chunks of a coded transfer as a receiving stop decodes them (R185): each frame arrives as it was sent, or as the environment has
altered it; the first that fails R177 ends the transfer. -/
def HaloStop.decode (v : HaloStop) (cs : List (List B8)) : List B8 × Option Nat :=
  (cs.mapIdx (fun i c => (i, c))).foldl (fun s x =>
    match s.2 with
    | some i => (s.1, some i)
    | none =>
      let f := v.frames.get x.1 []
      if f.isEmpty then (s.1 ++ x.2, none)
      else match ebfDecode (f.drop 2) (leAt f 0 2) with
        | .ok (l, _) => (s.1 ++ packCodes 0 l, none)
        | .error _ => (s.1, some x.1)) ([], none)

/-- A coded transfer reaches stop `k`: what its frames decode to, and the chunk that fails, which the stop counts. -/
def Dev.receive (d : Dev) (k : Nat) (b : List B8) : Dev × List B8 × Option Nat :=
  let x := (d.stop k).decode (chunksOf 512 b (b.length / 512 + 1))
  let d1 := if (d.stop k).frames = [] then d else d.modStop k (fun v => { v with frames := [] })
  match x.2 with
  | none => (d1, x.1, none)
  | some i => (d1.modStop k (fun v => { v with decErr := true, decErrCnt := satInc v.decErrCnt }), x.1, some i)

/-- Bytes presented for coding at a stop, and the frame bytes sent for them (R186). -/
def Dev.countCoded (d : Dev) (k n sent : Nat) : Dev :=
  d.modStop k (fun v => { v with bytesIn := v.bytesIn + BitVec.ofNat 64 n, bytesOut := v.bytesOut + BitVec.ofNat 64 sent })

/-- RING_XFER on one region: its bytes move to the neighbour's region of the same local number, coded where the encode flag is set, and
in a TUNE, whose transfers carry its gradients (R183, R337). The ring carries nothing to a die outside the partition (R16): a step of a
model's program that asks for it fails as R164 refuses it (DEDUCED: no load checks those programs). -/
def Dev.ringStep (d : Dev) (r : RunRef) (region : Nat) : Dev :=
  match d.runProg r with
  | none => d
  | some g =>
    match g.findUnit 7 region (fun _ => true) with
    | none => d
    | some u =>
      let s := g.step u.step
      let dir := if s.getLsbD 8 then 1 else 0
      let die := region / 4
      let next := 4 * ((if dir = 0 then die + 1 else die + 3) % 4) + region % 4
      let n := bytesAt s 16 4
      if !(d.cfg.partRegions g.partition).contains next then d.unitDone r g u [(unitDie die (24 + dir), { status := 0x08, code := 0x87 })] 1
      else match d.bufRead g.party (regionDpa region (bytesAt s 8 4)) n with
      | (d1, .error e) => d1.unitDone r g u [(unitDie die (24 + dir), e)] 1
      | (d1, .ok b) =>
        let dst := regionDpa next (bytesAt s 12 4)
        let moved (d : Dev) (lines : Nat) : Dev := (d.countRg region 0x06 g.attr lines).countRg next 0x07 g.attr lines
        if s.getLsbD 9 || decide (g.adapter < 8) then
          let sent := ((chunksOf 512 b (n / 512 + 1)).map frameBytes).sum
          match (d1.countCoded (2 * die + dir) n sent).receive (2 * (next / 4) + 1 - dir) b with
          | (d2, got, bad) =>
            let d3 := moved (d2.bufWrite g.party dst got) (cdiv sent 64)
            d3.unitDone r g u (match bad with
              | none => []
              | some i => [(unitDie (next / 4) (25 - dir), { status := 0x04, code := 0xA7, addr := dst + 512 * i, space := 1 })]) 1
        else (moved (d1.bufWrite g.party dst b) (cdiv n 64)).unitDone r g u [] 1

end Sys2Proof.Machine
end

