-- ==== Sys2Proof/Machine/Kv.lean ====
section
/-! DEFINITION. The KV cache: the pool, pages and page lists, the prefix tree, and the steps of the attention unit (09_attention_and_kv_cache.md). -/
namespace Sys2Proof.Machine
open Sys2Proof

/-! ## The pool (R264) -/

def Dev.treeNodes (d : Dev) (p : Nat) : List Node := d.kv.nodes.filter (fun n => decide (n.partition = p))
/-- Chunks that hold some object. -/
def Dev.usedChunks (d : Dev) (p : Nat) : List Nat := ((d.kvObjects p).map (fun o => o.2 / 512)).eraseDups
/-- KV_POOL_n.free_chunks (R303). -/
def Dev.kvFreeChunks (d : Dev) (p : Nat) : Nat := d.kvChunks p - (d.usedChunks p).length

/-- A place for an object of `g` granules: in a chunk of its class with room, else in a free chunk (R264). -/
def Dev.kvPlace (d : Dev) (p kind g : Nat) : Option Nat :=
  let os := d.kvObjects p
  let mine := ((os.filter (fun o => decide (o.1 = (kind, g)))).map (fun o => o.2))
  let slots := ((mine.map (fun x => x / 512)).eraseDups.map (fun c => (List.range (512 / g)).map (fun i => c * 512 + i * g))).flatten
  match slots.find? (fun x => !mine.contains x) with
  | some x => some x
  | none =>
    if d.kvFreeChunks p = 0 then none
    else some (lowestFree (d.usedChunks p) 0 ((d.usedChunks p).length + 1) * 512)

/-- Pages counted against a tenant (R266). -/
def Dev.kvHeld (d : Dev) (t : Nat) : Nat := (d.kv.pages.filter (fun e => match e.2 with | some g => decide (g.owner = t) && !g.spare | none => false)).length
/-- Nodes that a tenant inserted and that remain (R305). -/
def Dev.kvNodesOf (d : Dev) (t : Nat) : Nat := (d.kv.nodes.filter (fun n => decide (n.inserter = t))).length
/-- KV_TREE_n.index_entries: nodes in the active on-chip copy (R304). -/
def Dev.indexEntries (d : Dev) (p : Nat) : Nat := ((d.treeNodes p).filter (fun n => n.indexed)).length

def Dev.kvPage (d : Dev) (i : Nat) : Option Page := d.kv.pages.get i none
def Dev.kvList (d : Dev) (i : Nat) : Option PageList := d.kv.lists.get i none
def Dev.putPage (d : Dev) (i : Nat) (v : Option Page) : Dev := { d with kv := { d.kv with pages := d.kv.pages.set i v } }
def Dev.putList (d : Dev) (i : Nat) (v : Option PageList) : Dev := { d with kv := { d.kv with lists := d.kv.lists.set i v } }

/-- Frees a page: its entry goes and its bytes are left as they are; those of a page that lost its owner to a reset are overwritten, and
one whose owner is in reset waits for the scrub (R299). -/
def Dev.freePage (d : Dev) (i : Nat) : Dev :=
  match d.kvPage i with
  | none => d
  | some g =>
    if g.scrub then d
    else
      let d1 := if g.owner = 127 then d.clearPhys (d.granuleDpa g.partition g.granule) (4096 * g.count) else d
      { d1 with kv := { d1.kv with pages := d1.kv.pages.filter (fun e => decide (e.1 ≠ i)) } }

/-- Drops a reference of a page list; at none the list is freed with its pages (R296). -/
def Dev.dropList (d : Dev) (i : Nat) : Dev :=
  match d.kvList i with
  | none => d
  | some l =>
    if 1 < l.refs then d.putList i (some { l with refs := l.refs - 1 })
    else
      let both := if l.built then l.pages ++ l.other else l.pages
      let d1 := both.foldl (fun d e => match e.2 with | some g => d.freePage g | none => d) d
      { d1 with kv := { d1.kv with lists := d1.kv.lists.filter (fun e => decide (e.1 ≠ i)) } }
def Dev.holdList (d : Dev) (i : Nat) : Dev :=
  match d.kvList i with
  | some l => d.putList i (some { l with refs := l.refs + 1 })
  | none => d

/-! ## Block entries of a sequence (R267) -/

def Seq.block (q : Seq) (draft : Bool) (b : Nat) : Option Nat := if draft then q.draftBlocks.get b none else q.blocks.get b none
def Seq.setBlock (q : Seq) (draft : Bool) (b : Nat) (v : Option Nat) : Seq :=
  if draft then { q with draftBlocks := q.draftBlocks.set b v } else { q with blocks := q.blocks.set b v }
/-- Granules of the block tables, and the hashes of full blocks, of one model of a sequence (R267). -/
def Seq.rootOf (q : Seq) (draft : Bool) : Tbl (Option Nat) := if draft then q.draftRoot else q.root
def Seq.setRoot (q : Seq) (draft : Bool) (k g : Nat) : Seq :=
  if draft then { q with draftRoot := q.draftRoot.set k (some g) } else { q with root := q.root.set k (some g) }
def Seq.hashOf (q : Seq) (draft : Bool) (b : Nat) : Option W64 := if draft then q.draftHashes.get b none else q.hashes.get b none
def Seq.setHash (q : Seq) (draft : Bool) (b : Nat) (h : W64) : Seq :=
  if draft then { q with draftHashes := q.draftHashes.set b (some h) } else { q with hashes := q.hashes.set b (some h) }
def Seq.tailOf (q : Seq) (draft : Bool) : Nat := if draft then q.draftTail else q.tail
/-- Model slot of a sequence, or of its draft model (R309). -/
def Seq.slotOf (q : Seq) (draft : Bool) : Nat := bytesAt q.req (if draft then 1 else 0) 1

/-- The sequence with an ID: its record (R312). -/
def Dev.findSeq (d : Dev) (id : Nat) : Option (Nat × Seq) :=
  match d.seq (id % 4096) with
  | some q => if q.id = id then some (id % 4096, q) else none
  | none => none

/-- The manifest of a generation. -/
def Dev.manifest (d : Dev) (slot g : Nat) : Manifest :=
  match (d.slot slot).gens.find? (fun x => decide (x.number = g)) with | some x => x.manifest | none => []
/-- The manifest of the model a sequence runs on. -/
def Dev.seqManifest (d : Dev) (q : Seq) (draft : Bool) : Manifest :=
  d.manifest (slotNo q.partition (q.slotOf draft)) (if draft then q.draftGen else q.gen)

/-- Why a page cannot be had (R306). -/
def kvNoPool : Fail := { status := 0x01, code := 0xD7 }
def kvNoQuota : Fail := { status := 0x07, code := 0xD8 }

/-- Allocates a page for a sequence's owner. -/
def Dev.newPage (d : Dev) (p owner slot count : Nat) : Dev × Except Fail Nat :=
  if decide (owner < 64) && decide (d.cfg.tenKvQuota owner ≤ d.kvHeld owner) then (d, .error kvNoQuota)
  else match d.kvPlace p 1 count with
    | none => (d, .error kvNoPool)
    | some g =>
      let i := d.kv.nextId
      ({ (d.putPage i (some { partition := p, granule := g, count := count, owner := owner, slot := slot, keyIndex := d.treeOf owner })) with
          kv := { (d.putPage i (some { partition := p, granule := g, count := count, owner := owner, slot := slot, keyIndex := d.treeOf owner })).kv with nextId := i + 1 } }, .ok i)

/-- Allocates an empty page list with one reference; it counts against no tenant (R266). -/
def Dev.newList (d : Dev) (p : Nat) : Dev × Except Fail Nat :=
  match d.kvPlace p 3 2 with
  | none => (d, .error kvNoPool)
  | some g =>
    let i := d.kv.nextId
    let d1 := d.putList i (some { partition := p, granule := g, refs := 1, owner := 127 })
    ({ d1 with kv := { d1.kv with nextId := i + 1 } }, .ok i)

/-! ## Elements of a page (R262, R263) -/

/-- Element index of dimension `j` at position offset `o` in the keys (`d` dimensions), and in the values. -/
def keyIndex (j o : Nat) : Nat := (j / 16 * 4 + o / 16) * 256 + j % 16 * 16 + o % 16
def valIndex (dim j o : Nat) : Nat := (o / 16 * (dim / 16) + j / 16) * 256 + o % 16 * 16 + j % 16

/-- Replaces element `i` of packed elements of `bits` bits. -/
def putCode (bits : Nat) (l : List B8) (i code : Nat) : List B8 :=
  if bits = 4 then
    let b := (l.getD (i / 2) 0).toNat
    listSet l (i / 2) (BitVec.ofNat 8 (if i % 2 = 0 then b / 16 * 16 + code % 16 else b % 16 + code % 16 * 16))
  else ((List.range (bits / 8)).foldl (fun l k => listSet l (i * (bits / 8) + k) (BitVec.ofNat 8 (code / 256 ^ k))) l)
/-- Element `i` of packed elements. -/
def getCode (bits : Nat) (l : List B8) (i : Nat) : Nat :=
  if bits = 4 then (if i % 2 = 0 then (l.getD (i / 2) 0).toNat % 16 else (l.getD (i / 2) 0).toNat / 16)
  else leAt l (i * (bits / 8)) (bits / 8)

/-- Bytes of a page, keys then values. -/
def Dev.pageBytes (d : Dev) (m : Manifest) (g : Page) : Dev × Except Fail (List B8) :=
  d.readPhys (d.granuleDpa g.partition g.granule) (pageKeyBytes m + pageValBytes m)

/-- Key or value codes of one position of a page. -/
def pageRow (m : Manifest) (b : List B8) (isKey : Bool) (o : Nat) : List Nat :=
  let dim := attDim m
  if isKey then (List.range dim).map (fun j => getCode (fmtBits (attKeyFmt m)) b (keyIndex j o))
  else (List.range dim).map (fun j => getCode (fmtBits (attValFmt m)) (b.drop (pageKeyBytes m)) (valIndex dim j o))
/-- A page's bytes with one row of one position replaced. -/
def setRow (m : Manifest) (b : List B8) (isKey : Bool) (o : Nat) (cs : List Nat) : List B8 :=
  let dim := attDim m
  if isKey then ((cs.mapIdx (fun j c => (j, c))).foldl (fun b x => putCode (fmtBits (attKeyFmt m)) b (keyIndex x.1 o) x.2) b)
  else b.take (pageKeyBytes m) ++
    ((cs.mapIdx (fun j c => (j, c))).foldl (fun b x => putCode (fmtBits (attValFmt m)) b (valIndex dim x.1 o) x.2) (b.drop (pageKeyBytes m)))

/-- The first `n` positions of a page, keys and values, over those of another. -/
def copyRows (m : Manifest) (src dst : List B8) (n : Nat) : List B8 :=
  if 64 ≤ n then src
  else (List.range n).foldl (fun l o => setRow m (setRow m l true o (pageRow m src true o)) false o (pageRow m src false o)) dst

/-- Copies the keys and values of the first `n` positions of a page to another, or the failure of the read (R261, R287). -/
def Dev.copyPage (d : Dev) (m : Manifest) (src dst : Page) (n : Nat) : Dev × Option Fail :=
  match d.pageBytes m src with
  | (d1, .error e) => (d1, some e)
  | (d1, .ok b) =>
    let a := d1.granuleDpa dst.partition dst.granule
    (d1.writePhys a (copyRows m b (d1.mem.phys.read a b.length) n), none)

/-- A write into a list ends the relocation of its pages that waits for the tick: the new places are free again (R298). -/
def Dev.unbuild (d : Dev) (li : Nat) : Dev :=
  match d.kvList li with
  | none => d
  | some l =>
    if !l.built then d
    else
      let mine := l.pages.filterMap (fun x => x.2)
      let fresh := (l.other.filterMap (fun x => x.2)).filter (fun i => !mine.contains i)
      (fresh.foldl (fun d i => d.freePage i) d).putList li (some { l with other := [], built := false })

/-- The block table that block `b` lies in has its granule (R267). -/
def Dev.ensureTable (d : Dev) (r : Nat) (draft : Bool) (b : Nat) : Dev × Option Fail :=
  match d.seq r with
  | none => (d, none)
  | some q =>
    if ((q.rootOf draft).get (b / 256) none).isSome then (d, none)
    else match d.kvPlace q.partition 4 1 with
      | none => (d, some kvNoPool)
      | some g => (d.modSeq r (fun v => v.setRoot draft (b / 256) g), none)

/-- Gives a sequence a private copy of a shared block: a new list, a page for every entry with the positions below the tail, the old
list's reference dropped (R287). -/
def Dev.copyBlock (d : Dev) (r : Nat) (draft : Bool) (b li : Nat) : Dev × Option Fail :=
  match d.seq r, d.kvList li with
  | some q, some l =>
    let m := d.seqManifest q draft
    let n := min (q.tailOf draft) (64 * (b + 1)) - 64 * b
    match d.newList q.partition with
    | (d1, .error e) => (d1, some e)
    | (d1, .ok ni) =>
      let out := l.pages.foldl (fun (s : Dev × Option Fail) e =>
        match s, e.2 with
        | (d, none), some pi =>
          (match d.kvPage pi with
          | none => (d, none)
          | some pg =>
            match d.newPage q.partition q.tenant pg.slot pg.count with
            | (d', .error e) => (d', some e)
            | (d', .ok np) =>
              match d'.kvPage np, d'.kvList ni with
              | some fresh, some nl =>
                let v := { fresh with scaleSet := pg.scaleSet, keyScale := pg.keyScale, valueScale := pg.valueScale }
                let d2 := (d'.putPage np (some v)).putList ni (some { nl with pages := nl.pages.set e.1 (some np) })
                d2.copyPage m pg fresh n
              | _, _ => (d', none))
        | s, _ => s) (d1, none)
      match out with
      | (d2, some e) => (d2.dropList ni, some e)
      | (d2, none) => (((d2.modSeq r (fun v => v.setBlock draft b (some ni))).dropList li), none)
  | _, _ => (d, none)

/-- A private page for entry `ix` of block `b` of a sequence: allocated, or copied from a shared list, as needed; the block table has its
granule. -/
def Dev.ensurePage (d : Dev) (r : Nat) (draft : Bool) (b ix : Nat) : Dev × Except Fail Nat :=
  match d.seq r with
  | none => (d, .error { status := 0x03, code := 0xD3 })
  | some q =>
    let m := d.seqManifest q draft
    let withList : Dev × Except Fail Nat :=
      match q.block draft b with
      | none =>
        match d.ensureTable r draft b with
        | (d0, some e) => (d0, .error e)
        | (d0, none) =>
          match d0.newList q.partition with
          | (d1, .error e) => (d1, .error e)
          | (d1, .ok li) => (d1.modSeq r (fun v => v.setBlock draft b (some li)), .ok li)
      | some li =>
        match d.kvList li with
        | some l =>
          if 1 < l.refs then
            match d.copyBlock r draft b li with
            | (d1, some e) => (d1, .error e)
            | (d1, none) => (d1, .ok (match d1.seq r with | some v => (v.block draft b).getD li | none => li))
          else (d.unbuild li, .ok li)
        | none => (d, .ok li)
    match withList with
    | (d1, .error e) => (d1, .error e)
    | (d1, .ok li) =>
      match d1.kvList li with
      | none => (d1, .error { status := 0x03, code := 0xD3 })
      | some l =>
        match l.pages.get ix none with
        | some pi => (d1, .ok pi)
        | none =>
          match d1.newPage q.partition q.tenant (q.slotOf draft) (pageGranules m) with
          | (d2, .error e) => (d2, .error e)
          | (d2, .ok pi) =>
            match d2.kvList li with
            | some l2 => (d2.putList li (some { l2 with pages := l2.pages.set ix (some pi) }), .ok pi)
            | none => (d2, .ok pi)

/-- The copy of a page list that an operation reads which began at a time: the old one where the copies changed places since (R30, R298). -/
def PageList.seenBy (l : PageList) (began : Option W64) : Tbl (Option Nat) :=
  match began with
  | some t => if t.toNat < l.flipAt.toNat then l.other else l.pages
  | none => l.pages

/-- The page of a sequence's block and entry, with its list, for an operation that begins now, or began earlier. -/
def Dev.pageAt (d : Dev) (q : Seq) (draft : Bool) (b ix : Nat) (began : Option W64 := none) : Option (PageList × Nat × Page) :=
  match q.block draft b with
  | none => none
  | some li =>
    match d.kvList li with
    | none => none
    | some l => match (l.seenBy began).get ix none with
      | none => none
      | some pi => (d.kvPage pi).map (fun g => (l, pi, g))

/-- Gives up every page, list and block entry of one model of a sequence. -/
def Dev.dropBlocks (d : Dev) (r : Nat) (draft : Bool) : Dev :=
  match d.seq r with
  | none => d
  | some q =>
    let bs := if draft then q.draftBlocks else q.blocks
    let d1 := bs.foldl (fun d e => match e.2 with | some li => d.dropList li | none => d) d
    d1.modSeq r (fun v => if draft then { v with draftBlocks := [], draftHashes := [], draftRoot := [] } else { v with blocks := [], hashes := [], root := [] })

/-! ## The layouts of the pool's metadata (R264, R265, R267, R268) -/

/-- Where the metadata entry of a granule lies: in the pool's first chunks. -/
def Dev.metaDpa (d : Dev) (p g : Nat) : Nat := d.kvBase p + 16 * g

/-- The metadata entry of a granule: of an object's first granule its kind and fields, of the others kind 2. -/
def Dev.granuleEntry (d : Dev) (p g : Nat) : W128 :=
  match (d.kvObjects p).find? (fun o => decide (o.2 ≤ g) && decide (g < o.2 + o.1.2)) with
  | none => 0
  | some o =>
    if o.2 ≠ g then 2
    else
      let page := (d.kv.pages.filterMap (fun e => e.2)).find? (fun x => decide (x.partition = p) && decide (x.granule = g))
      let list := (d.kv.lists.filterMap (fun e => e.2)).find? (fun x => decide (x.partition = p) && decide (x.granule = g))
      match o.1.1, page, list with
      | 1, some x, _ => 1#128 ||| (if x.scaleSet then 16#128 else 0) ||| BitVec.ofNat 128 (x.owner * 256) ||| BitVec.ofNat 128 (x.keyScale.toNat * 2 ^ 32)
          ||| BitVec.ofNat 128 (x.valueScale.toNat * 2 ^ 64) ||| BitVec.ofNat 128 (x.slot * 2 ^ 96)
      | 3, _, some x => 3#128 ||| (if x.sel then 8#128 else 0) ||| BitVec.ofNat 128 (x.owner * 256) ||| BitVec.ofNat 128 (x.refs * 65536)
      | k, _, _ => BitVec.ofNat 128 (k + 127 * 256)

/-- The block entry of block `b` of a sequence. -/
def Dev.blockEntry (d : Dev) (q : Seq) (draft : Bool) (b : Nat) : W128 :=
  match (q.block draft b).bind d.kvList with
  | none => 0
  | some l => match q.hashOf draft b with
    | none => BitVec.ofNat 128 (l.granule + 2 ^ 28)
    | some h => BitVec.ofNat 128 (l.granule + 2 ^ 28 + 2 ^ 29 + h.toNat * 2 ^ 64)

/-- Entry `ix` of copy `c` of a page list: the copy that sel names is the active one. -/
def Dev.listEntry (d : Dev) (l : PageList) (c ix : Nat) : W32 :=
  match ((if c = (if l.sel then 1 else 0) then l.pages else l.other).get ix none).bind d.kvPage with
  | none => 0
  | some g => BitVec.ofNat 32 (g.granule + 2 ^ 31)

/-- A format kept with a page scale. -/
def scaledFmt (f : Nat) : Bool := decide (f = 4) || decide (f = 5)

/-- Conversion to INT4: round to nearest even and saturate at -8 and 7 (R263). -/
def toKv (f : Nat) (scale x : F32) : Nat × Nat :=
  if scaledFmt f then
    let y := fmul x (fdiv f32One scale)
    if f = 5 then toInt 4 (unpackF32 y) else convertTo 4 y
  else convertTo f x

/-- Reads bytes of a table tensor of a model: copy for the die where it is kept per die (R233, R236). -/
def Dev.tableRead (d : Dev) (v : View) (m : Manifest) (dieIx tensorIx off n : Nat) : Dev × Except Fail (List B8) :=
  let p := ((placement m (d.partR v.part) (d.partD v.part)).getD tensorIx default)
  let s := match v.pin with | some x => x.1 | none => 0
  d.readMem v (windowBase s + p.base + (if 1 < p.pieces then dieIx * p.stride else 0) + off) n

/-- The default scales of a layer and head (R263): key, value. -/
def Dev.defaultScale (d : Dev) (v : View) (m : Manifest) (dieIx ix : Nat) : Dev × Except Fail (F32 × F32) :=
  if !attScaled m then (d, .ok (f32One, f32One))
  else match d.tableRead v m dieIx (attScaleTensor m) (4 * ix) 4 with
    | (d1, .error e) => (d1, .error e)
    | (d1, .ok a) =>
      match d1.tableRead v m dieIx (attScaleTensor m) (4 * (attLayers m * attHeads m + ix)) 4 with
      | (d2, .error e) => (d2, .error e)
      | (d2, .ok b) => (d2, .ok (BitVec.ofNat 32 (leNat a), BitVec.ofNat 32 (leNat b)))

/-! ## Which region takes an item (R269) -/

/-- Dies of a partition in partition order. -/
def Dev.dieOrder (d : Dev) (p : Nat) : List Nat :=
  let ds := d.cfg.partDies p
  if ds.length = 4 ∨ ds.length ≤ 1 then ds
  else
    let first := ((ds.filter (fun k => !ds.contains ((k + 3) % 4))).headD 0)
    ((List.range 4).map (fun i => (first + i) % 4)).filter (fun k => ds.contains k)
/-- Regions of a partition in partition order. -/
def Dev.regionOrder (d : Dev) (p : Nat) : List Nat :=
  ((d.dieOrder p).map (fun k => (d.cfg.partRegions p).filter (fun r => decide (r / 4 = k)))).flatten
/-- Heads that a region processes. -/
def Dev.headsOf (d : Dev) (m : Manifest) (p r : Nat) : Nat × Nat :=
  let h := attHeads m
  let per := if attByPos m then h / 4 else h / d.partR p
  let j := if attByPos m then r % 4 else (d.regionOrder p).idxOf r
  (j * per, per)
/-- Die (its place in partition order) that a block belongs to, by position. -/
def Dev.blockDie (d : Dev) (m : Manifest) (p b : Nat) : Nat := min (b / max 1 (attSpan m)) (d.partD p - 1)

/-- A work item (R275). -/
structure Item where
  seq : Nat
  cluster : Nat
  die : Nat
  head : Nat
  nq : Nat
  p : Nat
  qpos : Nat
  row : Nat
  maskBase : Nat
def itemAt (b : List B8) (i : Nat) : Item :=
  let o := 32 * i
  { seq := leAt b o 4, cluster := leAt b (o + 4) 1, die := leAt b (o + 5) 1, head := leAt b (o + 6) 1, nq := leAt b (o + 8) 2, p := leAt b (o + 10) 2,
    qpos := leAt b (o + 12) 4, row := leAt b (o + 16) 4, maskBase := leAt b (o + 20) 4 }

/-- The item is one of R275's values. -/
def itemOk (m : Manifest) (s : W512) (b : List B8) (i : Nat) : Bool :=
  let x := itemAt b i
  decide (x.cluster < 16) && (stepMask s).testBit x.cluster && (decide (x.die = 0xFF) || decide (x.die < 4)) && decide (x.head < attHeads m)
    && decide (1 ≤ x.nq) && decide (x.nq ≤ (if bytesAt s 1 1 = 0 then 1024 else 16)) && decide (x.p ≤ 16) && decide (x.row % 16 = 0)
    && zeroAt b (32 * i + 7) 1 && zeroAt b (32 * i + 24) 8

/-- Fields of an ATTENTION step (R274). -/
def attCausal (s : W512) : Bool := s.getLsbD 32
def attBitmap (s : W512) : Bool := s.getLsbD 33
def attBiasOn (s : W512) : Bool := s.getLsbD 34
def attRotaryOn (s : W512) : Bool := s.getLsbD 35
def attRing (s : W512) : Nat := fld s 36 2

/-- The sequence an item names, its tail at the start of the batch, and whether the draft model runs; none where the batch or
the tuning job does not hold it (R277). -/
def Dev.itemSeq (d : Dev) (r : RunRef) (g : Prog) (id : Nat) : Option (Seq × Nat × Bool) :=
  match d.findSeq id with
  | none => none
  | some (rec, q) =>
    match r with
    | .batch p =>
      match (d.part p).batch with
      | some b => (b.members.find? (fun x => decide (x.1 = rec))).map (fun x => (q, x.2.2, b.draft))
      | none => none
    | .queue _ => if g.tuneSeqs.contains rec then some (q, q.tail, false) else none

/-! ## ATTEND (R277-R281, R288-R290) -/

/-- One row's running maximum (none is -infinity), sum and output. -/
structure Soft where
  m : Option F32
  l : F32
  o : List F32

/-- Rotation of a row at a position (R279): cosine and sine by pair. -/
def rotateRow (m : Manifest) (cs : List (F32 × F32)) (x : List F32) : List F32 :=
  let r := attRotDims m
  let pairOf (j : Nat) : Option (Nat × Nat × Bool) :=
    if r ≤ j then none
    else if attRotSplit m then (if j < r / 2 then some (j, j + r / 2, true) else some (j - r / 2, j, false))
    else some (j / 2 * 2, j / 2 * 2 + 1, decide (j % 2 = 0))
  x.mapIdx (fun j v =>
    match pairOf j with
    | none => v
    | some (a, b, first) =>
      let i := if attRotSplit m then a else a / 2
      let c := (cs.getD i (f32One, f32Zero))
      let xa := x.getD a f32Zero
      let xb := x.getD b f32Zero
      if first then fsub (fmul xa c.1) (fmul xb c.2) else fadd (fmul xa c.2) (fmul xb c.1))

/-- The rotary table's entries for a position. -/
def Dev.rotaryAt (d : Dev) (v : View) (m : Manifest) (dieIx pos : Nat) : Dev × Except Fail (List (F32 × F32)) :=
  let r := attRotDims m
  match d.tableRead v m dieIx (attRotTensor m) (pos * 4 * r) (4 * r) with
  | (d1, .error e) => (d1, .error e)
  | (d1, .ok b) => (d1, .ok ((List.range (r / 2)).map (fun i => (BitVec.ofNat 32 (leAt b (8 * i) 4), BitVec.ofNat 32 (leAt b (8 * i + 4) 4)))))

/-- The product of a query row and a key, or of weights and values: FP32 in ascending order, or INT32 for integer pairs (R134, R272). -/
def dotOf (isInt : Bool) (a b : List FV) : F32 × Nat :=
  if isInt then
    let t := (a.zip b).foldl (fun (s : Int × Nat) x => let y := sat32 (s.1 + fvInt x.1 * fvInt x.2); (y.1, s.2 + y.2)) (0, 0)
    (f32OfInt t.1, t.2)
  else ((a.zip b).foldl (fun s x => fmac s x.1 x.2) f32Zero, 0)

/-- A query row: its position, its codes' values, its head's bias row. -/
structure QRow where
  pos : Nat
  q : List FV
  head : Nat
  start : Soft

/-- Whether the query at `qp` sees position `pos`. -/
def visible (causal : Bool) (bit : Nat → Nat → Bool) (limit qp pos : Nat) : Bool :=
  decide (pos < limit) && (!causal || decide (pos ≤ qp)) && bit qp pos

/-- One page merged into a row (R281). -/
def mergePage (m : Manifest) (s : W512) (qf pf : Nat) (keys vals : List (List Nat)) (g : Page) (base : Nat) (vis : Nat → Nat → Bool)
    (bias : Nat → Nat → F32) (row : QRow) : QRow :=
  let seen := (List.range 64).map (fun j => vis row.pos (base + j))
  if !seen.any (fun b => b) then row
  else
    let qs : F32 := BitVec.ofNat 32 (bytesAt s 0x28 4)
    let ss : F32 := BitVec.ofNat 32 (bytesAt s 0x2C 4)
    let ks := if scaledFmt (attKeyFmt m) then g.keyScale else f32One
    let vs := if scaledFmt (attValFmt m) then g.valueScale else f32One
    let isInt := decide (qf = 4)
    let sc := (seen.mapIdx (fun j b =>
      if b then
        let dp := (dotOf isInt row.q ((keys.getD j []).map (elemFV (attKeyFmt m)))).1
        let x := fmul (fmul (fmul dp qs) ks) ss
        some (if attBiasOn s then fadd x (bias row.head (row.pos - (base + j))) else x)
      else none))
    let mx := (sc.filterMap (fun x => x)).foldl (fun (b : Option F32) x => match b with | none => some x | some y => some (fmax y x)) row.start.m
    let mp := mx.getD f32Zero
    let a := match row.start.m with | none => f32Zero | some x => fexp (fsub x mp)
    let p := sc.map (fun x => match x with | some y => fexp (fsub y mp) | none => f32Zero)
    let l := fadd (fmul row.start.l a) (p.foldl fadd f32Zero)
    let pc := p.map (fun x => elemFV pf (convertTo pf x).1)
    let o := row.start.o.mapIdx (fun k x =>
      let pv := (dotOf false pc ((List.range 64).map (fun j => elemFV (attValFmt m) ((vals.getD j []).getD k 0)))).1
      fadd (fmul x a) (fmul pv vs))
    { row with start := { m := some mp, l := l, o := o } }

/-- Bytes of a page's BF16 parts, which a ring stop or an image codes. -/
def codedBytes (m : Manifest) : Nat := (if attKeyFmt m = 0 then pageKeyBytes m else 0) + (if attValFmt m = 0 then pageValBytes m else 0)
/-- Bytes that a page takes coded: frames of 512-byte chunks for its BF16 parts, the rest as it is (R183, R184, R328). -/
def imageBytes (m : Manifest) (b : List B8) : Nat :=
  let part (f : Nat) (l : List B8) : Nat := if f = 0 then ((chunksOf 512 l (l.length / 512 + 1)).map frameBytes).sum else l.length
  part (attKeyFmt m) (b.take (pageKeyBytes m)) + part (attValFmt m) (b.drop (pageKeyBytes m))

/-- What the walk of an item on one region does beside its result: whose work it is, the region that fetches a block and is counted here,
the cluster whose engines work and whose staging area takes the pages, when the step began, and the regions that send and that receive a block's page on the
ring, each with its stop. -/
structure Walker where
  who : Nat
  party : Nat
  of : Nat → Option Nat
  cluster : Option Nat
  began : W64
  sends : Nat → List (Nat × Nat)
  gets : Nat → List (Nat × Nat)

/-- PAGES_FETCHED or PAGES_SKIPPED of the region whose walker looks at a page, where one is named (R511). -/
def Dev.countPage (d : Dev) (rg : Option Nat) (ev who : Nat) : Dev := match rg with | some r => d.countRg r ev who 1 | none => d

/-- Engine cycles of one page and `rows` query rows (R282). -/
def pageCycles (m : Manifest) (s : W512) (rows : Nat) : Nat :=
  let c (a w : Nat) : Nat := match matMode a w with | some x => x.1 | none => 0
  cdiv rows 16 * (4 * (attDim m / 16) * (c (fld s 40 4) (attKeyFmt m) + c (fld s 44 4) (attValFmt m)) + 24)

/-- A page reaches the cluster: it lies in the half of the staging area whose turn it is (R258, R282). The engines are busy for its cycles and
for a free time in which they wait (R511). -/
def Dev.stagePage (d : Dev) (m : Manifest) (s : W512) (w : Walker) (turn rows : Nat) (bs : List B8) : Dev :=
  match w.cluster with
  | none => d
  | some c =>
    let d1 := d.bufWrite w.party (clusterDpa c (bytesAt s 0x1C 4 + turn % 2 * (4096 * pageGranules m))) bs
    (d1.drawn.countCl c 0x09 w.who (cdiv bs.length 64)).countCl c 0x01 w.who (pageCycles m s rows + Config.freeNat d1.draw)

/-- A fetched page counts at the region that fetches it: the page, its lines over the star link and a free number of lines of tables
(R268, R511). -/
def Dev.fetchPage (d : Dev) (rg : Option Nat) (who n : Nat) : Dev :=
  match rg with
  | none => d
  | some r => (d.drawn.countRg r 0x03 who 1).countRg r 0x08 who (cdiv n 64 + Config.freeNat d.draw)

/-- A page crosses the ring: coded at each sending stop where it is BF16, decoded at each receiving stop, and counted at the regions that
send and receive it (R183, R185, R186, R288, R511): the page as it arrives, or the failure of a frame, whose record names the stop (in
`val`) and a buffer address that is open, since the spec names no place of the page in a region buffer. -/
def Dev.circulate (d : Dev) (m : Manifest) (who : Nat) (sends gets : List (Nat × Nat)) (bs : List B8) : Dev × Except Fail (List B8) :=
  let n := imageBytes m bs
  let k := codedBytes m
  let at_ := if attKeyFmt m = 0 then 0 else pageKeyBytes m
  let d1 := sends.foldl (fun d x => (if k = 0 then d else d.countCoded x.2 k (n - (bs.length - k))).countRg x.1 0x06 who (cdiv n 64)) d
  gets.foldl (fun st x =>
    match st with
    | (d, .error e) => (d, .error e)
    | (d, .ok bs) =>
      let d2 := d.countRg x.1 0x07 who (cdiv n 64)
      if k = 0 then (d2, .ok bs)
      else match d2.receive x.2 ((bs.drop at_).take k) with
        | (d3, got, none) => (d3, .ok (bs.take at_ ++ got ++ bs.drop (at_ + k)))
        | (d3, _, some _) =>
          (d3.drawn, .error { status := 0x04, code := 0xA7, val := unitDie (x.2 / 2) (24 + x.2 % 2), addr := regionDpa x.1 (Config.freeNat d3.draw % 0x100000), space := 1 })) (d1, .ok bs)

/-- The rows of an item merged with the blocks of one region in the order given; fails where a visible position has no page. -/
def Dev.walk (d : Dev) (m : Manifest) (s : W512) (q : Seq) (draft : Bool) (ix : Nat) (blocks : List Nat) (vis : Nat → Nat → Bool)
    (bias : Nat → Nat → F32) (w : Walker) (rows : List QRow) : Dev × Except Fail (List QRow) :=
  let qf := fld s 40 4
  let pf := fld s 44 4
  let seen (b : Nat) : Bool := rows.any (fun r => (List.range 64).any (fun j => vis r.pos (64 * b + j)))
  let numbered := (blocks.foldl (fun (l : List (Nat × Nat) × Nat) b => ((b, l.2) :: l.1, if seen b then l.2 + 1 else l.2)) ([], 0)).1.reverse
  numbered.foldl (fun st x =>
    let b := x.1
    match st with
    | (d, .error e) => (d, .error e)
    | (d, .ok rows) =>
      if !seen b then ((if attBitmap s then d.countPage (w.of b) 0x04 w.who else d), .ok rows)
      else match d.pageAt q draft b ix w.began with
        | none => (d, .error { status := 0x03, code := 0xD3 })
        | some (_, _, g) =>
          match d.pageBytes m g with
          | (d1, .error e) => (d1, .error e)
          | (d1, .ok bs) =>
            match (d1.fetchPage (w.of b) w.who bs.length).circulate m w.who (w.sends b) (w.gets b) bs with
            | (d2, .error e) => (d2, .error e)
            | (d2, .ok bs) =>
              let keys := (List.range 64).map (fun o => pageRow m bs true o)
              let vals := (List.range 64).map (fun o => pageRow m bs false o)
              (d2.stagePage m s w x.2 rows.length bs, .ok (rows.map (mergePage m s qf pf keys vals g (64 * b) vis bias)))) (d, .ok rows)

/-- The partial results of the dies merged in partition order (R289). -/
def mergeDies (ps : List Soft) (dim : Nat) : Soft :=
  let live := ps.filterMap (fun p => p.m.map (fun x => (x, p)))
  match live with
  | [] => { m := none, l := f32Zero, o := List.replicate dim f32Zero }
  | (x0, _) :: _ =>
    let m := live.foldl (fun b x => fmax b x.1) x0
    let w := live.map (fun x => (fexp (fsub x.1 m), x.2))
    { m := some m
      l := w.foldl (fun b x => fadd b (fmul x.2.l x.1)) f32Zero
      o := (List.range dim).map (fun k => w.foldl (fun b x => fadd b (fmul (x.2.o.getD k f32Zero) x.1)) f32Zero) }

/-- Output codes of a finished row, and its SAT_EVENTS. -/
def softOut (s : W512) (r : Soft) : List (Nat × Nat) :=
  let f := fld s 48 4
  if r.l = f32Zero ∨ r.l = 0x80000000#32 then r.o.map (fun _ => (0, 0))
  else r.o.map (fun x => convertTo f (fmul x (frecip r.l)))

/-- The writes of row `row` of a tensor of `cols` columns. -/
def rowWrites (off f cols row : Nat) (cs : List Nat) : List (Nat × List B8) :=
  (List.range (cols / 16)).map (fun cb =>
    (off + ((row / 16) * (cols / 16) + cb) * subTile f + row % 16 * 16 * (fmtBits f / 8), packCodes f ((cs.drop (16 * cb)).take 16)))

/-- Codes of row `row` of a tensor. -/
def Dev.readRow (d : Dev) (party base f cols row : Nat) : Dev × Except Fail (List Nat) :=
  (List.range (cols / 16)).foldl (fun st cb =>
    match st with
    | (d, .error e) => (d, .error e)
    | (d, .ok l) =>
      match d.bufCodes party (base + ((row / 16) * (cols / 16) + cb) * subTile f + row % 16 * 16 * (fmtBits f / 8)) (2 * fmtBits f) (fmtBits f) with
      | (d', .error e) => (d', .error e)
      | (d', .ok m) => (d', .ok (l ++ m))) (d, .ok [])

/-- The query rows of an item on a region: rotated where asked, nothing merged yet. A rotated value that saturates in its format counts
one SAT_EVENTS (R156, R279). -/
def Dev.queryRows (d : Dev) (g : Prog) (m : Manifest) (s : W512) (region dieIx : Nat) (x : Item) : Dev × Except Fail (List (Nat × QRow)) :=
  let dim := attDim m
  let qf := fld s 40 4
  let base := clusterDpa (16 * region + x.cluster) (bytesAt s 0x14 4)
  let names := ((List.range (attGroup m)).map (fun h => (List.range x.nq).map (fun i => (h, i)))).flatten
  names.foldl (fun st hi =>
    match st with
    | (d, .error e) => (d, .error e)
    | (d, .ok l) =>
      let row := x.row + hi.1 * x.nq + hi.2
      match d.readRow g.party base qf dim row with
      | (d1, .error e) => (d1, .error e)
      | (d1, .ok cs) =>
        let fin (d : Dev) (q : List FV) : Dev × Except Fail (List (Nat × QRow)) :=
          (d, .ok (l ++ [(row, { pos := x.qpos + hi.2, q := q, head := x.head * attGroup m + hi.1,
                                 start := { m := none, l := f32Zero, o := List.replicate dim f32Zero } })]))
        if attRotaryOn s then
          match d1.rotaryAt g.view m dieIx (x.qpos + hi.2) with
          | (d2, .error e) => (d2, .error e)
          | (d2, .ok t) =>
            let qs := (rotateRow m t (cs.map (fun c => packF32 (elemFV qf c)))).map (convertTo qf)
            fin (d2.countCl (16 * region + x.cluster) 0x05 g.attr ((qs.map (fun y => y.2)).sum)) (qs.map (fun y => elemFV qf y.1))
        else fin d1 (cs.map (elemFV qf))) (d, .ok [])

/-- The bitmap test of an item (R278). -/
def bitmapBit (s : W512) (m : List B8) (x : Item) (nkb qp pos : Nat) : Bool :=
  if !attBitmap s then true
  else
    let o := ((qp / 64 - x.qpos / 64) * nkb + pos / 64) * 512 + qp % 64 * 8 + pos % 64 / 8
    (m.getD o 0).toNat.testBit (pos % 8)

/-- One ATTEND item on one region, of a step that began at a time: output rows with their codes. -/
def Dev.attendItem (d : Dev) (r : RunRef) (g : Prog) (m : Manifest) (s : W512) (region : Nat) (began : W64) (x : Item) :
    Dev × Except Fail (List (Nat × List (Nat × Nat))) :=
  let p := g.partition
  let order := d.dieOrder p
  let D := order.length
  let me := order.idxOf (region / 4)
  match d.itemSeq r g x.seq with
  | none => (d, .error { status := 0x03, code := 0xD0 })
  | some (q, T, draft) =>
    let limit := T + x.p
    let nkb := cdiv limit 64
    let ix := bytesAt s 7 1 * attHeads m + x.head
    let mine (k : Nat) : List Nat := (List.range nkb).filter (fun b => !attByPos m || decide (d.blockDie m p b = k))
    -- each die fetches its own pages; an item on one die alone has the other dies' pages fetched for it
    let regionOf (k : Nat) : Nat := 4 * order.getD (k % D) 0 + region % 4
    let of (b : Nat) : Option Nat :=
      if !attByPos m || decide (d.blockDie m p b = me) then some region
      else if x.die = 0xFF then none else some (regionOf (d.blockDie m p b))
    -- R288: a page makes D - 1 hops, from its own die on; an item that every die takes counts its own die's hops
    let stopOf (k : Nat) : Nat := let a := order.getD (k % D) 0; 2 * a + (if order.getD ((k + 1) % D) 0 = (a + 3) % 4 then 1 else 0)
    let sender (k : Nat) : Nat × Nat := (regionOf k, stopOf k)
    -- the stop of die k that receives from the die before it in partition order
    let getter (k : Nat) : Nat × Nat := let a := order.getD (k % D) 0; (regionOf k, 2 * a + (if order.getD ((k + D - 1) % D) 0 = (a + 3) % 4 then 1 else 0))
    let sends (b : Nat) : List (Nat × Nat) := let k := d.blockDie m p b
      if attRing s ≠ 1 then [] else if x.die = 0xFF then (if (me + D - k) % D < D - 1 then [sender me] else []) else (List.range (D - 1)).map (fun i => sender (k + i))
    let gets (b : Nat) : List (Nat × Nat) := let k := d.blockDie m p b
      if attRing s ≠ 1 then [] else if x.die = 0xFF then (if k = me then [] else [getter me]) else (List.range (D - 1)).map (fun i => getter (k + i + 1))
    let walker (rg : Nat) : Walker :=
      { who := g.attr, party := g.party, of := of, began := began, cluster := if rg = region ∨ x.die ≠ 0xFF then some (16 * rg + x.cluster) else none, sends := sends, gets := gets }
    if limit > attMaxPos m ∨ limit < x.qpos + x.nq ∨ attMaxPos m < x.qpos + x.nq ∨ 1024 < (mine me).length then (d, .error { status := 0x08, code := 0xD4 })
    else
      let dieIx := (d.cfg.partDies p).idxOf (region / 4)
      let nqb := (x.qpos + x.nq - 1) / 64 - x.qpos / 64 + 1
      match (if attBitmap s then d.readMem g.view (bytesAt s 0x20 8 + x.maskBase * 512) (nqb * nkb * 512) else (d, .ok [])) with
      | (d0, .error e) => (d0, .error e)
      | (d0, .ok bm) =>
        let vis := visible (attCausal s) (bitmapBit s bm x nkb) limit
        match (if attBiasOn s then d0.tableRead g.view m dieIx (attBiasTensor m) 0 (4 * attBiasLen m * attHeads m * attGroup m) else (d0, .ok [])) with
        | (d1, .error e) => (d1, .error e)
        | (d1, .ok bt) =>
          let bias (h k : Nat) : F32 := BitVec.ofNat 32 (leAt bt (4 * (h * attBiasLen m + min k (attBiasLen m - 1))) 4)
          if attRing s = 2 then
            -- R289: each die's region of the same place merges its own pages, and the partials are merged in partition order
            let out := (List.range D).foldl (fun (st : Dev × Except Fail (List (List (Nat × QRow)))) k =>
              match st with
              | (d, .error e) => (d, .error e)
              | (d, .ok l) =>
                let rg := 4 * (order.getD k 0) + region % 4
                match d.queryRows g m s rg ((d.cfg.partDies p).idxOf (rg / 4)) x with
                | (d2, .error e) => (d2, .error e)
                | (d2, .ok rows) =>
                  match d2.walk m s q draft ix (mine k) vis bias (walker rg) (rows.map (fun y => y.2)) with
                  | (d3, .error e) => (d3, .error e)
                  | (d3, .ok fin) => (d3, .ok (l ++ [((rows.map (fun y => y.1)).zip fin)]))) (d1, .ok [])
            match out with
            | (d4, .error e) => (d4, .error e)
            | (d4, .ok dies) =>
              let rows := dies.headD []
              -- each die sends its own partials and those it passes on; on three dies the middle one serves both ends, whose way round
              -- the ring leads through a foreign die (R16)
              let part := cdiv (rows.length * (4 * attDim m + 8)) 64
              let ds := d.cfg.partDies p
              let out (r : Nat) : Nat := if D ≠ 3 then D - 1 else if ds.contains ((r / 4 + 1) % 4) && ds.contains ((r / 4 + 3) % 4) then 4 else 1
              let d5 := (if x.die = 0xFF then [region] else (List.range D).map regionOf).foldl (fun d r => (d.countRg r 0x06 g.attr (part * out r)).countRg r 0x07 g.attr (part * (D - 1))) d4
              (d5, .ok (rows.mapIdx (fun i y =>
                (y.1, softOut s (mergeDies (dies.map (fun l => (l.getD i y).2.start)) (attDim m))))))
          else
            let blocks := if attRing s = 1 then ((List.range D).map (fun i => mine ((me + D - i) % D))).flatten else mine me
            match d1.queryRows g m s region dieIx x with
            | (d2, .error e) => (d2, .error e)
            | (d2, .ok rows) =>
              match d2.walk m s q draft ix blocks vis bias (walker region) (rows.map (fun y => y.2)) with
              | (d3, .error e) => (d3, .error e)
              | (d3, .ok fin) => (d3, .ok (((rows.map (fun y => y.1)).zip fin).map (fun y => (y.1, softOut s y.2.start))))

/-- The items of an ATTENTION step that a region takes (R275): of its heads and its die, and for an APPEND by position those that have a
position on its die (R269). -/
def Dev.itemsFor (d : Dev) (m : Manifest) (g : Prog) (s : W512) (b : List B8) (region : Nat) : List Item :=
  let hs := d.headsOf m g.partition region
  let me := (d.dieOrder g.partition).idxOf (region / 4)
  let here (x : Item) : Bool := decide (bytesAt s 1 1 = 0) || !attByPos m || (List.range x.nq).any (fun i => decide (d.blockDie m g.partition ((x.qpos + i) / 64) = me))
  ((List.range (bytesAt s 0x10 2)).map (itemAt b)).filter (fun x =>
    decide (hs.1 ≤ x.head) && decide (x.head < hs.1 + hs.2) && (decide (x.die = 0xFF) || decide (x.die = me)) && here x)

/-- The rows of an item reach beyond the footprint of its program (R141, R276). -/
def itemBeyond (g : Prog) (m : Manifest) (s : W512) (x : Item) : Bool :=
  let rows := x.row + (if bytesAt s 1 1 = 0 then attGroup m * x.nq else x.nq)
  let past (off f : Nat) : Bool := decide (bytesAt g.hdr 12 4 < bytesAt s off 4 + tensorBytes f rows (attDim m))
  past 0x14 (fld s 40 4) || past 0x18 (if bytesAt s 1 1 = 0 then fld s 48 4 else fld s 40 4)

/-- The unit that a failed ATTENTION step names: the attention unit of its region, or the ring stop whose frame failed (R185). -/
def attUnit (region : Nat) (e : Fail) : Nat := if e.code = 0xA7 then e.val else unitRegion region 18

/-- The model of a running program. -/
def Dev.progManifest (d : Dev) (g : Prog) : Manifest := d.manifest (slotNo g.partition g.slot) g.gen

/-- Reads and checks the item table of a step. -/
def Dev.readItems (d : Dev) (g : Prog) (m : Manifest) (s : W512) : Dev × Except Fail (List B8) :=
  let n := bytesAt s 0x10 2
  match d.readMem g.view (bytesAt s 8 8) (32 * n) with
  | (d1, .error e) => (d1, .error e)
  | (d1, .ok b) =>
    if (List.range n).all (itemOk m s b) then (d1, .ok b)
    else (d1.drawn, .error { status := 0x04, code := (Config.freeByte d1.draw).toNat })

/-- ATTENTION units of a partition that began before a time. -/
def Dev.oldUnits (d : Dev) (p : Nat) (t : W64) : Bool :=
  let ofQueues := d.queues.filterMap (fun e => if d.qPart e.1 = p then e.2.running.bind (fun r => r.prog) else none)
  let ofBatch := match (d.part p).batch with | some b => b.prog.toList | none => []
  (ofQueues ++ ofBatch).any (fun g => g.units.any (fun u => decide (u.kind = 6) && !u.parked && decide (u.began.toNat < t.toNat)))

/-- Old pages of flipped lists are freed once no step is left that began before the flip (R298). -/
def Dev.freeRetired (d : Dev) : Dev :=
  let past := d.kv.retired.filter (fun x => !d.oldUnits x.1 x.2.2)
  let d1 := { d with kv := { d.kv with retired := d.kv.retired.filter (fun x => d.oldUnits x.1 x.2.2) } }
  past.foldl (fun d x => x.2.1.foldl (fun d i => d.freePage i) d) d1

/-- ATTEND on one region. -/
def Dev.attendStep (d : Dev) (r : RunRef) (region : Nat) : Dev :=
  match d.runProg r with
  | none => d
  | some g =>
    match g.findUnit 6 region (fun s => decide (bytesAt s 1 1 = 0)) with
    | none => d
    | some u =>
      let s := g.step u.step
      let m := d.progManifest g
      match d.readItems g m s with
      | (d1, .error e) => ((d1.modelFault e).unitDone r g u [(attUnit region e, e)] 1).freeRetired
      | (d1, .ok b) =>
        let out := (d1.itemsFor m g s b region).foldl (fun (st : Dev × Except Fail (List (Nat × Nat × List (Nat × Nat)))) x =>
          match st with
          | (d, .error e) => (d, .error e)
          | (d, .ok l) =>
            match (if itemBeyond g m s x then (d, .error { status := 0x02, code := 0x8B }) else d.attendItem r g m s region u.began x) with
            | (d', .error e) => (d', .error e)
            | (d', .ok rows) => (d', .ok (l ++ rows.map (fun y => (x.cluster, y))))) (d1, .ok [])
        match out with
        | (d2, .error e) => ((d2.modelFault e).unitDone r g u [(attUnit region e, e)] 1).freeRetired
        | (d2, .ok rows) =>
          let d3 := rows.foldl (fun d y =>
            (d.putOutput g (16 * region + y.1) (rowWrites (bytesAt s 0x18 4) (fld s 48 4) (attDim m) y.2.1 (y.2.2.map (fun c => c.1)))).countCl
              (16 * region + y.1) 0x05 g.attr ((y.2.2.map (fun c => c.2)).sum)) d2
          (d3.unitDone r g u [] 1).freeRetired

/-! ## APPEND (R283) -/

/-- Key and value codes of one appended position, with the page scales. -/
def Dev.appendRow (d : Dev) (g : Prog) (m : Manifest) (s : W512) (region dieIx : Nat) (x : Item) (i : Nat) (ks vs : F32) : Dev × Except Fail ((List Nat × List Nat) × Nat) :=
  let f := fld s 40 4
  let dim := attDim m
  let c := 16 * region + x.cluster
  match d.readRow g.party (clusterDpa c (bytesAt s 0x14 4)) f dim (x.row + i) with
  | (d1, .error e) => (d1, .error e)
  | (d1, .ok kc) =>
    match d1.readRow g.party (clusterDpa c (bytesAt s 0x18 4)) f dim (x.row + i) with
    | (d2, .error e) => (d2, .error e)
    | (d2, .ok vc) =>
      match (if attRotaryOn s then d2.rotaryAt g.view m dieIx (x.qpos + i) else (d2, .ok [])) with
      | (d3, .error e) => (d3, .error e)
      | (d3, .ok t) =>
        let kf := kc.map (fun y => packF32 (elemFV f y))
        let kr := if attRotaryOn s then rotateRow m t kf else kf
        let ko := kr.map (toKv (attKeyFmt m) ks)
        let vo := vc.map (fun y => toKv (attValFmt m) vs (packF32 (elemFV f y)))
        (d3, .ok ((ko.map (fun y => y.1), vo.map (fun y => y.1)), ((ko ++ vo).map (fun y => y.2)).sum))

/-- What one APPEND position writes: page, scales, new page bytes. -/
def Dev.appendItem (d : Dev) (r : RunRef) (g : Prog) (m : Manifest) (s : W512) (region : Nat) (x : Item) : Dev × Except Fail (List (Nat × Nat × (List Nat × List Nat) × F32 × F32) × Nat) :=
  let p := g.partition
  let me := (d.dieOrder p).idxOf (region / 4)
  let dieIx := (d.cfg.partDies p).idxOf (region / 4)
  let ix := bytesAt s 7 1 * attHeads m + x.head
  match d.itemSeq r g x.seq with
  | none => (d, .error { status := 0x03, code := 0xD0 })
  | some (q, T, draft) =>
    if x.qpos < T ∨ T + 16 < x.qpos + x.nq then (d, .error { status := 0x03, code := 0xD2 })
    else if attMaxPos m < x.qpos + x.nq then (d, .error { status := 0x08, code := 0xD4 })
    else
      match d.defaultScale g.view m dieIx ix with
      | (d1, .error e) => (d1, .error e)
      | (d0, .ok def2) =>
        -- how many lines the rows, scales and tables of an item take over the star link is not given (R511)
        let d1 := d0.drawn.countRg region 0x09 g.attr (Config.freeNat d0.draw)
        (List.range x.nq).foldl (fun st i =>
          match st with
          | (d, .error e) => (d, .error e)
          | (d, .ok l) =>
            let pos := x.qpos + i
            if attByPos m && decide (d.blockDie m p (pos / 64) ≠ me) then (d, .ok l)
            else match d.pageAt q draft (pos / 64) ix with
              | none => (d, .error { status := 0x03, code := 0xD3 })
              | some (li, pi, pg) =>
                if 1 < li.refs then (d, .error { status := 0x03, code := 0xD3 })
                else
                  let ks := if pg.scaleSet then pg.keyScale else def2.1
                  let vs := if pg.scaleSet then pg.valueScale else def2.2
                  match d.appendRow g m s region dieIx x i ks vs with
                  | (d', .error e) => (d', .error e)
                  | (d', .ok y) => (d', .ok (l.1 ++ [(pi, pos % 64, y.1, ks, vs)], l.2 + y.2))) (d1, .ok ([], 0))

/-- Writes a key row and a value row (either may be absent) into a page, and its scales where they are not set. -/
def Dev.putRows (d : Dev) (m : Manifest) (pi o : Nat) (kc vc : Option (List Nat)) (ks vs : F32) : Dev :=
  match d.kvPage pi with
  | none => d
  | some pg =>
    let a := d.granuleDpa pg.partition pg.granule
    let b0 := d.mem.phys.read a (pageKeyBytes m + pageValBytes m)
    let b1 := match kc with | some c => setRow m b0 true o c | none => b0
    let b2 := match vc with | some c => setRow m b1 false o c | none => b1
    (d.writePhys a b2).putPage pi (some (if pg.scaleSet || !attScaled m then pg else { pg with scaleSet := true, keyScale := ks, valueScale := vs }))

/-- APPEND on one region: every item is checked before any row is written. -/
def Dev.appendStep (d : Dev) (r : RunRef) (region : Nat) : Dev :=
  match d.runProg r with
  | none => d
  | some g =>
    match g.findUnit 6 region (fun s => decide (bytesAt s 1 1 = 1)) with
    | none => d
    | some u =>
      let s := g.step u.step
      let m := d.progManifest g
      match d.readItems g m s with
      | (d1, .error e) => ((d1.modelFault e).unitDone r g u [(attUnit region e, e)] 1).freeRetired
      | (d1, .ok b) =>
        let out := (d1.itemsFor m g s b region).foldl (fun (st : Dev × Except Fail (List (Nat × Nat × Nat × (List Nat × List Nat) × F32 × F32) × List (Nat × Nat))) x =>
          match st with
          | (d, .error e) => (d, .error e)
          | (d, .ok l) =>
            match (if itemBeyond g m s x then (d, .error { status := 0x02, code := 0x8B }) else d.appendItem r g m s region x) with
            | (d', .error e) => (d', .error e)
            | (d', .ok y) => (d', .ok (l.1 ++ y.1.map (fun w => (x.cluster, w)), l.2 ++ [(x.cluster, y.2)]))) (d1, .ok ([], []))
        match out with
        | (d2, .error e) => ((d2.modelFault e).unitDone r g u [(attUnit region e, e)] 1).freeRetired
        | (d2, .ok w) =>
          let d3 := w.1.foldl (fun d y => d.putRows m y.2.1 y.2.2.1 (some y.2.2.2.1.1) (some y.2.2.2.1.2) y.2.2.2.2.1 y.2.2.2.2.2) d2
          let d4 := w.2.foldl (fun d y => d.countCl (16 * region + y.1) 0x05 g.attr y.2) d3
          (d4.unitDone r g u [] 1).freeRetired

/-! ## The prefix tree (R291-R298) -/

def Dev.treeKey (d : Dev) (tree : Nat) : W128 := if tree < 64 then (d.ten tree).treeKey else d.kv.groupKeys.get (tree - 64) 0
/-- h₋₁ of a generation (R292). -/
def Dev.rootHash (d : Dev) (slot g : Nat) : W64 := BitVec.ofNat 64 (Config.sha384 (d.manifest slot g)).toNat
/-- h_i from the parent hash and the block's 64 tokens. -/
def Dev.blockHash (d : Dev) (tree : Nat) (parent : W64) (tokens : List Nat) : W64 :=
  Config.sipHash (d.treeKey tree) (leBytes 8 parent.toNat ++ (tokens.map (leBytes 4)).flatten)
def Dev.findNode (d : Dev) (tree : Nat) (h : W64) : Option Node := d.kv.nodes.find? (fun n => decide (n.tree = tree) && decide (n.hash = h))

/-- The nodes of `l` and every node descended from one of them. -/
def Dev.withDescendants (d : Dev) (l : List Node) : Nat → List Node
  | 0 => l
  | fuel + 1 =>
    let more := d.kv.nodes.filter (fun n => !l.contains n && l.any (fun x => decide (x.tree = n.tree) && decide (x.hash = n.parent)))
    if more.isEmpty then l else d.withDescendants (l ++ more) fuel
/-- Removes nodes with all that descend from them, from the trees and both on-chip copies, and drops their lists' references; a granule that
holds no node is free (R296). -/
def Dev.removeNodes (d : Dev) (l : List Node) : Dev :=
  let all := d.withDescendants l d.kv.nodes.length
  let rest := d.kv.nodes.filter (fun n => !all.contains n)
  let d1 := { d with kv := { d.kv with
    nodes := rest
    nodeGranules := d.kv.nodeGranules.filter (fun x => rest.any (fun n => decide (n.partition = x.1) && decide (n.place / 128 = x.2))) } }
  all.foldl (fun d n => d.dropList n.list) d1

/-- A place for a node: in a granule of the partition's nodes with room, else in a new one. -/
def Dev.nodePlace (d : Dev) (p : Nat) : Option (Dev × Nat) :=
  let used := (d.treeNodes p).map (fun n => n.place)
  let places := ((d.kv.nodeGranules.filter (fun x => decide (x.1 = p))).map (fun x => (List.range 128).map (fun i => 128 * x.2 + i))).flatten
  match places.find? (fun x => !used.contains x) with
  | some x => some (d, x)
  | none => match d.kvPlace p 5 1 with
    | some g => some ({ d with kv := { d.kv with nodeGranules := d.kv.nodeGranules ++ [(p, g)] } }, 128 * g)
    | none => none

/-- Inserts a node for a full block (R295). -/
def Dev.insertNode (d : Dev) (tree inserter p slot gen : Nat) (root parent h : W64) (list : Nat) : Dev :=
  if (d.findNode tree h).isSome then d
  else if decide (parent ≠ root) && (d.findNode tree parent).isNone then d
  else match d.nodePlace p with
    | none => { d with kv := { d.kv with insertDrop := true, dropCnt := satInc d.kv.dropCnt } }
    | some (d1, x) =>
      let n : Node := { hash := h, parent := parent, list := list, gen := gen, lastUse := BitVec.ofNat 32 d.tick, slot := slot, tree := tree,
                        inserter := inserter, partition := p, place := x }
      ({ d1 with kv := { d1.kv with nodes := d1.kv.nodes ++ [n] } }).holdList list

/-- The 32 bytes of a node (R293). -/
def Dev.nodeBytes (d : Dev) (n : Node) : List B8 :=
  let list := match d.kvList n.list with | some l => l.granule | none => 0
  leBytes 8 n.hash.toNat ++ leBytes 8 n.parent.toNat ++ leBytes 4 list ++ leBytes 4 n.gen ++ leBytes 4 n.lastUse.toNat
    ++ leBytes 1 n.slot ++ leBytes 1 n.tree ++ leBytes 1 n.inserter ++ leBytes 1 0

/-- Ticks since a node was last used, in the 32 bits it keeps (R293). -/
def Dev.nodeAge (d : Dev) (n : Node) : Nat := (BitVec.ofNat 32 d.tick - n.lastUse).toNat

/-- Matches the blocks of a prompt against the tree: the lists taken, with their hashes (R294, R312). -/
def Dev.matchBlocks (d : Dev) (tree p slot gen : Nat) (blocks : List (List Nat)) (parent : W64) : List (Node × W64) :=
  match blocks with
  | [] => []
  | b :: r =>
    let h := d.blockHash tree parent b
    match d.findNode tree h with
    | some n => if n.slot = slot ∧ n.gen = gen ∧ n.partition = p then (n, h) :: d.matchBlocks tree p slot gen r h else []
    | none => []

/-- KV_INDEX_REBUILD: rebuild_ticks ticks after the last start the shadow index of a partition takes its most recently used nodes, 2,048
for each region; it waits for the tick (R297, R301). -/
def Dev.rebuildIndex (d : Dev) (p : Nat) : Dev :=
  let v := d.part p
  let due := match v.rebuildTick with | some t => decide (t + d.kv.rebuildTicks ≤ d.tick) | none => true
  if !due || v.rebuildDue.isSome || d.coreOut 3 then d
  else
    let cap := 2048 * d.partR p
    let ns := d.treeNodes p
    let keep := (ns.filter (fun n => decide ((ns.filter (fun x => decide (d.nodeAge x < d.nodeAge n))).length < cap))).take cap
    let d1 := { d with kv := { d.kv with nodes := d.kv.nodes.map (fun (n : Node) => if n.partition = p then { n with shadow := keep.contains n } else n) } }
    d1.modPart p (fun v => { v with rebuildTick := some d.tick, rebuildDue := some (d.tick + 1) })

/-- The shadow index becomes the active one at the tick (R297). -/
def Dev.swapIndex (d : Dev) (p : Nat) : Dev :=
  match (d.part p).rebuildDue with
  | none => d
  | some t =>
    let d1 := { d with kv := { d.kv with nodes := d.kv.nodes.map (fun (n : Node) => if n.partition = p then { n with indexed := n.shadow, shadow := n.indexed } else n) } }
    (d1.modPart p (fun v => { v with rebuildDue := none })).deferred 3 0xFF t

/-- Whether a page list belongs only to full blocks: no sequence holds it at or beyond its tail (R298). -/
def Dev.listFull (d : Dev) (li : Nat) : Bool :=
  d.tok.seqs.all (fun e => match e.2 with
    | some q => (q.blocks.all (fun b => decide (b.2 ≠ some li) || decide (64 * (b.1 + 1) ≤ q.tail)))
        && (q.draftBlocks.all (fun b => decide (b.2 ≠ some li) || decide (64 * (b.1 + 1) ≤ q.draftTail)))
    | none => true)

/-- Granules free in chunks that hold some object. -/
def Dev.partlyFree (d : Dev) (p : Nat) : Nat :=
  (d.usedChunks p).length * 512 - ((d.kvObjects p).map (fun o => o.1.2)).sum

/-- The model whose pages a list holds: that of a sequence or of a node that names it. -/
def Dev.listManifest (d : Dev) (li : Nat) : Option Manifest :=
  match d.tok.seqs.findSome? (fun e => e.2.bind (fun q =>
    if q.blocks.any (fun b => decide (b.2 = some li)) then some (d.seqManifest q false)
    else if q.draftBlocks.any (fun b => decide (b.2 = some li)) then some (d.seqManifest q true) else none)) with
  | some m => some m
  | none => (d.kv.nodes.find? (fun n => decide (n.list = li))).map (fun n => d.manifest (slotNo n.partition n.slot) n.gen)

/-- A page gets a second place, with its keys and values and its scales; none where it cannot be read. -/
def Dev.twinPage (d : Dev) (m : Manifest) (i g : Nat) : Dev × Option Nat :=
  match d.kvPage i with
  | none => (d, none)
  | some pg =>
    match d.copyPage m pg { pg with granule := g } 64 with
    | (d1, some _) => (d1, none)
    | (d1, none) =>
      let n := d1.kv.nextId
      let d2 := d1.putPage n (some { pg with granule := g, spare := true })
      ({ d2 with kv := { d2.kv with nextId := n + 1 } }, some n)

/-- KV_COMPACTION: pages of full blocks in partly used chunks are copied to empty whole chunks, and their numbers go to the inactive copies
of their lists, which wait for the tick (R298). -/
def Dev.compact (d : Dev) (p : Nat) : Dev :=
  if d.kv.compactEighths = 0 ∨ 8 * d.partlyFree p ≤ d.kv.compactEighths * d.kvChunks p * 512 ∨ d.coreOut 3 ∨ (d.part p).compactDue.isSome
      ∨ d.kv.retired.any (fun x => decide (x.1 = p)) then d
  else
    let room (c : Nat) : Bool := decide ((((d.kvObjects p).filter (fun o => decide (o.2 / 512 = c))).map (fun o => o.1.2)).sum < 512)
    let lists := d.kv.lists.filterMap (fun e => e.2.bind (fun l => if l.partition = p && d.listFull e.1 then (d.listManifest e.1).map (fun m => (e.1, l, m)) else none))
    let pages := (lists.map (fun e => e.2.1.pages.filterMap (fun x => x.2.bind (fun i => (d.kvPage i).bind (fun g =>
      if room (g.granule / 512) then some (i, g.count, e.2.2) else none))))).flatten
    let sizes := (pages.map (fun x => x.2.1)).eraseDups
    -- the second place of each page moved, by the page's number
    let out := sizes.foldl (fun (s : Dev × List (Nat × Nat)) c =>
      let mine := pages.filter (fun x => decide (x.2.1 = c))
      let per := 512 / c
      let chunks := takeFree (s.1.usedChunks p) 0 (min (s.1.kvFreeChunks p) (cdiv mine.length per)) (s.1.kvChunks p)
      let places := (chunks.map (fun k => (List.range per).map (fun i => k * 512 + i * c))).flatten
      (mine.zip places).foldl (fun s x =>
        match s.1.twinPage x.1.2.2 x.1.1 x.2 with
        | (d1, some n) => (d1, s.2 ++ [(x.1.1, n)])
        | (d1, none) => (d1, s.2)) s) (d, [])
    let twin (i : Nat) : Nat := ((out.2.find? (fun x => decide (x.1 = i))).map (fun x => x.2)).getD i
    let d1 := lists.foldl (fun d e =>
      if e.2.1.pages.any (fun x => match x.2 with | some i => decide (twin i ≠ i) | none => false) then
        d.putList e.1 (some { e.2.1 with other := e.2.1.pages.map (fun x => (x.1, x.2.map twin)), built := true })
      else d) out.1
    d1.modPart p (fun v => { v with compactDue := some (d.tick + 1) })

/-- The rebuilt lists of a partition flip together at the tick; the old pages go with the last step that began before it (R298). -/
def Dev.flipLists (d : Dev) (p : Nat) : Dev :=
  match (d.part p).compactDue with
  | none => d
  | some t =>
    let mine := d.kv.lists.filterMap (fun e => e.2.bind (fun l => if l.partition = p && l.built then some (e.1, l) else none))
    let ids (x : Tbl (Option Nat)) : List Nat := x.filterMap (fun y => y.2)
    let old := (mine.map (fun e => (ids e.2.pages).filter (fun i => !(ids e.2.other).contains i))).flatten
    let new := (mine.map (fun e => (ids e.2.other).filter (fun i => !(ids e.2.pages).contains i))).flatten
    let d1 := mine.foldl (fun d e => d.putList e.1 (some { e.2 with pages := e.2.other, other := e.2.pages, sel := !e.2.sel, built := false, flipAt := d.time })) d
    let d2 := (old ++ new).foldl (fun d i => match d.kvPage i with | some g => d.putPage i (some { g with spare := old.contains i }) | none => d) d1
    let d3 : Dev := { d2 with kv := { d2.kv with retired := d2.kv.retired ++ [(p, old, d.time)] } }
    ((d3.modPart p (fun v => { v with compactDue := none })).freeRetired).deferred 3 0xFF t

/-- What the tick does to the KV caches: rebuilt indexes are swapped in and rebuilt lists flip; both wait for CC3 (R30, R297, R298, R449). -/
def Dev.kvTick (d : Dev) : Dev :=
  if d.coreOut 3 then d
  else ((List.range 16).filter d.cfg.partOn).foldl (fun d p => (d.swapIndex p).flipLists p) d.freeRetired

end Sys2Proof.Machine
end

