-- ==== Sys2Proof/Machine/Net.lean ====
section
/-! DEFINITION. Frames on the Ethernet ports and the media clock (R386, R527, R531). -/
namespace Sys2Proof.Machine
open Sys2Proof

/-- PTP time: data-plane time and the offset of the servo (R70). -/
def Dev.ptpTime (d : Dev) : W64 := d.time + d.ptp.offset
/-- Index of the PTP audio domain; TRK_0 until the PTP track has been valid (R386). -/
def Dev.mediaIndex (d : Dev) : Nat := (if d.aud.ptpEver then d.ptpTime.toNat else d.time.toNat) * 48000 / 1000000000

/-- Bytes of a number, most significant first. -/
def beBytes (n v : Nat) : List B8 := (leBytes n v).reverse

/-- Ones' complement sum of 16-bit words. -/
def sum16 : List B8 → Nat
  | a :: b :: r => 256 * a.toNat + b.toNat + sum16 r
  | [a] => 256 * a.toNat
  | [] => 0
def checksum (l : List B8) : Nat :=
  let s := sum16 l
  let s1 := s % 65536 + s / 65536
  65535 - (s1 % 65536 + s1 / 65536)

/-- Gateway and prefix length of a port (R532). -/
def Cfg.ethGateway (c : Cfg) (p : Nat) : Nat := beNat (c.bytes 7 (64 * p + 16) 4)
def Cfg.ethPrefix (c : Cfg) (p : Nat) : Nat := c.u8 7 (64 * p + 3)

/-- The next hop to a destination: itself on the port's own network, else the gateway; 0 is none. -/
def Dev.hopFor (d : Dev) (p : Nat) (dst : List B8) : Nat :=
  let a := beNat dst
  let sh := 32 - d.cfg.ethPrefix p
  if a / 2 ^ sh = beNat (d.cfg.ethIp p) / 2 ^ sh then a else d.cfg.ethGateway p
/-- Link-layer address for a destination: the multicast one, or that of the next hop as ARP resolved it. -/
def Dev.macFor (d : Dev) (p : Nat) (dst : List B8) : List B8 :=
  let a := beNat dst
  if a / 268435456 = 14 then beBytes 6 (0x01005E000000 + a % 8388608)
  else beBytes 6 ((d.ethPort p).arp.get (d.hopFor p dst) 0).toNat

/-- An Ethernet frame with an IPv4 packet. -/
def Dev.ipFrame (d : Dev) (p proto tos ttl : Nat) (dst : List B8) (body : List B8) : List B8 :=
  let h1 := [BitVec.ofNat 8 0x45, BitVec.ofNat 8 tos] ++ beBytes 2 (20 + body.length) ++ beBytes 4 0x00004000 ++ [BitVec.ofNat 8 ttl, BitVec.ofNat 8 proto]
  let h2 := d.cfg.ethIp p ++ dst
  let tag := if d.cfg.ethVlanOn p then beBytes 2 0x8100 ++ beBytes 2 (d.cfg.ethVlan p) else []
  d.macFor p dst ++ d.cfg.ethMac p ++ tag ++ beBytes 2 0x0800 ++ h1 ++ beBytes 2 (checksum (h1 ++ h2)) ++ h2 ++ body
/-- A UDP datagram without checksum. -/
def udpBody (src dst : Nat) (l : List B8) : List B8 := beBytes 2 src ++ beBytes 2 dst ++ beBytes 2 (8 + l.length) ++ beBytes 2 0 ++ l

/-- Hands a frame to a port's transmitter. -/
def Dev.send (d : Dev) (p : Nat) (f : List B8) : Dev := d.modEth p (fun v => { v with tx := v.tx ++ [f] })

/-- An ARP request for an address (R527). -/
def Dev.arpRequest (d : Dev) (p hop : Nat) : List B8 :=
  let tag := if d.cfg.ethVlanOn p then beBytes 2 0x8100 ++ beBytes 2 (d.cfg.ethVlan p) else []
  List.replicate 6 0xFF ++ d.cfg.ethMac p ++ tag ++ beBytes 2 0x0806 ++ beBytes 2 1 ++ beBytes 2 0x0800 ++ [6, 4] ++ beBytes 2 1
    ++ d.cfg.ethMac p ++ d.cfg.ethIp p ++ List.replicate 6 0 ++ beBytes 4 hop

/-- Sends an IPv4 packet; one whose next hop is not resolved waits, and ARP asks for the hop; one without a next hop is not sent (R527). -/
def Dev.sendIp (d : Dev) (p proto tos ttl : Nat) (dst body : List B8) : Dev :=
  let f := d.ipFrame p proto tos ttl dst body
  let hop := d.hopFor p dst
  if beNat dst / 268435456 = 14 ∨ (d.ethPort p).arp.get hop 0 ≠ 0 then d.send p f
  else if hop = 0 then d
  else
    let asked := (d.ethPort p).waiting.any (fun x => decide (x.1 = hop))
    let d1 := d.modEth p (fun v => { v with waiting := v.waiting ++ [(hop, f.drop 6)] })
    if asked then d1 else d1.send p (d.arpRequest p hop)
/-- ARP resolves an address: what waits for it is sent. -/
def EthPort.resolve (v : EthPort) (hop : Nat) (mac : List B8) : EthPort :=
  { v with arp := v.arp.set hop (BitVec.ofNat 64 (beNat mac))
           waiting := v.waiting.filter (fun x => decide (x.1 ≠ hop))
           tx := v.tx ++ (v.waiting.filter (fun x => decide (x.1 = hop))).map (fun x => mac ++ x.2) }

/-- One RTP packet of a stream: sequence ID, index of the first token, tokens, end flag and reason (R531); a packet that finds its
port down is dropped and counted. -/
def Dev.rtpPacket (d : Dev) (s id index : Nat) (toks : List Nat) (ended : Bool) (reason : Nat) : Dev :=
  let p := d.cfg.rtpPort s
  if !(d.ethPort p).up then d.modRtp s (fun v => { v with drop := true, dropCnt := satInc v.dropCnt })
  else
    let v := d.rtpSt s
    let hdr := [BitVec.ofNat 8 0x80, BitVec.ofNat 8 (d.cfg.rtpPt s)] ++ beBytes 2 v.seq.toNat ++ beBytes 4 (d.mediaIndex % 4294967296) ++ beBytes 4 (d.cfg.rtpSsrc s)
    let pay := leBytes 4 id ++ leBytes 4 index ++ leBytes 2 toks.length ++ leBytes 1 ((if ended then 1 else 0) + 2 * reason) ++ leBytes 5 0
    let body := udpBody (d.cfg.rtpUdp s) (d.cfg.rtpUdp s) (hdr ++ pay ++ (toks.map (leBytes 4)).flatten)
    (d.sendIp p 17 (4 * d.cfg.rtpDscp s) 64 (d.cfg.rtpDest s) body).modRtp s (fun v => { v with seq := v.seq + 1, packets := v.packets + 1 })

/-- The packets of one commit: at most 256 tokens each. -/
def Dev.rtpSend (d : Dev) (s id index : Nat) (toks : List Nat) (ended : Bool) (reason : Nat) : Dev :=
  let ch := if toks.isEmpty then [[]] else chunksOf 256 toks (toks.length + 1)
  (ch.mapIdx (fun i l => (i, l))).foldl (fun d x =>
    d.rtpPacket s id (index + 256 * x.1) x.2 (ended && decide (x.1 + 1 = ch.length)) (if ended && decide (x.1 + 1 = ch.length) then reason else 0)) d

end Sys2Proof.Machine
end

