-- ==== Sys2Proof/Machine/Token.lean ====
section
/-! DEFINITION. Token serving: sequences and their ends, page exhaustion, batches, sampling, speculation, pause images (10_token_serving.md). -/
namespace Sys2Proof.Machine
open Sys2Proof

/-! ## Request fields (R309) -/

def Seq.prefillOnly (q : Seq) : Bool := q.req.getLsbD 32
def Seq.countPrompt (q : Seq) : Bool := q.req.getLsbD 33
def Seq.noShare (q : Seq) : Bool := q.req.getLsbD 34
def Seq.pauseNvme (q : Seq) : Bool := q.req.getLsbD 35
def Seq.rtpOn (q : Seq) : Bool := q.req.getLsbD 36
def Seq.hasDraft (q : Seq) : Bool := decide (bytesAt q.req 1 1 < 8)
def Seq.draftLen (q : Seq) : Nat := bytesAt q.req 2 1
def Seq.prio (q : Seq) : Nat := bytesAt q.req 3 1
def Seq.adapter (q : Seq) : Nat := bytesAt q.req 6 1
def Seq.rtpStream (q : Seq) : Nat := bytesAt q.req 7 1
def Seq.promptAddr (q : Seq) : Nat := bytesAt q.req 8 8
def Seq.promptLen (q : Seq) : Nat := bytesAt q.req 0x10 4
/-- Prefill is complete: both models' where a draft is named (R313). -/
def Seq.promptDone (q : Seq) : Bool := decide (q.promptLen ≤ q.tail) && (!q.hasDraft || decide (q.promptLen ≤ q.draftTail))
def Seq.maxNew (q : Seq) : Nat := bytesAt q.req 0x14 4
def Seq.outAddr (q : Seq) : Nat := bytesAt q.req 0x18 8
def Seq.outCap (q : Seq) : Nat := bytesAt q.req 0x20 4
def Seq.notifyEvery (q : Seq) : Nat := bytesAt q.req 0x24 2
def Seq.minNew (q : Seq) : Nat := bytesAt q.req 0x26 2
def Seq.temperature (q : Seq) : F32 := BitVec.ofNat 32 (bytesAt q.req 0x28 4)
def Seq.topP (q : Seq) : F32 := BitVec.ofNat 32 (bytesAt q.req 0x2C 4)
def Seq.topK (q : Seq) : Nat := bytesAt q.req 0x30 2
def Seq.repPenalty (q : Seq) : F32 := BitVec.ofNat 32 (bytesAt q.req 0x34 4)
def Seq.presence (q : Seq) : F32 := BitVec.ofNat 32 (bytesAt q.req 0x38 4)
def Seq.frequency (q : Seq) : F32 := BitVec.ofNat 32 (bytesAt q.req 0x3C 4)
def Seq.seed (q : Seq) : W64 := BitVec.ofNat 64 (bytesAt q.req 0x40 8)

/-- Live sequences with their record numbers. -/
def Dev.live (d : Dev) : List (Nat × Seq) :=
  d.tok.seqs.filterMap (fun e => match e.2 with | some q => if q.state = 8 then none else some (e.1, q) | none => none)
def Dev.partLive (d : Dev) (p : Nat) : List (Nat × Seq) := d.live.filter (fun e => decide (e.2.partition = p))

/-! ## Entries and the end of a sequence (R314, R315) -/

/-- Result word of a sequence. -/
def Seq.word (q : Seq) : W64 :=
  BitVec.ofNat 64 (q.id + q.state * 2 ^ 32 + (if q.state = 8 then q.endReason else 0) * 2 ^ 36 + min q.outCount 0x7FFFFF * 2 ^ 40 + (if q.countSat then 2 ^ 63 else 0))
/-- Queue of the REQUEST. -/
def Seq.qk (q : Seq) : Nat := qkey q.tenant q.engine q.queue
def Dev.seqEntry (d : Dev) (q : Seq) : Dev :=
  d.emit q.qk { subTag := q.subTag, status := if q.state = 8 then q.endStatus else 0, kind := 3, result := q.word }

/-- Frees the image of a sequence. -/
def Dev.dropImage (d : Dev) (r : Nat) : Dev :=
  match d.seq r with
  | none => d
  | some q => match q.image with
    | none => d
    | some im => (im.objs.foldl (fun d i => d.freePage i) d).modSeq r (fun v => { v with image := none })

/-- SEQ_CTLs that waited complete with the sequence's word. -/
def Dev.ctlDone (d : Dev) (qs : List Nat) (q : Seq) : Dev := qs.foldl (fun d k => d.finish k q.word) d

/-- SEQ_CTLs that waited fail, and the sequence is left in state `st`. -/
def Dev.ctlFail (d : Dev) (r st : Nat) (qs : List Nat) (f : Fail) : Dev :=
  qs.foldl (fun d k => d.failDisp k f) (d.modSeq r (fun v => { v with state := st, pausePend := false }))

/-- An ended sequence whose entry finds room gives up its pages, references, image and pins, and its record (R126, R313, R331). -/
def Dev.finishEnd (d : Dev) (r : Nat) : Dev :=
  match d.seq r with
  | none => d
  | some q =>
    if q.state ≠ 8 ∨ 1024 ≤ (d.que q.qk).fifo.length then d
    else
      let d1 := ((d.seqEntry q).dropImage r).dropBlocks r false |>.dropBlocks r true
      let d2 := d1.unpin (slotNo q.partition (q.slotOf false)) q.gen
      let d3 := if q.hasDraft then d2.unpin (slotNo q.partition (q.slotOf true)) q.draftGen else d2
      { d3 with tok := { d3.tok with seqs := d3.tok.seqs.filter (fun e => decide (e.1 ≠ r)) } }

/-- A sequence ends with a reason; reasons 5 to 9 are recorded. -/
def Dev.endSeq (d : Dev) (r reason : Nat) (status : B8) (detail : W32) : Dev :=
  match d.seq r with
  | none => d
  | some q =>
    if q.state = 8 then d
    else
      let d1 := if 5 ≤ reason then
          d.record { time := d.time, tenant := q.tenant, status := status, unit := dispatcher q.partition, detail := detail, address := q.id, space := 3,
                     partition := q.partition, queue := q.engine + 4 * q.queue + 0x80, index := 0xFFFF, subTag := q.subTag }
        else d
      let v : Seq := { q with state := 8, endReason := reason, endStatus := status, endDetail := detail }
      ((d1.putSeq r (some v)).ctlDone (q.pausers ++ q.resumers) v).finishEnd r

/-- Ended sequences that waited for room in their FIFO. -/
def Dev.flushEnded (d : Dev) : Dev := d.tok.seqs.foldl (fun d e => d.finishEnd e.1) d

/-- Sequences whose pinned generation is degraded end, but for members of the running batch (R250, R338). -/
def Dev.endDegraded (d : Dev) : Dev :=
  d.live.foldl (fun d e =>
    let bad (s g : Nat) : Bool := match (d.slot (slotNo e.2.partition s)).gens.find? (fun x => decide (x.number = g)) with | some x => x.degraded | none => false
    if decide (e.2.state ≠ 1) && (bad (e.2.slotOf false) e.2.gen || (e.2.hasDraft && bad (e.2.slotOf true) e.2.draftGen)) then
      d.endSeq e.1 6 0x10 (detailOf 0xCB 0)
    else d) d

/-! ## Images (R328) -/

/-- Bytes of an image with its leading granules of tags. -/
def imageTotal (n : Nat) : Nat := let g := cdiv n 4096; (g + cdiv (16 * g) 4096) * 4096

/-- The private pages of one model of a sequence: block, entry, page. -/
def Dev.privatePages (d : Dev) (q : Seq) (draft : Bool) : List (Nat × Nat × Nat) :=
  ((if draft then q.draftBlocks else q.blocks).map (fun b => match b.2 with
    | none => []
    | some li => match d.kvList li with
      | some l => if 1 < l.refs then [] else l.pages.filterMap (fun x => x.2.map (fun pi => (b.1, x.1, pi)))
      | none => [])).flatten

/-- The pages of a sequence as an image keeps them, and the bytes they take. -/
def Dev.imagePages (d : Dev) (q : Seq) : List (Nat × Nat × Nat × Page × List B8) × Nat :=
  let take (draft : Bool) : List ((Nat × Nat × Nat × Page × List B8) × Nat) := (d.privatePages q draft).filterMap (fun x => (d.kvPage x.2.2).map (fun g =>
    let m := d.seqManifest q draft
    let b := d.mem.phys.read (d.granuleDpa g.partition g.granule) (pageKeyBytes m + pageValBytes m)
    ((x.1, (if draft then 1 else 0), x.2.1, g, b), imageBytes m b)))
  let all := take false ++ (if q.hasDraft then take true else [])
  (all.map (fun x => x.1), (all.map (fun x => x.2)).sum)

/-- NVMe copies of a party, and copies on a drive: places that can be freed (R212). -/
def Dev.ownCopies (d : Dev) (owner : Nat) : Nat := (d.mapped.filter (fun e => decide (e.2.owner = owner) && decide (e.2.tier = 0) && e.2.nvmeCopy)).length
def Dev.copiesOn (d : Dev) (drv : Nat) : Nat := (d.mapped.filter (fun e => decide (e.2.tier = 0) && e.2.nvmeCopy && decide (driveOf e.2.copyFrame = drv))).length
/-- Whether `n` places fit a tenant's limit and the tier once what can be freed is freed (R212), and whether an NVMe tier is present. -/
def Dev.nvmeFits (d : Dev) (owner n : Nat) : Bool :=
  decide (d.nvmePlaces owner - d.ownCopies owner + n ≤ d.cfg.tenQuotaMib owner * 64) &&
  [0, 1].any (fun k => (d.mem.nvmePresent).getLsbD k && decide (n ≤ d.nvmeFree k + d.cachePlaces k + d.copiesOn k))
def Dev.hasNvme (d : Dev) : Bool := decide (d.mem.nvmePresent ≠ 0)

/-- The pages an image copied are freed: their entries leave the lists, and a list left empty is dropped. -/
def Dev.freeCopied (d : Dev) (r : Nat) (draft : Bool) : Dev :=
  match d.seq r with
  | none => d
  | some q =>
    (if draft then q.draftBlocks else q.blocks).foldl (fun d b => match b.2 with
      | none => d
      | some li => match d.kvList li with
        | some l => if 1 < l.refs then d else (d.dropList li).modSeq r (fun v => v.setBlock draft b.1 none)
        | none => d) d

/-- What became of an image to be written: it is made, neither tier has room, or its drive failed twice. -/
inductive ImageEnd where
  | made
  | noRoom
  | driveFailed
deriving DecidableEq, Repr

/-- Room for `n` places of a party in the NVMe tier: its own copies go first where its limit asks, then what R212 frees. -/
def Dev.imageRoom (d : Dev) (owner n : Nat) : Dev :=
  let d1 := d.dropOwn owner n (d.mem.tiles.length + 1)
  d1.nvmeMake n (d1.mdl.cache.length + d1.mem.tiles.length + 1)

/-- The pages of a sequence that its image holds are freed. -/
def Dev.freeImaged (d : Dev) (r : Nat) : Dev := (d.freeCopied r false).freeCopied r true

/-- `n` page objects of the pool for an image, where the pool and the quota have them (R328). -/
def Dev.imageObjs (d : Dev) (q : Seq) (n : Nat) : Dev × Option (List Nat) :=
  (List.range n).foldl (fun st _ =>
    match st with
    | (d', none) => (d', none)
    | (d', some l) => match d'.newPage q.partition q.tenant (q.slotOf false) (pageGranules (d.seqManifest q false)) with
      | (d'', .ok i) => (d'', some (l ++ [i]))
      | (_, .error _) => (d, none)) (d, some [])

/-- Makes the image of a sequence on a tier and then frees what it copied; where it is not made nothing is freed (R328). -/
def Dev.makeImage (d : Dev) (r : Nat) (nvme : Bool) : Dev × ImageEnd :=
  match d.seq r with
  | none => (d, .noRoom)
  | some q =>
    let x := d.imagePages q
    let total := imageTotal x.2
    let order := ((d.live.map (fun e => match e.2.image with | some im => im.order + 1 | none => 0)).foldl max 0)
    match (if nvme then (d, none) else d.imageObjs q (cdiv total (4096 * max 1 (pageGranules (d.seqManifest q false))))) with
    | (d1, some objs) =>
      ((d1.freeImaged r).modSeq r (fun v => { v with image := some { objs := objs, places := objs.length, pages := x.1, order := order } }), .made)
    | (_, none) =>
      let n := cdiv total tileSize
      if d.hasNvme && d.nvmeFits q.tenant n then
        let d2 := d.imageRoom q.tenant n
        match d2.driveUse d2.nvmeDrive with
        | (d3, true) =>
          ((d3.freeImaged r).modSeq r (fun v => { v with image := some { nvme := true, drive := d3.nvmeDrive, places := n, pages := x.1, order := order } }), .made)
        | (d3, false) => ({ d with mem := { d.mem with nvmeFail := d3.mem.nvmeFail, nvmeRetry := d3.mem.nvmeRetry } }, .driveFailed)
      else (d, .noRoom)

/-- Moves an image from the pool to the NVMe tier (R333 step 2); one whose drive fails twice stays where it is (R213). -/
def Dev.imageDown (d : Dev) (r : Nat) : Dev :=
  match d.seq r with
  | none => d
  | some q => match q.image with
    | none => d
    | some im =>
      let m := d.seqManifest q false
      let n := cdiv (im.objs.length * pageGranules m * 4096) tileSize
      let d1 := d.imageRoom q.tenant n
      match d1.driveUse d1.nvmeDrive with
      | (d2, true) => (im.objs.foldl (fun d i => d.freePage i) d2).modSeq r (fun v => { v with image := some { im with nvme := true, drive := d1.nvmeDrive, places := n, objs := [] } })
      | (d2, false) => d2

/-! ## When pages run out (R332-R334) -/

/-- Ranks below: a lower priority, or at equal priority a later admission. -/
def Seq.below (a b : Seq) : Bool := decide (a.prio < b.prio) || (decide (a.prio = b.prio) && decide (b.admitted.toNat < a.admitted.toNat))

/-- The lowest-ranked of a list. -/
def lowest (l : List (Nat × Seq)) : Option (Nat × Seq) :=
  l.foldl (fun b x => match b with | none => some x | some y => if x.2.below y.2 then some x else some y) none

/-- One unit of relief for a grower: a node reclaimed, an image moved down, or a victim whose image is to be written. -/
inductive Relief where
  | done (d : Dev)
  | wait (d : Dev)
  | none

def Dev.relieve (d : Dev) (r : Nat) : Relief :=
  match d.seq r with
  | .none => .none
  | some q =>
    let p := q.partition
    let free := (d.treeNodes p).filter (fun n => match d.kvList n.list with | some l => decide (l.refs = 1) | .none => false)
    match free.foldl (fun (b : Option Node) x => match b with | .none => some x | some y => if d.nodeAge y < d.nodeAge x then some x else some y) .none with
    | some n => .done (d.removeNodes [n])
    | .none =>
      if !d.hasNvme then .none
      else
        let imgs := (d.partLive p).filter (fun e => decide (e.2.state = 5) && (match e.2.image with | some im => !im.nvme && d.nvmeFits e.2.tenant (cdiv (im.objs.length * pageGranules (d.seqManifest e.2 false) * 4096) tileSize) | .none => false))
        let ord (e : Nat × Seq) : Nat := match e.2.image with | some im => im.order | .none => 0
        match imgs.foldl (fun (b : Option (Nat × Seq)) x => match b with | .none => some x | some y => if ord x < ord y then some x else some y) .none with
        | some e => .done (d.imageDown e.1)
        | .none =>
          if (d.partLive p).any (fun e => match e.2.image with | some im => im.writing | .none => false) then .wait d
          else
            let victims := (d.partLive p).filter (fun e =>
              (decide (e.2.state = 0) || decide (e.2.state = 7)) && e.2.heldBy.isNone && !e.2.pausePend && e.2.image.isNone && e.2.below q
                && !(d.privatePages e.2 false ++ d.privatePages e.2 true).isEmpty && d.nvmeFits e.2.tenant (cdiv (imageTotal (d.imagePages e.2).2) tileSize))
            match lowest victims with
            | some e => .wait (d.modSeq e.1 (fun v => { v with image := some { writing := true } }))
            | .none => .none

/-- What growing a sequence came to. -/
inductive Grown where
  | ok (d : Dev)
  | out (d : Dev)

/-- Pages that an allocation for positions `a` to `b - 1` has to take: those its private lists lack, and whole lists for blocks that have
none or share theirs (R266, R287). -/
def Dev.lacking (d : Dev) (q : Seq) (draft : Bool) (a b : Nat) : Nat :=
  let m := d.seqManifest q draft
  let n := attLayers m * attHeads m
  (((List.range (cdiv b 64)).filter (fun k => decide (a < 64 * (k + 1)))).map (fun k =>
    match (q.block draft k).bind d.kvList with
    | some l => if 1 < l.refs then n else n - (l.pages.filter (fun e => e.2.isSome)).length
    | none => n)).sum

/-- `n` more pages of an owner would exceed its quota (R332). -/
def Dev.overQuota (d : Dev) (owner n : Nat) : Bool := decide (owner < 64) && decide (n ≠ 0) && decide (d.cfg.tenKvQuota owner < d.kvHeld owner + n)

/-- Private pages for positions `a` to `b - 1` of every layer and head; the quota of the owner is checked for all of them first (R332). -/
def Dev.ensureRange (d : Dev) (r : Nat) (draft : Bool) (a b : Nat) : Dev × Option Fail :=
  match d.seq r with
  | none => (d, none)
  | some q =>
    let m := d.seqManifest q draft
    let n := attLayers m * attHeads m
    let blocks := (List.range (cdiv b 64)).filter (fun k => decide (a < 64 * (k + 1)))
    if d.overQuota q.tenant (d.lacking q draft a b) then (d, some kvNoQuota)
    else blocks.foldl (fun st k => (List.range n).foldl (fun st ix =>
      match st with
      | (d, some e) => (d, some e)
      | (d, none) => match d.ensurePage r draft k ix with
        | (d', .ok _) => (d', none)
        | (d', .error e) => (d', some e)) st) (d, none)

/-- A grower ends: at its owner's quota (R332), or where a page to copy cannot be read. -/
def Dev.endGrower (d : Dev) (r : Nat) (e : Fail) : Dev :=
  if e.code = kvNoQuota.code then d.endSeq r 5 0x07 (detailOf 0xE8 0) else d.endSeq r 8 e.status (detailOf e.code e.val)

/-- A grower that no step of R333 helped enters WAIT_PAGE; one that waits already goes on waiting (R333, R334). -/
def Dev.waitPage (d : Dev) (r : Nat) : Dev :=
  match d.seq r with
  | none => d
  | some q =>
    if q.state = 2 then d
    else
      let v : Seq := { q with state := 2, waitSince := d.time }
      (d.putSeq r (some v)).seqEntry v

/-- Allocation for a grower, with the steps of R333 until it succeeds, waits or ends. -/
def Dev.grow (d : Dev) (r : Nat) (draft : Bool) (a b : Nat) : Nat → Grown
  | 0 => .out d
  | fuel + 1 =>
    match d.ensureRange r draft a b with
    | (d1, none) => .ok d1
    | (d1, some e) =>
      if e.code = 0xD7 then
        match d1.relieve r with
        | .done d2 => d2.grow r draft a b fuel
        | .wait d2 => .out d2
        | .none => .out (d1.waitPage r)
      else .out (d1.endGrower r e)

def Dev.growFuel (d : Dev) : Nat := d.kv.nodes.length + 2 * d.tok.seqs.length + 2

/-! ## Sampling (R321, R322) -/

def negInf : F32 := 0xFF800000#32
/-- The draw for a position. -/
def drawU (seed : W64) (pos n : Nat) : F32 :=
  let h := Config.sipHash (BitVec.ofNat 128 seed.toNat) (leBytes 8 (pos * 16 + n))
  fmul (f32OfInt (h.toNat / 2 ^ 40)) 0x33800000#32

/-- A logit after the penalties. -/
def penalised (q : Seq) (ends : List Nat) (v : Nat) (x : F32) : F32 :=
  let z0 := if f32Nan x then negInf else x
  let c := (q.counts.find? (fun e => decide (e.1 = v))).map (fun e => e.2) |>.getD 0
  let z1 := if c = 0 then z0 else
    let z := if flt f32Zero z0 then fmul z0 (fdiv f32One q.repPenalty) else fmul z0 q.repPenalty
    fsub (fsub z q.presence) (fmul q.frequency (f32OfInt c))
  if q.outCount < q.minNew ∧ ends.contains v then negInf else z1

/-- The shortest prefix whose sum reaches `t`: its length. -/
def prefixLen (e : List F32) (t : F32) : Nat :=
  let sums := (e.foldl (fun (s : List F32 × F32) x => let y := fadd s.2 x; (s.1 ++ [y], y)) ([], f32Zero)).1
  match sums.findIdx? (fun s => !flt s t) with
  | some i => i + 1
  | none => e.length

/-- The token chosen for a row of logits at a position, none where no logit is finite. -/
def Seq.choose (q : Seq) (ends : List Nat) (logits : List F32) (pos : Nat) : Option Nat :=
  let y := logits.mapIdx (fun v x => (v, penalised q ends v x))
  if y.all (fun x => f32Special x.2) then none
  else if q.temperature = f32Zero ∨ q.temperature = 0x80000000#32 then (vecTopk 1 y).head?.map (fun x => x.1)
  else
    let it := fdiv f32One q.temperature
    let c := vecTopk (if q.topK = 0 then 1024 else q.topK) (y.map (fun x => (x.1, if x.2 = negInf then negInf else fmul x.2 it)))
    let c0 := (c.headD (0, f32Zero)).2
    let e := c.map (fun x => if x.2 = negInf then f32Zero else fexp (fsub x.2 c0))
    let s := e.foldl fadd f32Zero
    let j := prefixLen e (fmul q.topP s)
    let kept := e.take j
    let t := fmul (drawU q.seed pos 0) (kept.foldl fadd f32Zero)
    let i := prefixLen kept t - 1
    (c.drop (min i (j - 1))).head?.map (fun x => x.1)

/-! ## Counting and committing (R320, R323) -/

/-- A token is counted: in its entry, a free one, or nowhere when the table is full. -/
def Seq.countTok (q : Seq) (t : Nat) : Seq :=
  match q.counts.find? (fun e => decide (e.1 = t)) with
  | some _ => { q with counts := q.counts.map (fun e => if e.1 = t then (e.1, min 65535 (e.2 + 1)) else e) }
  | none => if q.counts.length < 4096 then { q with counts := q.counts ++ [(t, 1)] } else { q with countSat := true }

/-- Tokens are counted; the flag is set the first time a table fills for a sequence. -/
def Dev.countToks (d : Dev) (r : Nat) (l : List Nat) : Dev :=
  match d.seq r with
  | none => d
  | some q =>
    let q1 := l.foldl Seq.countTok q
    let d1 := d.putSeq r (some q1)
    if q1.countSat && !q.countSat then
      { d1 with tok := { d1.tok with flags := d1.tok.flags ||| 1, countSatCnt := satInc d1.tok.countSatCnt } }
    else d1

/-- End tokens of a model. -/
def endTokens (m : Manifest) : List Nat := (List.range (srvEndCount m)).map (srvEndToken m)

/-- One token is committed for a sequence: written, counted, its position recorded; one whose write is refused is not committed
(DESIGN CHOICE: the failure is the sequence's, as of a step of its batch). -/
def Dev.commitTok (d : Dev) (r t pos : Nat) : Dev × Option Fail :=
  match d.seq r with
  | none => (d, none)
  | some q =>
    match d.writeMem { party := q.tenant, part := q.partition } (q.outAddr + 4 * q.outCount) (leBytes 4 t) with
    | (d1, some e) => (d1, some e)
    | (d1, none) => ((d1.modSeq r (fun v => { v with outCount := v.outCount + 1, tokens := v.tokens.set pos t })).countToks r [t], none)

/-- The end reason that applies to a sequence after a commit: the lowest of 0 to 3. -/
def Seq.ending (q : Seq) (m : Manifest) (last : Option Nat) : Option Nat :=
  if (match last with | some t => (endTokens m).contains t | none => false) then some 0
  else if q.maxNew ≤ q.outCount then some 1
  else if q.outCap ≤ q.outCount then some 2
  else if attMaxPos m ≤ q.tail then some 3
  else none

/-- Block `b` of a sequence has become full: its hash goes to its entry, and a node is inserted for it (R292, R295). -/
def Dev.fillBlock (d : Dev) (r : Nat) (draft : Bool) (b : Nat) : Dev :=
  match d.seq r with
  | none => d
  | some q =>
    let slot := slotNo q.partition (q.slotOf draft)
    let g := if draft then q.draftGen else q.gen
    let root := d.rootHash slot g
    let tree := d.treeOf q.tenant
    let parent := if b = 0 then root else (q.hashOf draft (b - 1)).getD root
    let h := d.blockHash tree parent ((List.range 64).map (fun i => q.tokens.get (64 * b + i) 0))
    let d1 := d.modSeq r (fun v => v.setHash draft b h)
    if q.adapter < 8 then d1
    else match q.block draft b with
      | some li => d1.insertNode tree q.tenant q.partition (q.slotOf draft) g root parent h li
      | none => d1

/-- The blocks of a sequence that lie below its tail and were not full before become full, in order. -/
def Dev.fillBlocks (d : Dev) (r : Nat) (draft : Bool) : Dev :=
  match d.seq r with
  | none => d
  | some q =>
    let n := min (q.tailOf draft) (if draft then q.tail else q.tailOf draft) / 64
    ((List.range n).filter (fun b => (q.hashOf draft b).isNone)).foldl (fun d b => d.fillBlock r draft b) d

/-- After a commit: the end, or a return to the queue, with the entry and the packet that follow. -/
def Dev.settleSeq (d : Dev) (r : Nat) (m : Manifest) (before : Nat) (committed : List Nat) (next : Nat) : Dev :=
  match d.seq r with
  | none => d
  | some q =>
    let e := q.ending m committed.getLast?
    let d1 := if q.rtpOn && !committed.isEmpty then d.rtpSend q.rtpStream q.id before committed e.isSome (e.getD 0) else d
    match e with
    | some reason => d1.endSeq r reason 0 0
    | none =>
      if q.cancelPend then d1.endSeq r 4 0 0
      else
        let st := if q.pausePend then 4 else next
        let d2 := d1.modSeq r (fun v => { v with state := st, lastBatch := d.time })
        let crossed := decide (q.notifyEvery ≠ 0) && decide (before / q.notifyEvery < q.outCount / q.notifyEvery)
        match d2.seq r with
        | some v => if crossed || decide (next = 7) then d2.seqEntry v else d2
        | none => d2

/-! ## Speculation (R325, R326) -/

/-- Draft length for the round. -/
def Seq.roundK (q : Seq) (m : Manifest) : Nat :=
  let k := if !q.hasDraft then 0 else if q.suspended = 0 then q.k else if 65 ≤ q.suspended then 1 else 0
  min k (min (attMaxPos m - (q.tail + 1)) (q.maxNew - (q.outCount + 1)))

/-- How a round of `k` drafts with `a` accepted and `n` tokens committed adapts the draft length. -/
def Seq.adapt (q : Seq) (k a n : Nat) : Seq :=
  if k = 0 then { q with suspended := if q.suspended = 0 then 0 else q.suspended + n }
  else if 65 ≤ q.suspended then (if a = 1 then { q with suspended := 0, k := 1, rejects := 0, accepts := 0 } else { q with suspended := 1 })
  else if a = 0 then
    let n := q.rejects + 1
    if q.k ≥ 2 ∧ n = 4 then { q with k := q.k / 2, rejects := 0, accepts := 0 }
    else if q.k = 1 ∧ n = 8 then { q with suspended := 1, rejects := 0, accepts := 0 }
    else { q with rejects := n, accepts := 0 }
  else if a = k then
    if q.accepts + 1 = 4 then { q with k := min (2 * q.k) q.draftLen, accepts := 0, rejects := 0 }
    else { q with accepts := q.accepts + 1, rejects := 0 }
  else { q with rejects := 0, accepts := 0 }

/-! ## Forming a batch (R316-R319) -/

/-- The work a queued sequence waits for: batch kind, and whether it is the draft model's. -/
def Dev.workOf (d : Dev) (q : Seq) : Nat × Bool :=
  let m := d.seqManifest q false
  if q.tail < q.promptLen then (0, false)
  else if q.hasDraft && decide (q.draftTail < q.promptLen) then (0, true)
  else if decide (q.drafts.length < q.roundK m) then (2, true)
  else (1, false)

/-- Takes before: a higher priority, then the longer time since the last batch. -/
def Seq.before (a b : Seq) : Bool := decide (b.prio < a.prio) || (decide (a.prio = b.prio) && decide (a.lastBatch.toNat < b.lastBatch.toNat))
def insertRank (x : Nat × Seq) : List (Nat × Seq) → List (Nat × Seq)
  | [] => [x]
  | y :: r => if x.2.before y.2 then x :: y :: r else y :: insertRank x r
/-- Eligible sequences of a partition in rank order. -/
def Dev.ranked (d : Dev) (p : Nat) : List (Nat × Seq) :=
  ((d.partLive p).filter (fun e => decide (e.2.state = 0) && e.2.heldBy.isNone && e.2.scatterHold.isEmpty && e.2.image.isNone)).foldl (fun l e => insertRank e l) []

/-- What a sequence must share with a batch. -/
def Dev.groupOf (d : Dev) (q : Seq) : Nat × Bool × Nat × Nat × Nat :=
  let w := d.workOf q
  (w.1, w.2, q.slotOf w.2, (if w.2 then q.draftGen else q.gen), if w.2 then 255 else q.adapter)

/-- Members and rows that fit a batch. -/
def takeMembers (m : Manifest) (kind : Nat) (draft : Bool) (l : List (Nat × Seq)) : List (Nat × Nat × Nat) :=
  (l.foldl (fun (s : List (Nat × Nat × Nat) × Nat) e =>
    let room := srvBatchRows m - s.2
    let want := if kind = 0 then min (srvChunk m) (e.2.promptLen - e.2.tailOf draft) else if kind = 1 then e.2.drafts.length + 1 else 1
    let n := min want room
    if n = 0 then s else (s.1 ++ [(e.1, n, e.2.tailOf draft)], s.2 + n)) ([], 0)).1

/-- The input token of position `pos` of a sequence: a committed one, or a draft of the round. -/
def Seq.inputAt (q : Seq) (pos : Nat) : Nat := if pos ≤ q.tail then q.tokens.get pos 0 else q.drafts.getD (pos - q.tail - 1) 0

/-- Rows of the batch: sequence ID, position, token, logits. -/
def Dev.batchRows (d : Dev) (kind : Nat) (ms : List (Nat × Nat × Nat)) : List (Nat × Nat × Nat × Bool) :=
  (ms.map (fun x => match d.seq x.1 with
    | none => []
    | some q => (List.range x.2.1).map (fun i =>
      let pos := x.2.2 + i
      (q.id, pos, q.inputAt pos, if kind = 0 then !q.prefillOnly && decide (pos + 1 = q.promptLen) else true)))).flatten

/-- The item table: one item per member and KV head, round-robin over the clusters, rows from 0 on each (R319). -/
def Dev.batchItems (d : Dev) (m : Manifest) (kind : Nat) (ms : List (Nat × Nat × Nat)) (padTo : Nat) : List B8 :=
  let cls := (List.range 16).filter (fun k => (srvClusters m).testBit k)
  let pairs := (ms.map (fun x => (List.range (attHeads m)).map (fun h => (x, h)))).flatten
  let step (n : Nat) : Nat := cdiv (attGroup m * n) 16 * 16
  let bytes (id cl h n p pos row : Nat) : List B8 :=
    leBytes 4 id ++ leBytes 1 cl ++ leBytes 1 0xFF ++ leBytes 1 h ++ leBytes 1 0 ++ leBytes 2 n ++ leBytes 2 p ++ leBytes 4 pos ++ leBytes 4 row ++ leBytes 4 0 ++ leBytes 8 0
  let go := (pairs.mapIdx (fun i y => (i, y))).foldl (fun (s : List (List B8) × Tbl Nat) e =>
    let cl := cls.getD (e.1 % max 1 cls.length) 0
    let x := e.2.1
    let row := s.2.get cl 0
    let id := match d.seq x.1 with | some q => q.id | none => 0
    (s.1 ++ [bytes id cl e.2.2 x.2.1 (if kind = 0 then 0 else x.2.1) x.2.2 row], s.2.set cl (row + step x.2.1))) ([], [])
  let pad := match pairs.getLast? with
    | some y =>
      let cl := cls.getD ((pairs.length - 1) % max 1 cls.length) 0
      let id := match d.seq y.1.1 with | some q => q.id | none => 0
      List.replicate (padTo - pairs.length) (bytes id cl y.2 y.1.2.1 (if kind = 0 then 0 else y.1.2.1) y.1.2.2 (go.2.get cl 0))
    | none => []
  (go.1 ++ pad).flatten

/-- A 64-byte record from bytes. -/
def w512Of (l : List B8) : W512 := BitVec.ofNat 512 (leNat (l.take 64))

/-- How the engine reads and writes for a batch: its party is the one tenant of its members, else the slot's owner. -/
def Dev.batchView (d : Dev) (p slot g : Nat) (m : Manifest) (ms : List (Nat × Nat × Nat)) (w : Workspace) : View :=
  let ts := (ms.filterMap (fun x => (d.seq x.1).map (fun q => q.tenant))).eraseDups
  { party := (match ts with | [t] => t | _ => (d.slot (slotNo p slot)).owner), part := p, pin := some (slot, g),
    ws := if srvVocab m = 0 then none else some (windowBase slot + w.header, w.stop - w.header) }

/-- The program table of a model and its workspace. -/
def Dev.servingOf (d : Dev) (p slot g : Nat) (m : Manifest) : Dev × Except Fail (List ProgEntry × Workspace) :=
  let t := tensor m (srvTable m)
  let v : View := { party := (d.slot (slotNo p slot)).owner, part := p, pin := some (slot, g) }
  match Dev.blamed (d.tableRead v m 0 (srvTable m) 0 t.len) with
  | (d1, .error e) => (d1, .error e)
  | (d1, .ok b) =>
    let es := progEntries b
    (d1, .ok (es, workspace m (placeEnd m (d.partR p) (d.partD p)) ((es.map (fun e => e.items)).foldl max 0) (d.cfg.partSeqs p)))

/-- The program of an entry of the table. -/
def Dev.loadEntry (d : Dev) (v : View) (m : Manifest) (e : ProgEntry) : Dev × Except Fail (W512 × List W512) :=
  match Dev.blamed (d.tableRead v m 0 (srvTable m) e.off (64 * e.len)) with
  | (d1, .error f) => (d1, .error f)
  | (d1, .ok b) => (d1, .ok (w512Of b, (chunksOf 64 (b.drop 64) e.len).map w512Of))

/-- The tail a member had before the batch. -/
def Batch.tailBefore (b : Batch) (x : Nat × Nat × Nat) : Nat := if b.kind = 0 then x.2.2 - x.2.1 else x.2.2
/-- A member's sequence as it was before the batch. -/
def Batch.undo (b : Batch) (x : Nat × Nat × Nat) (v : Seq) : Seq :=
  let t := b.tailBefore x
  if b.draft then { v with state := 0, draftTail := t } else { v with state := 0, tail := t, prefilled := min v.prefilled t }

/-- The members end because the batch could not go on (reason 8), T as before the batch. -/
def Dev.failBatch (d : Dev) (p : Nat) (status : B8) (detail : W32) : Dev :=
  match (d.part p).batch with
  | none => d
  | some b =>
    let d1 := ((d.unpin (slotNo p b.slot) b.gen).clearRegions (BitVec.ofNat 16 (progMask b.prog))).modPart p (fun v => { v with batch := none })
    b.members.foldl (fun d x =>
      (d.modSeq x.1 (b.undo x)).endSeq x.1 8 status detail) d1

/-- Starts the program of an entry for the running batch. -/
def Dev.startSegment (d : Dev) (p : Nat) (b : Batch) (v : View) (m : Manifest) (e : ProgEntry) : Dev :=
  match d.loadEntry v m e with
  | (d1, .error f) => (d1.modPart p (fun x => { x with batch := some b })).failBatch p f.status (detailOf f.code f.val)
  | (d1, .ok (h, steps)) =>
    let g : Prog := { hdr := h, steps := steps, party := v.party, partition := p, mask := BitVec.ofNat 16 (d.cfg.regionMask p), slot := b.slot, gen := b.gen,
                      ws := v.ws, attr := match b.tenant with | some t => t | none => 0x7E }
    (d1.clearRegions g.mask).modPart p (fun x => { x with batch := some { b with waits := false, prog := some g } })

/-- A prefill member's prompt tokens are read again: the first at or above V, or the failure of the read, ends it. -/
def Dev.readPrompt (d : Dev) (q : Seq) (a n : Nat) : Dev × Except Fail (List Nat) :=
  match Dev.blamed (d.readMem { party := q.tenant, part := q.partition } (q.promptAddr + 4 * a) (4 * n)) with
  | (d1, .error e) => (d1, .error e)
  | (d1, .ok b) => (d1, .ok (codes32 b))

/-- A sequence may be a member of a batch: it is QUEUED, and no image of it is being written (R316, R333). -/
def Dev.mayJoin (d : Dev) (r : Nat) : Bool := match d.seq r with | some q => decide (q.state = 0) && q.image.isNone | none => false

/-- Allocates and prepares the members one by one; those that wait, end, or become the victim of another leave the batch (R318, R333). -/
def Dev.prepare (d : Dev) (kind : Nat) (draft : Bool) (vocab : Nat) (ms : List (Nat × Nat × Nat)) : Dev × List (Nat × Nat × Nat) :=
  let out := ms.foldl (fun (s : Dev × List (Nat × Nat × Nat)) x =>
    if !s.1.mayJoin x.1 then s else
    match s.1.grow x.1 draft x.2.2 (x.2.2 + x.2.1) s.1.growFuel with
    | .out d1 => (d1, s.2)
    | .ok d1 =>
      match d1.seq x.1 with
      | none => (d1, s.2)
      | some q =>
        if kind ≠ 0 then (d1, s.2 ++ [x])
        else match d1.readPrompt q x.2.2 x.2.1 with
          | (d2, .error e) => (d2.endSeq x.1 8 e.status (detailOf e.code e.val), s.2)
          | (d2, .ok ts) =>
            if ts.any (fun t => decide (vocab ≤ t)) then (d2.endSeq x.1 8 0x04 (detailOf 0xEC 0), s.2)
            else
              let d3 := d2.modSeq x.1 (fun v => { v with tokens := (ts.mapIdx (fun i t => (i, t))).foldl (fun tb y => tb.set (x.2.2 + y.1) y.2) v.tokens })
              (d3, s.2 ++ [x])) (d, [])
  (out.1, out.2.filter (fun x => out.1.mayJoin x.1))

/-- The entry of the program table that a batch runs next: of the smallest bucket that holds its rows (R317, R318). -/
def Batch.entry (b : Batch) (m : Manifest) (es : List ProgEntry) : Option ProgEntry :=
  let rows := (b.members.map (fun x => x.2.1)).sum
  let bucket := ((es.filter (fun e => decide (e.cls = 0) && decide (rows ≤ e.rows))).map (fun e => e.rows)).foldl min (srvBatchRows m)
  if b.kind = 0 then es.find? (fun e => decide (e.cls = 1) && decide (e.rows = bucket) && decide (e.segment = b.segment))
  else es.find? (fun e => decide (e.cls = 0) && decide (e.rows = bucket))

/-- A formed batch starts its first segment when its turn among the Compute commands has come; before that it waits (R94, R318). -/
def Dev.batchRun (d : Dev) (p : Nat) (b : Batch) : Dev :=
  if !d.batchTurn p b || !d.clocked p then d
  else
    let m := d.manifest (slotNo p b.slot) b.gen
    match d.servingOf p b.slot b.gen m with
    | (d1, .error f) => d1.failBatch p f.status (detailOf f.code f.val)
    | (d1, .ok (es, w)) =>
      match b.entry m es with
      | none => d1.failBatch p 0x02 (detailOf 0xE0 0)
      | some e => d1.startSegment p b (d1.batchView p b.slot b.gen m b.members w) m e

/-- The weights address of a batch's adapter: weights_off of the state block added to its address; 0 without one (R319). -/
def Dev.weightsAddr (d : Dev) (v : View) (ten : Option Nat) (adapter : Nat) : Dev × Except Fail Nat :=
  match ten with
  | none => (d, .ok 0)
  | some t =>
    if 8 ≤ adapter then (d, .ok 0)
    else
      let a := ((d.ten t).adapters.get adapter {}).addr
      match Dev.blamed (d.readMem v (a + 0x18) 4) with
      | (d1, .ok o) => (d1, .ok (a + leNat o))
      | (d1, .error e) => (d1, .error e)

/-- BATCH_START: the engine of a partition forms a batch, which starts when its turn among the Compute commands has come. -/
def Dev.batchStart (d0 : Dev) (p : Nat) : Dev :=
  let d := d0.endDegraded
  let pt := d.part p
  match pt.batch with
  | some b => if b.waits then d.batchRun p b else d
  | none =>
  if !d.clocked p || d.pwr.entering || decide (1 < d.pwr.state) || !d.cfg.partOn p then d
  else
    -- R334: a preempted sequence that formation reaches is restored
    match ((d.partLive p).filter (fun e => decide (e.2.state = 3))).foldl (fun l e => insertRank e l) [], d.ranked p with
    | e :: _, [] => d.modSeq e.1 (fun v => { v with state := 6 })
    | pre, ranked =>
      let d1 := match pre, ranked with
        | e :: _, r :: _ => if e.2.before r.2 then d.modSeq e.1 (fun v => { v with state := 6 }) else d
        | _, _ => d
      let pf := ranked.filter (fun e => decide ((d1.workOf e.2).1 = 0))
      let dc := ranked.filter (fun e => decide ((d1.workOf e.2).1 ≠ 0))
      let cands := if pf.isEmpty then dc else if dc.isEmpty then pf else if pt.prefillSince < d1.tok.prefillPerDecode then pf else dc
      match cands with
      | [] => d1
      | e0 :: _ =>
        let grp := d1.groupOf e0.2
        let kind := grp.1
        let draft := grp.2.1
        let slot := grp.2.2.1
        let gen := grp.2.2.2.1
        let adapter := grp.2.2.2.2
        let m := d1.manifest (slotNo p slot) gen
        let same := cands.filter (fun e => decide (d1.groupOf e.2 = grp))
        match d1.prepare kind draft (srvVocab m) (takeMembers m kind draft same) with
        | (d2, []) => d2
        | (d2, ms) =>
          match d2.servingOf p slot gen m with
          | (d3, .error f) => ms.foldl (fun d x => d.endSeq x.1 8 f.status (detailOf f.code f.val)) d3
          | (d3, .ok (es, w)) =>
            let rows := d3.batchRows kind ms
            let ten := match (ms.filterMap (fun x => (d3.seq x.1).map (fun q => q.tenant))).eraseDups with | [t] => some t | _ => none
            let ms' := if kind = 0 then ms.map (fun x => (x.1, x.2.1, x.2.2 + x.2.1)) else ms
            let b : Batch := { kind := kind, slot := slot, gen := gen, adapter := adapter, tenant := ten, members := ms', draft := draft, started := d.time,
                               no := d.submitted, waits := true }
            match b.entry m es with
            | none => ms.foldl (fun d x => d.endSeq x.1 8 0x02 (detailOf 0xE0 0)) d3
            | some e =>
              let v := d3.batchView p slot gen m ms w
              match d3.weightsAddr v ten adapter with
              | (d4, .error f) => ms.foldl (fun d x => d.endSeq x.1 8 f.status (detailOf f.code f.val)) d4
              | (d4, .ok wa) =>
                let lrows := (rows.filter (fun y => y.2.2.2)).length
                let hdr := leBytes 4 rows.length ++ leBytes 1 kind ++ leBytes 3 0 ++ leBytes 4 (ms.length * attHeads m) ++ leBytes 4 lrows ++ leBytes 8 wa ++ leBytes 40 0
                let padded := rows ++ List.replicate (e.rows - rows.length) (match rows.getLast? with | some y => y | none => (0, 0, 0, false))
                let table := (padded.map (fun y => leBytes 4 y.1 ++ leBytes 4 y.2.1 ++ leBytes 4 y.2.2.1 ++ leBytes 4 (if y.2.2.2 then 1 else 0))).flatten
                match d4.writeMem v (windowBase slot + w.header) (hdr ++ table) with
                | (d5, some f) => ms.foldl (fun d x => d.endSeq x.1 8 f.status (detailOf f.code f.val)) d5
                | (d5, none) =>
                  match d5.writeMem v (windowBase slot + w.items) (d5.batchItems m kind ms e.items) with
                  | (d6, some f) => ms.foldl (fun d x => d.endSeq x.1 8 f.status (detailOf f.code f.val)) d6
                  | (d6, none) =>
                    let d7 := ms.foldl (fun d x => d.modSeq x.1 (fun q =>
                      if kind = 0 ∧ !draft then { q with state := 1, tail := x.2.2 + x.2.1 }
                      else if kind = 0 then { q with state := 1, draftTail := x.2.2 + x.2.1 }
                      else { q with state := 1 })) d6
                    let d8 := d7.pin (slotNo p slot) gen
                    let d9 := d8.modPart p (fun x => { x with
                      batch := some b, batches := x.batches + 1, lastRows := rows.length,
                      prefillSince := if kind = 0 then x.prefillSince + 1 else if kind = 1 then 0 else x.prefillSince })
                    if d9.batchTurn p b then d9.startSegment p b v m e else d9

/-! ## The end of a batch (R318, R320, R324) -/

/-- Chunk keys and values of a layer go from the scatter area to their pages (R318). -/
def Dev.scatterChunk (d : Dev) (b : Batch) (v : View) (m : Manifest) (w : Workspace) (layer : Nat) : Dev × Option Fail :=
  let X := rowBytes m
  let kb := attDim m * fmtBits (attKeyFmt m) / 8
  let slots := ((b.members.foldl (fun (s : List (Nat × Nat × Nat) × Nat) x =>
    (s.1 ++ (List.range x.2.1).map (fun i => (x.1, b.tailBefore x + i, s.2 + i)), s.2 + x.2.1)) ([], 0)).1)
  slots.foldl (fun st y => (List.range (attHeads m)).foldl (fun st h =>
    match st with
    | (d, some e) => (d, some e)
    | (d, none) =>
      match Dev.blamed (d.readMem v (windowBase b.slot + w.scatter + (y.2.2 * attHeads m + h) * X) X) with
      | (d1, .error e) => (d1, some e)
      | (d1, .ok l) =>
        match d1.seq y.1 with
        | none => (d1, none)
        | some q =>
          match d1.pageAt q b.draft (y.2.1 / 64) (layer * attHeads m + h), Dev.blamed (d1.defaultScale v m 0 (layer * attHeads m + h)) with
          | none, _ => (d1, some { status := 0x03, code := 0xD3 })
          | some _, (d2, .error e) => (d2, some e)
          | some (_, pi, _), (d2, .ok sc) =>
            let ks := (List.range (attDim m)).map (getCode (fmtBits (attKeyFmt m)) (l.take kb))
            let vs := (List.range (attDim m)).map (getCode (fmtBits (attValFmt m)) (l.drop kb))
            (d2.putRows m pi (y.2.1 % 64) (some ks) (some vs) sc.1 sc.2, none)) st) (d, none)

/-- Logit row `i` of the batch. -/
def Dev.logitRow (d : Dev) (v : View) (b : Batch) (m : Manifest) (w : Workspace) (i : Nat) : Dev × Except Fail (List F32) :=
  let f := srvLogitsFmt m
  match Dev.blamed (d.readMem v (windowBase b.slot + w.logits + i * logitsStride m) (srvVocab m * fmtBits f / 8)) with
  | (d1, .error e) => (d1, .error e)
  | (d1, .ok l) => (d1, .ok ((codesOf (fmtBits f) l).map (fun c => packF32 (elemFV f c))))

/-- Commits of a decode or verify member: tokens chosen row by row while the drafts agree (R324). -/
def Dev.commitRows (d : Dev) (r : Nat) (v : View) (b : Batch) (m : Manifest) (w : Workspace) (row T : Nat) (drafts : List Nat) : Nat → Nat → List Nat → Dev × List Nat × Option Fail
  | 0, _, acc => (d, acc, none)
  | n + 1, i, acc =>
    match d.logitRow v b m w (row + i) with
    | (d1, .error e) => (d1, acc, some e)
    | (d1, .ok lg) =>
      match d1.seq r with
      | none => (d1, acc, none)
      | some q =>
        match q.choose (endTokens m) lg (T + i + 1) with
        | none => (d1, acc, some { status := 0x04, code := 0xE5 })
        | some t =>
          match d1.commitTok r t (T + i + 1) with
          | (d2, some e) => (d2, acc, some e)
          | (d2, none) =>
            let d3 := d2.modSeq r (fun x => { x with tail := T + i + 1 })
            let acc1 := acc ++ [t]
            let stop := match d3.seq r with | some x => (x.ending m (some t)).isSome | none => true
            if stop || decide (drafts[i]? ≠ some t) then (d3, acc1, none)
            else Dev.commitRows d3 r v b m w row T drafts n (i + 1) acc1

/-- Commit of one member; `row` is its first logit row. -/
def Dev.commitMember (d : Dev) (p : Nat) (b : Batch) (v : View) (m : Manifest) (w : Workspace) (x : Nat × Nat × Nat) (row : Nat) : Dev :=
  match d.seq x.1 with
  | none => d
  | some q =>
    let mm := d.seqManifest q false
    if b.kind = 0 then
      let d1 := (d.modSeq x.1 (fun s => { s with prefilled := max s.prefilled s.tail })).fillBlocks x.1 b.draft
      if q.prefillOnly then d1.settleSeq x.1 mm q.outCount [] (if q.promptDone then 7 else 0)
      else if b.draft ∨ q.tail < q.promptLen then d1.settleSeq x.1 mm q.outCount [] 0
      else match d1.logitRow v b m w row with
        | (d2, .error e) => d2.endSeq x.1 8 e.status (detailOf e.code e.val)
        | (d2, .ok lg) =>
          match q.choose (endTokens m) lg q.promptLen with
          | none => d2.endSeq x.1 8 0x04 (detailOf 0xE5 0)
          | some t => match d2.commitTok x.1 t q.promptLen with
            | (d3, some e) => d3.endSeq x.1 8 e.status (detailOf e.code e.val)
            | (d3, none) => d3.settleSeq x.1 mm q.outCount [t] 0
    else if b.kind = 2 then
      match d.logitRow v b m w row with
      | (d1, .error e) => d1.endSeq x.1 8 e.status (detailOf e.code e.val)
      | (d1, .ok lg) =>
        match q.choose (endTokens m) lg (x.2.2 + 1) with
        | none => d1.endSeq x.1 8 0x04 (detailOf 0xE5 0)
        | some t =>
          let d2 := d1.modSeq x.1 (fun s => { s with draftTail := x.2.2 + 1, drafts := if s.tail ≤ x.2.2 then s.drafts ++ [t] else s.drafts })
          (d2.fillBlocks x.1 true).settleSeq x.1 mm q.outCount [] 0
    else
      let k := x.2.1 - 1
      let ds := q.drafts.take k
      match Dev.commitRows d x.1 v b m w row x.2.2 ds x.2.1 0 [] with
      | (d1, _, some e) => d1.endSeq x.1 8 e.status (detailOf e.code e.val)
      | (d1, toks, none) =>
        let a := ((toks.zip ds).filter (fun y => decide (y.1 = y.2))).length
        let d2 := d1.modSeq x.1 (fun s => { (s.adapt k a toks.length) with drafts := [], draftTail := min s.draftTail s.tail })
        let d3 := d2.modPart p (fun y => { y with drafted := y.drafted + BitVec.ofNat 32 k, accepted := y.accepted + BitVec.ofNat 32 a })
        (d3.fillBlocks x.1 false).settleSeq x.1 m q.outCount toks 0

/-- BATCH_END: a finished segment scatters and hands on to the next; the last one's members commit in row order. -/
def Dev.batchEnd (d : Dev) (p : Nat) : Dev :=
  match (d.part p).batch with
  | none => d
  | some b =>
    match b.prog with
    | none => d
    | some g =>
      if !g.over then d
      else match g.fail with
        | some x => (d.failBatch p x.2.1 x.2.2).endDegraded
        | none =>
          let m := d.manifest (slotNo p b.slot) b.gen
          match d.servingOf p b.slot b.gen m with
          | (d1, .error e) => d1.failBatch p e.status (detailOf e.code e.val)
          | (d1, .ok (es, w)) =>
            let v := d1.batchView p b.slot b.gen m b.members w
            let b1 : Batch := { b with segment := b.segment + 1, prog := none }
            let sc : Dev × Option Fail := if b.kind = 0 then (match b.entry m es with
                | some e => if e.scatter = 0xFF then (d1, none) else d1.scatterChunk b v m w e.scatter
                | none => (d1, none)) else (d1, none)
            match sc with
            | (d2, some e) => d2.failBatch p e.status (detailOf e.code e.val)
            | (d2, none) =>
              match (if b.kind = 0 then b1.entry m es else none) with
              | some e => d2.startSegment p b1 v m e
              | none =>
                let d3 := (d2.unpin (slotNo p b.slot) b.gen).modPart p (fun x => { x with batch := none })
                let out := b.members.foldl (fun (s : Dev × Nat) x =>
                  let n := if b.kind = 0 then (match s.1.seq x.1 with
                    | some q => if !q.prefillOnly && decide (q.promptLen ≤ q.tailOf b.draft) then 1 else 0
                    | none => 0) else x.2.1
                  (s.1.commitMember p b v m w x s.2, s.2 + n)) (d3, 0)
                out.1.endDegraded

end Sys2Proof.Machine
end

