-- ==== Sys2Proof/Machine/Validate.lean ====
section
/-! DEFINITION. Validation of a submission: checks 6 to 13 of R118 on each command, its step program and its request descriptor. -/
namespace Sys2Proof.Machine
open Sys2Proof

/-- Why a submission is refused: status, detail code and detail [31:8] (R118). -/
structure Refuse where
  status : B8
  code : Nat
  val : Nat
deriving DecidableEq, Repr, Inhabited

def refuse6 (off : Nat) : Refuse := { status := 0x04, code := 0x85, val := off }
def refuse7 (off : Nat) : Refuse := { status := 0x03, code := 0x86, val := off }
def refuse8 (ix : Nat) : Refuse := { status := 0x08, code := 0x87, val := ix }
def refuse12 (ix : Nat) : Refuse := { status := 0x02, code := 0x8B, val := ix }
def refuse13 : Refuse := { status := 0x02, code := 0x8C, val := 0 }
/-- The value of a fault inside a structure that a command points to. -/
def inStruct (off : Nat) : Nat := 0x800000 + off

/-- The first of a list of tests that fails. -/
def firstFault {α : Type} (l : List (Bool × α)) : Option α := (l.find? (fun x => x.1)).map (fun x => x.2)

/-- The `n` bytes of a record from `off` hold a value other than 0. -/
def dirty {w : Nat} (c : BitVec w) (off n : Nat) : Bool := decide (bytesAt c off n ≠ 0)
/-- A partition address that is misaligned or has high bits set. -/
def badAddr (c : W512) (off al : Nat) : Bool := decide (bytesAt c off 8 % al ≠ 0) || decide (2 ^ 48 ≤ bytesAt c off 8)

/-- A range outside the partition's or touching a tile of another party (check 7). -/
def Dev.foreign (d : Dev) (v : View) (a n : Nat) : Bool :=
  decide (0x10000000000 < a + n) ||
    d.mapped.any (fun e => decide (keyPart e.1 = v.part) && decide (keyAddr e.1 < a + n) && decide (a < keyAddr e.1 + tileSize)
      && decide (keyGen e.1 = d.genAt v (keyAddr e.1)) && decide (e.2.owner ≠ v.party) && decide (e.2.owner ≠ mgmtParty))
/-- A range that reaches over the partition space, or a tile of it that is mapped and not the party's own: no tile of management passes (R310). -/
def Dev.notOwn (d : Dev) (v : View) (a n : Nat) : Bool :=
  d.foreign v a n || d.mapped.any (fun e => decide (keyPart e.1 = v.part) && decide (keyAddr e.1 < a + n) && decide (a < keyAddr e.1 + tileSize)
    && decide (keyGen e.1 = d.genAt v (keyAddr e.1)) && decide (e.2.owner ≠ v.party))
/-- Every tile of a range is mapped to the party. -/
def Dev.ownedRange (d : Dev) (v : View) (a n : Nat) : Bool :=
  decide (a + n ≤ 0x10000000000) && (tileParts a n).all (fun x => match d.tile (d.keyAt v x.1) with | some t => decide (t.owner = v.party) | none => false)

/-- A finite FP32 field. -/
def notFinite (c : W512) (off : Nat) : Bool := f32Special (BitVec.ofNat 32 (bytesAt c off 4))

/-! ## Who may read a track (R76) -/

/-- TB_TRK_CTL.source and source_index: what drives a track, before and after the lock (R67); TRK_0 is the free-running track. -/
def Dev.trkSource (d : Dev) (n : Nat) : Nat := if n = 0 then 1 else (d.trk n).source
def Dev.trkIndex (d : Dev) (n : Nat) : Nat := if n = 0 then 0 else (d.trk n).sourceIndex

/-- The tenant that owns a track's source, for camera, AES67 and pulse tracks. -/
def Dev.trackReadable (d : Dev) (party n : Nat) : Bool :=
  if party = mgmtParty then true
  else match d.trkSource n with
    | 3 => decide (d.cfg.ctxOwner (d.trkIndex n) = party)
    | 4 => decide (d.cfg.streamOwner (d.trkIndex n) = party)
    | 6 => decide (d.cfg.pulseOwner (d.trkIndex n) = some party)
    | _ => true

/-! ## Commands (R109-R117): check 6 on the command itself -/

/-- The work engine that accepts an opcode; 4 stands for all of them. -/
def opEngine (op : Nat) : Option Nat :=
  if op ≤ 7 then some 4 else if op = 0x10 ∨ op = 0x11 then some 0 else if 0x20 ≤ op ∧ op ≤ 0x25 then some 1
  else if 0x30 ≤ op ∧ op ≤ 0x32 then some 2 else if op = 0x40 ∨ op = 0x41 then some 3 else none

/-- The byte of the first field of a command outside its values. Reserved flag bits, arg16 bits and bytes are not looked at: the device
ignores a value in them (R7, R110). -/
def cmdFormat (engine : Nat) (mgmt : Bool) (slots : Nat) (c : W512) : Option Nat :=
  let a := cmdArg c
  let head : List (Bool × Nat) := [(decide (opEngine (cmdOp c) ≠ some 4) && decide (opEngine (cmdOp c) ≠ some engine), 0)]
  let slotBad (off : Nat) : Bool := decide (slots ≤ bytesAt c off 1)
  let elems : List (Bool × Nat) := [(badAddr c 8 1, 8), (badAddr c 16 1, 16), (badAddr c 24 1, 24),
    (decide (bytesAt c 32 4 = 0) || decide (2 ^ 24 < bytesAt c 32 4), 32), (decide (bytesAt c 36 2 = 0) || decide (256 < bytesAt c 36 2), 36)]
  let program : List (Bool × Nat) := [(badAddr c 8 64, 8), (badAddr c 16 64, 16), (decide (bytesAt c 24 4 = 0) || decide (65536 < bytesAt c 24 4), 24),
    (decide (bytesAt c 28 1 ≠ 0xFF) && slotBad 28, 28)]
  let body : List (Bool × Nat) :=
    match cmdOp c with
    | 0x00 => [(decide (a ≠ 0), 2)]
    | 0x02 => [(decide (2 ≤ a % 4), 2), (badAddr c 8 8, 8)]
    | 0x03 => [(decide (a % 4 = 3), 2), (badAddr c 8 8, 8)]
    | 0x04 => [(decide (a ≠ 0), 2)]
    | 0x05 => [(decide (2 ≤ nfld a 8 2), 3)]
    | 0x07 => [(decide (nfld a 4 6 < 2) || decide (32 < nfld a 4 6), 2)]
    | 0x10 => program
    | 0x11 => program ++ [(decide (8 ≤ bytesAt c 36 1), 36), (badAddr c 40 64, 40), (decide (bytesAt c 48 4 = 0), 48)]
    | 0x20 => [(decide (bytesAt c 8 8 % 64 ≠ 0) || (!a.testBit 0 && badAddr c 8 64), 8), (decide (bytesAt c 16 8 % 64 ≠ 0) || (!a.testBit 1 && badAddr c 16 64), 16),
               (decide (bytesAt c 24 8 % 64 ≠ 0) || decide (bytesAt c 24 8 = 0) || decide (2 ^ 32 < bytesAt c 24 8), 24)]
    | 0x21 => elems
    | 0x22 => elems
    | 0x23 => [(decide (a % 4 = 3) || (mgmt && decide (nfld a 2 3 < 3)), 2), (badAddr c 8 16384, 8), (decide (bytesAt c 16 4 = 0) || decide (2 ^ 24 < bytesAt c 16 4), 16)]
    | 0x24 => [(mgmt && decide (a % 8 < 3), 2), (slotBad 3, 3), (badAddr c 8 1, 8)]
    | 0x25 => [(decide (2 ≤ a % 4), 2), (slotBad 3, 3)]
    | 0x30 => [(a.testBit 7 && decide (64 ≤ a % 128), 2), (!a.testBit 7 && decide (2 < bytesAt c 8 1), 8), (!a.testBit 7 && decide (4 ≤ bytesAt c 9 1), 9), (badAddr c 16 4096, 16), (decide (bytesAt c 24 4 < 2) || decide (4096 < bytesAt c 24 4), 24)]
    | 0x31 => [(a.testBit 7 && decide (64 ≤ a % 128), 2), (!a.testBit 7 && decide (2 < bytesAt c 8 1), 8)]
    | 0x32 => [(badAddr c 8 64, 8)]
    | 0x40 => [(badAddr c 8 64, 8)]
    | 0x41 => [(decide (a % 4 = 3), 2), (decide (a % 4 = 1) && (decide (bytesAt c 12 4 = 0) || decide (604800 < bytesAt c 12 4)), 12)]
    | _ => []
  firstFault (head ++ body)

/-! ## Check 7 on the operands of a command -/

/-- The model slot that a command names for work. -/
def workSlot (c : W512) : Option Nat := if (cmdOp c = 0x10 ∨ cmdOp c = 0x11) ∧ bytesAt c 28 1 ≠ 0xFF then some (bytesAt c 28 1) else none

/-- A tenant may not name a slot that another tenant's model holds (R228). -/
def Dev.slotForeign (d : Dev) (party p s : Nat) : Bool :=
  let v := d.slot (slotNo p s)
  !v.empty && decide (party < 64) && decide (v.owner ≠ party) && decide (v.owner ≠ mgmtParty)
/-- Only the owner controls a slot; management may unload any (R228). -/
def Dev.slotNotControlled (d : Dev) (party p s : Nat) (unload : Bool) : Bool :=
  let v := d.slot (slotNo p s)
  !v.empty && decide (v.owner ≠ party) && !(unload && decide (party = mgmtParty))

/-- The byte of the first operand that is not the party's. -/
def Dev.cmdRights (d : Dev) (v : View) (c : W512) : Option Nat :=
  let a := cmdArg c
  let far (off n : Nat) : Bool := d.foreign v (bytesAt c off 8) n
  let owns (t : Option Nat) : Bool := decide (t = some v.party)
  firstFault (match cmdOp c with
    | 0x02 => [(far 8 8, 8)]
    | 0x03 => [(far 8 8, 8)]
    | 0x05 => [(!d.trackReadable v.party (a % 256), 2)]
    | 0x06 => [(decide (v.party < 64) && decide (d.cfg.trgCount v.party ≤ a), 2)]
    | 0x10 => [(far 8 (64 * bytesAt c 24 4), 8), (far 16 64, 16), ((match workSlot c with | some s => d.slotForeign v.party v.part s | none => false), 28)]
    | 0x11 => [(far 8 (64 * bytesAt c 24 4), 8), (far 16 64, 16), ((match workSlot c with | some s => d.slotForeign v.party v.part s | none => false), 28), (far 40 64, 40)]
    | 0x20 => [(!a.testBit 0 && far 8 (bytesAt c 24 8), 8), (!a.testBit 1 && far 16 (bytesAt c 24 8), 16)]
    | 0x21 => [(far 8 ((if a.testBit 0 then 32 else 4) * bytesAt c 32 4), 8), (far 16 (64 * bytesAt c 36 2 * bytesAt c 32 4), 16), (!a.testBit 0 && far 24 64, 24)]
    | 0x22 => [(far 8 ((if a.testBit 0 then 32 else 4) * bytesAt c 32 4), 8), (far 16 (64 * bytesAt c 36 2 * bytesAt c 32 4), 16), (!a.testBit 0 && far 24 64, 24)]
    | 0x23 => [(far 8 (tileSize * bytesAt c 16 4), 8)]
    | 0x24 => [(!d.cfg.adjustable 1, 0), (far 8 256, 8), (d.slotNotControlled v.party v.part (a / 256) false, 3)]
    | 0x25 => [(!d.cfg.adjustable 1, 0), (d.slotNotControlled v.party v.part (a / 256) (decide (a % 4 = 0)), 3)]
    | 0x30 => [(if a.testBit 7 then !(d.cfg.arrayOn (a % 128) && owns (some (d.cfg.arrayOwner (a % 128)))) else !(d.cfg.ctxOn (a % 128) && owns (some (d.cfg.ctxOwner (a % 128)))), 2),
               (far 16 4096, 16)]
    | 0x31 => [(if a.testBit 7 then !(d.cfg.arrayOn (a % 128) && owns (some (d.cfg.arrayOwner (a % 128)))) else !(d.cfg.ctxOn (a % 128) && owns (some (d.cfg.ctxOwner (a % 128)))), 2)]
    | 0x32 => [(!d.cfg.adjustable 0, 0), (!(d.cfg.ctxOn (a % 128) && (decide (v.party = mgmtParty) || owns (some (d.cfg.ctxOwner (a % 128))))), 2), (far 8 0xA80, 8)]
    | 0x40 => [(far 8 128, 8)]
    | _ => [])

/-- A MARKER selector beyond a tenant's rights (R515). -/
def Dev.markerBad (d : Dev) (v : View) (c : W512) : Bool :=
  let s := bytesAt c 8 8
  decide (cmdOp c = 1) && decide (s ≠ 0) && decide (v.party < 64) &&
    (!d.cfg.tenSnapshot v.party || s.testBit 18 || decide (s % 65536 &&& d.cfg.regionMask v.part ≠ s % 65536))

/-! ## Step programs (R135, R136, R141-R164, R274, R276) -/

/-- Formats by role (R143). -/
def actFmt (f : Nat) : Bool := decide (f ≤ 4)
def wgtFmt (f : Nat) : Bool := decide (f = 0) || decide (f = 2) || (decide (4 ≤ f) && decide (f ≤ 7))
def outFmt (f : Nat) : Bool := decide (f ≤ 4) || decide (f = 8)

/-- The first bad byte of a program header. Reserved bits of a field are ignored (R7), here and in the steps; a field that a layout lists
as reserved with value 0 holds a value outside its list otherwise (R118, R135). -/
def headerFormat (h : W512) (len : Nat) : Option Nat :=
  firstFault [(decide (bytesAt h 0 4 ≠ 0x50545351), 0), (decide (bytesAt h 4 2 ≠ 1), 4), (decide (bytesAt h 8 4 ≠ len - 1), 8),
    (decide (bytesAt h 12 4 < 64) || decide (bytesAt h 12 4 % 64 ≠ 0), 12), (decide (bytesAt h 16 4 % 64 ≠ 0), 16), (dirty h 20 44, 20)]
def headerBig (h : W512) : Bool := decide (524288 < bytesAt h 12 4) || decide (1048576 < bytesAt h 16 4)
def headerHalo (h : W512) : Bool := h.getLsbD 48

/-- The first bad byte of a step descriptor (check 6). Bytes that a layout does not list are ignored like reserved bits (DEDUCED from R7:
the step layouts do not say so). TOPK_ROW with more than 1,024 columns, or with an sa that is no whole number of 1 to 64, is a field
outside its values (DEDUCED: R161 names no check). -/
def stepFormat (s : W512) : Option Nat :=
  let off (o : Nat) : Bool × Nat := (decide (bytesAt s o 4 % 64 ≠ 0), o)
  let out (o lo hi n : Nat) : Bool × Nat := (decide (bytesAt s o n < lo) || decide (hi < bytesAt s o n), o)
  let fmts : Bool × Nat := (decide (8 < fld s 40 4) || decide (8 < fld s 44 4), 5)
  firstFault ([(decide (7 < stepKind s), 0), (decide (stepMask s = 0), 2)] ++
    (match stepKind s with
    | 1 => [(decide (bytesAt s 4 1 = 0), 4), fmts, (decide (8 < fld s 48 4), 6), out 8 1 4096 2, out 10 16 4096 2,
            (decide (bytesAt s 12 4 < 16) || decide (65536 < bytesAt s 12 4) || decide (bytesAt s 12 4 % 16 ≠ 0), 12), off 16, off 20, off 24,
            (decide (6 ≤ fld s 44 4) && decide (fld s 44 4 ≤ 7) && (off 28).1, 28), (decide (fld s 10 2 = 1) && (off 32).1, 32),
            (decide (4096 ≤ bytesAt s 36 2), 36), (dirty s 38 2, 38), (notFinite s 40, 40), (notFinite s 44, 44), (dirty s 48 16, 48)]
    | 2 => let op := bytesAt s 1 1
           let k := bytesAt s 24 4
           [(decide (op = 0) || (decide (0x0D ≤ op) && decide (op ≤ 0x0F)) || decide (0x19 ≤ op), 1), (decide (8 < fld s 32 4) || decide (8 < fld s 36 4), 4), out 8 1 4096 2,
            (decide (bytesAt s 10 2 < 16) || decide (8192 < bytesAt s 10 2) || decide (bytesAt s 10 2 % 16 ≠ 0), 10),
            (decide (op = 0x16) && decide (1024 < bytesAt s 10 2), 10), (decide (op = 0x16) && !((List.range 64).any (fun i => decide (f32OfInt (i + 1) = BitVec.ofNat 32 k))), 24)]
    | 3 => [(decide (bytesAt s 24 4 % 64 ≠ 0) || decide (bytesAt s 24 4 = 0) || decide (2 ^ 24 < bytesAt s 24 4), 24)]
    | 4 => [off 8, (decide (4096 ≤ bytesAt s 12 2), 12), out 14 1 4096 2]
    | 5 => [(decide (3 ≤ bytesAt s 1 1), 1)]
    | 6 => [(decide (2 ≤ bytesAt s 1 1), 1), (decide (attRing s = 3), 4), fmts, (decide (8 < fld s 48 4), 6),
            (decide (bytesAt s 8 8 % 64 ≠ 0), 8), out 16 1 4096 2, (dirty s 18 2, 18), off 20, off 24, off 28,
            (decide (bytesAt s 32 8 % 64 ≠ 0), 32), (notFinite s 40, 40), (notFinite s 44, 44), (dirty s 48 16, 48)]
    | 7 => [(decide (bytesAt s 16 4 % 512 ≠ 0) || decide (1048576 < bytesAt s 16 4), 16)]
    | _ => []))

/-- A DMA step that names a cluster outside the partition (check 7): the byte. -/
def Dev.stepRights (d : Dev) (v : View) (s : W512) : Option Nat :=
  if stepKind s = 3 then
    firstFault [(decide ((fld s 8 2 = 3) ∨ (fld s 10 2 = 3)) && !(d.cfg.regionMask v.part).testBit (bytesAt s 4 2 / 16), 4)]
  else none

/-- Bytes of the operands of a MATMUL in a cluster buffer (R141, R144). -/
def matRanges (v : MatDesc) : List (Nat × Nat) :=
  let g := cdiv v.m 16
  let blocks := v.k / 16 * (v.n / 16)
  [(v.aOff, g * (v.k / 16) * subTile v.act), (v.bOff, blocks * subTile v.wgt), (v.cOff, g * (v.n / 16) * subTile v.out)]
    ++ (if v.wgt = 6 then [(v.auxOff, blocks)] else if v.wgt = 7 then [(v.auxOff, 2 * blocks)] else [])
    ++ (if v.zpMode = 1 then [(v.wsumOff, 4 * v.n)] else [])

/-- Cluster buffer ranges of a vector step. -/
def vecRanges (v : VecDesc) : List (Nat × Nat) :=
  let t (f rows : Nat) : Nat := tensorBytes f rows v.cols
  let k := f32Nat v.sa
  [(v.src0, t v.inF v.rows)] ++
    (if v.op = 0x10 ∨ v.op = 0x11 then [(v.dst, v.rows * (fmtBits v.outF / 8))]
     else if v.op = 0x16 then [(v.dst, 4 * k * v.rows), (v.src1, 4 * k * v.rows)]
     else [(v.dst, t v.outF v.rows)]) ++
    (if (1 ≤ v.op ∧ v.op ≤ 4) ∨ v.op = 0x13 then [(v.src1, t v.inF (if v.bcast then 1 else v.rows))]
     else if v.op = 0x14 then [(v.src1, t v.inF 2)]
     else if v.op = 0x15 ∨ v.op = 0x17 ∨ v.op = 0x18 then [(v.src1, 4 * v.rows)] else [])

/-- Ranges a step names in cluster and in region buffers. The row ranges of an ATTENTION hold at least one group of 16 rows; where its
items' rows reach is judged when it runs (DEDUCED: the item table is no part of the program). -/
def stepRanges (m : Manifest) (s : W512) : List (Nat × Nat) × List (Nat × Nat) :=
  match stepKind s with
  | 1 => (matRanges (matDesc s), [])
  | 2 => (vecRanges (vecDesc s), [])
  | 3 =>
    let side (sp o : Nat) : List (Nat × Nat) × List (Nat × Nat) :=
      if sp = 0 ∨ sp = 3 then ([(bytesAt s o 8, bytesAt s 24 4)], []) else if sp = 1 then ([], [(bytesAt s o 8, bytesAt s 24 4)]) else ([], [])
    let x := side (fld s 8 2) 8
    let y := side (fld s 10 2) 16
    (x.1 ++ y.1, x.2 ++ y.2)
  | 4 => ([(bytesAt s 8 4, 4 * bytesAt s 14 2)], [])
  | 6 => ([(bytesAt s 28 4, 8192 * pageGranules m), (bytesAt s 20 4, tensorBytes (fld s 40 4) 16 (attDim m)),
           (bytesAt s 24 4, tensorBytes (if bytesAt s 1 1 = 0 then fld s 48 4 else fld s 40 4) 16 (attDim m))], [])
  | 7 => ([], [(bytesAt s 8 4, bytesAt s 16 4), (bytesAt s 12 4, bytesAt s 16 4)])
  | _ => ([], [])

/-- Query and key pairs (R272), and weight and value pairs (R273). -/
def keyPair (q k : Nat) : Bool :=
  (decide (q ≤ 1) && [0, 2, 4, 5].contains k) || ((decide (q = 2) || decide (q = 3)) && [2, 5].contains k) || (decide (q = 4) && [4, 5].contains k)
def valPair (p v : Nat) : Bool := (decide (p = 0) && [0, 2, 4].contains v) || (decide (p = 2) && decide (v = 2))

/-- A step whose combination of legal fields is not supported (check 8). -/
def Dev.stepUnsupported (d : Dev) (v : View) (tune halo : Bool) (slot : Option Manifest) (s : W512) : Bool :=
  match stepKind s with
  | 1 =>
    let x := matDesc s
    let e := max 1 x.selected.length
    let one : F32 := f32One
    !actFmt x.act || !wgtFmt x.wgt || !outFmt x.out || (matMode x.act x.wgt).isNone || decide (x.n % (16 * e) ≠ 0) || decide (2 ≤ x.zpMode)
      || (decide (x.zpMode = 1) && decide (x.act ≠ 4))
      || (x.accIn && (decide (x.out ≠ 8) || x.scaleEn || decide (x.actScale ≠ one) || decide (x.outMul ≠ one) || (match matMode x.act x.wgt with | some y => y.2 | none => true)))
      || (x.scaleEn && decide (4096 < x.scaleBase + x.n)) || decide (16384 < cdiv x.m 16 * 16 * (x.n / e) * (fmtBits x.out / 8))
  | 2 =>
    let x := vecDesc s
    !(actFmt x.inF || decide (x.inF = 8)) || !outFmt x.outF || (decide (x.op = 0x15) && !(decide (2 ≤ x.outF) && decide (x.outF ≤ 4)))
  | 4 => decide (4096 < bytesAt s 12 2 + bytesAt s 14 2)
  | 6 =>
    if !tune then true
    else match slot with
      | none => true
      | some m =>
        let D := d.partD v.part
        let q := fld s 40 4
        decide (attLayers m = 0)
          || (decide (attRing s = 1) && decide (D = 3)) || (decide (attRing s ≠ 0) && (!attByPos m || decide (D ≤ 1)))
          || (attBiasOn s && !attBias m) || (attRotaryOn s && !attRotary m)
          || (if bytesAt s 1 1 = 0 then !keyPair q (attKeyFmt m) || !valPair (fld s 44 4) (attValFmt m) || (attRotaryOn s && decide (1 < q)) || !outFmt (fld s 48 4)
              else !(decide (q = 0) || decide (q = 1) || decide (q = 8)))
  | 7 =>
    !halo || (d.cfg.partRegions v.part).any (fun r =>
      !(d.cfg.partDies v.part).contains ((if s.getLsbD 8 then r / 4 + 3 else r / 4 + 1) % 4))
  | _ => false

/-- A range beyond the footprints of the header (check 12). -/
def stepBeyond (m : Manifest) (h s : W512) : Bool :=
  let x := stepRanges m s
  x.1.any (fun r => decide (bytesAt h 12 4 < r.1 + r.2)) || x.2.any (fun r => decide (bytesAt h 16 4 < r.1 + r.2))

/-- The first element that a test picks out, with its index. -/
def firstIx {α β : Type} (l : List α) (f : α → Option β) : Option (Nat × β) :=
  ((l.mapIdx (fun i x => (f x).map (fun y => (i, y)))).filterMap (fun x => x)).head?

/-- An ATTENTION's layer lies outside the layers of the model that the command names (R274). -/
def layerBad (layers : Nat) (s : W512) : Option Nat := if stepKind s = 6 ∧ layers ≠ 0 ∧ layers ≤ bytesAt s 7 1 then some 7 else none

/-- The first of two bytes at fault. -/
def earlier (a b : Option Nat) : Option Nat :=
  match a, b with | some x, some y => some (min x y) | some x, none => some x | none, y => y

/-- Check 6 on a step program: the byte of its first field outside the listed values, with the layers of the named model (0: none). -/
def programFormat (layers : Nat) (c : W512) (prog : List W512) : Option Nat :=
  match headerFormat (prog.headD 0) (bytesAt c 24 4) with
  | some o => some o
  | none => (firstIx (prog.drop 1) (fun s => earlier (stepFormat s) (layerBad layers s))).map (fun x => 64 + 64 * x.1 + x.2)

/-- Checks 7 to 12 on a step program (R118): header first, then step by step within each check. -/
def Dev.checkProgram (d : Dev) (v : View) (tune : Bool) (c : W512) (prog : List W512) : Option Refuse :=
  let h := prog.headD 0
  let steps := prog.drop 1
  let slot := (workSlot c).bind (fun s => (d.currentGen (slotNo v.part s)).map (fun g => g.manifest))
  let m := slot.getD []
  match firstIx steps (d.stepRights v) with
  | some x => some (refuse7 (inStruct (64 + 64 * x.1 + x.2)))
  | none =>
    match firstIx steps (fun s => if d.stepUnsupported v tune (headerHalo h) slot s then some () else none) with
    | some x => some (refuse8 x.1)
    | none =>
      let full := d.cfg.regionMask v.part
      let mask := cmdArg c
      match (match workSlot c with | some s => (if (d.slot (slotNo v.part s)).current.isNone then some (0x02, 0x88, s)
          else if (d.slot (slotNo v.part s)).degraded || (d.slot (slotNo v.part s)).unloading then some (0x10, 0x89, s) else none) | none => none) with
      | some (st, code, s) => some { status := BitVec.ofNat 8 st, code := code, val := s }
      | none =>
        if mask = 0 then some { status := 0x02, code := 0x8A, val := 0 }
        else if mask &&& full ≠ mask then some { status := 0x02, code := 0x8A, val := mask - (mask &&& full) }
        else if headerHalo h && decide (mask ≠ full) then some { status := 0x02, code := 0x8A, val := full - mask }
        else if headerBig h then some (refuse12 0xFFFFFF)
        else match firstIx steps (fun s => if stepBeyond m h s then some () else none) with
          | some x => some (refuse12 x.1)
          | none => none

/-! ## Request descriptors (R309, R310) -/

/-- The first bad byte of a descriptor; reserved bits and bytes are ignored (R7), and a temperature of minus zero is zero. -/
def requestFormat (r : W1024) (slots : Nat) : Option Nat :=
  let f32 (o : Nat) : F32 := BitVec.ofNat 32 (bytesAt r o 4)
  let pos (x : F32) : Bool := !x.getLsbD 31 && !f32Special x
  let dr := bytesAt r 1 1
  firstFault [(decide (slots ≤ bytesAt r 0 1), 0), (decide (dr ≠ 0xFF) && decide (slots ≤ dr), 1),
    (if dr = 0xFF then decide (bytesAt r 2 1 ≠ 0) else decide (bytesAt r 2 1 = 0) || decide (8 < bytesAt r 2 1), 2), (decide (7 < bytesAt r 3 1), 3),
    (decide (bytesAt r 8 8 % 64 ≠ 0) || decide (2 ^ 48 ≤ bytesAt r 8 8), 8), (decide (bytesAt r 0x10 4 = 0), 0x10), (decide (bytesAt r 0x14 4 = 0) || decide (262144 < bytesAt r 0x14 4), 0x14),
    (decide (bytesAt r 0x18 8 % 64 ≠ 0) || decide (2 ^ 48 ≤ bytesAt r 0x18 8), 0x18), (decide (bytesAt r 0x20 4 = 0) || decide (2 ^ 24 < bytesAt r 0x20 4), 0x20), (!pos (f32 0x28) && decide (f32 0x28 ≠ 0x80000000#32), 0x28),
    (!pos (f32 0x2C) || decide (f32 0x2C = f32Zero) || flt f32One (f32 0x2C), 0x2C), (decide (1024 < bytesAt r 0x30 2), 0x30),
    (!pos (f32 0x34) || decide (f32 0x34 = f32Zero), 0x34), (f32Special (f32 0x38), 0x38), (f32Special (f32 0x3C), 0x3C)]

/-- R310 on a descriptor after its check 6. -/
def Dev.checkRequest (d : Dev) (v : View) (r : W1024) : Option Refuse :=
  let p := v.part
  let slot := bytesAt r 0 1
  let dr := bytesAt r 1 1
  let ad := bytesAt r 6 1
  let gm (s : Nat) : Manifest := match d.currentGen (slotNo p s) with | some g => g.manifest | none => []
  let m := gm slot
  let md := gm dr
  match firstFault [(d.slotForeign v.party p slot, 0), (decide (dr ≠ 0xFF) && d.slotForeign v.party p dr, 1), (decide (ad ≠ 0xFF) && decide (7 < ad), 6),
      (r.getLsbD 36 && !(d.cfg.rtpOn (bytesAt r 7 1) && decide (d.cfg.rtpOwner (bytesAt r 7 1) = v.party)), 7),
      (d.notOwn v (bytesAt r 8 8) (4 * bytesAt r 0x10 4), 8), (d.notOwn v (bytesAt r 0x18 8) (4 * bytesAt r 0x20 4), 0x18)] with
  | some o => some (refuse7 (inStruct o))
  | none =>
    let has := (d.currentGen (slotNo p slot)).isSome
    let hasD := decide (dr ≠ 0xFF) && (d.currentGen (slotNo p dr)).isSome
    if (has && (decide (srvVocab m = 0) || decide (attMaxPos m ≤ bytesAt r 0x10 4)))
        || (hasD && has && (!srvDraft md || decide (srvVocab md ≠ srvVocab m) || decide (endTokens md ≠ endTokens m)))
        || (has && decide (ad ≠ 0xFF) && !srvAdapters m) || (decide (dr ≠ 0xFF) && decide (ad ≠ 0xFF)) then some (refuse8 0)
    else
      let used := [slot] ++ (if dr = 0xFF then [] else [dr])
      match used.find? (fun s => (d.slot (slotNo p s)).current.isNone) with
      | some s => some { status := 0x02, code := 0x88, val := s }
      | none =>
        match used.find? (fun s => (d.slot (slotNo p s)).degraded || (d.slot (slotNo p s)).unloading) with
        | some s => some { status := 0x10, code := 0x89, val := s }
        | none =>
          let per := attLayers m * attHeads m + (if dr = 0xFF then 0 else attLayers md * attHeads md)
          if d.cfg.tenKvQuota v.party < cdiv (bytesAt r 0x10 4) 64 * per ∨ d.cfg.tenSeqs v.party = 0 then some refuse13 else none

/-! ## One command, check by check -/

/-- A structure that a command points to, or the refusal of check 5. -/
def Dev.fetchStruct (d : Dev) (v : View) (off a n : Nat) : Dev × Except Refuse (List B8) :=
  match d.readMem v a n with
  | (d1, .error e) => (d1, .error { status := e.status, code := 0x84, val := off })
  | (d1, .ok b) => (d1, .ok b)

/-- What validation keeps of a command: its step program, its request descriptor. -/
structure Kept where
  prog : Option (List W512) := none
  req : Option W1024 := none

/-- The structure that a command points to and that validation reads: the byte of its pointer, and its length. -/
def cmdStruct (c : W512) : Option (Nat × Nat) :=
  match cmdOp c with
  | 0x10 | 0x11 => some (8, 64 * bytesAt c 24 4)
  | 0x24 => some (8, 256)
  | 0x40 => some (8, 128)
  | _ => none

def programOf (c : W512) (b : List B8) : List W512 := (chunksOf 64 b (bytesAt c 24 4)).map w512Of

/-- Check 6 on the structure read, which precedes check 7 on the other operands of its command (R118). -/
def Dev.structFormat (d : Dev) (v : View) (c : W512) (b : List B8) : Option Refuse :=
  match cmdOp c with
  | 0x10 | 0x11 =>
    let m : Manifest := ((workSlot c).bind (fun s => (d.currentGen (slotNo v.part s)).map (fun g => g.manifest))).getD []
    (programFormat (attLayers m) c (programOf c b)).map (fun o => refuse6 (inStruct o))
  | 0x24 => if (manHeaderBad b).isSome then some (refuse6 8) else none
  | 0x40 => (requestFormat (BitVec.ofNat 1024 (leNat b)) (d.cfg.partSlots v.part)).map (fun o => refuse6 (inStruct o))
  | _ => none

/-- The structure of a command, read after its pointer is judged (check 7, then check 5), and its own check 6. -/
def Dev.readStruct (d : Dev) (v : View) (c : W512) : Dev × Except Refuse (List B8) :=
  match cmdStruct c with
  | none => (d, .ok [])
  | some (off, n) =>
    if d.foreign v (bytesAt c off 8) n then (d, .error (refuse7 off))
    else
      match d.fetchStruct v off (bytesAt c off 8) n with
      | (d1, .error r) => (d1, .error r)
      | (d1, .ok b) =>
        match d1.structFormat v c b with
        | some r => (d1, .error r)
        | none => (d1, .ok b)

/-- Checks 8 to 13 of one command whose operands and structure passed checks 6 and 7. -/
def Dev.checkFit (d : Dev) (v : View) (c : W512) (b : List B8) : Except Refuse Kept :=
  let mgmt := decide (v.party = mgmtParty)
  if mgmt && decide (cmdOp c = 0x23) && decide (cmdArg c % 4 = 2) then .error (refuse8 0)
  else if decide (cmdOp c = 1) && decide (bytesAt c 8 8 ≠ 0) && decide (2 ^ (d.snapRing v.party).log2Slot < snapLength (BitVec.ofNat 64 (bytesAt c 8 8))) then .error (refuse8 0)
  else match cmdOp c with
    | 0x10 | 0x11 =>
      (match d.checkProgram v (decide (cmdOp c = 0x11)) c (programOf c b) with
      | some r => .error r
      | none => .ok { prog := some (programOf c b) })
    | 0x24 =>
      let slot := d.slot (slotNo v.part (cmdArg c / 256))
      let held := (slot.gens.map (fun g => d.genTiles v.part (cmdArg c / 256) g.number)).sum
      if !mgmt && decide (d.cfg.tenQuotaMib v.party * 64 < cdiv (manStream b) tileSize + held) then .error refuse13
      else .ok {}
    | 0x25 =>
      let slot := d.slot (slotNo v.part (cmdArg c / 256))
      if slot.gens.isEmpty && slot.load.isNone then .error { status := 0x02, code := 0x88, val := cmdArg c / 256 }
      else if slot.degraded || slot.unloading then .error { status := 0x10, code := 0x89, val := cmdArg c / 256 }
      else .ok {}
    | 0x05 =>
      -- R77: mode 1 is allowed only on pulse tracks
      if decide (nfld (cmdArg c) 8 2 = 1) && decide (d.trkSource (cmdArg c % 256) ≠ 6) then .error (refuse8 0) else .ok {}
    | 0x20 =>
      -- R431: a sealed COPY has host space on one side only
      if !mgmt && decide (cmdArg c % 4 = 3) && d.cfg.confidential v.party then .error (refuse8 0) else .ok {}
    | 0x23 =>
      if !mgmt && decide (cmdArg c % 4 ≠ 0) && decide (d.cfg.tenQuotaMib v.party * 64 < bytesAt c 16 4) then .error refuse13 else .ok {}
    | 0x40 =>
      let rq : W1024 := BitVec.ofNat 1024 (leNat b)
      (match d.checkRequest v rq with
      | some r => .error r
      | none => .ok { req := some rq })
    | _ => .ok {}

/-- Checks 6 to 13 of one command. The commands that management may not send fail check 8 whatever their fields hold (R108). -/
def Dev.checkCmd (d : Dev) (engine : Nat) (v : View) (c : W512) : Dev × Except Refuse Kept :=
  let mgmt := decide (v.party = mgmtParty)
  match cmdFormat engine mgmt (d.cfg.partSlots v.part) c with
  | some o => (d, .error (refuse6 o))
  | none =>
    if mgmt && ([0x40, 0x41, 0x11, 0x30, 0x31, 0x06].contains (cmdOp c)) then (d, .error (refuse8 0))
    else match d.readStruct v c with
    | (d1, .error r) => (d1, .error r)
    | (d1, .ok b) =>
      match d1.cmdRights v c with
      | some o => (d1, .error (refuse7 o))
      | none => if d1.markerBad v c then (d1, .error (refuse7 8)) else (d1, d1.checkFit v c b)

/-- Every command of a list in order: what is kept by index, or the index and refusal of the first that fails. -/
def Dev.checkList (d : Dev) (engine : Nat) (v : View) (l : List W512) : Dev × Except (Nat × Refuse) (List Kept) :=
  (l.mapIdx (fun i c => (i, c))).foldl (fun s x =>
    match s with
    | (d, .error e) => (d, .error e)
    | (d, .ok k) =>
      match d.checkCmd engine v x.2 with
      | (d', .error r) => (d', .error (x.1, r))
      | (d', .ok y) => (d', .ok (k ++ [y]))) (d, .ok [])

end Sys2Proof.Machine
end

