-- ==== Sys2Proof/Machine/Timebase.lean ====
section
/-! DEFINITION. Tracks and their jumps, arming and firing of position triggers, and the delivery of their actions (R67-R89, R368, R374, R395,
R399, R403). -/
namespace Sys2Proof.Machine
open Sys2Proof

/-! ## Track positions (R67, R68, R72, R74, R75) -/

/-- Line count of a camera track: headers since the frame start, then extrapolated lines up to 0xFFFF (R72). -/
def Dev.camLine (d : Dev) (c : Nat) : Nat :=
  let v := d.camCtx c
  if v.stalled then 0xFFFF
  else if v.extrapolating ∧ 2 ≤ v.hdrs ∧ v.lastLine ≠ v.firstLine then
    min 0xFFFF (v.hdrs - 1 + (d.time - v.lastLine).toNat * (v.hdrs - 1) / (v.lastLine - v.firstLine).toNat)
  else v.hdrs - 1
/-- Frame count of a context's track: 0 at the first frame start. -/
def CamCtx.frameCount (v : CamCtx) : Nat := (v.fsCount - 1) % 2 ^ 48

/-- Sample index of an AES67 stream (R74). -/
def Dev.streamIndex (d : Dev) (s : Nat) : Int := Int.fdiv (((d.ptpTime.toNat : Int) - d.cfg.mediaOffset s) * 48000) 1000000000

/-- A camera track's line count has reached 0xFFFF (R72). -/
def Dev.camStalled (d : Dev) (c : Nat) : Bool := (d.camCtx c).stalled || ((d.camCtx c).extrapolating && decide (d.camLine c = 0xFFFF))
/-- A camera track is past the last received line and its count still moves (R72). -/
def Dev.camExtrapolating (d : Dev) (c : Nat) : Bool :=
  (d.camCtx c).extrapolating && decide ((d.camCtx c).hdrs - 1 < d.camLine c) && !d.camStalled c

/-- Position of a track. -/
def Dev.trkPos (d : Dev) (n : Nat) : W64 :=
  let i := d.trkIndex n
  match d.trkSource n with
  | 1 => d.time
  | 2 => d.ptpTime
  | 3 => BitVec.ofNat 64 ((d.camCtx i).frameCount * 65536 + d.camLine i)
  | 4 => BitVec.ofInt 64 (d.streamIndex i)
  | 5 => BitVec.ofNat 64 (d.aud.tdmSyncs.get i 0 - 1)
  | 6 => d.pulsePos i
  | _ => 0

/-- TB_TRK_STATUS.valid. -/
def Dev.trkValid (d : Dev) (n : Nat) : Bool :=
  let i := d.trkIndex n
  match d.trkSource n with
  | 1 => true
  | 2 => d.ptp.valid
  | 3 => decide (2 ≤ (d.camCtx i).fsValid)
  | 4 => d.ptp.valid
  | 5 => d.aud.tdmValid.get i false
  | 6 => true
  | _ => false

/-- The track a tenant sees: 0 where it may not read it (R76). -/
def Dev.trkSeen (d : Dev) (party n : Nat) : W64 := if d.trackReadable party n then d.trkPos n else 0

/-- Whether a position meets a target (R77). -/
def reached (pulse : Bool) (mode : Nat) (pos target : W64) : Bool :=
  let p : Int := if pulse then pos.toInt else pos.toNat
  let t : Int := if pulse then target.toInt else target.toNat
  if mode = 0 then decide (t ≤ p) else decide (p ≤ t)
def Dev.trgHolds (d : Dev) (g : Trigger) : Bool :=
  d.trkValid g.track && reached (decide (d.trkSource g.track = 6)) g.mode (d.trkPos g.track) g.target

/-- Party that holds a trigger: its tenant, or the management function (R89). -/
def Dev.trgParty (d : Dev) (n : Nat) : Nat := (d.cfg.trgOwner n).getD mgmtParty

/-- Fields of TB_TRG_ACTION (R82). -/
def Trigger.actType (g : Trigger) : Nat := fld g.action 0 4
def Trigger.actUnit (g : Trigger) : Nat := fld g.action 8 8
def Trigger.actPtr (g : Trigger) : Nat := fld g.action 16 48

/-! ## Held lists and programs (R368, R399, R403) -/

/-- Gives up what a trigger holds in an I3C controller, a pulse channel or a UART. -/
def Dev.freeHeld (d : Dev) (n : Nat) : Dev :=
  { d with
    cam := { d.cam with i3c := d.cam.i3c.map (fun e => (e.1, { e.2 with slots := e.2.slots.filter (fun s => decide (s.trigger ≠ n)) })) }
    pls := { d.pls with
      ch := d.pls.ch.map (fun e => (e.1, { e.2 with held := e.2.held.filter (fun s => decide (s.trigger ≠ n)) }))
      uarts := d.pls.uarts.map (fun e => (e.1, { e.2 with held := e.2.held.filter (fun s => decide (s.trigger ≠ n)) })) } }

/-- What the check of a fetched I3C list remembers (R367, R368). -/
def Cfg.listFault (c : Cfg) (party : Nat) (b : List B8) : Option (B8 × W32) :=
  let n := leAt b 0 1
  let s := leAt b 1 1
  let stamp := (leAt b 2 1).testBit 0
  let tx (j : Nat) : Bool :=
    let o := 16 + 16 * j
    decide (leAt b o 1 < 128) && decide (leAt b (o + 1) 1 < 4) && decide (1 ≤ leAt b (o + 2) 1) && decide (leAt b (o + 2) 1 ≤ 12) && zeroAt b (o + 3) 1
      && (decide (s = 0xFF) || c.classUsed s (leAt b (o + 1) 1))
  let ok := decide (1 ≤ n) && decide (n ≤ 32) && (decide (s < 128) || decide (s = 0xFF)) && decide (leAt b 2 1 < 2) && zeroAt b 3 1
    && (if stamp then decide (leAt b 4 4 ≠ 0) && decide (s ≠ 0xFF) else decide (leAt b 4 4 = 0)) && zeroAt b 8 8 && (List.range n).all tx
  if !ok then some (0x04, 0xF4)
  else if stamp && decide (c.ctxOwner (c.sensorRef s) ≠ party) then some (0x03, 0xF3)
  else none

/-- What the arming check of a pulse program remembers (R398, R399); its reserved bits and bytes are ignored (R7). -/
def Cfg.pulseFault (c : Cfg) (ch : Nat) (b : List B8) : Option (B8 × W32) :=
  let n := pulCount b
  let seg (j : Nat) : Bool :=
    let o := 16 + 16 * j
    if c.pulsePwm ch then decide (1000 ≤ leAt b o 4) && decide (leAt b (o + 4) 4 ≤ leAt b o 4)
    else decide (1 ≤ leAt b (o + 8) 4) && decide (1 ≤ leAt b (o + 12) 4)
  let fast (j : Nat) : Bool :=
    let o := 16 + 16 * j
    !c.pulsePwm ch && decide (leAt b o 4 ≠ 0) && (decide (leAt b (o + 4) 4 < c.vMin ch) || decide (1000000000 / (2 * c.pulseNs ch) < leAt b (o + 4) 4))
  if 15 < n ∨ (n = 0 ∧ !pulAbort b) ∨ !(List.range n).all seg then some (0x04, 0xF8)
  else if (List.range n).any fast then some (0x08, 0xF9)
  else none

/-- What the arming check of a UART program remembers (R402, R403); its reserved bits and bytes are ignored (R7). -/
def uartFault (b : List B8) : Option (B8 × W32) :=
  let send := leAt b 0 2
  let recv := leAt b 2 1
  if send = 0 ∨ 256 < send ∨ 64 < recv ∨ (recv ≠ 0 ∧ (leAt b 8 4 = 0 ∨ 1000000 < leAt b 8 4)) ∨ leAt b 16 8 % 64 ≠ 0 then some (0x04, 0xF8)
  else none

/-- Reads a structure whose length its first part tells; a refused read is remembered. -/
def Dev.fetchHeld (d : Dev) (v : View) (a first : Nat) (more : List B8 → Nat) : Dev × Except Fail (List B8) :=
  match d.readMem v a first with
  | (d1, .error e) => (d1, .error e)
  | (d1, .ok b) =>
    match d1.readMem v (a + first) (more b) with
    | (d2, .error e) => (d2, .error e)
    | (d2, .ok c) => (d2, .ok (b ++ c))

/-- Fetches what a trigger's action needs into a slot of its unit (R368, R399, R403); without a free slot nothing is held. -/
def Dev.fetchAction (d : Dev) (n party : Nat) (g : Trigger) : Dev :=
  let v : View := { party := party, part := d.partyPart party }
  let u := g.actUnit
  let bad (e : Fail) : Option (B8 × W32) := some (e.status, detailOf e.code e.val)
  match g.actType with
  | 2 =>
    if 16 ≤ (d.i3c u).slots.length then d
    else
      let put (d : Dev) (b : List B8) (f : Option (B8 × W32)) : Dev := d.modI3c u (fun c => { c with slots := c.slots ++ [{ trigger := n, list := b, fail := f }] })
      match d.fetchHeld v g.actPtr 16 (fun b => 16 * min 32 (leAt b 0 1)) with
      | (d1, .error e) => put d1 [] (bad e)
      | (d1, .ok b) => put d1 b (d1.cfg.listFault party b)
  | 3 =>
    if 4 ≤ (d.pulse u).held.length then d
    else
      let put (d : Dev) (b : List B8) (f : Option (B8 × W32)) : Dev :=
        d.modPulse u (fun c => { c with held := c.held ++ [{ trigger := n, addr := g.actPtr, party := party, bytes := b, fail := f }] })
      match d.fetchHeld v g.actPtr 16 (fun b => 16 * min 15 (pulCount b)) with
      | (d1, .error e) => put d1 [] (bad e)
      | (d1, .ok b) => put d1 b (d1.cfg.pulseFault u b)
  | 4 =>
    if 4 ≤ (d.uart u).held.length then d
    else
      let put (d : Dev) (b : List B8) (f : Option (B8 × W32)) : Dev :=
        d.modUart u (fun c => { c with held := c.held ++ [{ trigger := n, addr := g.actPtr, party := party, bytes := b, fail := f }] })
      match d.fetchHeld v g.actPtr 64 (fun b => min 256 (leAt b 0 2)) with
      | (d1, .error e) => put d1 [] (bad e)
      | (d1, .ok b) => put d1 b (uartFault b)
  | _ => d

/-! ## Actions at firing (R82-R84) -/

/-- Releases a queue; a WAIT_RELEASE that waits there consumes the release and completes (R83, R112). -/
def Dev.releaseQueue (d : Dev) (q : Nat) : Dev :=
  match d.running q with
  | some r => if cmdOp r.cmd = 4 then d.finish q 0 else d.modQue q (fun v => { v with release := satInc v.release })
  | none => d.modQue q (fun v => { v with release := satInc v.release })

/-- A unit's refusal of an action: the unit and what it records. -/
abbrev Refused := Nat × Fail

/-- Starts a pulse program on a channel, or says why it does not (R399, R401). -/
def Dev.startPulse (d : Dev) (n u : Nat) : Dev × Option Refused :=
  let unit := unitHub 0x0E u
  let v := d.pulse u
  match v.held.find? (fun h => decide (h.trigger = n)) with
  | none => (d, some (unit, { status := 0x01, code := 0xFA }))
  | some h =>
    match h.fail with
    | some f => (d, some (unit, { status := f.1, code := f.2.toNat % 256, val := f.2.toNat / 256 }))
    | none =>
      let pos := d.pulsePos u
      let brake := if v.running.isSome then d.brakeSteps u else (0, 0, 1)
      let own := ((d.cfg.legs u h.bytes).map (fun g => g.steps)).sum
      let final := pos.toInt + brake.1 + own
      if v.running.isSome && !pulAbort h.bytes then (d, some (unit, { status := 0x01, code := 0xFA }))
      else if d.cfg.posLimit u ≠ 0 ∧ d.cfg.posLimit u < final.natAbs then (d, some (unit, { status := 0x08, code := 0xF9 }))
      else
        let d1 := match v.running with
          | some old => d.deviceWrite old.party (d.partyPart old.party) (old.addr + 8) (pulseResult 1 ((d.pulseTravel u).steps - v.brake + brake.1))
          | none => d
        let forward := match (d.cfg.legs u h.bytes).find? (fun g => decide (g.steps ≠ 0)) with | some g => g.forward | none => v.dirPin != d.cfg.dirInvert u
        (d1.modPulse u (fun v => { v with running := some h, runs := v.runs + 1, pos := pos, start := d.time, brake := brake.1, brakeV := brake.2.1,
                                          brakeD := brake.2.2, dirPin := if brake.1 = 0 then forward != d.cfg.dirInvert u else v.dirPin }), none)

/-- Performs a trigger's action; a unit that cannot accept it is named (R82, R84). -/
def Dev.performAction (d : Dev) (n : Nat) (g : Trigger) : Dev × Option Refused :=
  let party := d.trgParty n
  let u := g.actUnit
  let v : View := { party := party, part := d.partyPart party }
  let refusal (unit : Nat) (f : B8 × W32) : Option Refused := some (unit, { status := f.1, code := f.2.toNat % 256, val := f.2.toNat / 256 })
  match g.actType with
  | 1 => (d.releaseQueue (qkey party (u % 4) (u / 4 % 8)), none)
  | 2 =>
    match (d.i3c u).slots.find? (fun s => decide (s.trigger = n)) with
    | none => (d, some (unitHub 0x10 u, { status := 0x01, code := 0xF6 }))
    | some s => match s.fail with
      | some f => (d, refusal (unitHub 0x10 u) f)
      | none => (d.modI3c u (fun c => { c with queue := c.queue ++ [(party, s.list)] }), none)
  | 3 => d.startPulse n u
  | 4 =>
    match (d.uart u).held.find? (fun h => decide (h.trigger = n)) with
    | none => (d, some (unitHub 0x0F u, { status := 0x01, code := 0xFA }))
    | some h => match h.fail with
      | some f => (d, refusal (unitHub 0x0F u) f)
      | none => (d.modUart u (fun c => { c with queue := c.queue ++ [h] }), none)
  | 5 =>
    let arr := decide (128 ≤ u)
    let unit := if arr then unitHub 0x0D 0 else unitHub 0x0C 0
    match (if arr then (d.array (u % 128)).record else (d.camCtx (u % 128)).stats) with
    | none => (d.drawn, some (unit, { status := 0x01, code := (Config.freeByte d.draw).toNat }))
    | some b => match d.writeMem v g.actPtr b with
      | (d1, some e) => (d1, some (unit, e))
      | (d1, none) => (d1, none)
  | 6 => (if party < 64 then d.event party 2 else d, none)
  | _ => (d, none)

/-! ## Firing (R79, R81, R85) -/

/-- How a firing came about: its condition came to hold, its target had passed at arming, or its track jumped. -/
inductive FireCause where
  | reached
  | late
  | jump
deriving DecidableEq, Repr

/-- The target of a periodic trigger after a firing, and the further moves that count as missed (R81). -/
def nextTarget (pulse : Bool) (mode : Nat) (pos target : W64) (iv : Nat) : W64 × Nat :=
  let p : Int := if pulse then pos.toInt else pos.toNat
  let t0 : Int := if pulse then target.toInt else target.toNat
  let t := if mode = 0 then t0 + iv else t0 - iv
  let gap := if mode = 0 then p - t else t - p
  let n : Nat := if gap < 0 ∨ iv = 0 then 0 else (gap / (iv : Int)).toNat + 1
  (BitVec.ofInt 64 (if mode = 0 then t + n * iv else t - n * iv), n)

/-- A trigger becomes idle and gives up what it holds. -/
def Dev.idleTrigger (d : Dev) (n : Nat) : Dev := (d.modTrg n (fun g => { g with armed := false })).freeHeld n

/-- When the next trigger can dispatch: now, or one nanosecond after the last one (R85). -/
def Dev.dispatchAt (d : Dev) : Nat := max d.time.toNat d.trgNext.toNat

/-- A trigger fires (R85): its action, its status, its dispatch time, and its next target. -/
def Dev.fire (d : Dev) (n : Nat) (why : FireCause) : Dev :=
  let g := d.trg n
  let at_ := d.dispatchAt
  let miss := decide (why = .late) && !g.lateOk
  let d1 := ({ d with trgNext := BitVec.ofNat 64 (at_ + 1) } : Dev).modTrg n (fun g => { g with
    fired := true, firedCnt := satInc g.firedCnt, late := decide (why = .late), jumped := decide (why = .jump), time := BitVec.ofNat 64 at_
    missed := g.missed || miss, missedCnt := if miss then satInc g.missedCnt else g.missedCnt, lastStatus := if miss then 0x0E else 0 })
  let d2 := match d1.performAction n g with
    | (d', none) => d'
    | (d', some (unit, f)) =>
      (d'.modTrg n (fun g => { g with actionFailed := true, failCnt := satInc g.failCnt, lastStatus := f.status })).failRec (d.trgParty n) unit f
  if g.interval = 0 then d2.idleTrigger n
  else
    let x := nextTarget (decide (d.trkSource g.track = 6)) g.mode (d.trkPos g.track) g.target g.interval.toNat
    d2.modTrg n (fun g => { g with target := x.1, missed := g.missed || decide (x.2 ≠ 0), missedCnt := satAdd g.missedCnt x.2 })

/-- Armed triggers whose condition holds, ascending. -/
def Dev.dueTriggers (d : Dev) : List Nat := (d.triggers.filter (fun e => e.2.armed && d.trgHolds e.2)).map (fun e => e.1)
/-- Armed triggers of some tracks whose condition holds fire as after a jump, in the one ascending order of R85 (R73). -/
def Dev.fireJumped (d : Dev) (trks : List Nat) : Dev :=
  (d.dueTriggers.filter (fun n => trks.contains (d.trg n).track)).foldl (fun d n => d.fire n .jump) d
/-- The tracks of a discontinuity jump together (R73). -/
def Dev.jump (d : Dev) (trks : List Nat) : Dev := (trks.foldl (fun d n => d.modTrk n (fun t => { t with jumpCnt := satInc t.jumpCnt })) d).fireJumped trks

/-- Tracks with a source type and index. -/
def Dev.tracksOf (d : Dev) (src ix : Nat) : List Nat := (List.range 256).filter (fun n => decide (d.trkSource n = src) && decide (d.trkIndex n = ix))
/-- Every track of a source type. -/
def Dev.tracksBy (d : Dev) (src : Nat) : List Nat := (List.range 256).filter (fun n => decide (d.trkSource n = src))
/-- Those of these tracks that have their first valid position after Dawn: their triggers are handled as after a jump (R484). -/
def Dev.resumeTracks (d : Dev) (l : List Nat) : Dev :=
  let ts := l.filter (fun n => (d.trk n).resuming && d.trkValid n)
  (ts.foldl (fun d n => d.modTrk n (fun t => { t with resuming := false })) d).fireJumped ts

/-! ## Arming (R78, R79) -/

/-- The queue, index and sub_tag of an ARM_TRIGGER. -/
abbrev CmdRef := Nat × Nat × W16

/-- The unit that an action names is its party's (R78). -/
def Dev.ownsUnit (d : Dev) (party : Nat) (g : Trigger) : Bool :=
  let u := g.actUnit
  match g.actType with
  | 1 => decide (64 ≤ party) || decide (u / 4 % 8 < d.cfg.tenQueues party (u % 4))
  | 2 => decide (d.cfg.i3cOwner u = some party)
  | 3 => decide (d.cfg.pulseOwner u = some party)
  | 4 => decide (d.cfg.uartOwner u = some party)
  | 5 => if 128 ≤ u then d.cfg.arrayOn (u % 128) && decide (d.cfg.arrayOwner (u % 128) = party) else d.cfg.ctxOn u && decide (d.cfg.ctxOwner u = party)
  | _ => true

/-- The check of R78 that fails first: its row, its status, and whether the pointer failed. Where the pointer and another condition of one
row fail together the spec does not say whether the record names the pointer: here the pointer comes first in row 1 and last in row 2
(DESIGN CHOICE). -/
def Dev.armFault (d : Dev) (n party : Nat) (g : Trigger) : Option (Nat × B8 × Bool) :=
  if g.actPtr % 64 ≠ 0 then some (1, 0x04, true)
  else if 7 ≤ g.actType ∨ 2 ≤ g.mode then some (1, 0x04, false)
  else if d.trgParty n ≠ party ∨ !d.trackReadable party g.track ∨ !d.ownsUnit party g ∨ (d.boot.locked ∧ !d.cfg.adjustable 3) then some (2, 0x03, false)
  else if 0x10000000000 ≤ g.actPtr then some (2, 0x03, true)
  else if (g.mode = 1 ∧ d.trkSource g.track ≠ 6) ∨ ((g.actType = 1 ∨ g.actType = 6) ∧ 64 ≤ party) then some (3, 0x08, false)
  else if !d.trkValid g.track then some (4, 0x01, false)
  else none

/-- The error record of a refused arming (R78). -/
def Dev.armRec (d : Dev) (n party row : Nat) (status : B8) (ptr : Option Nat) (cmd : Option CmdRef) : Dev :=
  let c := cmd.getD (0, 0xFFFF, 0)
  d.record { time := d.time, tenant := if party < 64 then party else mgmtParty, status := status, unit := unitHub 3 0, detail := detailOf row n,
             address := ptr.getD 0, space := if ptr.isSome then 0 else 3, partition := d.partyPart party,
             queue := if cmd.isSome then qByte c.1 + 0x80 else 0, index := c.2.1, subTag := c.2.2 }

/-- Arms trigger `n` with the CTL, ACTION and TARGET it holds: the status of R78 or R79. -/
def Dev.arm (d : Dev) (n party : Nat) (cmd : Option CmdRef) : Dev × B8 :=
  let d0 := d.idleTrigger n
  let g := d0.trg n
  match d0.armFault n party g with
  | some (row, st, ptr) =>
    ((d0.modTrg n (fun g => { g with lastStatus := st })).armRec n party row st (if ptr then some g.actPtr else none) cmd, st)
  | none =>
    let d1 := (d0.modTrg n (fun g => { g with armed := true })).fetchAction n party g
    if !d1.trgHolds g then (d1, 0)
    else if d1.trkPos g.track = g.target then (d1.fire n .reached, 0)
    else (d1.fire n .late, if g.lateOk then 0 else 0x0E)

/-! ## Writes of the trigger registers (R80, R89, R90) -/

/-- Global number of trigger `k` as a window names it; none where the view has no such trigger (R90). -/
def Dev.trgOf (d : Dev) (party k : Nat) : Option Nat :=
  if party < 64 then (if k < d.cfg.trgCount party then some (d.cfg.trgFirst party + k) else none) else if k < 1024 then some k else none

/-- A management write to a trigger that a tenant holds (R89). -/
def Dev.trgForeign (d : Dev) (party n : Nat) : Bool := decide (64 ≤ party) && (d.cfg.trgOwner n).isSome

/-- A write of TB_TRG_TARGET (R80): a low half is kept for the write of the high half that arms, so the target of an armed trigger changes as
a whole or not at all. -/
def Dev.writeTarget (d : Dev) (party k : Nat) (value : W64) (half : Half) : Dev :=
  match d.trgOf party k with
  | none => d
  | some n =>
    if d.trgForeign party n then d.armRec n party 2 0x03 none none
    else
      let lo := BitVec.ofNat 64 (value.toNat % 2 ^ 32)
      let hi := BitVec.ofNat 64 (value.toNat / 2 ^ 32 * 2 ^ 32)
      match half with
      | .low => d.modTrg n (fun g => { g with
          lowHalf := lo.truncate 32, target := if g.armed then g.target else BitVec.ofNat 64 (g.target.toNat / 2 ^ 32 * 2 ^ 32) + lo })
      | .high => ((d.modTrg n (fun g => { g with target := hi + g.lowHalf.zeroExtend 64 })).arm n party none).1
      | .full => ((d.modTrg n (fun g => { g with target := value, lowHalf := lo.truncate 32 })).arm n party none).1

/-- TB_TRG_CTL's stored fields from a written value. -/
def Trigger.ctl (g : Trigger) (v : W64) : Trigger :=
  { g with track := fld v 0 8, mode := fld v 8 2, lateOk := v.getLsbD 10, interval := BitVec.ofNat 32 (fld v 32 32) }
/-- clr_cnt: the three counters clear (R80). -/
def Trigger.clearCounts (g : Trigger) : Trigger := { g with firedCnt := 0, missedCnt := 0, failCnt := 0 }

/-- A write of TB_TRG_CTL or TB_TRG_ACTION: it disarms without firing, and stores where the party may (R80, R89). -/
def Dev.writeTrgCtl (d : Dev) (party k : Nat) (isAction : Bool) (value : W64) : Dev :=
  match d.trgOf party k with
  | none => d
  | some n =>
    let d1 := d.idleTrigger n
    if d.trgForeign party n then d1
    else if isAction then d1.modTrg n (fun g => { g with action := value &&& 0xFFFFFFFFFFFFFF0F#64 })
    else d1.modTrg n (fun g => let g1 := g.ctl value; if value.getLsbD 11 then g1.clearCounts else g1)

/-! ## The rows -/

/-- TRIGGER_FIRE (R79, R85): the lowest-numbered armed trigger whose condition holds fires; another has to wait for its turn. -/
def execTriggerFire (n : Nat) (s : State) : Host.Outcome State Fault Refusal :=
  .next { s with dev := if s.dev.dueTriggers.head? = some n ∧ s.dev.pwr.state ≤ 1 then s.dev.fire n .reached else s.dev }

/-- CAMERA_TRACK_STALL (R72): the extrapolated line count of the context on track `n` reaches 0xFFFF. -/
def execCameraTrackStall (n : Nat) (s : State) : Host.Outcome State Fault Refusal :=
  let d := s.dev
  let c := d.trkIndex n
  .next { s with dev := if d.trkSource n = 3 ∧ (d.camCtx c).extrapolating ∧ d.camLine c = 0xFFFF then d.modCtx c (fun v => { v with stalled := true, extrapolating := false }) else d }

/-- A preset of the pulse track `n` of channel `ch`, under the idle rule (R75). -/
def Dev.preset (d : Dev) (n ch : Nat) (value : W64) : Dev :=
  if (d.pulse ch).running.isSome then d.modTrk n (fun t => { t with presetRefused := true, presetCnt := satInc t.presetCnt })
  else (d.modPulse ch (fun v => { v with pos := value })).jump [n]

/-- A write of TB_TRK_POS or of its view: a preset by the tenant that owns the channel, or by the management function where none does
(R75). -/
def Dev.writePos (d : Dev) (party n : Nat) (value : W64) : Dev :=
  let ch := d.trkIndex n
  if 256 ≤ n ∨ d.trkSource n ≠ 6 then d
  else match d.cfg.pulseOwner ch with
    | some t =>
      if party = t then d.preset n ch value
      else if 64 ≤ party then d.regRec party 0x03 0 0 (0x11000 + 8 * n) else d
    | none => if 64 ≤ party then d.preset n ch value else d

end Sys2Proof.Machine
end

