-- ==== Sys2Proof/Machine/Commands.lean ====
section
/-! DEFINITION. The commands every work engine accepts, timeouts, reservations, and the programs of the Compute engine with TUNE
(R94, R95, R110-R114, R120, R135, R201, R335-R337). -/
namespace Sys2Proof.Machine
open Sys2Proof

/-! ## Starting a command -/

/-- How a queue's commands reach memory: as their party in its partition (R107). -/
def Dev.qView (d : Dev) (q : Nat) : View := { party := qParty q, part := d.qPart q }

/-- Starts the head command of queue `q` where it has opcode `op` and its turn has come (R93, R94), and does `f` with it. -/
def Dev.begin (d : Dev) (q op : Nat) (f : Dev → W512 → Dev) : Dev :=
  match d.startable q op with
  | none => d
  | some c => if d.turnOf q c then f (d.startCmd q c) c else d

/-- The running command of queue `q`, where it has opcode `op`. -/
def Dev.ongoing (d : Dev) (q op : Nat) (f : Dev → Running → Dev) : Dev :=
  match d.running q with
  | none => d
  | some r => if cmdOp r.cmd = op then f d r else d

/-- Index and sub_tag of the command that runs on a queue. -/
def Dev.cmdAt (d : Dev) (q : Nat) : Nat × W16 := match (d.que q).lists with | l :: _ => (l.index, l.subTag) | [] => (0xFFFF, 0)

/-- A command whose access to memory was refused. -/
def Dev.failMem (d : Dev) (q : Nat) (e : Fail) : Dev := (d.modelFault e).failDisp q e

/-- A failure to which the spec gives a status and no detail code. -/
def Dev.failOpen (d : Dev) (q : Nat) (status : B8) : Dev :=
  d.drawn.failDisp q { status := status, code := (Config.freeByte d.draw).toNat }

/-! ## NOP, MARKER, SIGNAL, WAIT_VALUE, WAIT_RELEASE (R111, R112) -/

/-- NOP completes. -/
def Dev.nopCmd (d : Dev) (q : Nat) : Dev := d.begin q 0 (fun d _ => d.finish q 0)

/-- MARKER: the snapshot it asks for, its kind 4 entry, and its end. -/
def Dev.markerCmd (d : Dev) (q : Nat) : Dev :=
  d.begin q 1 (fun d c =>
    let at_ := d.cmdAt q
    let sel := BitVec.ofNat 64 (bytesAt c 8 8)
    let value := BitVec.ofNat 64 (cmdArg c)
    let d1 := if sel = 0 then d else d.snapshot (qParty q) sel (some (cmdTag c, at_.2, cmdArg c, qByte q))
    (d1.emit q { tag := cmdTag c, subTag := at_.2, status := 0, kind := 4, index := at_.1, result := value }).finish q value)

/-- SIGNAL: `op` 0 writes the value, 1 adds it; the result word is what memory then holds. -/
def Dev.signalCmd (d : Dev) (q op : Nat) : Dev :=
  match d.startable q 2 with
  | none => d
  | some c0 =>
    if cmdArg c0 % 4 ≠ op ∨ d.busyIn (d.qView q) (bytesAt c0 8 8) 8 then d
    else d.begin q 2 (fun d c =>
      let v := d.qView q
      let a := bytesAt c 8 8
      let x := BitVec.ofNat 64 (bytesAt c 16 8)
      match (if op = 0 then (d, .ok []) else d.readMem v a 8) with
      | (d1, .error e) => d1.failMem q e
      | (d1, .ok b) =>
        let r : W64 := if op = 0 then x else BitVec.ofNat 64 (leNat b) + x
        match d1.writeMem v a (leBytes 8 r.toNat) with
        | (d2, some e) => d2.failMem q e
        | (d2, none) => d2.finish q r)

/-- The condition of a WAIT_VALUE on the value it reads. -/
def waitHolds (c : W512) (v : Nat) : Bool :=
  let x := bytesAt c 16 8
  if cmdArg c % 4 = 0 then decide (x ≤ v) else if cmdArg c % 4 = 1 then decide (v = x) else decide (v ≠ x)

/-- A running WAIT_VALUE reads its address, and completes where its condition holds; a tile on the move holds the read back (R216). -/
def Dev.waitCheck (d : Dev) (q : Nat) (c : W512) : Dev :=
  if d.busyIn (d.qView q) (bytesAt c 8 8) 8 then d
  else match d.readMem (d.qView q) (bytesAt c 8 8) 8 with
  | (d1, .error e) => d1.failMem q e
  | (d1, .ok b) => if waitHolds c (leNat b) then d1.finish q 0 else d1
def Dev.waitValueCmd (d : Dev) (q : Nat) : Dev := d.begin q 3 (fun d c => d.waitCheck q c)
def Dev.waitValueMet (d : Dev) (q : Nat) : Dev := d.ongoing q 3 (fun d r => d.waitCheck q r.cmd)

/-- WAIT_RELEASE consumes a release of its queue, or waits for one (R83). -/
def Dev.waitReleaseCmd (d : Dev) (q : Nat) : Dev :=
  d.begin q 4 (fun d _ =>
    if (d.que q).release = 0 then d else (d.modQue q (fun v => { v with release := v.release - 1 })).finish q 0)

/-! ## WAIT_POSITION, ARM_TRIGGER -/

/-- The track condition of a WAIT_POSITION (R77). -/
def Dev.positionMet (d : Dev) (c : W512) : Bool :=
  let t := cmdArg c % 256
  d.trkValid t && reached (decide (d.trkSource t = 6)) (nfld (cmdArg c) 8 2) (d.trkPos t) (BitVec.ofNat 64 (bytesAt c 8 8))

/-- WAIT_POSITION: a track that is not valid ends it; a condition that holds completes it. -/
def Dev.waitPositionCmd (d : Dev) (q : Nat) : Dev :=
  d.begin q 5 (fun d c =>
    if !d.trkValid (cmdArg c % 256) then d.failOpen q 0x01
    else if d.positionMet c then d.finish q 0 else d)
def Dev.waitPositionMet (d : Dev) (q : Nat) : Dev := d.ongoing q 5 (fun d r => if d.positionMet r.cmd then d.finish q 0 else d)

/-- ARM_TRIGGER: writes the trigger's three registers and arms it; its status is that of the arming (R78, R79). -/
def Dev.armCmd (d : Dev) (q : Nat) : Dev :=
  d.begin q 6 (fun d c =>
    let party := qParty q
    match d.trgOf party (cmdArg c) with
    | none => d.failOpen q 0x03
    | some n =>
      let at_ := d.cmdAt q
      let d1 := (d.writeTrgCtl party (cmdArg c) false (BitVec.ofNat 64 (bytesAt c 8 8))).writeTrgCtl party (cmdArg c) true (BitVec.ofNat 64 (bytesAt c 16 8))
      let d2 := d1.modTrg n (fun g => { g with target := BitVec.ofNat 64 (bytesAt c 24 8) })
      match d2.arm n party (some (q, at_.1, at_.2)) with
      | (d3, st) => if st = 0x0E then d3.failOpen q 0x0E else d3.endCmd q st 0 none)

/-! ## BARRIER (R113) -/

/-- A barrier that is full: every waiting queue completes, and the count is 0 again. -/
def Dev.barrierRelease (d : Dev) (t b : Nat) : Dev :=
  let g := (d.ten t).barriers.get b {}
  if g.count ≠ 0 ∧ g.participants ≤ g.count then
    g.waiting.foldl (fun d q => d.finish q 0) (d.modTen t (fun v => { v with barriers := v.barriers.set b {} }))
  else d

/-- A queue arrives at a barrier; where the round before is full, its queues complete first and the arrival opens a new round. -/
def Dev.barrierCmd (d : Dev) (q : Nat) : Dev :=
  d.begin q 7 (fun d c =>
    let party := qParty q
    let b := cmdArg c % 16
    let n := nfld (cmdArg c) 4 6
    let d := d.barrierRelease party b
    let g := (d.ten party).barriers.get b {}
    if g.count ≠ 0 ∧ g.participants ≠ n then d.failOpen q 0x08
    else d.modTen party (fun v => { v with barriers := v.barriers.set b { count := g.count + 1, participants := n, waiting := g.waiting ++ [q] } }))

/-! ## Timeouts and reservations (R95, R110) -/

/-- The timeout field of a command, in µs; 0 where it has none. -/
def cmdTimeout (c : W512) : Nat :=
  match cmdOp c with
  | 3 => bytesAt c 24 4
  | 4 => bytesAt c 8 4
  | 5 => bytesAt c 16 4
  | 7 => bytesAt c 8 4
  | 0x10 | 0x11 => bytesAt c 32 4
  | _ => 0

/-- The timeout of a queue's running command has passed. -/
def Dev.timedOut (d : Dev) (q : Nat) : Bool :=
  match d.running q with
  | none => false
  | some r => decide (cmdTimeout r.cmd ≠ 0) && decide (r.started.toNat + 1000 * cmdTimeout r.cmd ≤ d.time.toNat)

/-- The barrier at which a queue's running command waits; a full one has let its queues go (R113). -/
def Dev.leaveFull (d : Dev) (q : Nat) : Dev :=
  match d.running q with
  | some r => if cmdOp r.cmd = 7 then d.barrierRelease (qParty q) (cmdArg r.cmd % 16) else d
  | none => d

/-- COMMAND_TIMEOUT: the command ends. A BARRIER whose round is full has completed before. -/
def Dev.commandTimeout (d : Dev) (q : Nat) : Dev :=
  if d.timedOut q then (let e := d.leaveFull q; if (e.running q).isNone then e else e.failOpen q 0x11) else d

/-- REGION_RESERVATION: a Compute command that has waited 2 ms for busy regions reserves them. -/
def Dev.reserve (d : Dev) (q : Nat) : Dev :=
  match d.headCmd q with
  | none => d
  | some (_, c) =>
    if decide (qEngine q = 0) && d.mayStart q && decide (cmdMask c &&& d.busyMask (d.qPart q) ≠ 0)
        && decide ((d.que q).readySince.toNat + 2000000 ≤ d.time.toNat) then
      d.modQue q (fun v => { v with reserved := true })
    else d

/-! ## Step programs (R114, R120, R135, R201, R245) -/

/-- The write-back of one on-chip copy, with a record for each line it cannot read (R201). -/
def Dev.giveUpSlot (d : Dev) (e : Nat × Tile) : Dev :=
  let src := slotDpa e.2.slot
  let tag := d.mem.tags.get (tagNo src) {}
  let bad := (maskLines tag.written).filter (fun i => (firstIn 8 d.mem.bad (src + 64 * i) 64).isSome)
  let d1 := d.writeBack e.1 e.2
  bad.foldl (fun d i => d.countUe.record { time := d.time, tenant := if e.2.owner < 64 then e.2.owner else mgmtParty, status := 0x0C, unit := unitCluster (e.2.slot / 32) 10,
                                           detail := 0x93, address := src + 64 * i, space := 1, partition := keyPart e.1 }) d1

/-- The tier copies in the clusters of some regions whose slots lie below a footprint. -/
def Dev.coveredCopies (d : Dev) (mask foot : Nat) : List (Nat × Tile) :=
  d.mapped.filter (fun e => e.2.onchip && mask.testBit (e.2.slot / 32 / 16) && decide (e.2.slot % 32 * tileSize < foot))

/-- What makes a slot's model unavailable at the start of a command (R120). -/
def Dev.modelGone (d : Dev) (p s : Nat) : Option Fail :=
  let v := d.slot (slotNo p s)
  if v.current.isNone || v.degraded || v.unloading then some { status := 0x10, code := 0x89, val := s } else none

/-- Starts the program of the running command of queue `q`: covered copies are written back, and the generation is pinned. -/
def Dev.startProgram (d : Dev) (q : Nat) (c : W512) (g : Prog) : Dev :=
  let mask := cmdArg c
  let d1 := (d.coveredCopies mask (bytesAt g.hdr 12 4)).foldl (fun d e => d.giveUpSlot e) (d.clearRegions (BitVec.ofNat 16 mask))
  let d2 := if g.slot < 8 then d1.pin (slotNo g.partition g.slot) g.gen else d1
  (d2.modQue q (fun v => { v with running := v.running.map (fun r => { r with prog := some g }) })).progEnd (.queue q)

/-- The program that validation kept for the running command of a queue (R104). -/
def Dev.keptProg (d : Dev) (q : Nat) : List W512 :=
  match (d.que q).lists with | l :: _ => l.progs.get l.index [] | [] => []

/-- A program from its kept words. -/
def Dev.progOf (d : Dev) (q : Nat) (c : W512) : Prog :=
  let ws := d.keptProg q
  let p := d.qPart q
  let s := bytesAt c 28 1
  { hdr := ws.headD 0, steps := ws.drop 1, party := qParty q, partition := p, mask := BitVec.ofNat 16 (cmdArg c), param := bytesAt c 16 8, slot := s,
    gen := if s < 8 then (match d.currentGen (slotNo p s) with | some x => x.number | none => 0) else 0, attr := qParty q }

/-- STEP_PROGRAM starts when its turn has come and its regions are free. -/
def Dev.stepProgramCmd (d : Dev) (q : Nat) : Dev :=
  d.begin q 0x10 (fun d c =>
    match (workSlot c).bind (d.modelGone (d.qPart q)) with
    | some e => d.failDisp q e
    | none => d.startProgram q c (d.progOf q c))

/-! ## TUNE (R335-R337) -/

/-- The header of an adapter state block fails R335 for a command, or the block extends beyond the tenant's tiles. Its parts lie within it
(DEDUCED), and reserved bits and bytes are ignored (R7). -/
def Dev.adapterBad (d : Dev) (v : View) (c : W512) (h : List B8) : Bool :=
  let a := bytesAt c 40 8
  decide (leAt h 0 4 ≠ 0x50444151) || decide (leAt h 4 2 ≠ 1) || decide (leAt h 8 1 ≠ bytesAt c 28 1)
    || decide (leAt h 9 1 = 0) || decide (64 < leAt h 9 1) || decide (256 < leAt h 0x0A 2) || decide (leAt h 0x18 4 % 64 ≠ 0)
    || decide (leAt h 0x20 8 < leAt h 0x18 4 + leAt h 0x1C 4) || decide (leAt h 0x20 8 < leAt h 0x28 4 + 4 * leAt h 0x0A 2)
    || decide (leAt h 0x20 8 < 64) || !d.ownedRange v a (leAt h 0x20 8)

/-- Records of the sequences that a table names, none where one is not the tenant's, not HELD, or on another slot; one that another TUNE
holds is not free to be listed (DESIGN CHOICE). -/
def Dev.tuneSeqsOf (d : Dev) (party slot : Nat) (ids : List Nat) : Option (List Nat) :=
  ids.foldr (fun id l =>
    match l, d.findSeq id with
    | some k, some (r, s) => if s.tenant = party ∧ s.state = 7 ∧ bytesAt s.req 0 1 = slot ∧ s.heldBy.isNone then some (r :: k) else none
    | _, _ => none) (some [])

/-- The workspace of the model that a program names, which a TUNE's program may write (R227, R308). -/
def Dev.tuneSpace (d : Dev) (g : Prog) : Dev × Except Fail (Option (Nat × Nat)) :=
  let m := d.manifest (slotNo g.partition g.slot) g.gen
  if 8 ≤ g.slot ∨ srvVocab m = 0 then (d, .ok none)
  else match d.servingOf g.partition g.slot g.gen m with
    | (d1, .ok (_, w)) => (d1, .ok (some (windowBase g.slot + w.header, w.stop - w.header)))
    | (d1, .error e) => (d1, .error e)

/-- TUNE starts: its state block, its adapter slot and its sequences are judged, then its program runs, or with frozen it ends. -/
def Dev.tuneCmd (d : Dev) (q : Nat) : Dev :=
  d.begin q 0x11 (fun d c =>
      let party := qParty q
      let v := d.qView q
      let a := bytesAt c 40 8
      let k := bytesAt c 36 1
      let ten := d.ten party
      match (workSlot c).bind (d.modelGone (d.qPart q)) with
      | some e => d.failDisp q e
      | none =>
        match d.readMem v a 64 with
        | (d1, .error e) => d1.failMem q e
        | (d1, .ok h) =>
          if d1.adapterBad v c h then d1.failDisp q { status := 0x04, code := 0xEB }
          else if (ten.adapters.get k {}).heldByTune || d1.live.any (fun e => decide (e.2.tenant = party) && decide (e.2.adapter = k)) then
            d1.failDisp q { status := 0x01, code := 0xE4 }
          else match d1.readMem v (a + leAt h 0x28 4) (4 * leAt h 0x0A 2) with
            | (d2, .error e) => d2.failMem q e
            | (d2, .ok tb) =>
              match d2.tuneSeqsOf party (bytesAt c 28 1) (codes32 tb) with
              | none => d2.failDisp q { status := 0x03, code := 0xE6 }
              | some rs =>
                let d3 := rs.foldl (fun d r => d.modSeq r (fun s => { s with heldBy := some q }))
                  (d2.modTen party (fun t => { t with adapters := t.adapters.set k { t.adapters.get k {} with heldByTune := true } }))
                let frozen := (leAt h 6 2).testBit 0
                let g := d3.progOf q c
                let g1 : Prog := { g with adapter := k, stateAddr := a, iters := bytesAt c 48 4, tuneSeqs := rs }
                let held (d : Dev) : Dev := d.modQue q (fun v => { v with running := v.running.map (fun r => { r with prog := some { g1 with mask := 0, slot := 255 } }) })
                if frozen then (held d3).finish q 0
                else match d3.tuneSpace g with
                  | (d4, .error e) => (held d4).failDisp q e
                  | (d4, .ok w) => d4.startProgram q c { g1 with ws := w })

/-- TUNE_ITERATION: an iteration has ended; its count is written, and the next one starts or the command ends. -/
def Dev.tuneIteration (d : Dev) (q : Nat) : Dev :=
  d.ongoing q 0x11 (fun d r =>
    match r.prog with
    | none => d
    | some g =>
      if !g.over || g.fail.isSome then d
      else
        let n := g.itersDone + 1
        match d.writeMem (d.qView q) (g.stateAddr + 0x10) (leBytes 8 n) with
        | (d1, some e) => d1.failMem q e
        | (d1, none) =>
          if g.iters ≤ 1 then (d1.setRunning q { r with prog := some { g with iters := 0, itersDone := n } }).finish q 0
          else d1.setRunning q { r with prog := some { g with iters := g.iters - 1, itersDone := n, pcs := [], units := [], holds := [] } })

/-! ## The rows -/

def execNop (q : Nat) (s : State) : Host.Outcome State Fault Refusal := .next { s with dev := s.dev.nopCmd q }
def execMarker (q : Nat) (s : State) : Host.Outcome State Fault Refusal := .next { s with dev := s.dev.markerCmd q }
def execSignalWrite (q : Nat) (s : State) : Host.Outcome State Fault Refusal := .next { s with dev := s.dev.signalCmd q 0 }
def execSignalAdd (q : Nat) (s : State) : Host.Outcome State Fault Refusal := .next { s with dev := s.dev.signalCmd q 1 }
def execWaitValue (q : Nat) (s : State) : Host.Outcome State Fault Refusal := .next { s with dev := s.dev.waitValueCmd q }
def execWaitValueMet (q : Nat) (s : State) : Host.Outcome State Fault Refusal := .next { s with dev := s.dev.waitValueMet q }
def execWaitRelease (q : Nat) (s : State) : Host.Outcome State Fault Refusal := .next { s with dev := s.dev.waitReleaseCmd q }
def execWaitPosition (q : Nat) (s : State) : Host.Outcome State Fault Refusal := .next { s with dev := s.dev.waitPositionCmd q }
def execWaitPositionMet (q : Nat) (s : State) : Host.Outcome State Fault Refusal := .next { s with dev := s.dev.waitPositionMet q }
def execArmTrigger (q : Nat) (s : State) : Host.Outcome State Fault Refusal := .next { s with dev := s.dev.armCmd q }
def execBarrier (q : Nat) (s : State) : Host.Outcome State Fault Refusal := .next { s with dev := s.dev.barrierCmd q }
def execBarrierRelease (t b : Nat) (s : State) : Host.Outcome State Fault Refusal := .next { s with dev := s.dev.barrierRelease t b }
def execCommandTimeout (q : Nat) (s : State) : Host.Outcome State Fault Refusal := .next { s with dev := s.dev.commandTimeout q }
def execRegionReservation (q : Nat) (s : State) : Host.Outcome State Fault Refusal := .next { s with dev := s.dev.reserve q }
def execStepProgram (q : Nat) (s : State) : Host.Outcome State Fault Refusal := .next { s with dev := s.dev.stepProgramCmd q }
def execTune (q : Nat) (s : State) : Host.Outcome State Fault Refusal := .next { s with dev := s.dev.tuneCmd q }
def execTuneIteration (q : Nat) (s : State) : Host.Outcome State Fault Refusal := .next { s with dev := s.dev.tuneIteration q }
def execComplEntryDrain (q : Nat) (s : State) : Host.Outcome State Fault Refusal := .next { s with dev := (s.dev.drainOne q).flushEnded }

end Sys2Proof.Machine
end

