-- ==== Sys2Proof/Machine/Pipeline.lean ====
section
/-! DEFINITION. The image pipeline: its stages over one batch of lines, the statistics taps and the scaler outputs (R352-R360, R373). -/
namespace Sys2Proof.Machine
open Sys2Proof

/-! ## Parameter block (R357, R358) -/

def parOn (m : List B8) (stage : Nat) : Bool := (leAt m 6 2).testBit stage
def parU16 (m : List B8) (off : Nat) : Nat := leAt m off 2
def parS16 (m : List B8) (off : Nat) : Int := toSigned 16 (leAt m off 2)
def parTone (m : List B8) (i : Nat) : Nat := leAt m (0x140 + 2 * i) 2
def parLsc (m : List B8) (i j c : Nat) : Nat := leAt m (0x380 + (17 * j + i) * 8 + 2 * c) 2

/-- A scaler entry. -/
structure Scaler where
  enable : Bool
  full : Bool
  channels : Nat
  cropX : Nat
  cropY : Nat
  cropW : Nat
  cropH : Nat
  outW : Nat
  outH : Nat
deriving DecidableEq, Repr

def scaler (m : List B8) (o : Nat) : Scaler :=
  let b := 0x80 + 64 * o
  { enable := (leAt m b 1).testBit 0, full := (leAt m b 1).testBit 1, channels := leAt m (b + 1) 1, cropX := leAt m (b + 4) 2, cropY := leAt m (b + 6) 2,
    cropW := leAt m (b + 8) 2, cropH := leAt m (b + 10) 2, outW := leAt m (b + 12) 2, outH := leAt m (b + 14) 2 }
def parScale (m : List B8) (o c : Nat) : F32 := BitVec.ofNat 32 (leAt m (0x90 + 64 * o + 4 * c) 4)
def parOffset (m : List B8) (o c : Nat) : F32 := BitVec.ofNat 32 (leAt m (0xA0 + 64 * o + 4 * c) 4)

/-- Byte offset of the first field of a block that R357 or R358 rules out for a context of `w` by `h`. -/
def blockFault (m : List B8) (w h : Nat) : Option Nat :=
  let big (k : Nat) : Bool × Nat := (decide (0x8000 ≤ parU16 m (0x44 + 2 * k)), 0x44 + 2 * k)
  let entry (o : Nat) : List (Bool × Nat) :=
    let b := 0x80 + 64 * o
    let s := scaler m o
    [(decide (4 ≤ leAt m b 1), b), (decide (4 ≤ s.channels), b + 1), (!zeroAt m (b + 2) 2, b + 2), (decide (w < s.cropX + s.cropW), b + 4),
     (decide (h < s.cropY + s.cropH), b + 6), (decide (s.cropW < 16), b + 8), (decide (s.cropH < 16), b + 10),
     (decide (s.outW % 16 ≠ 0) || decide (s.cropW < s.outW) || decide (16 * s.outW < s.cropW), b + 12),
     (decide (s.outH % 16 ≠ 0) || decide (s.cropH < s.outH) || decide (16 * s.outH < s.cropH), b + 14)]
      ++ (List.range 4).map (fun c => (f32Special (parScale m o c), b + 16 + 4 * c))
      ++ (List.range 4).map (fun c => (f32Special (parOffset m o c), b + 32 + 4 * c)) ++ [(!zeroAt m (b + 48) 16, b + 48)]
  let all : List (Bool × Nat) :=
    [(decide (leAt m 0 4 ≠ 0x42504351), 0), (decide (leAt m 4 2 ≠ 1), 4), (decide (128 ≤ leAt m 6 2), 6), (!zeroAt m 0x0C 52, 0x0C),
     (decide (parU16 m 0x40 = 0), 0x40), (!zeroAt m 0x42 2, 0x42), big 0, big 1, big 2, big 3, (!zeroAt m 0x5B 5, 0x5B), (!zeroAt m 0x78 8, 0x78)]
    ++ entry 0 ++ entry 1 ++ entry 2 ++ [(!zeroAt m 0x342 62, 0x342), (!zeroAt m 0xA68 24, 0xA68)]
  (all.find? (fun x => x.1)).map (fun x => x.2)

/-! ## Mosaics (R354) -/

/-- Bits of a sample of a data type (R344). -/
def rawBits (dt : Nat) : Nat := if dt = 0x2A then 8 else if dt = 0x2B then 10 else if dt = 0x2C then 12 else if dt = 0x2D then 14 else 16

/-- Cell of a mosaic: 0 R, 1 G, 2 B, 3 X (IR, C or the single channel). -/
def mosaicCell (code : Nat) : List (List Nat) :=
  match code with
  | 0 => [[0, 1], [1, 2]]
  | 1 => [[1, 0], [2, 1]]
  | 2 => [[1, 2], [0, 1]]
  | 3 => [[2, 1], [1, 0]]
  | 4 => [[2, 1, 0, 1], [1, 3, 1, 3], [0, 1, 2, 1], [1, 3, 1, 3]]
  | 5 => [[0, 1], [2, 3]]
  | _ => [[3]]
def chanAt (code y x : Nat) : Nat := let c := mosaicCell code; let r := c.getD (y % c.length) []; r.getD (x % r.length) 3

/-- Index `i + d` within `n`, or its mirror image about `i` (R356). -/
def mirror (i : Nat) (d : Int) (n : Nat) : Nat := if 0 ≤ (i : Int) + d ∧ (i : Int) + d < n then ((i : Int) + d).toNat else ((i : Int) - d).toNat

/-- Rows of samples, the first of which is line `y0` of the frame. -/
structure Grid where
  y0 : Nat
  rows : List (List Nat)
deriving DecidableEq, Repr

def Grid.at_ (g : Grid) (y x : Nat) : Nat := (g.rows.getD y []).getD x 0
def Grid.width (g : Grid) : Nat := (g.rows.headD []).length
/-- Maps each sample by its row and column. -/
def Grid.mapAt (g : Grid) (f : Nat → Nat → Nat → Nat) : Grid := { g with rows := g.rows.mapIdx (fun y l => l.mapIdx (fun x v => f y x v)) }

/-- Offsets (dx, dy) within 2 lines and 2 pixels, in rings of equal distance, nearest first; horizontal ones lead a ring. -/
def rings : List (List (Int × Int)) :=
  [[(-1, 0), (1, 0), (0, -1), (0, 1)], [(-1, -1), (1, -1), (-1, 1), (1, 1)], [(-2, 0), (2, 0), (0, -2), (0, 2)],
   [(-2, -1), (2, -1), (-2, 1), (2, 1), (-1, -2), (1, -2), (-1, 2), (1, 2)], [(-2, -2), (2, -2), (-2, 2), (2, 2)]]
/-- The samples of channel `c` on a ring about (x, y), with their offsets. -/
def Grid.onRing (g : Grid) (code c y x : Nat) (ring : List (Int × Int)) : List ((Int × Int) × Nat) :=
  ring.filterMap (fun o =>
    let x1 := mirror x o.1 g.width
    let y1 := mirror y o.2 g.rows.length
    if chanAt code (g.y0 + y1) x1 = c then some (o, g.at_ y1 x1) else none)

/-- Stage 1: a sample far beyond its four nearest of one channel becomes the mean of the middle two. -/
def Grid.defect (g : Grid) (code thr : Nat) : Grid :=
  g.mapAt (fun y x v =>
    let n := (((rings.map (g.onRing code (chanAt code (g.y0 + y) x) y x)).flatten).take 4).map (fun e => e.2)
    let hi := n.foldl max 0
    let lo := n.foldl min 65535
    if hi + thr < v ∨ v + thr < lo then (n.sum - hi - lo) / 2 else v)

/-- Position of node `i` of `n` along `len` pixels (R353). -/
def nodeAt (i n len : Nat) : Nat := i * (len - 1) / n
/-- The node at or before a pixel. -/
def nodeBefore (p n len : Nat) : Nat := ((List.range n).filter (fun i => decide (nodeAt i n len ≤ p))).length - 1

/-- The shading gain at (x, y), rounded to the nearest integer. -/
def lscGain (m : List B8) (w h x y c : Nat) : Nat :=
  let i := nodeBefore x 16 w
  let j := nodeBefore y 12 h
  let x0 := nodeAt i 16 w
  let x1 := nodeAt (i + 1) 16 w
  let y0 := nodeAt j 12 h
  let y1 := nodeAt (j + 1) 12 h
  let area := (x1 - x0) * (y1 - y0)
  let s := parLsc m i j c * (x1 - x) * (y1 - y) + parLsc m (i + 1) j c * (x - x0) * (y1 - y) + parLsc m i (j + 1) c * (x1 - x) * (y - y0)
    + parLsc m (i + 1) (j + 1) c * (x - x0) * (y - y0)
  (2 * s + area) / (2 * area)

/-- A gain of 12 fractional bits, rounded and saturated. -/
def gain12 (v g : Nat) : Nat := min 65535 ((v * g + 2048) >>> 12)

/-- Stages 2 and 3 on a sample. -/
def shade (m : List B8) (w h code y x v : Nat) : Nat :=
  let c := chanAt code y x
  let black := parU16 m (0x44 + 2 * c)
  let v1 := if black < v then (v - black) * 65535 / (65535 - black) else 0
  if parOn m 1 then gain12 v1 (lscGain m w h x y c) else v1

/-- The rounded mean of some samples. -/
def roundedMean (l : List Nat) : Nat := if l.isEmpty then 0 else (2 * l.sum + l.length) / (2 * l.length)
def absDiff (a b : Nat) : Nat := max a b - min a b

/-- Stage 4: the value of channel `c` at a pixel. -/
def Grid.recon (g : Grid) (code c y x : Nat) : Nat :=
  if chanAt code (g.y0 + y) x = c then g.at_ y x
  else match (rings.map (g.onRing code c y x)).find? (fun l => !l.isEmpty) with
    | none => 0
    | some l =>
      let hs := (l.filter (fun e => decide (e.1.2 = 0))).map (fun e => e.2)
      let vs := (l.filter (fun e => decide (e.1.1 = 0))).map (fun e => e.2)
      match hs, vs with
      | [a, b], [p, q] =>
        if absDiff a b < absDiff p q then roundedMean [a, b] else if absDiff p q < absDiff a b then roundedMean [p, q] else roundedMean [a, b, p, q]
      | _, _ => roundedMean (l.map (fun e => e.2))

/-- The pixels after stage 4. -/
def Grid.pixels (g : Grid) (code : Nat) : List (List Px) :=
  g.rows.mapIdx (fun y l => l.mapIdx (fun x v =>
    if 6 ≤ code then { r := v, g := v, b := v, x := v }
    else { r := g.recon code 0 y x, g := g.recon code 1 y x, b := g.recon code 2 y x, x := if 4 ≤ code then g.recon code 3 y x else 0 }))

/-- Stage 5 (R355). -/
def irStage (m : List B8) (code : Nat) (p : Px) : Px :=
  if code < 4 ∨ 6 ≤ code then p
  else
    let ir := if code = 4 then p.x else (p.r + p.g + p.b - p.x) / 2
    let sub (v k : Nat) : Nat := if parOn m 2 then v - ((parU16 m (0x54 + 2 * k) * ir + 2048) >>> 12) else v
    { r := sub p.r 0, g := sub p.g 1, b := sub p.b 2, x := gain12 ir (parU16 m 0x52) }

/-- Stages 6 and 7 on the colour channels. -/
def colourStage (m : List B8) (code : Nat) (p : Px) : Px :=
  if 6 ≤ code then p
  else
    let wb (v k : Nat) : Nat := if parOn m 3 then gain12 v (parU16 m (0x4C + 2 * k)) else v
    let r := wb p.r 0
    let g := wb p.g 1
    let b := wb p.b 2
    let row (i : Nat) : Nat :=
      let o := 0x60 + 8 * i
      let s := Int.fdiv (parS16 m o * r + parS16 m (o + 2) * g + parS16 m (o + 4) * b + 2048) 4096 + parS16 m (o + 6)
      (min 65535 (max 0 s)).toNat
    if parOn m 4 then { p with r := row 0, g := row 1, b := row 2 } else { p with r := r, g := g, b := b }

/-- Stage 8 on one value. -/
def toneOf (m : List B8) (v : Nat) : Nat :=
  let a : Int := parTone m (v >>> 8)
  let b : Int := parTone m ((v >>> 8) + 1)
  (a + Int.fdiv ((b - a) * (v % 256 : Nat) + 128) 256).toNat
/-- Stage 8 on the channels of a pixel; a Bayer context has no IR, which reads 0 (R360). -/
def toneStage (m : List B8) (code : Nat) (p : Px) : Px :=
  if parOn m 5 then { r := toneOf m p.r, g := toneOf m p.g, b := toneOf m p.b, x := if code < 4 then 0 else toneOf m p.x } else p

/-- Stage 9 on one plane of the pixels: the mean of the window's samples near the sample. -/
def denoise (rows : List (List Px)) (sel : Px → Nat) (near y x : Nat) : Nat :=
  let w := (rows.headD []).length
  let v (y x : Nat) : Nat := sel ((rows.getD y []).getD x {})
  let c := v y x
  let win := (([-2, -1, 0, 1, 2] : List Int).map (fun dy => ([-2, -1, 0, 1, 2] : List Int).map (fun dx => v (mirror y dy rows.length) (mirror x dx w)))).flatten
  let ok := win.filter (fun s => decide (absDiff s c ≤ near))
  ok.sum / ok.length
def noiseStage (m : List B8) (rows : List (List Px)) : List (List Px) :=
  let near := 16 * leAt m 0x5A 1
  if !parOn m 6 ∨ near = 0 then rows
  else rows.mapIdx (fun y l => l.mapIdx (fun x _ =>
    { r := denoise rows (fun p => p.r) near y x, g := denoise rows (fun p => p.g) near y x, b := denoise rows (fun p => p.b) near y x, x := denoise rows (fun p => p.x) near y x }))

/-- Lines of a batch at the white-balance tap, after stage 7, and after stage 9. -/
structure Taps where
  wb : List (List Px)
  colour : List (List Px)
  final : List (List Px)

/-- Stages 1 to 9 on a batch whose lines follow `kept` lines of the previous one; the first of all is line `y0` (R352, R356). -/
def runStages (m : List B8) (code bits w h y0 kept : Nat) (raw : List (List W16)) : Taps :=
  let g0 : Grid := { y0 := y0, rows := raw.map (fun l => l.map (fun v => v.toNat <<< (16 - bits))) }
  let g1 := if parOn m 0 then g0.defect code (parU16 m 0x40) else g0
  let g3 := g1.mapAt (fun y x v => shade m w h code (y0 + y) x v)
  let p5 := (g3.pixels code).map (fun l => l.map (irStage m code))
  let p7 := p5.map (fun l => l.map (colourStage m code))
  let p9 := noiseStage m (p7.map (fun l => l.map (toneStage m code)))
  { wb := p5.drop kept, colour := p7.drop kept, final := p9.drop kept }

/-! ## Statistics (R372, R373) -/

/-- Luma of a pixel. -/
def Px.luma (p : Px) : Nat := (54 * p.r + 183 * p.g + 19 * p.b + 128) >>> 8
def Px.largest (p : Px) : Nat := max p.r (max p.g p.b)
/-- The cell of `n` over `len` pixels that holds pixel `i`. -/
def cellOf (i n len : Nat) : Nat := ((List.range n).filter (fun k => decide (k * len / n ≤ i))).length - 1
def bump (t : Tbl Nat) (k n : Nat) : Tbl Nat := t.set k (t.get k 0 + n)

/-- A frame's statistics after one line `y` of a context of `w` by `h`. -/
def statLine (f : Frame) (w h y : Nat) (wb colour final : List Px) : Frame :=
  let f1 := (wb.mapIdx (fun x p => (x, p))).foldl (fun (f : Frame) e =>
    let cell := 32 * cellOf y 24 h + cellOf e.1 32 w
    let zone := 8 * cellOf y 6 h + cellOf e.1 8 w
    let f2 := if 0xF000 ≤ e.2.largest then { f with clipped := f.clipped + 1 }
      else { f with wbSum := bump (bump (bump (bump f.wbSum (4 * cell) e.2.r) (4 * cell + 1) e.2.g) (4 * cell + 2) e.2.b) (4 * cell + 3) 1 }
    { f2 with irSum := bump f2.irSum zone e.2.x }) f
  let f3 := colour.foldl (fun (f : Frame) p => { f with hist := f.hist.set (p.luma / 256) (f.hist.get (p.luma / 256) 0 + 1) }) f1
  let ys := final.map Px.luma
  (List.range ys.length).foldl (fun f x =>
    let at_ (d : Int) : Nat := ys.getD (mirror x d ys.length) 0
    { f with sharp := bump f.sharp (8 * cellOf y 6 h + cellOf x 8 w) (((2 * (at_ 0 : Int) - at_ (-1) - at_ 1).natAbs) >>> 4) }) f3

/-- The statistics record of a frame (R372). -/
def statRecord (f : Frame) (ctx code w h gen : Nat) (unc : Bool) : List B8 :=
  let ir := decide (4 ≤ code)
  let cell (k : Nat) : List B8 :=
    let n := f.wbSum.get (4 * k + 3) 0
    let mean (c : Nat) : Nat := if n = 0 then 0 else f.wbSum.get (4 * k + c) 0 / n
    leBytes 2 (mean 0) ++ leBytes 2 (mean 1) ++ leBytes 2 (mean 2) ++ leBytes 2 (min 65535 n)
  let side (i n len : Nat) : Nat := (i + 1) * len / n - i * len / n
  let zone (k : Nat) : Nat := side (k / 8) 6 h * side (k % 8) 8 w
  leBytes 4 0x41545351 ++ leBytes 1 ctx ++ leBytes 1 ((if unc then 1 else 0) + (if ir then 2 else 0)) ++ leBytes 2 0 ++ leBytes 8 f.no ++ leBytes 4 gen
    ++ leBytes 4 (leAt f.params 8 4) ++ leBytes 8 f.tStart.toNat ++ leBytes 8 f.tEnd.toNat ++ leBytes 2 w ++ leBytes 2 h ++ leBytes 4 f.clipped.toNat ++ leBytes 16 0
    ++ ((List.range 256).map (fun i => leBytes 4 (f.hist.get i 0).toNat)).flatten ++ ((List.range 768).map cell).flatten
    ++ ((List.range 48).map (fun k => leBytes 4 (min 4294967295 (f.sharp.get k 0)))).flatten
    ++ ((List.range 48).map (fun k => leBytes 4 (if ir then f.irSum.get k 0 / max 1 (zone k) else 0))).flatten ++ leBytes 576 0

/-! ## Scaler outputs (R358, R360) -/

/-- Bytes per frame of an output format. -/
def frameSize (format : Nat) (s : Scaler) : Nat :=
  let n := if s.channels = 0 then 3 else if s.channels = 3 then 4 else 1
  let a := s.outW * s.outH
  if format = 0 then a * 3 / 2 else if format = 1 then 3 * a else if format = 2 then n * a else 2 * n * a
/-- The channels that a format allows. -/
def formatTakes (format channels : Nat) : Bool := if format < 2 then decide (channels = 0) else decide (format < 4) && decide (channels < 4)

/-- Lines of the frame that output row `k` needs. -/
def Scaler.need (s : Scaler) (k : Nat) : Nat := s.cropY + cdiv ((k + 1) * s.cropH) s.outH
/-- Weights of the pixels of a span of `len` that fall to share `k` of `n`: index and weight. -/
def shares (k n len : Nat) : List (Nat × Nat) :=
  (List.range (cdiv ((k + 1) * len) n - k * len / n)).map (fun i =>
    let p := k * len / n + i
    (p, min ((p + 1) * n) ((k + 1) * len) - max (p * n) (k * len)))
/-- The exact area mean of one plane at output pixel (x, k), rounded to nearest. -/
def Scaler.mean (s : Scaler) (rows : List (List Px)) (sel : Px → Nat) (k x : Nat) : Nat :=
  let sum := ((shares k s.outH s.cropH).map (fun a =>
    let line := rows.getD (s.cropY + a.1) []
    ((shares x s.outW s.cropW).map (fun b => a.2 * b.2 * sel (line.getD (s.cropX + b.1) {}))).sum)).sum
  (2 * sum + s.cropW * s.cropH) / (2 * (s.cropW * s.cropH))
/-- Output row `k` of a scaler. -/
def Scaler.row (s : Scaler) (rows : List (List Px)) (k : Nat) : List Px :=
  (List.range s.outW).map (fun x => { r := s.mean rows (fun p => p.r) k x, g := s.mean rows (fun p => p.g) k x, b := s.mean rows (fun p => p.b) k x, x := s.mean rows (fun p => p.x) k x })

def eightBit (t : Nat) : B8 := BitVec.ofNat 8 (min 255 ((t + 128) >>> 8))
/-- The values of the tensor channels of a pixel, in the order of R360. -/
def Px.channels (p : Px) (ch : Nat) : List Nat := if ch = 0 then [p.r, p.g, p.b] else if ch = 1 then [p.luma] else if ch = 2 then [p.x] else [p.r, p.g, p.b, p.x]
/-- A tensor element: code and saturation (R360, R155-R157). -/
def tensorElem (m : List B8) (o format c t : Nat) : Nat × Nat :=
  let p := fmul (f32OfInt t) (fdiv f32One (f32OfInt 65535))
  convertTo (if format = 2 then 4 else 0) (fadd (fmul p (parScale m o c)) (parOffset m o c))
def w16Px (p : Px) : W16 × W16 × W16 := (BitVec.ofNat 16 p.r, BitVec.ofNat 16 p.g, BitVec.ofNat 16 p.b)

/-- What output rows `k0` to `k1 - 1` write: offsets in the frame's data with their bytes, and the saturations. -/
def outputRows (m : List B8) (o format k0 k1 : Nat) (rows : List (List Px)) : List (Nat × List B8) × Nat :=
  let s := scaler m o
  let area := s.outW * s.outH
  let ks := (List.range (k1 - k0)).map (fun i => k0 + i)
  if format = 0 then
    (ks.map (fun k =>
      let row := s.row rows k
      let luma := (k * s.outW, row.map (fun p => let q := w16Px p; Config.bt709Luma s.full q.1 q.2.1 q.2.2))
      if k % 2 = 0 then [luma]
      else
        let up := s.row rows (k - 1)
        let chroma := (List.range (s.outW / 2)).map (fun i =>
          let c := Config.bt709Chroma s.full ([up.getD (2 * i) {}, up.getD (2 * i + 1) {}, row.getD (2 * i) {}, row.getD (2 * i + 1) {}].map w16Px)
          [c.1, c.2])
        [luma, (area + k / 2 * s.outW, chroma.flatten)]) |>.flatten, 0)
  else if format = 1 then
    ((ks.map (fun k =>
      let row := s.row rows k
      [(k * s.outW, row.map (fun p => eightBit p.r)), (area + k * s.outW, row.map (fun p => eightBit p.g)), (2 * area + k * s.outW, row.map (fun p => eightBit p.b))])).flatten, 0)
  else
    let e := if format = 2 then 1 else 2
    let all := ks.map (fun k =>
      (s.row rows k).mapIdx (fun x p =>
        (p.channels s.channels).mapIdx (fun c t =>
          let v := tensorElem m o format c t
          ((c * area + subIndex s.outW k x) * e, leBytes e v.1, v.2))))
    let flat := all.flatten.flatten
    (flat.map (fun x => (x.1, x.2.1)), (flat.map (fun x => x.2.2)).sum)

end Sys2Proof.Machine
end

