-- ==== Sys2Proof/Machine/Camera.lean ====
section
/-! DEFINITION. Camera tracks, the line pool, frames and their delivery, the bindings of outputs, I3C lists and sensor generations
(R72, R73, R344-R375). -/
namespace Sys2Proof.Machine
open Sys2Proof

/-- The package runs: its rails are up, it has not tripped, and it is neither in Dusk nor in Night (R483, R505). -/
def Dev.awake (d : Dev) : Bool := d.boot.powered && !d.boot.thermtrip && decide (d.pwr.state ≤ 1)

/-! ## Contexts -/

/-- The active parameter set of a context. -/
def Dev.ctxParams (d : Dev) (c : Nat) : List B8 := if (d.camCtx c).params.isEmpty then d.cfg.defaultBlock (d.cfg.ctxDefault c) else (d.camCtx c).params
/-- Contexts on a virtual channel of a port. -/
def Cfg.contextsOn (c : Cfg) (port vc : Nat) : List Nat := c.contexts.filter (fun n => decide (c.ctxPort n = port) && decide (c.ctxVc n = vc))
/-- How the device writes for a context's owner. -/
def Dev.ctxView (d : Dev) (c : Nat) : View := { party := d.cfg.ctxOwner c, part := d.cfg.tenPart (d.cfg.ctxOwner c) }
def CamCtx.out (v : CamCtx) (o : Nat) : Option OutBind := v.outs.get o none
def Dev.modOut (d : Dev) (c o : Nat) (f : OutBind → OutBind) : Dev := d.modCtx c (fun v => { v with outs := v.outs.set o ((v.out o).map f) })
/-- The frame that is being received. -/
def CamCtx.current (v : CamCtx) : Option Frame := v.inFlight.find? (fun f => !f.fe)
def Dev.modFrame (d : Dev) (c no : Nat) (f : Frame → Frame) : Dev :=
  d.modCtx c (fun v => { v with inFlight := v.inFlight.map (fun x => if x.no = no then f x else x) })

/-! ## Settings generations (R369-R371) -/

/-- The generation that frame `n` of the reference context carries: that of the latest effect frame at or before it. -/
def Sensor.genAt (v : Sensor) (n : Nat) : Nat :=
  ((v.effects.filter (fun e => decide (e.1.toNat ≤ n))).foldl (fun (b : Option (W64 × W32 × Nat)) e =>
    match b with
    | none => some e
    | some x => if x.1.toNat < e.1.toNat ∨ (x.1 = e.1 ∧ x.2.2 < e.2.2) then some e else some x) none).elim 0 (fun e => e.2.1.toNat)
/-- Frame `n` of the reference context may have been exposed with other settings (R370, R371). -/
def Sensor.uncAt (v : Sensor) (n : Nat) : Bool :=
  v.uncFrom.any (fun r => decide (r.1.toNat ≤ n) && decide (n ≤ r.2.toNat)) || (match v.stopped with | some s => decide (s.toNat ≤ n) | none => false)
    || v.invalidGen.any (fun g => decide (g.2 ≤ n))

/-- Generation and uncertainty of a frame of context `c`. -/
def Dev.frameGen (d : Dev) (c : Nat) (f : Frame) : Nat × Bool :=
  match f.ref with
  | some n => if d.cfg.ctxSensor c < 128 then ((d.sensor (d.cfg.ctxSensor c)).genAt n, (d.sensor (d.cfg.ctxSensor c)).uncAt n) else (0, false)
  | none => (0, false)

/-- The largest delay of a sensor's used classes. -/
def Cfg.maxDelay (c : Cfg) (s : Nat) : Nat := ((List.range 4).filter (c.classUsed s)).foldl (fun m k => max m (c.latchDelay s k)) 0

/-- A list's effect frame becomes known: uncertainty that a stopped list left ends there. -/
def Sensor.effect (v : Sensor) (e : Nat) (gen : W32) : Sensor :=
  { v with
    effects := v.effects ++ [(BitVec.ofNat 64 e, gen, v.order)], order := v.order + 1, stopped := none
    uncFrom := match v.stopped with | some s => if s.toNat < e then v.uncFrom ++ [(s, BitVec.ofNat 64 (e - 1))] else v.uncFrom | none => v.uncFrom }

/-- The lists that completed while the track was invalid take effect, now that frame `n` starts on a valid track. -/
def Dev.settleInvalid (d : Dev) (c n : Nat) : Dev :=
  (List.range 128).foldl (fun d s =>
    if !d.cfg.sensorOn s || decide (d.cfg.sensorRef s ≠ c) || (d.sensor s).invalidGen.isEmpty then d
    else d.modSensor s (fun v =>
      v.invalidGen.foldl (fun v g =>
        let e := n + d.cfg.maxDelay s
        let w := v.effect e g.1
        if g.2 < e then { w with uncFrom := w.uncFrom ++ [(BitVec.ofNat 64 g.2, BitVec.ofNat 64 (e - 1))] } else w) { v with invalidGen := [] })) d

/-! ## Ends of frames and what waits for them (R359, R361, R364) -/

/-- Both sets on chip are bound to unfinished frames (R359). -/
def CamCtx.setsBusy (v : CamCtx) : Bool := decide (2 ≤ ((v.inFlight.map (fun f => f.setNo)).eraseDups).length)

/-- A parameter set is staged, and its command completes with the number of the next frame. -/
def Dev.stageSet (d : Dev) (c q : Nat) (b : List B8) : Dev :=
  (d.modCtx c (fun v => { v with staged := some b })).finish q (BitVec.ofNat 64 ((d.camCtx c).fsCount % 2 ^ 48))

/-- Commands that waited for frames of context `c` complete. -/
def Dev.ctxRelease (d : Dev) (c : Nat) : Dev :=
  let d1 := (List.range 3).foldl (fun d o =>
    match (d.camCtx c).out o with
    | some b =>
      if b.leaving && !(d.camCtx c).inFlight.any (fun f => (f.slots.get o none).isSome) then
        let d1 := d.modCtx c (fun v => { v with outs := v.outs.set o none })
        match b.unbind with | some q => d1.finish q 0 | none => d1
      else d
    | none => d) d
  if (d1.camCtx c).setsBusy then d1
  else (d1.camCtx c).commits.foldl (fun d x => d.stageSet c x.1 x.2) (d1.modCtx c (fun v => { v with commits := [] }))

/-- A drop of context `c` is counted. -/
def Dev.countDrop (d : Dev) (c reason : Nat) : Dev := d.modCtx c (fun v => { v with drop := true, dropCnt := satInc v.dropCnt, lastReason := reason })

/-- Frame `no` of context `c` is dropped: its lines are freed, and no output and no statistics follow (R346, R366). -/
def Dev.dropFrame (d : Dev) (c no reason : Nat) : Dev :=
  match (d.camCtx c).inFlight.find? (fun f => decide (f.no = no)) with
  | none => d
  | some f =>
    let d1 := (d.countDrop c reason).modCtx c (fun v => { v with
      inFlight := v.inFlight.filter (fun x => decide (x.no ≠ no))
      outs := v.outs.map (fun e => (e.1, if (f.slots.get e.1 none).isSome then e.2.map (fun b => { b with dropped := satInc b.dropped }) else e.2)) })
    ({ d1 with cam := { d1.cam with pool := d1.cam.pool.filter (fun l => decide (l.ctx ≠ c) || decide (l.frame ≠ no)) } }).ctxRelease c

def align4k (n : Nat) : Nat := cdiv n 4096 * 4096
/-- Frame data of slot `i` of a ring with records of `n` bytes, and the ring's extent (R362). -/
def OutBind.data (b : OutBind) (i n : Nat) : Nat := b.ring + align4k (64 * b.entries) + i * align4k n
def OutBind.extent (b : OutBind) (n : Nat) : Nat := align4k (64 * b.entries) + b.entries * align4k n
/-- The slot that an output looks at next: the first in ring order that no unfinished frame holds (R364). -/
def CamCtx.nextSlot (v : CamCtx) (o : Nat) (b : OutBind) : Option Nat :=
  ((List.range b.entries).map (fun i => (b.next + i) % b.entries)).find? (fun k => !v.inFlight.any (fun f => decide (f.slots.get o none = some k)))
/-- A slot's owner bit; an entry that cannot be read counts as full. -/
def Dev.slotFull (d : Dev) (v : View) (b : OutBind) (k : Nat) : Dev × Bool :=
  match d.readMem v (b.ring + 64 * k + 63) 1 with
  | (d1, .ok l) => (d1, (leNat l).testBit 0)
  | (d1, .error _) => (d1, true)

/-- A frame that ended valid is delivered: its ring entries, its statistics, its counts (R363, R374, R380). -/
def Dev.deliver (d : Dev) (c : Nat) (f : Frame) : Dev :=
  let g := d.frameGen c f
  let v := d.camCtx c
  let view := d.ctxView c
  let d1 := d.modCtx c (fun v => { v with
    inFlight := v.inFlight.filter (fun x => decide (x.no ≠ f.no)), frames := v.frames + 1, gen := BitVec.ofNat 32 g.1
    uncertain := v.uncertain || g.2, uncCnt := if g.2 then satInc v.uncCnt else v.uncCnt
    stats := some (statRecord f c (d.cfg.ctxMosaic c) (d.cfg.ctxWidth c) (d.cfg.ctxHeight c) g.1 g.2) })
  ((List.range 3).foldl (fun d o =>
    match f.slots.get o none, v.out o with
    | some k, some b =>
      let s := scaler f.params o
      let n := frameSize b.format s
      let flags := (if g.2 then 1 else 0) + (if f.sats.get o false then 2 else 0)
      let e := leBytes 8 f.no ++ leBytes 4 g.1 ++ leBytes 4 (leAt f.params 8 4) ++ leBytes 8 f.tStart.toNat ++ leBytes 8 (f.tDone.get o 0).toNat ++ leBytes 8 (b.data k n)
        ++ leBytes 4 n ++ leBytes 2 s.outW ++ leBytes 2 s.outH ++ leBytes 1 b.format ++ leBytes 1 s.channels ++ leBytes 1 flags ++ leBytes 1 0
        ++ leBytes 4 b.dropped.toNat ++ leBytes 7 0 ++ leBytes 1 1
      (d.deviceWrite view.party view.part (b.ring + 64 * k) e).modOut c o (fun b => { b with next := (k + 1) % b.entries, dropped := 0 })
    | _, _ => d) d1).ctxRelease c

/-- A frame whose lines have all arrived, whose FE has come and whose batches have run is delivered. -/
def Dev.maybeDeliver (d : Dev) (c no : Nat) : Dev :=
  match (d.camCtx c).inFlight.find? (fun f => decide (f.no = no)) with
  | some f => if f.fe && decide (f.done = d.cfg.ctxHeight c) then d.deliver c f else d
  | none => d

/-! ## Frame start (R72, R73, R359, R361, R364) -/

/-- A frame start makes the context's track jump: it comes early, or ends a stall (R73). -/
def Dev.startJumps (d : Dev) (c : Nat) : Bool := decide (1 ≤ (d.camCtx c).fsCount) && (d.camStalled c || decide (d.camLine c < (d.camCtx c).reach))
/-- The camera track's counts at a frame start. -/
def Dev.trackStart (d : Dev) (c : Nat) : Dev :=
  let line := d.camLine c
  let stall := d.camStalled c
  let d1 := d.modCtx c (fun v => { v with
    fsCount := v.fsCount + 1, fsValid := min 2 (v.fsValid + 1), hdrs := 0, extrapolating := false, stalled := false, reach := if stall then v.reach else line })
  if (d1.camCtx c).fsValid = 2 then d1.settleInvalid c (d1.camCtx c).frameCount else d1

/-- A BIND takes effect at a frame start, or ends (R361, R362). -/
def Dev.bindNow (d : Dev) (c o : Nat) (b : OutBind) : Dev :=
  let s := scaler (d.ctxParams c) o
  let v := d.ctxView c
  let n := b.extent (frameSize b.format s)
  let off (d : Dev) : Dev := d.modCtx c (fun v => { v with outs := v.outs.set o none })
  if !s.enable || !formatTakes b.format s.channels then (off d).failDisp b.bindQ { status := 0x08, code := 0xF2 }
  else if 0x8000000000 < b.ring + n ∨ d.notOwn v b.ring n then (off d).failDisp b.bindQ { status := 0x03, code := 0xF0 }
  else match d.writeMem v b.ring (List.replicate (64 * b.entries) 0) with
    | (d1, some e) => (off d1).failMem b.bindQ e
    | (d1, none) => (d1.modOut c o (fun b => { b with pending := false })).finish b.bindQ 0

/-- The frame of a context starts. -/
def Dev.frameStart (d : Dev) (c : Nat) : Dev :=
  let v0 := d.camCtx c
  let d0 := match v0.active, v0.current with
    | true, some f => d.dropFrame c f.no 2
    | _, _ => d
  let d1 := d0.modCtx c (fun v => match v.staged with | some b => { v with params := b, staged := none, setNo := v.setNo + 1 } | none => v)
  let d2 := (List.range 3).foldl (fun d o =>
    match (d.camCtx c).out o with
    | some b => if b.pending then d.bindNow c o b else if b.unbind.isSome then d.modOut c o (fun b => { b with leaving := true }) else d
    | none => d) d1
  let x := (List.range 3).foldl (fun (st : Dev × Tbl (Option Nat)) o =>
    match (st.1.camCtx c).out o with
    | some b =>
      let missed (d : Dev) : Dev := (d.countDrop c 3).modOut c o (fun b => { b with dropped := satInc b.dropped })
      if b.pending || b.leaving then st
      else match (st.1.camCtx c).nextSlot o b with
        | none => (missed st.1, st.2)
        | some k => match st.1.slotFull (st.1.ctxView c) b k with
          | (d3, true) => (missed d3, st.2)
          | (d3, false) => (d3, st.2.set o (some k))
    | none => st) (d2, [])
  let s := x.1.cfg.ctxSensor c
  let rc := x.1.camCtx (x.1.cfg.sensorRef s)
  let f : Frame := { no := (x.1.camCtx c).frameCount, ref := if s < 128 ∧ rc.fsCount ≠ 0 then some rc.frameCount else none, params := x.1.ctxParams c,
                     setNo := (x.1.camCtx c).setNo, tStart := x.1.time, slots := x.2 }
  (x.1.modCtx c (fun v => { v with active := true, discard := false, inFlight := v.inFlight ++ [f] })).ctxRelease c

/-- A frame start on a virtual channel: the tracks of its contexts move first, then their frames start. -/
def Dev.csiStart (d : Dev) (port vc : Nat) : Dev :=
  if !d.awake || !d.cfg.camPortOn port then d
  else
    let cs := d.cfg.contextsOn port vc
    let js := (cs.filter (fun c => d.startJumps c)).flatMap (fun c => d.tracksOf 3 c)
    let d1 := ((cs.foldl (fun d c => d.trackStart c) d).jump js).resumeTracks (cs.flatMap (fun c => d.tracksOf 3 c))
    cs.foldl (fun d c => d.frameStart c) d1

/-! ## Lines (R345, R346, R365, R366) -/

def poolSize : Nat := 7340032
def poolUse (l : List Line) : Nat := (l.map (fun x => x.bytes)).sum

/-- The context that makes room for a line of context `c` (R366). -/
def Dev.victim (d : Dev) (c : Nat) : Nat :=
  let started (n : Nat) : Nat := (((d.camCtx n).inFlight.getLast?).elim 0 (fun f => f.tStart.toNat))
  ((d.cam.pool.map (fun l => l.ctx)).eraseDups).foldl (fun b n =>
    let pb := d.cfg.ctxPriority b
    let pn := d.cfg.ctxPriority n
    if pn < pb ∨ (pn = pb ∧ (started b < started n ∨ (started b = started n ∧ b < n))) then n else b) c

/-- The victim drops every frame of its own that holds lines, and discards its lines until its next frame start. -/
def Dev.overflow (d : Dev) (n : Nat) (own : Bool) : Dev :=
  let v := d.camCtx n
  let fs := v.inFlight.filter (fun f => d.cam.pool.any (fun l => decide (l.ctx = n) && decide (l.frame = f.no)) || (own && !f.fe))
  let d1 := fs.foldl (fun d f =>
    { (d.dropFrame n f.no 1) with cam := { (d.dropFrame n f.no 1).cam with overflow := true, overflowCnt := satInc (d.dropFrame n f.no 1).cam.overflowCnt } }) d
  let d2 := { d1 with cam := { d1.cam with pool := d1.cam.pool.filter (fun l => decide (l.ctx ≠ n)) } }
  d2.modCtx n (fun v => { v with discard := true })

/-- Makes room for `need` bytes of context `c`; false when its own line is discarded. -/
def Dev.makeRoom (d : Dev) (c need : Nat) : Nat → Dev × Bool
  | 0 => (d, false)
  | fuel + 1 =>
    if poolUse d.cam.pool + need ≤ poolSize then (d, true)
    else
      let n := d.victim c
      if n = c then (d.overflow c true, false) else (d.overflow n false).makeRoom c need fuel

/-- A line enters the pool. -/
def Dev.poolLine (d : Dev) (c : Nat) (f : Frame) (samples : List W16) : Dev :=
  let need := cdiv (cdiv (samples.length * rawBits (d.cfg.ctxType c)) 8) 64 * 64
  match d.makeRoom c need 130 with
  | (d1, false) => d1
  | (d1, true) =>
    let pool := d1.cam.pool ++ [{ ctx := c, frame := f.no, num := f.lines, bytes := need, samples := samples, time := d1.time }]
    ({ d1 with cam := { d1.cam with pool := pool, peak := max d1.cam.peak (poolUse pool) } }).modFrame c f.no (fun f => { f with lines := f.lines + 1 })

/-- A header of the context's data type on its track (R72). -/
def Dev.trackLine (d : Dev) (c : Nat) : Dev :=
  if (d.camCtx c).fsCount = 0 then d
  else d.modCtx c (fun v =>
    let n := v.hdrs + 1
    let first := if n = 1 then d.time else v.firstLine
    { v with hdrs := n, firstLine := first, lastLine := d.time, linePeriod := if n < 2 then v.linePeriod else BitVec.ofNat 16 (min 0xFFFF (4 * (d.time - first).toNat / (n - 1)))
             extrapolating := decide (d.cfg.ctxHeight c ≤ n) })

/-- A line of context `c` arrives (R345, R346). -/
def Dev.lineArrives (d : Dev) (c : Nat) (crcBad : Bool) (samples : List W16) : Dev :=
  let d1 := d.trackLine c
  let v := d1.camCtx c
  match v.active, v.current with
  | true, some f =>
    if v.discard then d1
    else if crcBad || decide (samples.length ≠ d1.cfg.ctxWidth c) then d1.dropFrame c f.no 2
    else if d1.cfg.ctxHeight c ≤ f.lines then d1.modFrame c f.no (fun f => { f with lines := f.lines + 1 })
    else d1.poolLine c f samples
  | _, _ => d1

/-- A long packet on a port (R345). -/
def Dev.longPacket (d : Dev) (port vc dt : Nat) (eccBad crcBad : Bool) (samples : List W16) : Dev :=
  if !d.awake || !d.cfg.camPortOn port then d
  else if eccBad then
    { d with cam := { d.cam with portFlags := d.cam.portFlags.set port (d.cam.portFlags.get port 0 ||| 2), eccCnt := d.cam.eccCnt.set port (satInc (d.cam.eccCnt.get port 0)) } }
  else match (d.cfg.contextsOn port vc).find? (fun c => decide (d.cfg.ctxType c = dt)) with
    | none => { d with cam := { d.cam with unmatched := d.cam.unmatched.set port (satInc (d.cam.unmatched.get port 0)) } }
    | some c =>
      let d1 := if crcBad then
          { d with cam := { d.cam with portFlags := d.cam.portFlags.set port (d.cam.portFlags.get port 0 ||| 1), crcCnt := d.cam.crcCnt.set port (satInc (d.cam.crcCnt.get port 0)) } }
        else d
      d1.lineArrives c crcBad samples

/-- The frame of a context ends (R346). -/
def Dev.frameEnd (d : Dev) (c : Nat) : Dev :=
  let v := d.camCtx c
  if !v.active then d
  else
    let d1 := d.modCtx c (fun v => { v with active := false, extrapolating := !v.stalled })
    match v.current with
    | none => d1
    | some f =>
      if f.lines ≠ d.cfg.ctxHeight c then d1.dropFrame c f.no 2
      else (d1.modFrame c f.no (fun f => { f with fe := true, tEnd := d1.time })).maybeDeliver c f.no

/-! ## Batches (R356, R365) -/

/-- Lines kept from the previous batch: the vertical reach of stages 1, 4 and 9. -/
def keptLines : Nat := 6

/-- A ready batch of a context: its frame and its number of lines. -/
def Dev.readyBatch (d : Dev) (c : Nat) : Option (Frame × Nat) :=
  let h := d.cfg.ctxHeight c
  match (d.camCtx c).inFlight.find? (fun f => decide (f.done < min f.lines h)) with
  | none => none
  | some f =>
    let n := min f.lines h - f.done
    if 16 ≤ n then some (f, 16) else if h ≤ f.lines then some (f, n) else none

/-- Arrival of the first line of a batch. -/
def Dev.batchTime (d : Dev) (c : Nat) (f : Frame) : Nat :=
  ((d.cam.pool.find? (fun l => decide (l.ctx = c) && decide (l.frame = f.no) && decide (l.num = f.done))).elim 0 (fun l => l.time.toNat))

/-- The context whose ready batch the pipeline takes next. -/
def Dev.nextBatch (d : Dev) : Option Nat :=
  d.cfg.contexts.foldl (fun (b : Option Nat) c =>
    match d.readyBatch c with
    | none => b
    | some (f, _) => match b with
      | none => some c
      | some x =>
        let tx := match d.readyBatch x with | some (g, _) => d.batchTime x g | none => 0
        if d.cfg.ctxPriority x < d.cfg.ctxPriority c ∨ (d.cfg.ctxPriority x = d.cfg.ctxPriority c ∧ d.batchTime c f < tx) then some c else some x) none

/-- Output rows of a scaler that the first `lines` lines complete. -/
def Scaler.rowsDone (s : Scaler) (lines : Nat) : Nat := ((List.range s.outH).filter (fun k => decide (s.need k ≤ lines))).length

/-- Writes what a batch completes for one output. -/
def Dev.writeOutput (d : Dev) (c o : Nat) (f : Frame) (before : Nat) : Dev :=
  match f.slots.get o none, (d.camCtx c).out o with
  | some k, some b =>
    let s := scaler f.params o
    let k0 := s.rowsDone before
    let k1 := s.rowsDone f.done
    if k1 ≤ k0 then d
    else
      let w := outputRows f.params o b.format k0 k1 f.rows
      let view := d.ctxView c
      let base := b.data k (frameSize b.format s)
      (w.1.foldl (fun d x => d.deviceWrite view.party view.part (base + x.1) x.2) d).modFrame c f.no (fun f =>
        { f with tDone := f.tDone.set o d.time, sats := if w.2 = 0 then f.sats else f.sats.set o true })
  | _, _ => d

/-- PIPELINE_BATCH: the context's batch runs, when it is the one that the pipeline takes. -/
def Dev.runBatch (d : Dev) (c : Nat) : Dev :=
  if !d.awake || decide (d.nextBatch ≠ some c) then d
  else match d.readyBatch c with
    | none => d
    | some (f, n) =>
      let w := d.cfg.ctxWidth c
      let h := d.cfg.ctxHeight c
      let lines := d.cam.pool.filter (fun l => decide (l.ctx = c) && decide (l.frame = f.no) && decide (l.num < f.done + n))
      let kept := lines.length - n
      let t := runStages f.params (d.cfg.ctxMosaic c) (rawBits (d.cfg.ctxType c)) w h (f.done - kept) kept (lines.map (fun l => l.samples))
      let f1 := (List.range n).foldl (fun f i => statLine f w h (f.done + i) (t.wb.getD i []) (t.colour.getD i []) (t.final.getD i [])) f
      let f2 := { f1 with done := f.done + n, rows := f.rows ++ t.final }
      let d1 := d.modFrame c f.no (fun _ => f2)
      let d2 := (List.range 3).foldl (fun d o => d.writeOutput c o f2 f.done) d1
      let d3 := { d2 with cam := { d2.cam with pool := d2.cam.pool.filter (fun l =>
        decide (l.ctx ≠ c) || decide (f.no < l.frame) || (decide (l.frame = f.no) && decide (f2.done ≤ l.num + keptLines))) } }
      d3.maybeDeliver c f.no

/-! ## I3C lists (R367-R371) -/

def listSensor (b : List B8) : Nat := leAt b 1 1
def listStamped (b : List B8) : Bool := (leAt b 2 1).testBit 0
def listClass (b : List B8) (j : Nat) : Nat := leAt b (17 + 16 * j) 1

/-- The effect frame of class `k` whose last transaction completed at a frame and line, and whether that was late. -/
def Cfg.classEffect (c : Cfg) (s k frame line : Nat) : Nat × Bool :=
  let late := decide (c.latchLine s k ≤ line)
  (frame + c.latchDelay s k + (if late then 1 else 0), late)

/-- A list has completed; `ends` names the frame and line at which each class's last transaction did, the present ones where it does not. -/
def Dev.listComplete (d : Dev) (n : Nat) (ends : List (Nat × Nat × Nat)) : Dev :=
  match (d.i3c n).running with
  | none => d
  | some (_, b) =>
    let d1 := d.modI3c n (fun v => { v with running := none })
    if !listStamped b then d1
    else
      let s := listSensor b
      let rc := d.cfg.sensorRef s
      let gen := BitVec.ofNat 32 (leAt b 4 4)
      if (d.camCtx rc).fsValid < 2 then
        d1.modSensor s (fun v => { v with
          invalidGen := v.invalidGen ++ [(gen, (d.camCtx rc).fsCount)], stopped := none
          uncFrom := match v.stopped with | some x => v.uncFrom ++ [(x, BitVec.ofNat 64 (d.camCtx rc).fsCount)] | none => v.uncFrom })
      else
        let es := (((List.range (leAt b 0 1)).map (listClass b)).eraseDups).map (fun k =>
          match ends.find? (fun e => decide (e.1 = k)) with
          | some e => d.cfg.classEffect s k e.2.1 e.2.2
          | none => d.cfg.classEffect s k (d.camCtx rc).frameCount (d.camLine rc))
        let e := (es.map (fun x => x.1)).foldl max 0
        d1.modSensor s (fun v =>
          let w := v.effect e gen
          if es.any (fun x => x.2) then { w with uncFrom := w.uncFrom ++ [(BitVec.ofNat 64 (e - 1), BitVec.ofNat 64 (e - 1))] } else w)

/-- A list stops after `done` transactions, the last of which completed at `last` (R371). -/
def Dev.listStopped (d : Dev) (n done : Nat) (last : Option (Nat × Nat)) : Dev :=
  match (d.i3c n).running with
  | none => d
  | some (owner, b) =>
    let d1 := (d.modI3c n (fun v => { v with running := none, nack := true, nackCnt := satInc v.nackCnt })).failRec owner (unitHub 0x10 n) { status := 0x01, code := 0xF5 }
    if !listStamped b then d1
    else
      let s := listSensor b
      let rc := d.cfg.sensorRef s
      let at_ := last.getD ((d.camCtx rc).frameCount, d.camLine rc)
      let from_ := if (d.camCtx rc).fsValid < 2 then (d.camCtx rc).fsCount else (d.cfg.classEffect s (listClass b (done - 1)) at_.1 at_.2).1
      d1.modSensor s (fun v => { v with stopped := some (match v.stopped with | some x => BitVec.ofNat 64 (min x.toNat from_) | none => BitVec.ofNat 64 from_) })

/-! ## The rows -/

def execCsiFrameStart (port vc : Nat) (s : State) : Host.Outcome State Fault Refusal := .next { s with dev := s.dev.csiStart port vc }
def execCsiLongPacket (port vc dt : Nat) (eccBad crcBad : Bool) (samples : List W16) (s : State) : Host.Outcome State Fault Refusal :=
  .next { s with dev := s.dev.longPacket port vc dt eccBad crcBad samples }
def execCsiFrameEnd (port vc : Nat) (s : State) : Host.Outcome State Fault Refusal :=
  .next { s with dev := if s.dev.awake && s.dev.cfg.camPortOn port then (s.dev.cfg.contextsOn port vc).foldl (fun d c => d.frameEnd c) s.dev else s.dev }
def execPipelineBatch (ctx : Nat) (s : State) : Host.Outcome State Fault Refusal := .next { s with dev := s.dev.runBatch ctx }
/-- CSI_PORT_LOCK (R377): the PHY of an enabled port starts or stops receiving. -/
def execCsiPortLock (port : Nat) (locked : Bool) (s : State) : Host.Outcome State Fault Refusal :=
  .next { s with dev :=
    if s.dev.awake && s.dev.cfg.camPortOn port then { s.dev with cam := { s.dev.cam with locked := s.dev.cam.locked.set port locked } } else s.dev }
/-- I3C_LIST_RUN (R368): an idle controller starts the list that fired first. -/
def execI3cListRun (n : Nat) (s : State) : Host.Outcome State Fault Refusal :=
  .next { s with dev := match (s.dev.i3c n).running, (s.dev.i3c n).queue with
    | none, x :: rest => if s.dev.awake then s.dev.modI3c n (fun v => { v with running := some x, queue := rest }) else s.dev
    | _, _ => s.dev }
def execI3cListComplete (n : Nat) (ends : List (Nat × Nat × Nat)) (s : State) : Host.Outcome State Fault Refusal := .next { s with dev := s.dev.listComplete n ends }
def execI3cNack (n done : Nat) (last : Option (Nat × Nat)) (s : State) : Host.Outcome State Fault Refusal := .next { s with dev := s.dev.listStopped n done last }
/-- I3C_IBI_ATTEMPT (R534): the controller does not acknowledge it. -/
def execI3cIbiAttempt (n : Nat) (s : State) : Host.Outcome State Fault Refusal :=
  .next { s with dev := if s.dev.awake && decide (n < 8) then s.dev.modI3c n (fun v => { v with ibiNacks := v.ibiNacks + 1 }) else s.dev }

end Sys2Proof.Machine
end

