-- ==== Sys2Proof/Machine/Audio.lean ====
section
/-! DEFINITION. Audio: received samples, frames of microphone arrays, beam chunks and measurements, and the Media commands
(R116, R359, R361, R382-R395). -/
namespace Sys2Proof.Machine
open Sys2Proof

/-! ## Samples (R382-R386) -/

/-- A sample code of `bits` bits as FP32: the code over 2^(bits - 1). -/
def sampleF32 (bits code : Nat) : F32 := let i := toSigned bits code; packF32 (.fin (decide (i < 0)) i.natAbs (1 - (bits : Int)))
def Dev.putSample (d : Dev) (ref ix : Nat) (x : F32) : Dev :=
  { d with aud := { d.aud with samples := d.aud.samples.set ref ((d.aud.samples.get ref []).set ix x) } }

/-- The stream position that a timestamp names: the one nearest to the stream's present index. -/
def nearestPos (now : Int) (ts : W32) : Int :=
  let delta := ((ts.toNat : Int) - now) % 4294967296
  now + (if delta < 2147483648 then delta else delta - 4294967296)
/-- media_offset in samples, rounded. -/
def Cfg.mediaShift (c : Cfg) (s : Nat) : Int := Int.fdiv (c.mediaOffset s * 96000 + 1000000000) 2000000000
/-- Channel references of an array that name a channel: microphones, then echo references (R382). -/
def Cfg.arrayMicRefs (c : Cfg) (n : Nat) : List Nat := ((List.range (c.arrayMics n)).map (c.micChan n)).filter (fun r => decide (r ≠ 0xFFFF))
def Cfg.arrayEchoRefs (c : Cfg) (n : Nat) : List Nat := ([c.aecRef n 0, c.aecRef n 1]).filter (fun r => decide (r ≠ 0xFFFF))
/-- The largest link_samples of an array's streams. -/
def Cfg.arrayLink (c : Cfg) (n : Nat) : Nat :=
  ((c.arrayMicRefs n ++ c.arrayEchoRefs n).filter (fun r => decide (r < 0x8000))).foldl (fun m r => max m (c.streamLink (r / 8))) 0
/-- The playout delay of a stream's samples: the least L of the enabled arrays that use it, since the first frame that holds a sample makes it
due; for a stream of no array its own link_samples (DEDUCED from R384 and R386). -/
def Cfg.playout (c : Cfg) (s : Nat) : Nat :=
  let uses (n : Nat) : Bool := c.arrayOn n && (c.arrayMicRefs n ++ c.arrayEchoRefs n).any (fun r => decide (r / 8 = s))
  match ((List.range 64).filter uses).map c.arrayLink with
  | [] => c.streamLink s
  | l :: r => r.foldl min l
/-- Domain index at which the frame that holds a sample is processed, after a playout delay. -/
def dueAt (ix link : Nat) : Nat := ix / 480 * 480 + 480 + link

/-- An AES67 packet (R383, R384). -/
def Dev.audioPacket (d : Dev) (s : Nat) (seq : W16) (ts : W32) (payload : List B8) : Dev :=
  if !d.awake || !d.cfg.streamOn s || !(d.ethPort (d.cfg.streamEth s)).up then d
  else
    let gap := match d.aud.rtpSeq.get s none with | some x => (seq - x - 1).toNat | none => 0
    let d1 := { d with aud := { d.aud with
      lastPkt := d.aud.lastPkt.set s (d.time + 1)
      lost := if gap < 0x8000 then d.aud.lost.set s (satAdd (d.aud.lost.get s 0) gap) else d.aud.lost
      rtpSeq := if gap < 0x8000 then d.aud.rtpSeq.set s (some seq) else d.aud.rtpSeq } }
    if !d.aud.ptpEver then d1
    else
      let ix := (nearestPos (d.streamIndex s) ts + d.cfg.mediaShift s).toNat
      if dueAt ix (d.cfg.playout s) ≤ d.mediaIndex then
        { d1 with aud := { d1.aud with late := d1.aud.late.set s true, lateCnt := d1.aud.lateCnt.set s (satInc (d1.aud.lateCnt.get s 0)) } }
      else
        let w := if d.cfg.streamL24 s then 3 else 2
        let ch := max 1 (d.cfg.streamChannels s)
        (List.range (payload.length / (w * ch))).foldl (fun d k =>
          (List.range ch).foldl (fun d c => d.putSample (8 * s + c) (ix + k) (sampleF32 (8 * w) (beNat ((payload.drop ((k * ch + c) * w)).take w)))) d) d1

/-- A frame sync of a TDM port with its 16 slots (R74, R385). -/
def Dev.tdmSync (d : Dev) (p : Nat) (samples : List W32) (periodOk : Bool) : Dev :=
  if !d.awake || !d.cfg.tdmOn p then d
  else
    let ok := periodOk || d.cfg.tdmMaster p
    let ix := d.aud.tdmSyncs.get p 0
    let d1 := { d with aud := { d.aud with
      tdmSyncs := d.aud.tdmSyncs.set p (ix + 1), tdmValid := d.aud.tdmValid.set p true, tdmLocked := d.aud.tdmLocked.set p ok
      fsErr := if ok then d.aud.fsErr else d.aud.fsErr.set p true, fsErrCnt := if ok then d.aud.fsErrCnt else d.aud.fsErrCnt.set p (satInc (d.aud.fsErrCnt.get p 0)) } }
    let bits := d.cfg.tdmBits p
    let at_ := if d.cfg.tdmMaster p then d.mediaIndex else ix
    let d2 := if ok then (samples.take 16).mapIdx (fun k x => (k, x)) |>.foldl (fun d x => d.putSample (0x8000 + 16 * p + x.1) at_ (sampleF32 bits x.2.toNat)) d1 else d1
    d2.resumeTracks (d2.tracksOf 5 p)

/-! ## Frames of an array (R386, R389-R395) -/

/-- The TDM slave port whose domain an array lies in; none in the PTP domain. -/
def Cfg.arrayPort (c : Cfg) (n : Nat) : Option Nat :=
  match c.arrayMicRefs n ++ c.arrayEchoRefs n with
  | r :: _ => if 0x8000 ≤ r ∧ !c.tdmMaster (r / 16 % 4) then some (r / 16 % 4) else none
  | [] => none
/-- Present index of an array's domain. -/
def Dev.domainIndex (d : Dev) (n : Nat) : Nat := match d.cfg.arrayPort n with | some p => d.aud.tdmSyncs.get p 0 - 1 | none => d.mediaIndex
/-- Data-plane time of a domain index of an array. -/
def Dev.indexTime (d : Dev) (n ix : Nat) : Nat := d.time.toNat - (d.domainIndex n - ix) * 1000000000 / 48000

/-- A frame of these references lacks a sample. -/
def Dev.frameGap (d : Dev) (refs : List Nat) (f : Nat) : Bool :=
  refs.any (fun r => (List.range 480).any (fun i => !(d.aud.samples.get r []).any (fun e => decide (e.1 = 480 * f + i))))

/-- A direction peak: azimuth, elevation, strength. -/
abbrev Peak := Nat × Int × Nat
def azGap (a b : Nat) : Nat := let x := max a b - min a b; min x (360 - x)
def insertPeak (p : Peak) : List Peak → List Peak
  | [] => [p]
  | x :: r => if x.2.2 < p.2.2 ∨ (x.2.2 = p.2.2 ∧ p.1 < x.1) then p :: x :: r else x :: insertPeak p r

/-- Free numbers of the frame in the making. -/
def Dev.freeAt (d : Dev) (i : Nat) : Nat := (Config.freeF32 d.draw i).toNat
/-- The reported peaks: free within R393's grid, threshold, distance, number and order. -/
def Dev.peaks (d : Dev) (n : Nat) : List Peak :=
  let c := d.cfg
  let step := max 1 (c.elStep n)
  let rows := ((c.elMax n - c.elMin n) / (step : Int)).toNat + 1
  let cand := (List.range (d.freeAt 1000 % 5)).map (fun i =>
    (d.freeAt (1001 + 3 * i) % 360, c.elMin n + (step * (d.freeAt (1002 + 3 * i) % rows) : Nat), c.peakThr n + d.freeAt (1003 + 3 * i) % (256 - c.peakThr n)))
  (cand.foldl (fun l p => insertPeak p l) []).foldl (fun (l : List Peak) p => if l.all (fun x => decide (15 ≤ azGap x.1 p.1)) then l ++ [p] else l) []

/-- Beam directions at present. -/
def Dev.beamAz (d : Dev) (n b : Nat) : Nat := if d.cfg.arrayFollow n then (d.array n).az.get b (d.cfg.fixedAz n b) else d.cfg.fixedAz n b
def Dev.beamEl (d : Dev) (n b : Nat) : Int := if d.cfg.arrayFollow n then (d.array n).el.get b (d.cfg.fixedEl n b) else d.cfg.fixedEl n b

/-- Steers the beams of a following array by the frame's peaks (R390). -/
def Dev.steer (d : Dev) (n : Nat) (ps : List Peak) : Dev :=
  if !d.cfg.arrayFollow n then d
  else
    let bs := List.range (d.cfg.arrayBeams n)
    let near (p : Peak) (b : Nat) : Bool := decide (azGap p.1 (d.beamAz n b) ≤ 15)
    let left := ps.filter (fun p => !bs.any (near p))
    let d1 := d.modArray n (fun v => { v with
      unmatched := bs.foldl (fun t b => t.set b (if ps.any (fun p => near p b) then 0 else v.unmatched.get b 0 + 1)) v.unmatched })
    let free := bs.filter (fun b => decide (50 ≤ (d1.array n).unmatched.get b 0))
    (left.zip free).foldl (fun d x => d.modArray n (fun v => { v with az := v.az.set x.2 x.1.1, el := v.el.set x.2 x.1.2.1, unmatched := v.unmatched.set x.2 0 })) d1

/-- How the device writes for an array's owner. -/
def Dev.arrayView (d : Dev) (n : Nat) : View := { party := d.cfg.arrayOwner n, part := d.cfg.tenPart (d.cfg.arrayOwner n) }
def beamElem (format : Nat) : Nat := if format = 0 then 2 else 4
/-- Bytes of a chunk (R394). -/
def Cfg.chunkSize (c : Cfg) (n format : Nat) : Nat := c.arrayBeams n * 160 * c.chunkFrames n * beamElem format

/-- At a chunk boundary a waiting BIND or UNBIND takes effect (R394). -/
def Dev.chunkBoundary (d : Dev) (n : Nat) : Dev :=
  match (d.array n).ring with
  | none => d
  | some b =>
    let v := d.arrayView n
    let size := b.extent (d.cfg.chunkSize n b.format)
    let off (d : Dev) : Dev := d.modArray n (fun v => { v with ring := none })
    if b.pending then
      if 0x8000000000 < b.ring + size ∨ d.notOwn v b.ring size then (off d).failDisp b.bindQ { status := 0x03, code := 0xF0 }
      else match d.writeMem v b.ring (List.replicate (64 * b.entries) 0) with
        | (d1, some e) => (off d1).failMem b.bindQ e
        | (d1, none) => (d1.modArray n (fun v => { v with ring := v.ring.map (fun b => { b with pending := false }) })).finish b.bindQ 0
    else match b.unbind with
      | some q => (off d).finish q 0
      | none => d

/-- A chunk starts: it takes the next slot, or is dropped for the binding. -/
def Dev.chunkStart (d : Dev) (n f : Nat) : Dev :=
  let d1 := d.modArray n (fun v => { v with
    chunk := [], chunkSlot := none, chunkFlags := 0, chunkVad := 0, chunkStart := BitVec.ofNat 64 (480 * f), chunkTime := BitVec.ofNat 64 (d.indexTime n (480 * f)) })
  match (d.array n).ring with
  | none => d1
  | some b =>
    if b.pending then d1
    else match d1.slotFull (d1.arrayView n) b b.next with
      | (d2, true) => d2.modArray n (fun v => { v with drop := true, dropCnt := satInc v.dropCnt, ring := v.ring.map (fun b => { b with dropped := satInc b.dropped }) })
      | (d2, false) => d2.modArray n (fun v => { v with chunkSlot := some b.next })

/-- A chunk ends: its data and its entry are written (R394). -/
def Dev.chunkEnd (d : Dev) (n : Nat) : Dev :=
  let v := d.array n
  let d1 := match v.ring, v.chunkSlot with
    | some b, some k =>
      if b.pending then d
      else
        let beams := d.cfg.arrayBeams n
        let e := beamElem b.format
        let size := d.cfg.chunkSize n b.format
        let view := d.arrayView n
        let code (x : F32) : List B8 := if b.format = 0 then leBytes 2 (convertTo 0 x).1 else leBytes 4 x.toNat
        let d2 : Dev := (List.range beams).foldl (fun (d : Dev) p =>
          d.deviceWrite view.party view.part (b.data k size + p * 160 * d.cfg.chunkFrames n * e)
            (((List.range v.chunkFrames).map (fun f => ((v.chunk.drop ((f * beams + p) * 160)).take 160).map code)).flatten.flatten)) d
        let entry := leBytes 8 v.chunkStart.toNat ++ leBytes 8 v.chunkTime.toNat ++ leBytes 8 (b.data k size) ++ leBytes 4 size ++ leBytes 1 b.format ++ leBytes 1 beams
          ++ leBytes 1 v.chunkFrames ++ leBytes 1 v.chunkFlags ++ leBytes 8 v.chunkVad.toNat ++ leBytes 4 b.dropped.toNat ++ leBytes 19 0 ++ leBytes 1 1
        (d2.deviceWrite view.party view.part (b.ring + 64 * k) entry).modArray n (fun (v : ArrayState) => { v with ring := v.ring.map (fun (b : OutBind) => { b with next := (k + 1) % b.entries, dropped := 0 }) })
    | _, _ => d
  (d1.modArray n (fun v => { v with chunk := [], chunkSlot := none, chunkFrames := 0, chunkFlags := 0, chunkVad := 0 })).chunkBoundary n

/-- AUDIO_FRAME: the next frame of an array is processed, once its samples are due. -/
def Dev.audioFrame (d : Dev) (n : Nat) : Dev :=
  let c := d.cfg
  let link := c.arrayLink n
  let now := d.domainIndex n
  let f := if (d.array n).running then (d.array n).nextFrame else (now - 480 - link) / 480
  if !d.awake || !c.arrayOn n || decide (now < 480 * f + 480 + link) then d
  else
    let d1 := if (d.array n).chunkFrames = 0 then (d.chunkBoundary n).chunkStart n f else d
    let beams := c.arrayBeams n
    let aec := c.arrayAec n && !(c.arrayEchoRefs n).isEmpty
    let gap := d.frameGap (c.arrayMicRefs n) f
    let refMissing := aec && d.frameGap (c.arrayEchoRefs n) f
    let double := aec && !refMissing && decide (d1.freeAt 2000 % 2 = 1)
    let ps := d1.peaks n
    let level (b : Nat) : Int := -((d1.freeAt (2001 + b) % 129 : Nat) : Int)
    let v := d1.array n
    let past (b : Nat) : List Int := ((v.levels.get b [] ++ [level b]).reverse.take 150).reverse
    let loud (b : Nat) : Bool := decide ((past b).foldl min 127 + c.vadThr n < level b)
    let hold (b : Nat) : Nat := if loud b then 20 else v.vadHold.get b 0 - 1
    let speech (b : Nat) : Bool := loud b || decide (v.vadHold.get b 0 ≠ 0)
    let bs := List.range beams
    let anySpeech := bs.any speech
    let flags := (if gap then 1 else 0) + (if refMissing then 2 else 0)
    let per (k : Nat) (g : Nat → List B8) : List B8 := ((List.range 4).map (fun b => if b < beams then g b else leBytes k 0)).flatten
    let pk (i : Nat) : List B8 := match ps[i]? with | some p => leBytes 2 p.1 ++ leBytes 1 (ofSigned 8 p.2.1) ++ leBytes 1 p.2.2 | none => leBytes 4 0
    let rec_ := leBytes 4 0x414F4451 ++ leBytes 1 n
      ++ leBytes 1 ((if anySpeech then 1 else 0) + (if refMissing then 2 else 0) + (if gap then 4 else 0) + (if double then 8 else 0))
      ++ leBytes 1 ps.length ++ leBytes 1 0 ++ leBytes 8 (480 * f + 480) ++ leBytes 8 (d.indexTime n (480 * f + 480)) ++ ((List.range 4).map pk).flatten
      ++ per 2 (fun b => leBytes 2 (d1.beamAz n b)) ++ per 1 (fun b => leBytes 1 (ofSigned 8 (d1.beamEl n b)))
      ++ leBytes 1 ((bs.filter speech).foldl (fun m b => m + 2 ^ b) 0) ++ leBytes 3 0 ++ per 1 (fun b => leBytes 1 (ofSigned 8 (level b)))
      ++ per 1 (fun b => leBytes 1 (if aec then d1.freeAt (2010 + b) % 256 else 0))
    let d2 := d1.modArray n (fun v => { v with
      running := true, frames := v.frames + 1, nextFrame := f + 1, record := some rec_
      levels := bs.foldl (fun t b => t.set b (past b)) v.levels, vadHold := bs.foldl (fun t b => t.set b (hold b)) v.vadHold
      chunk := if v.chunkSlot.isSome then v.chunk ++ (List.range (160 * beams)).map (fun i => Config.freeF32 d1.draw i) else v.chunk
      chunkVad := if anySpeech then v.chunkVad ||| (1#64 <<< v.chunkFrames) else v.chunkVad, chunkFlags := v.chunkFlags ||| flags, chunkFrames := v.chunkFrames + 1 })
    let d3 := if gap then { d2 with aud := { d2.aud with gap := true, gapCnt := satInc d2.aud.gapCnt } } else d2
    let d4 := (d3.steer n ps).drawn
    if (d4.array n).chunkFrames = max 1 (c.chunkFrames n) then d4.chunkEnd n else d4

/-- A jump of a domain (`none` the PTP domain, else that of a TDM slave port) ends the chunks in the making with gap set, and framing restarts at
the next frame boundary (R386). -/
def Dev.audioJump (d : Dev) (dom : Option Nat) : Dev :=
  (List.range 64).foldl (fun d n =>
    if !d.cfg.arrayOn n || !(d.array n).running || decide (d.cfg.arrayPort n ≠ dom) then d
    else
      let d1 := if (d.array n).chunkFrames = 0 then d else (d.modArray n (fun v => { v with chunkFlags := v.chunkFlags ||| 1 })).chunkEnd n
      d1.modArray n (fun v => { v with nextFrame := d1.domainIndex n / 480 + 1 })) d

/-! ## Media commands (R116, R359, R361, R394) -/

/-- BIND: the binding waits for the next frame start or chunk boundary. -/
def Dev.bindCmd (d : Dev) (q : Nat) : Dev :=
  d.begin q 0x30 (fun d c =>
    let n := cmdArg c % 128
    let o := bytesAt c 8 1
    let b : OutBind := { ring := bytesAt c 16 8, entries := bytesAt c 24 4, format := bytesAt c 9 1, bindQ := q }
    if (cmdArg c).testBit 7 then
      if o ≠ 0 ∨ 2 ≤ b.format then d.failDisp q { status := 0x08, code := 0xFC }
      else if (d.array n).ring.isSome then d.failDisp q { status := 0x01, code := 0xF7 }
      else d.modArray n (fun v => { v with ring := some b })
    else if ((d.camCtx n).out o).isSome then d.failDisp q { status := 0x01, code := 0xF7 }
    else d.modCtx n (fun v => { v with outs := v.outs.set o (some b) }))

/-- UNBIND: the binding ends at the next frame start or chunk boundary. -/
def Dev.unbindCmd (d : Dev) (q : Nat) : Dev :=
  d.begin q 0x31 (fun d c =>
    let n := cmdArg c % 128
    let o := bytesAt c 8 1
    let none_ : Dev := d.failDisp q { status := 0x01, code := 0xF7 }
    let live (x : Option OutBind) : Bool := match x with | some b => !b.pending && b.unbind.isNone && !b.leaving | none => false
    if (cmdArg c).testBit 7 then
      if decide (o = 0) && live (d.array n).ring then d.modArray n (fun v => { v with ring := v.ring.map (fun b => { b with unbind := some q }) }) else none_
    else if live ((d.camCtx n).out o) then d.modOut n o (fun b => { b with unbind := some q }) else none_)

/-- A block keeps a bound output as it is (R361). -/
def Dev.keepsOutputs (d : Dev) (c : Nat) (b : List B8) : Bool :=
  (List.range 3).all (fun o =>
    match (d.camCtx c).out o with
    | some x =>
      if x.pending || x.leaving then true
      else
        let old := scaler (d.ctxParams c) o
        let new := scaler b o
        new.enable && decide (new.outW = old.outW) && decide (new.outH = old.outH) && decide (new.channels = old.channels)
    | none => true)

/-- PARAM_COMMIT. -/
def Dev.paramCmd (d : Dev) (q : Nat) : Dev :=
  d.begin q 0x32 (fun d c =>
    let n := cmdArg c % 128
    match d.readMem (d.qView q) (bytesAt c 8 8) 0xA80 with
    | (d1, .error e) => d1.failMem q e
    | (d1, .ok b) =>
      match blockFault b (d1.cfg.ctxWidth n) (d1.cfg.ctxHeight n) with
      | some off => d1.failDisp q { status := 0x04, code := 0xF1, val := off }
      | none =>
        if !d1.keepsOutputs n b then d1.failDisp q { status := 0x08, code := 0xF2 }
        else if (d1.camCtx n).setsBusy then d1.modCtx n (fun v => { v with commits := v.commits ++ [(q, b)] })
        else d1.stageSet n q b)

/-! ## The rows -/

def execAes67Packet (stream : Nat) (seq : W16) (ts : W32) (payload : List B8) (s : State) : Host.Outcome State Fault Refusal :=
  .next { s with dev := s.dev.audioPacket stream seq ts payload }
def execTdmFrameSync (port : Nat) (samples : List W32) (periodOk : Bool) (s : State) : Host.Outcome State Fault Refusal :=
  .next { s with dev := s.dev.tdmSync port samples periodOk }
def execAudioFrame (n : Nat) (s : State) : Host.Outcome State Fault Refusal := .next { s with dev := s.dev.audioFrame n }
def execBind (q : Nat) (s : State) : Host.Outcome State Fault Refusal := .next { s with dev := s.dev.bindCmd q }
def execUnbind (q : Nat) (s : State) : Host.Outcome State Fault Refusal := .next { s with dev := s.dev.unbindCmd q }
def execParamCommit (q : Nat) (s : State) : Host.Outcome State Fault Refusal := .next { s with dev := s.dev.paramCmd q }
/-- The tracks that a discontinuity of track `n` makes jump: every track that follows PTP time with one of them (R74). -/
def Dev.jumpSet (d : Dev) (n : Nat) : List Nat := if d.trkSource n = 2 ∨ d.trkSource n = 4 then d.tracksBy 2 ++ d.tracksBy 4 else [n]
/-- TRACK_JUMP (R73, R74, R386): a track's discontinuity; TRK_0 and an unassigned track have none. -/
def execTrackJump (n : Nat) (s : State) : Host.Outcome State Fault Refusal :=
  .next { s with dev :=
    if n < 256 ∧ 2 ≤ s.dev.trkSource n ∧ s.dev.trkValid n then
      (let d1 := s.dev.jump (s.dev.jumpSet n)
       if s.dev.trkSource n = 2 ∨ s.dev.trkSource n = 4 then d1.audioJump none else if s.dev.trkSource n = 5 then d1.audioJump (some (s.dev.trkIndex n)) else d1)
    else s.dev }

end Sys2Proof.Machine
end

