-- ==== Sys2Proof/Machine/Image.lean ====
section
/-! DEFINITION. The boot configuration image: header, directory, sections, and the static checks of R56 in their order. -/
namespace Sys2Proof.Machine
open Sys2Proof

/-! ## Bytes of an image -/

/-- The `n` bytes from `base`, at addresses from 0. -/
def cutMem (m : Memory) (base n : Nat) : Memory :=
  m.filterMap (fun c => if base ≤ c.1 ∧ c.1 < base + n then some (c.1 - base, c.2) else none)
def m8 (m : Memory) (a : Nat) : Nat := (m.get a).toNat
def m16 (m : Memory) (a : Nat) : Nat := m8 m a + 256 * m8 m (a + 1)
def m32 (m : Memory) (a : Nat) : Nat := m16 m a + 65536 * m16 m (a + 2)

/-! ## Header and directory (R47-R49) -/

def bciMagic : Nat := 0x49434251
def imgLength (m : Memory) : Nat := m32 m 8
def imgSequence (m : Memory) : Nat := m32 m 0x0C
def imgVersion (m : Memory) : Nat := m32 m 0x10
def imgSigner (m : Memory) : Nat := m8 m 0x14
def dirCount (m : Memory) : Nat := m16 m 6
def dirType (m : Memory) (i : Nat) : Nat := m16 m (0x40 + 16 * i)
def dirVersion (m : Memory) (i : Nat) : Nat := m16 m (0x42 + 16 * i)
def dirOffset (m : Memory) (i : Nat) : Nat := m32 m (0x44 + 16 * i)
def dirLength (m : Memory) (i : Nat) : Nat := m32 m (0x48 + 16 * i)

/-- Directory entry of a section. -/
def dirEntry (m : Memory) (sec : Nat) : Option Nat := (List.range (dirCount m)).find? (fun i => decide (dirType m i = sec))
/-- Byte offset of a section in the image. -/
def secBase (m : Memory) (sec : Nat) : Nat := match dirEntry m sec with | some i => dirOffset m i | none => 0

/-- The configuration that an image spells. -/
def cfgOf (m : Memory) : Cfg :=
  (List.range 13).foldl (fun c sec =>
    match dirEntry m sec with
    | some i => { c with secs := c.secs.set sec (cutMem m (dirOffset m i) (dirLength m i)), lens := c.lens.set sec (dirLength m i) }
    | none => c) {}

/-- Length of a section, where the spec gives one (CAMERA is judged under R351). -/
def secLength (sec : Nat) : Option Nat :=
  match sec with
  | 1 => some 16
  | 2 => some 256
  | 3 => some 2048
  | 4 => some 32
  | 6 => some 0xC040
  | 7 => some 0x1900
  | 8 => some 1280
  | 9 => some 16
  | 10 => some 0x3300
  | 11 => some 0x340
  | 12 => some 8
  | _ => none

/-- Required sections (R49). -/
def requiredSecs : List Nat := [1, 2, 3, 4, 9, 10]

/-- Faults of the header and of the directory, each with its byte offset (R47-R49, R572). -/
def dirFaults (m : Memory) : List (Bool × Nat) :=
  let n := dirCount m
  let top := imgLength m - 96
  [(decide (m16 m 4 ≠ 1), 4), (decide (n < 1) || decide (16 < n), 6)]
  ++ requiredSecs.map (fun s => ((dirEntry m s).isNone, 0x40))
  ++ ((List.range (min n 16)).map (fun i =>
      let t := dirType m i
      let a := 0x40 + 16 * i
      let o := dirOffset m i
      let l := dirLength m i
      [(decide (t = 0) || decide (12 < t) || (List.range i).any (fun j => decide (dirType m j = t)), a),
       (decide (dirVersion m i ≠ 1), a + 2),
       (decide (o % 16 ≠ 0) || decide (o < 0x40 + 16 * n) || decide (top < o + l)
         || (List.range i).any (fun j => decide (o < dirOffset m j + dirLength m j) && decide (dirOffset m j < o + l)), a + 4),
       (match secLength t with | some x => decide (l ≠ x) | none => false, a + 8)])).flatten

/-! ## Fields with a listed range (R50-R53, R387, R396, R402, R404, R420, R532; R571 says which are judged) -/

def outside (v lo hi : Nat) : Bool := decide (v < lo) || decide (hi < v)

def memFaults (c : Cfg) : List (Bool × Nat) :=
  [(! [32, 48, 64, 96, 128].contains c.capacityGib, 0), (! [6400, 7500, 8533].contains c.dataRate, 2), (decide (1 < c.u8 1 4), 4),
   (! [0, 1, 3].contains c.protection, 5)]

def partFaults (c : Cfg) : List (Bool × Nat) :=
  ((List.range 16).map (fun p => if c.partOn p then [(decide (7 < c.partPriority p), 16 * p + 2), (decide (8 < c.partMaxOp p), 16 * p + 6)] else [])).flatten

def tenFaults (c : Cfg) : List (Bool × Nat) :=
  (c.tenants.map (fun t => [(decide (15 < c.tenPart t), 32 * t + 1), (decide (3 < c.tenPort t), 32 * t + 2), (decide (63 < c.tenVf t), 32 * t + 3)])).flatten

def portFaults (c : Cfg) : List (Bool × Nat) :=
  ((List.range 4).map (fun n => if c.portOn n then [(outside (c.portMaxRate n) 1 5, 8 * n + 1), (decide (64 < c.portVfs n), 8 * n + 2)] else [])).flatten

def audioFaults (c : Cfg) : List (Bool × Nat) :=
  ((List.range 1024).map (fun n => if c.streamOn n then
      [(decide (63 < c.streamOwner n), 32 * n + 1), (outside (c.streamChannels n) 1 8, 32 * n + 2), (decide (4 < c.streamPtime n), 32 * n + 3),
       (decide (1 < c.streamEth n), 32 * n + 4), (outside (c.streamLink n) 48 4800, 32 * n + 6), (decide (c.streamUdp n = 0), 32 * n + 12)] else [])).flatten
  ++ ((List.range 4).map (fun n => if c.tdmOn n then
      [(decide (63 < c.tdmOwner n), 0x8000 + 16 * n + 1), (! [16, 24, 32].contains (c.tdmBits n), 0x8000 + 16 * n + 2)] else [])).flatten
  ++ ((List.range 64).map (fun n => if c.arrayOn n then
      let o := arrayOff n
      [(decide (63 < c.arrayOwner n), o + 1), (outside (c.arrayMics n) 2 16, o + 2), (outside (c.arrayBeams n) 1 4, o + 3),
       (outside (c.chunkFrames n) 1 64, o + 4), (outside (c.vadThr n) 3 30, o + 5), (decide (c.peakThr n = 0), o + 6),
       (outside (c.elStep n) 1 10, o + 7), (decide (c.elMin n < -90), o + 8), (decide (c.elMax n < c.elMin n) || decide (90 < c.elMax n), o + 9),
       (decide (4096 < c.aecTaps n) || decide (c.aecTaps n % 64 ≠ 0) || (c.arrayAec n && decide (c.aecTaps n = 0)), o + 10)]
      ++ (List.range 4).map (fun b => (decide (359 < c.fixedAz n b), o + 16 + 2 * b))
      ++ (List.range 4).map (fun b => (decide (c.fixedEl n b < c.elMin n) || decide (c.elMax n < c.fixedEl n b), o + 24 + b))
      ++ ((List.range (c.arrayMics n)).map (fun i =>
          (List.range 3).map (fun k => (decide (c.micPos n i k < -1000) || decide (1000 < c.micPos n i k), o + 66 + 12 * i + 2 * k))
          ++ [(decide (c.micWeight n i = 0), o + 72 + 12 * i)])).flatten
    else [])).flatten

def netFaults (c : Cfg) : List (Bool × Nat) :=
  ((List.range 2).map (fun p => if c.ethOn p then
      let o := 64 * p
      [(decide (2 < c.ethRate p), o + 1), (if c.ethRate p = 0 then decide (2 < c.u8 7 (o + 2)) else decide (c.u8 7 (o + 2) ≠ 2), o + 2),
       (outside (c.u8 7 (o + 3)) 8 30, o + 3), (c.bit 7 (o + 4) 0, o + 4),
       (c.ethVlanOn p && outside (c.ethVlan p % 4096) 1 4094, o + 20), (outside (c.u16 7 (o + 22)) 1500 9000, o + 22)] else [])).flatten
  ++ [(decide (127 < c.ptpDomain), 0x81)]
  ++ ((List.range 16).map (fun k => if c.targetOn k then
      let o := 0x100 + 256 * k
      let f := c.u8 7 o
      [(!f.testBit 1 && !f.testBit 2, o), (f.testBit 1 && !c.ethOn 0, o), (f.testBit 2 && !c.ethOn 1, o),
       (outside (c.u8 7 (o + 1)) 1 4, o + 1), (decide (c.u16 7 (o + 2) = 0), o + 2)] else [])).flatten
  ++ ((List.range 64).map (fun k => if c.rtpOn k then
      let o := 0x1100 + 32 * k
      [(!c.ethOn (c.rtpPort k), o), (decide (63 < c.rtpOwner k), o + 1), (outside (c.rtpPt k) 96 127, o + 2), (decide (63 < c.rtpDscp k), o + 3),
       (decide (c.rtpUdp k = 0), o + 8)] else [])).flatten

def trackFaults (c : Cfg) : List (Bool × Nat) :=
  (decide (c.u8 8 0 ≠ 1), 0) :: (List.range 256).map (fun n => (decide (6 < c.u8 8 (4 * n)), 4 * n))
  ++ c.tenants.map (fun t => (decide (256 < c.trgCount t), 1024 + 4 * t + 2))

def outputFaults (c : Cfg) : List (Bool × Nat) :=
  ((List.range 32).map (fun n => if (c.pulseOwner n).isSome then
      [(decide (1 < c.u8 11 (16 * n + 1)), 16 * n + 1), (decide (c.pulseNs n < 100), 16 * n + 2), (decide (2000000 < c.vMin n), 16 * n + 8)] else [])).flatten
  ++ ((List.range 4).map (fun n => if (c.uartOwner n).isSome then
      [(decide (3 < c.u8 11 (0x201 + 16 * n)), 0x201 + 16 * n), (outside (c.u32 11 (0x204 + 16 * n)) 9600 3000000, 0x204 + 16 * n)] else [])).flatten
  ++ ((List.range 8).map (fun n => if (c.i3cOwner n).isSome then [(outside (c.u16 11 (0x242 + 8 * n)) 1000 12500, 0x242 + 8 * n)] else [])).flatten
  ++ ((List.range 48).map (fun n =>
      [(decide (3 < c.gpioFunction n), 0x280 + 4 * n), (decide (c.gpioFunction n ≠ 0) && decide (31 < c.gpioChannel n), 0x281 + 4 * n)])).flatten

/-- A key slot is empty when its 96 bytes are zero (R419). -/
def Cfg.keyEmpty (c : Cfg) (k : Nat) : Bool := (c.key k).all (fun b => decide (b = 0))
/-- A field that names a key slot names none, or one that holds a key (R419, R420). -/
def Cfg.slotBad (c : Cfg) (k : Nat) : Bool := decide (k ≠ 0xFF) && (decide (127 < k) || c.keyEmpty k)

/-- The faults of SECURITY, with offsets in the image: a check of two fields names the later one (R420, R572). -/
def secFaults (m : Memory) (c : Cfg) : List (Bool × Nat) :=
  let b := secBase m 10
  [(c.slotBad c.debugSlot, b + 1), (c.slotBad c.operatorSlot, b + 2), (c.revokeMask.testBit (imgSigner m), b + 3)]
  ++ (c.tenants.map (fun t =>
      let o := b + 0x40 + 8 * t
      let g := c.shareGroup t
      [(c.confidential t && decide (c.protection ≠ 3), max o (secBase m 1 + 5)), (c.slotBad (c.modelKeySlot t), o + 1), (c.slotBad (c.authKeySlot t), o + 2),
       (decide (g ≠ 0xFF) && decide (15 < g), o + 3), (c.shareOptIn t && !c.groupOn g, o + 3),
       (c.shareOptIn t && c.groupOn g && decide (c.groupPart g ≠ c.tenPart t), max (b + 0x240 + 8 * g + 1) (secBase m 3 + 32 * t + 1))])).flatten
  ++ (List.range 16).map (fun g => (c.groupOn g && decide (15 < c.groupPart g), b + 0x240 + 8 * g + 1))
  ++ (List.range 128).map (fun k => (!c.keyEmpty k && !Config.onCurve (c.key k), b + 0x300 + 96 * k))

/-- Every fault of reason 0x03 with its offset in the image (R56, R572). -/
def formatFaults (m : Memory) (c : Cfg) : List (Bool × Nat) :=
  let at_ (sec : Nat) (l : List (Bool × Nat)) : List (Bool × Nat) := if c.has sec then l.map (fun x => (x.1, secBase m sec + x.2)) else []
  dirFaults m ++ at_ 1 (memFaults c) ++ at_ 2 (partFaults c) ++ at_ 3 (tenFaults c) ++ at_ 4 (portFaults c) ++ at_ 6 (audioFaults c)
    ++ at_ 7 (netFaults c) ++ at_ 8 (trackFaults c) ++ at_ 11 (outputFaults c) ++ (if c.has 10 then secFaults m c else [])

/-- The lowest offset at which a fault lies. -/
def lowestFault (l : List (Bool × Nat)) : Option Nat :=
  l.foldl (fun b x => if x.1 then (match b with | none => some x.2 | some y => some (min x.2 y)) else b) none

/-! ## Resource checks (reasons 0x04 to 0x10) -/

/-- The first entry that a check names, with its reason and detail. -/
def firstBad (l : List (Bool × Nat × Nat)) : Option (Nat × Nat) := (l.find? (fun x => x.1)).map (fun x => x.2)

def partsOn (c : Cfg) : List Nat := (List.range 16).filter c.partOn

/-- Reasons 0x04 to 0x06: regions and dies of partitions. -/
def regionChecks (c : Cfg) : List (Bool × Nat × Nat) :=
  ((partsOn c).map (fun p => (c.partRegions p).map (fun r => ((List.range p).any (fun k => (c.regionMask k).testBit r), 0x04, r)))).flatten
  ++ (partsOn c).map (fun p =>
      (decide (1 < (c.partDies p).length) && (c.partDies p).any (fun k => decide (nfld (c.regionMask p) (4 * k) 4 ≠ 15)), 0x05, p))
  ++ (partsOn c).map (fun p => (decide (c.partDies p = [0, 2]) || decide (c.partDies p = [1, 3]), 0x06, p))

/-- Reasons 0x07 to 0x09: tenants and ports. -/
def tenantChecks (c : Cfg) : List (Bool × Nat × Nat) :=
  c.tenants.map (fun t => (!c.partOn (c.tenPart t) || !c.portOn (c.tenPort t), 0x07, t))
  ++ c.tenants.map (fun t => (c.tenants.any (fun k => decide (k < t) && decide (c.tenPort k = c.tenPort t) && decide (c.tenVf k = c.tenVf t)), 0x08, t))
  ++ c.tenants.map (fun t => (decide (c.portVfs (c.tenPort t) ≤ c.tenVf t), 0x08, t))
  ++ [(decide (64 < ((List.range 4).map (fun n => if c.portOn n then c.portVfs n else 0)).sum), 0x08, 0xFF),
      (decide (1 < ((List.range 4).filter (fun n => c.portOn n && c.portMgmt n)).length), 0x09, 0)]

/-- Reasons 0x0A to 0x0C: model slots, sequences, queues. -/
def quotaChecks (c : Cfg) : List (Bool × Nat × Nat) :=
  (partsOn c).map (fun p => (decide (8 < c.partSlots p), 0x0A, p))
  ++ c.tenants.map (fun t => (decide (c.partSlots (c.tenPart t) < c.tenSlots t), 0x0A, c.tenPart t))
  ++ [(decide (32 < ((partsOn c).map c.partSlots).sum), 0x0A, 0xFF), (decide (4096 < ((partsOn c).map c.partSeqs).sum), 0x0B, 0xFF)]
  ++ (partsOn c).map (fun p => (decide (4096 < ((c.partTenants p).map c.tenSeqs).sum), 0x0B, p))
  ++ c.tenants.map (fun t => ((List.range 4).any (fun e => decide (8 < c.tenQueues t e)), 0x0C, t))

/-- R348: the section's default_count. -/
def Cfg.defaultCount (c : Cfg) : Nat := c.u16 5 0x2080

/-- A field of a context outside R349. -/
def ctxField (c : Cfg) (n : Nat) : Bool :=
  decide (63 < c.ctxOwner n) || decide (7 < c.ctxPort n) || decide (15 < c.ctxVc n) || outside (c.ctxType n) 0x2A 0x2E || decide (6 < c.ctxMosaic n)
  || decide (7 < c.ctxPriority n) || decide (c.defaultCount ≤ c.ctxDefault n) || outside (c.ctxWidth n) 64 8192 || decide (c.ctxWidth n % 16 ≠ 0)
  || outside (c.ctxHeight n) 16 8192 || decide (c.ctxHeight n % 4 ≠ 0) || outside (c.ctxRate n) 100 24000
  || (decide (c.ctxSensor n ≠ 0xFF) && decide (127 < c.ctxSensor n))

/-- A field of a camera port outside R348. -/
def camPortField (c : Cfg) (n : Nat) : Bool :=
  let cphy := c.bit 5 (16 * n) 1
  let lanes := c.u8 5 (16 * n + 1)
  let rate := c.u16 5 (16 * n + 2)
  if cphy then outside lanes 1 3 || outside rate 80 6000 else !([1, 2, 4].contains lanes) || outside rate 80 4500

/-- A field of a sensor outside R350. -/
def sensorField (c : Cfg) (n : Nat) : Bool := decide (7 < c.sensorI3c n) || (List.range 4).any (fun k => decide (7 < c.latchDelay n k))

/-- Reason 0x0D: the checks of R351 in their order. -/
def cameraChecks (c : Cfg) : List (Bool × Nat × Nat) :=
  let cs := c.contexts
  let ss := (List.range 128).filter c.sensorOn
  let ref (n : Nat) : Nat := if n < 128 then n else 0xFF
  [(decide (c.lens.get 5 0 ≠ 0x20C0 + 0xA80 * c.defaultCount) || outside c.defaultCount 1 16, 0x0D, 0xFF)]
  ++ (List.range 8).map (fun n => (c.camPortOn n && camPortField c n, 0x0D, 0xFF))
  ++ cs.map (fun n => (ctxField c n, 0x0D, n))
  ++ ss.map (fun n => (sensorField c n, 0x0D, 0xFF))
  ++ cs.map (fun n => (!c.camPortOn (c.ctxPort n) || !c.tenOn (c.ctxOwner n), 0x0D, n))
  ++ cs.map (fun n => (cs.any (fun k => decide (k < n) && decide (c.ctxPort k = c.ctxPort n) && decide (c.ctxVc k = c.ctxVc n) && decide (c.ctxType k = c.ctxType n)), 0x0D, n))
  ++ cs.map (fun n => (decide (c.ctxSensor n ≠ 0xFF) && !c.sensorOn (c.ctxSensor n), 0x0D, n))
  ++ ss.map (fun k => (!c.ctxOn (c.sensorRef k) || decide (c.ctxSensor (c.sensorRef k) ≠ k), 0x0D, ref (c.sensorRef k)))
  ++ ss.map (fun k => (decide (c.i3cOwner (c.sensorI3c k) ≠ some (c.ctxOwner (c.sensorRef k))), 0x0D, ref (c.sensorRef k)))
  ++ cs.map (fun n => ((blockFault (c.defaultBlock (c.ctxDefault n)) (c.ctxWidth n) (c.ctxHeight n)).isSome, 0x0D, n))
  ++ [(decide (1280000000000 < (cs.map (fun n => c.ctxWidth n * c.ctxHeight n * c.ctxRate n)).sum), 0x0D, 0xFF)]

/-- Owner of the stream or port that a channel reference names, none where it names nothing enabled (R382, R388). -/
def Cfg.refOwner (c : Cfg) (r : Nat) : Option Nat :=
  if r.testBit 15 then
    if nfld r 6 9 = 0 ∧ c.tdmOn (nfld r 4 2) then some (c.tdmOwner (nfld r 4 2)) else none
  else if nfld r 13 2 = 0 ∧ c.streamOn (nfld r 3 10) ∧ nfld r 0 3 < c.streamChannels (nfld r 3 10) then some (c.streamOwner (nfld r 3 10)) else none
/-- Clock domain of a reference: 0 PTP, 1 + p a slave TDM port (R386). -/
def Cfg.refDomain (c : Cfg) (r : Nat) : Nat := if r.testBit 15 && !c.tdmMaster (nfld r 4 2) then 1 + nfld r 4 2 else 0
/-- Microphones of an array, then its echo references, which are judged also where aec is clear (R571). -/
def Cfg.arrayRefs (c : Cfg) (n : Nat) : List Nat :=
  ((List.range (c.arrayMics n)).map (c.micChan n) ++ [c.aecRef n 0, c.aecRef n 1]).filter (fun r => decide (r ≠ 0xFFFF))

/-- Reason 0x0E: the checks of R388. -/
def audioChecks (c : Cfg) : List (Bool × Nat × Nat) :=
  let ss := (List.range 1024).filter c.streamOn
  let arrs := (List.range 64).filter c.arrayOn
  [(decide (1024 < (ss.map c.streamChannels).sum), 0x0E, 0),
   (ss.any (fun n => !c.tenOn (c.streamOwner n)) || (List.range 4).any (fun n => c.tdmOn n && !c.tenOn (c.tdmOwner n)) || arrs.any (fun n => !c.tenOn (c.arrayOwner n)), 0x0E, 0),
   (arrs.any (fun n => (c.arrayRefs n).any (fun r => (c.refOwner r).isNone)), 0x0E, 0),
   (arrs.any (fun n => (c.arrayRefs n).any (fun r => decide (c.refOwner r ≠ some (c.arrayOwner n)))), 0x0E, 0),
   (arrs.any (fun n => (List.range (c.arrayMics n)).any (fun i => (List.range i).any (fun j => decide (c.micChan n i = c.micChan n j) && decide (c.micChan n i ≠ 0xFFFF)))), 0x0E, 0),
   (arrs.any (fun n => (c.arrayRefs n).any (fun r => (c.arrayRefs n).any (fun q => decide (c.refDomain r ≠ c.refDomain q)))), 0x0E, 0)]

/-- A track's source exists (R88). -/
def Cfg.sourceThere (c : Cfg) (t i : Nat) : Bool :=
  match t with
  | 0 => true
  | 1 => decide (i = 0)
  | 2 => decide (i = 0)
  | 3 => c.ctxOn i
  | 4 => c.streamOn i
  | 5 => c.tdmOn i
  | 6 => decide (i < 32)
  | _ => false

/-- Reason 0x0F: the checks of R88. -/
def trackChecks (c : Cfg) : List (Bool × Nat × Nat) :=
  let used := (List.range 256).filter (fun n => decide (c.u8 8 (4 * n) ≠ 0))
  let key (n : Nat) : Nat := c.u8 8 (4 * n) * 65536 + c.u16 8 (4 * n + 2)
  let last (t : Nat) : Nat := c.trgFirst t + c.trgCount t
  let ts := c.tenants.filter (fun t => decide (0 < c.trgCount t))
  [(used.any (fun n => !c.sourceThere (c.u8 8 (4 * n)) (c.u16 8 (4 * n + 2))), 0x0F, 0),
   (used.any (fun n => used.any (fun k => decide (k < n) && decide (key k = key n))), 0x0F, 0),
   (ts.any (fun t => decide (1024 < last t)), 0x0F, 0),
   (ts.any (fun t => ts.any (fun k => decide (k < t) && decide (c.trgFirst t < last k) && decide (c.trgFirst k < last t))), 0x0F, 0)]

/-- Reason 0x10: R54. -/
def powerChecks (c : Cfg) : List (Bool × Nat × Nat) :=
  [(outside c.capMin 60 240 || outside c.capMax c.capMin 240 || outside c.capBoot c.capMin c.capMax || outside c.gustRate 4 16, 0x10, 0)]

def resourceChecks (c : Cfg) : List (Bool × Nat × Nat) :=
  regionChecks c ++ tenantChecks c ++ quotaChecks c ++ (if c.has 5 then cameraChecks c else []) ++ (if c.has 6 then audioChecks c else [])
    ++ (if c.has 8 then trackChecks c else []) ++ powerChecks c

/-! ## The static checks in their order (R48, R56) -/

/-- The first check an image fails, as reason and detail: the header checks of R48, then reasons 0x01 to 0x10. -/
def bciFault (f : Fuses) (m : Memory) : Option (Nat × Nat) :=
  if 262144 < imgLength m ∨ imgLength m % 16 ≠ 0 then some (0x03, 0)
  else if 3 < imgSigner m then some (0x03, 1)
  else
    let signed := match f.signer.get (imgSigner m) none with
      | some h => Config.imageVerify h (m.read 0 (imgLength m))
      | none => false
    if !signed || f.revoked.getLsbD (imgSigner m) then some (0x01, 0)
    else if imgVersion m < f.bciMin then some (0x02, f.bciMin % 65536)
    else match lowestFault (formatFaults m (cfgOf m)) with
      | some o => some (0x03, o / 16)
      | none => firstBad (resourceChecks (cfgOf m))

end Sys2Proof.Machine
end

