-- ==== Sys2Proof/Machine/Moves.lean ====
section
/-! DEFINITION. The data commands of the Move engine: COPY with its seals, host DMA failures, SCATTER, GATHER, MIGRATE
(R115, R131, R191, R198, R214, R285-R287, R430, R431, R523). -/
namespace Sys2Proof.Machine
open Sys2Proof

/-- A running command takes the progress slot it names, or ends because the slot is in use (R131). -/
def Dev.takeSlot (d : Dev) (q k : Nat) (f : Dev → Dev) : Dev :=
  if d.slotBusy (qParty q) k then d.failOpen q 0x01
  else f ((d.setBusy (qParty q) k true).modQue q (fun v => { v with running := v.running.map (fun r => { r with aux := 1 }) }))

/-! ## Transfers in turns (R94, R216) -/

/-- What came of one part of a Move command: it moved, it has to wait, or its failure ends the command. -/
inductive PartEnd where
  | moved
  | waits
  | failed (e : Fail)
deriving DecidableEq, Repr

/-- The end of a part from the failure of its accesses. -/
def partEnd (e : Option Fail) : PartEnd := match e with | some f => .failed f | none => .moved

/-- Moves parts one after the other until one does not move: how many moved, and what stopped the next one. -/
def Dev.eachPart (f : Dev → Nat → Dev × PartEnd) (d : Dev) : List Nat → Nat → Dev × Nat × PartEnd
  | [], k => (d, k, .moved)
  | i :: is, k =>
    match f d i with
    | (d1, .moved) => Dev.eachPart f d1 is (k + 1)
    | (d1, e) => (d1, k, e)

/-- The running command of queue `q`, which has `total` parts and moves `per` of them in a turn, makes the transfers that its turn allows;
at its end, or with its failure, `fin` follows. What was moved before a failure stays. -/
def Dev.carry (d : Dev) (q turns total per : Nat) (f : Dev → Nat → Dev × PartEnd) (fin : Dev → Option Fail → Dev) : Dev :=
  match d.running q, d.takeTurn q with
  | some r, some d1 =>
    let n := d.turnsNow q turns total * per
    match Dev.eachPart f d1 (((List.range total).drop r.pos).take n) 0 with
    | (d2, _, .failed e) => fin d2 (some e)
    | (d2, k, e) => if total ≤ r.pos + k then fin d2 none else d2.setRunning q { r with pos := r.pos + k, parked := decide (e = .waits) }
  | _, _ => d

/-- Starts the command of opcode `op` at the head of queue `q`, or goes on with it where it runs. -/
def Dev.onMove (d : Dev) (q op : Nat) (start : Dev → Dev) (go : Dev → Running → Dev) : Dev :=
  let run (d : Dev) : Dev := match d.running q with | some r => if cmdOp r.cmd = op then go d r else d | none => d
  match d.running q with
  | some _ => run d
  | none => d.begin q op (fun d _ => run (start d))

/-! ## COPY (R115, R430, R431, R523) -/

/-- The failure of a host access. -/
def hostFail (status : B8) (addr : Nat) : Fail := { status := status, code := 0x8D, addr := addr % 281474976710656, space := 2 }

/-- A command ends on a failing host access: the port counts it. -/
def Dev.failHost (d : Dev) (q : Nat) (status : B8) (addr : Nat) : Dev :=
  let n := d.portOf (qParty q)
  (d.modPort n (fun v => { v with dmaErr := true, dmaErrCnt := satInc v.dmaErrCnt })).failCmd q (hostFail status addr) (unitHub 8 n)

/-- Additional data and contents of a seal record behind its tag (R430): bytes 16 to 63. -/
def sealBody (ctr : W64) (len : Nat) (sid : W32) (tenant dir addr : Nat) : List B8 :=
  leBytes 8 ctr.toNat ++ leBytes 8 len ++ leBytes 4 sid.toNat ++ leBytes 1 tenant ++ leBytes 1 dir ++ leBytes 2 0 ++ leBytes 8 addr ++ leBytes 16 0
/-- The 96-bit nonce: direction, then counter, big-endian. -/
def sealNonce (dir : Nat) (ctr : W64) : List B8 := (leBytes 4 dir).reverse ++ (leBytes 8 ctr.toNat).reverse
/-- A run of bytes under a key stream. -/
def gcmXor (key : W256) (nonce l : List B8) : List B8 := l.mapIdx (fun i b => b ^^^ Config.gcmStream key nonce i)

/-- The session of a tenant. -/
def Dev.session (d : Dev) (party : Nat) : Option Session := if party < 64 then (d.ten party).session else none

/-- COPY from partition memory to the host for a confidential tenant, sealed as one record. -/
def Dev.copyOut (d : Dev) (q src dst n : Nat) : Dev :=
  let party := qParty q
  match d.session party with
  | none => d.failDisp q { status := 0x03, code := 0xA8 }
  | some s =>
    match d.readMem (d.qView q) src n with
    | (d1, .error e) => d1.failMem q e
    | (d1, .ok b) =>
      let nonce := sealNonce 1 s.d2h
      let ct := gcmXor s.keyD2H nonce b
      let body := sealBody s.d2h n s.sid party 1 src
      let tag := leBytes 16 (Config.gcmTag s.keyD2H nonce body ct).toNat
      ((d1.hostWrite (d.portOf party) dst (ct ++ tag ++ body)).modTen party (fun t => { t with session := some { s with d2h := s.d2h + 1 } })).finish q 0

/-- COPY of a sealed record from the host to partition memory of a confidential tenant. -/
def Dev.copyIn (d : Dev) (q : Nat) (host : List Host.Cell) (src dst n : Nat) : Dev :=
  let party := qParty q
  let port := d.portOf party
  let v := d.qView q
  let put (d : Dev) (l : List B8) (f : Dev → Dev) : Dev := match d.writeMem v dst l with | (d1, some e) => d1.failMem q e | (d1, none) => f d1
  match d.session party with
  | none => d.failDisp q { status := 0x03, code := 0xA8 }
  | some s =>
    let r := d.hostRead port host (src + n) 64
    let ctr := BitVec.ofNat 64 (leAt r 16 8)
    let bad : Fail := { status := 0x0D, code := 0xA9 }
    if leAt r 32 4 ≠ s.sid.toNat ∨ leAt r 37 1 ≠ 2 ∨ leAt r 24 8 ≠ n ∨ leAt r 40 8 ≠ dst ∨ ctr.toNat ≤ s.h2d.toNat then d.failDisp q bad
    else
      let ct := d.hostRead port host src n
      let nonce := sealNonce 2 ctr
      if leBytes 16 (Config.gcmTag s.keyH2D nonce (r.drop 16) ct).toNat ≠ r.take 16 then put d (List.replicate n 0) (fun d => d.failDisp q bad)
      else put d (gcmXor s.keyH2D nonce ct) (fun d => (d.modTen party (fun t => { t with session := some { s with h2d := ctr } })).finish q 0)

/-- The function that carries a party's host accesses has its bus mastering on (R522, R523). -/
def Dev.hostReachable (d : Dev) (party : Nat) : Bool :=
  (d.port (d.portOf party)).up && (decide (64 ≤ party) || ((d.ten party).vfEnabled && (d.ten party).busMaster))

/-- The fields of a COPY. -/
structure CopyCmd where
  fromHost : Bool
  toHost : Bool
  src : Nat
  dst : Nat
  len : Nat
def copyOf (c : W512) : CopyCmd :=
  { fromHost := (cmdArg c).testBit 0, toHost := (cmdArg c).testBit 1, src := bytesAt c 8 8, dst := bytesAt c 16 8, len := bytesAt c 24 8 }
/-- The parts of a COPY: the tiles of its source, or of its destination where only the source is the host. -/
def CopyCmd.parts (x : CopyCmd) : List (Nat × Nat) := if x.fromHost && !x.toHost then tileParts x.dst x.len else tileParts x.src x.len

/-- Carries a run of source pieces to the host, the first failing read ending it. -/
def Dev.piecesOut (d : Dev) (v : View) (port src dst : Nat) : List (Nat × Nat) → Dev × PartEnd
  | [] => (d, .moved)
  | y :: ys =>
    match d.readMem v y.1 y.2 with
    | (d1, .error e) => (d1, .failed e)
    | (d1, .ok b) => Dev.piecesOut (d1.hostWrite port (y.1 - src + dst) b) v port src dst ys

/-- One part of a COPY that is not sealed: the pieces of its tile (R181, R191); a tile on the move holds it back (R216), and one on chip in a
suspended partition (R501). -/
def Dev.copyPart (d : Dev) (q : Nat) (host : List Host.Cell) (x : CopyCmd) (i : Nat) : Dev × PartEnd :=
  let y := x.parts.getD i (0, 0)
  let v := d.qView q
  let port := d.portOf (qParty q)
  if x.fromHost && x.toHost then (d.hostWrite port (y.1 - x.src + x.dst) (d.hostRead port host y.1 y.2), .moved)
  else if d.moveHeld v y.1 y.2 || (!x.fromHost && !x.toHost && d.moveHeld v (y.1 - x.src + x.dst) y.2) then (d, .waits)
  else if x.fromHost then
    match d.writeMem v y.1 (d.hostRead port host (y.1 - x.dst + x.src) y.2) with
    | (d1, e) => (d1, partEnd e)
  else if x.toHost then
    match d.movePieces v .memory y.1 y.2 with
    | (d1, .error e) => (d1, .failed e)
    | (d1, .ok ps) => d1.piecesOut v port x.src x.dst ps
  else match d.moveBytes v .memory .memory y.1 (y.1 - x.src + x.dst) y.2 with
    | (d1, e, _) => (d1, partEnd e)

/-- The end of a Move command, in failure where there is one. -/
def Dev.endMove (q : Nat) (d : Dev) (e : Option Fail) : Dev := match e with | some f => d.failMem q f | none => d.finish q 0

/-- COPY: it starts, or goes on where its turn ended. A sealed record is carried as a whole. -/
def Dev.copyCmd (d : Dev) (q : Nat) (host : List Host.Cell) (turns : Nat) : Dev :=
  d.onMove q 0x20 id (fun d r =>
    let party := qParty q
    let x := copyOf r.cmd
    if (x.fromHost || x.toHost) && !d.hostReachable party then d.failHost q 0x11 (if x.fromHost then x.src else x.dst)
    else if decide (party < 64) && d.cfg.confidential party && (x.fromHost != x.toHost) then
      match d.takeTurn q with
      | none => d
      | some d1 => if x.fromHost then d1.copyIn q host x.src x.dst x.len else d1.copyOut q x.src x.dst x.len
    else d.carry q turns x.parts.length 1 (fun d i => d.copyPart q host x i) (Dev.endMove q))

/-- The end of a COPY from the host whose read fails: the command at the head of the queue, or the one that runs (R523). -/
def Dev.hostReadFails (d : Dev) (q : Nat) (addr : W64) (status : B8) : Dev :=
  let go (d : Dev) (c : W512) : Dev := if (cmdArg c).testBit 0 then d.failHost q status addr.toNat else d
  match d.running q with
  | some r => if cmdOp r.cmd = 0x20 then go d r.cmd else d
  | none => match d.startable q 0x20 with
    | some c => if (cmdArg c).testBit 0 then d.begin q 0x20 go else d
    | none => d

/-- HOST_DMA_TIMEOUT: the COPY that runs has begun at least 50 ms ago, and a read of it has no completion (R523). -/
def Dev.hostReadTimeout (d : Dev) (q : Nat) (addr : W64) : Dev :=
  match d.running q with
  | some r => if r.started.toNat + 50000000 ≤ d.time.toNat then d.hostReadFails q addr 0x11 else d
  | none => d

/-! ## SCATTER and GATHER (R115, R285-R287) -/

/-- A failing element or access ends the command. -/
abbrev Step1 := Dev × Option Fail

/-- An entry of a kv index table. -/
structure KvEntry where
  seq : Nat
  pos : Nat
  ix : Nat
  parts : Nat
  ks : F32
  vs : F32
  clean : Bool
def kvEntry (b : List B8) (i : Nat) : KvEntry :=
  let o := 32 * i
  { seq := leAt b o 4, pos := leAt b (o + 4) 4, ix := leAt b (o + 8) 2, parts := leAt b (o + 10) 1, ks := BitVec.ofNat 32 (leAt b (o + 12) 4),
    vs := BitVec.ofNat 32 (leAt b (o + 16) 4), clean := zeroAt b (o + 11) 1 && zeroAt b (o + 20) 12 }

/-- Bytes of the key row and of the value row that an element holds, each padded to a multiple of 64, 0 for a part not set (R285). -/
def elemRows (m : Manifest) (parts : Nat) : Nat × Nat :=
  let row (on : Bool) (f : Nat) : Nat := if on then cdiv (attDim m * fmtBits f / 8) 64 * 64 else 0
  (row (parts.testBit 0) (attKeyFmt m), row (parts.testBit 1) (attValFmt m))
/-- What is wrong with an entry for a model: a reserved value, or an element size that is not the rows'. -/
def KvEntry.fault (x : KvEntry) (m : Manifest) (size : Nat) : Option Fail :=
  if attMaxPos m ≤ x.pos ∨ attLayers m * attHeads m ≤ x.ix ∨ x.parts = 0 ∨ 4 ≤ x.parts ∨ !x.clean then some { status := 0x04, code := 0xD6 }
  else if size ≠ (elemRows m x.parts).1 + (elemRows m x.parts).2 then some { status := 0x08, code := 0x87 }
  else none

/-- One element of a kv SCATTER: its page made private, its rows and scales written. -/
def Dev.scatterElem (d : Dev) (party : Nat) (x : KvEntry) (elem : List B8) : Step1 :=
  match d.findSeq x.seq with
  | none => (d, some { status := 0x03, code := 0xD0 })
  | some (r, s) =>
    if s.tenant ≠ party ∨ s.state = 4 ∨ s.state = 5 ∨ s.state = 8 then (d, some { status := 0x03, code := 0xD0 })
    else
      let m := d.seqManifest s false
      match x.fault m elem.length with
      | some e => (d, some e)
      | none =>
        match d.ensurePage r false (x.pos / 64) x.ix with
        | (d1, .error e) => (d1, some e)
        | (d1, .ok pi) =>
          match d1.kvPage pi with
          | none => (d1, none)
          | some pg =>
            if pg.scaleSet && ((decide (x.ks ≠ 0) && decide (x.ks ≠ pg.keyScale)) || (decide (x.vs ≠ 0) && decide (x.vs ≠ pg.valueScale))) then
              (d1, some { status := 0x08, code := 0xD5 })
            else
              match d1.defaultScale { party := party, part := s.partition, pin := some (s.slotOf false, s.gen) } m 0 x.ix with
              | (d2, .error e) => (d2, some e)
              | (d2, .ok sc) =>
                let n := elemRows m x.parts
                let row (on : Bool) (off f : Nat) : Option (List Nat) :=
                  if on then some ((List.range (attDim m)).map (getCode (fmtBits f) (elem.drop off))) else none
                (d2.putRows m pi (x.pos % 64) (row (x.parts.testBit 0) 0 (attKeyFmt m)) (row (x.parts.testBit 1) n.1 (attValFmt m))
                  (if x.ks = 0 then sc.1 else x.ks) (if x.vs = 0 then sc.2 else x.vs), none)

/-- One element of a kv GATHER: zeros at or beyond T and without a page. -/
def Dev.gatherElem (d : Dev) (party size : Nat) (x : KvEntry) : Dev × Except Fail (List B8) :=
  match d.findSeq x.seq with
  | none => (d, .error { status := 0x03, code := 0xD0 })
  | some (_, s) =>
    if s.tenant ≠ party ∨ s.state = 8 then (d, .error { status := 0x03, code := 0xD0 })
    else
      let m := d.seqManifest s false
      match x.fault m size with
      | some e => (d, .error e)
      | none =>
        match (if x.pos < s.tail then d.pageAt s false (x.pos / 64) x.ix else none) with
        | none => (d, .ok (List.replicate size 0))
        | some (_, _, pg) =>
          match d.pageBytes m pg with
          | (d1, .error e) => (d1, .error e)
          | (d1, .ok b) =>
            let n := elemRows m x.parts
            let pack (isKey : Bool) (f n : Nat) : List B8 :=
              if n = 0 then []
              else ((pageRow m b isKey (x.pos % 64)).mapIdx (fun i c => (i, c))).foldl (fun l y => putCode (fmtBits f) l y.1 y.2) (List.replicate n 0)
            (d1, .ok (pack true (attKeyFmt m) n.1 ++ pack false (attValFmt m) n.2))

/-- The fields of a SCATTER or GATHER: index table, dense side, base, count, element bytes. -/
structure Elems where
  table : Nat
  dense : Nat
  base : Nat
  count : Nat
  size : Nat
def elems (c : W512) : Elems :=
  { table := bytesAt c 8 8, dense := bytesAt c 16 8, base := bytesAt c 24 8, count := bytesAt c 32 4, size := 64 * bytesAt c 36 2 }

/-- Elements that one turn of the Move engine carries: those of one tile's size, at least one (R94). -/
def Elems.per (x : Elems) : Nat := max 1 (tileSize / x.size)

/-- Moves `n` bytes between two partition addresses. -/
def Dev.moveElem (d : Dev) (v : View) (src dst n : Nat) : Step1 :=
  match d.readMem v src n with
  | (d1, .error e) => (d1, some e)
  | (d1, .ok b) => d1.writeMem v dst b

/-- SCATTER or GATHER without kv: element `i` is numbered by entry `i` of the table on the indexed side. -/
def Dev.plainElem (v : View) (x : Elems) (scatter : Bool) (d : Dev) (i : Nat) : Dev × PartEnd :=
  if d.moveHeld v (x.table + 4 * i) 4 then (d, .waits)
  else match d.readMem v (x.table + 4 * i) 4 with
    | (d1, .error e) => (d1, .failed e)
    | (d1, .ok b) =>
      let far := x.base + leNat b * x.size
      let near := x.dense + i * x.size
      if d1.moveHeld v near x.size || d1.moveHeld v far x.size then (d, .waits)
      else match (if scatter then d1.moveElem v near far x.size else d1.moveElem v far near x.size) with
        | (d2, e) => (d2, partEnd e)

/-- The records of the sequences that a kv index table names. -/
def Dev.namedSeqs (d : Dev) (b : List B8) (n : Nat) : List Nat :=
  (((List.range n).map (fun i => (kvEntry b i).seq)).filterMap (fun id => (d.findSeq id).map (fun x => x.1))).eraseDups

/-- An element's sequence is the party's and in a batch or away, so the element waits (R286). -/
def Dev.elemWaits (d : Dev) (party : Nat) (x : KvEntry) : Bool :=
  match d.findSeq x.seq with
  | some (_, s) => decide (s.tenant = party) && (decide (s.state = 1) || decide (s.state = 3) || decide (s.state = 6))
  | none => false

/-- Element `i` of a kv SCATTER: it waits for a batch with its sequence, or is written. -/
def Dev.kvScatterElem (v : View) (x : Elems) (b : List B8) (d : Dev) (i : Nat) : Dev × PartEnd :=
  let a := x.dense + i * x.size
  if d.elemWaits v.party (kvEntry b i) || d.moveHeld v a x.size then (d, .waits)
  else match d.readMem v a x.size with
    | (d1, .error e) => (d1, .failed e)
    | (d1, .ok l) => match d1.scatterElem v.party (kvEntry b i) l with | (d2, e) => (d2, partEnd e)

/-- A kv SCATTER that runs holds its sequences: they take no new batch (R286). -/
def Dev.scatterHolds (d : Dev) (q : Nat) (rs : List Nat) : Dev :=
  rs.foldl (fun d r => d.modSeq r (fun s => if s.tenant = qParty q ∧ !s.scatterHold.contains q then { s with scatterHold := q :: s.scatterHold } else s)) d

/-- Element `i` of a kv GATHER. -/
def Dev.kvGatherElem (v : View) (x : Elems) (b : List B8) (d : Dev) (i : Nat) : Dev × PartEnd :=
  let a := x.dense + i * x.size
  if d.moveHeld v a x.size then (d, .waits)
  else match d.gatherElem v.party x.size (kvEntry b i) with
    | (d1, .error e) => (d1, .failed e)
    | (d1, .ok l) => match d1.writeMem v a l with | (d2, e) => (d2, partEnd e)

/-- SCATTER or GATHER: it starts, or goes on where its turn ended or an element waited. -/
def Dev.elemsCmd (d : Dev) (q turns : Nat) (scatter : Bool) : Dev :=
  d.onMove q (if scatter then 0x21 else 0x22) id (fun d r =>
    let v := d.qView q
    let x := elems r.cmd
    if (cmdArg r.cmd).testBit 0 then
      match d.readMem v x.table (32 * x.count) with
      | (d1, .error e) => d1.failMem q e
      | (d1, .ok b) =>
        if scatter then (d1.scatterHolds q (d1.namedSeqs b x.count)).carry q turns x.count x.per (Dev.kvScatterElem v x b) (Dev.endMove q)
        else d1.carry q turns x.count x.per (Dev.kvGatherElem v x b) (Dev.endMove q)
    else d.carry q turns x.count x.per (Dev.plainElem v x scatter) (Dev.endMove q))
def Dev.scatterCmd (d : Dev) (q turns : Nat) : Dev := d.elemsCmd q turns true
def Dev.gatherCmd (d : Dev) (q turns : Nat) : Dev := d.elemsCmd q turns false

/-! ## MIGRATE (R198, R214) -/

/-- Highest cluster_footprint of the programs that run on a region (R198). -/
def Dev.footprint (d : Dev) (r : Nat) : Nat :=
  let of (g : Option Prog) : Nat := match g with | some x => if x.mask.getLsbD r then bytesAt x.hdr 12 4 else 0 | none => 0
  max ((d.queues.map (fun e => match e.2.running with | some x => of x.prog | none => 0)).foldl max 0)
      ((d.parts.map (fun e => match e.2.batch with | some b => of b.prog | none => 0)).foldl max 0)

/-- A free slot of a partition's on-chip tier: rounds from tile index 31 down, clusters ascending. -/
def Dev.freeSlot (d : Dev) (p : Nat) : Option Nat :=
  let cs := (d.cfg.partRegions p).flatMap (fun r => (List.range 16).map (fun k => 16 * r + k))
  let used := (d.mapped.filter (fun e => e.2.onchip)).map (fun e => e.2.slot)
  ((List.range 32).reverse.flatMap (fun i => cs.map (fun c => 32 * c + i))).find? (fun s =>
    !used.contains s && decide (d.footprint (s / 32 / 16) ≤ s % 32 * tileSize))

/-- Brings a tile of LP5X on chip. -/
def Dev.bringOnchip (d : Dev) (p key : Nat) (t : Tile) (ps : List (Nat × Nat)) : Step1 :=
  match d.freeSlot p with
  | none => (d, some { status := 0x01, code := 0xB6 })
  | some s =>
    match d.readPieces (t.frame * tileSize) ps with
    | (d1, some e) => (d1, some e)
    | (d1, none) =>
      let d2 := d1.copyPieces (t.frame * tileSize) (slotDpa s) ps
      ({ d2 with mem := { d2.mem with
          tiles := d2.mem.tiles.set key (some { t with onchip := true, dirty := false, slot := s })
          tags := d2.mem.tags.set (tagNo (slotDpa s)) { owner := some t.owner, valid := BitVec.allOnes 256, written := 0 } } }, none)

/-- Moves one tile to a target tier. -/
def Dev.migrateTile (d : Dev) (v : View) (target a : Nat) : Step1 :=
  let k := d.keyAt v a
  match d.tile k with
  | none => (d, none)
  | some t =>
    if t.owner ≠ v.party ∧ t.owner ≠ mgmtParty then (d, some { status := 0x03, code := 0xB0, addr := a, space := 0 })
    else match d.movePieces v .memory a tileSize with
      | (d1, .error e) => (d1, some e)
      | (d1, .ok l) =>
        let ps := l.map (fun x => (x.1 - a, x.2))
        let at_ (s : Step1) : Step1 := match s with | (d, some e) => (d, some (if e.space = 3 then { e with addr := a, space := 0 } else e)) | s => s
        at_ (if target = 0 then
            (if t.onchip then (d1, none)
             else match d1.bringUp k t ps with
              | (d2, some e) => (d2, some e)
              | (d2, none) => match d2.tile k with
                | some w => d2.bringOnchip v.part k w ps
                | none => (d2, none))
          else
            let d2 := if t.onchip then d1.giveUpSlot (k, t) else d1
            match d2.tile k with
            | none => (d2, none)
            | some w => if target = 1 then d2.bringUp k w ps else d2.sendDown k w ps)

/-- Tile `i` of a MIGRATE: it waits for another command's move of the tile, and while the partition is suspended where it goes to or lies in a
cluster buffer (R501), then moves (R216). `own` is the tile that the command itself has marked busy. -/
def Dev.migratePart (v : View) (target a : Nat) (own : Option Nat) (d : Dev) (i : Nat) : Dev × PartEnd :=
  let k := d.keyAt v (a + i * tileSize)
  let free (d : Dev) : Dev := match d.tile k with | some t => { d with mem := { d.mem with tiles := d.mem.tiles.set k (some { t with busy := false }) } } | none => d
  if d.busyIn v (a + i * tileSize) 1 && decide (own ≠ some i) then (d, .waits)
  else if d.isSuspended v.part && (decide (target = 0) || (d.tile k).any (fun t => t.onchip)) then (d, .waits)
  else match (free d).migrateTile v target (a + i * tileSize) with
    | (d1, e) => (d1, partEnd e)

/-- Marks the next tile of an unfinished MIGRATE busy, unless another command's move has it (R195). -/
def Dev.markTile (d : Dev) (q : Nat) : Dev :=
  match d.running q with
  | none => d
  | some r =>
    let k := d.keyAt (d.qView q) (bytesAt r.cmd 8 8 + r.pos * tileSize)
    match d.tile k with
    | some t => if t.busy then d.setRunning q { r with mark := false }
                else ({ d with mem := { d.mem with tiles := d.mem.tiles.set k (some { t with busy := true }) } } : Dev).setRunning q { r with mark := true }
    | none => d.setRunning q { r with mark := false }

/-- MIGRATE: tiles in ascending order, its progress slot at the tiles moved; the first failure ends it and the tiles already moved stay
moved (R214). -/
def Dev.migrateCmd (d : Dev) (q turns : Nat) : Dev :=
  let slot (r : Running) : Nat := nfld (cmdArg r.cmd) 2 3
  let start (d : Dev) : Dev :=
    match d.running q with
    | some r => d.takeSlot q (slot r) (fun d => d.setProgress (qParty q) (slot r) 1 0)
    | none => d
  d.onMove q 0x23 start (fun d r =>
    let n := bytesAt r.cmd 16 4
    let fin (d : Dev) (e : Option Fail) : Dev := Dev.endMove q (if e.isNone then d.setProgress (qParty q) (slot r) 2 n else d) e
    let d1 := d.carry q turns n 1 (Dev.migratePart (d.qView q) (cmdArg r.cmd % 4) (bytesAt r.cmd 8 8) (if r.mark then some r.pos else none)) fin
    match d1.running q with
    | some r1 => if r1.pos = r.pos then d1 else (d1.setProgress (qParty q) (slot r) 1 r1.pos).markTile q
    | none => d1)

/-! ## The rows -/

def execCopy (m : MoveTurn) (host : List Host.Cell) (s : State) : Host.Outcome State Fault Refusal := .next { s with dev := s.dev.copyCmd m.q host m.turns }
def execHostDmaTimeout (q : Nat) (addr : W64) (s : State) : Host.Outcome State Fault Refusal := .next { s with dev := s.dev.hostReadTimeout q addr }
def execHostDmaCompletionError (q : Nat) (addr : W64) (s : State) : Host.Outcome State Fault Refusal :=
  .next { s with dev := s.dev.hostReadFails q addr 0x03 }
def execScatter (m : MoveTurn) (s : State) : Host.Outcome State Fault Refusal := .next { s with dev := s.dev.scatterCmd m.q m.turns }
def execGather (m : MoveTurn) (s : State) : Host.Outcome State Fault Refusal := .next { s with dev := s.dev.gatherCmd m.q m.turns }
def execMigrate (m : MoveTurn) (s : State) : Host.Outcome State Fault Refusal := .next { s with dev := s.dev.migrateCmd m.q m.turns }

end Sys2Proof.Machine
end

