-- ==== Sys2Proof/Machine/Loads.lean ====
section
/-! DEFINITION. Loading, switching, unloading and sweeping models, and the weight cache (R226-R254, R260, R308). -/
namespace Sys2Proof.Machine
open Sys2Proof

/-! ## The checks of a load (R239, R260, R308) -/

/-- First byte of a source entry outside R232, for a loader. -/
def Dev.sourceBad (d : Dev) (v : View) (m : Manifest) (i j : Nat) : Option Nat :=
  let o := shardOff i + 48 + 24 * j
  let x := source m i j
  if 2 < x.typ ∨ (x.typ = 0 ∧ j = 0) then some o
  else if x.typ = 1 ∧ 16 ≤ x.target then some (o + 1)
  else if !zeroAt m (o + 2) 2 then some (o + 2)
  else if x.typ = 2 ∧ (x.addr % 4096 ≠ 0 ∨ inWindow (x.addr + shardLen m i - 1) ∨ !d.ownedRange v x.addr (shardLen m i)) then some (o + 8)
  else if !zeroAt m (o + 16) 8 then some (o + 16)
  else none

/-- Step 5: the first bad byte of the manifest. -/
def Dev.manifestBad (d : Dev) (v : View) (m : Manifest) : Option Nat :=
  match manHeaderBad m with
  | some o => some o
  | none =>
    match (((List.range (manShards m)).flatMap (fun i => [(i, 0), (i, 1)])).filterMap (fun x => d.sourceBad v m x.1 x.2)).head? with
    | some o => some o
    | none =>
      let ts := tensors m
      ((ts.mapIdx (fun i t => (tensorBad m ts i t).map (fun b => tensorOff m i + b))).filterMap (fun x => x)).head?

/-- Step 6: the first tensor that is not supported. -/
def tensorUnfit (ts : List Tensor) (R : Nat) : Option Nat :=
  ts.findIdx? (fun t =>
    let r := ts.getD t.ref default
    let kn := if t.kind = 1 then (r.k, r.n) else (t.k, t.n)
    (decide (t.kind = 0) && !wgtFmt t.fmt) || decide (t.flags ≠ 0)
      || (decide (t.split = 1) && decide (kn.2 % (16 * R) ≠ 0)) || (decide (t.split = 2) && decide (t.kind ≤ 1) && decide (kn.1 % (16 * R) ≠ 0)))

/-- The key slot that a manifest's signer names for a loader; none where it is absent or not permitted (step 3). -/
def Cfg.signerSlot (c : Cfg) (party : Nat) (m : Manifest) : Option Nat :=
  let k := if manSigner m = 0 then (if party < 64 then c.modelKeySlot party else 0xFF)
    else if manSigner m = 1 ∧ (64 ≤ party ∨ c.operatorOk party) then c.operatorSlot else 0xFF
  if k = 0xFF then none else some k

/-- Slots of a partition that hold something, and those of them that a party owns. -/
def Dev.slotsHeld (d : Dev) (p : Nat) (own : Option Nat) : Nat :=
  ((List.range 8).filter (fun s => let v := d.slot (slotNo p s); !v.empty && (match own with | some o => decide (v.owner = o) | none => true))).length

/-- The end of what a load places, as far as its manifest tells it: the placement of R235 and, for a servable model, the workspace of R308
without the item table, whose size only the program table gives. -/
def Dev.startEnd (d : Dev) (p : Nat) (m : Manifest) : Nat :=
  let e := placeEnd m (d.partR p) (d.partD p)
  if srvVocab m = 0 then e else (workspace m e 0 (d.cfg.partSeqs p)).stop

/-- Steps 1 to 7 of R239 with R260 and R308 on the copied manifest: the first failure. -/
def Dev.loadFault (d : Dev) (v : View) (s : Nat) (m : Manifest) : Option Fail :=
  let p := v.part
  let slot := d.slot (slotNo p s)
  let R := d.partR p
  let D := d.partD p
  if slot.load.isSome ∨ 2 ≤ slot.gens.length then some { status := 0x01, code := 0xC5 }
  else if slot.degraded ∨ slot.unloading then some { status := 0x10, code := 0xCA }
  else if slot.empty ∧ ((v.party < 64 ∧ d.cfg.tenSlots v.party ≤ d.slotsHeld p (some v.party)) ∨ d.cfg.partSlots p ≤ d.slotsHeld p none) then some { status := 0x0F, code := 0xC6 }
  else match d.cfg.signerSlot v.party m with
    | none => some { status := 0x03, code := 0xC1 }
    | some k =>
      if !Config.ecdsaVerify (d.cfg.key k) (m.take (m.length - 96)) (m.drop (m.length - 96)) then some { status := 0x05, code := 0xC2 }
      else match d.manifestBad v m with
        | some o => some { status := 0x04, code := 0xC3, val := o }
        | none =>
          match tensorUnfit (tensors m) R with
          | some i => some { status := 0x08, code := 0xC4, val := i }
          | none =>
            match attBad m, attUnfit m R D, srvBad m with
            | some o, _, _ => some { status := 0x04, code := 0xC3, val := o }
            | none, some o, _ => some { status := 0x08, code := 0xD1, val := o }
            | none, none, some o => some { status := 0x04, code := 0xC3, val := o }
            | none, none, none => if 0x1000000000 < d.startEnd p m then some { status := 0x02, code := 0xCC } else none

/-- Copies a manifest into the device: its header, then its stated length. -/
def Dev.fetchManifest (d : Dev) (v : View) (a : Nat) : Dev × Except Fail Manifest :=
  match d.readMem v a 256 with
  | (d1, .error e) => (d1, .error e)
  | (d1, .ok h) =>
    let n := if manLength h < 352 ∨ 2195904 < manLength h then 352 else manLength h
    match d1.readMem v (a + 256) (n - 256) with
    | (d2, .error e) => (d2, .error e)
    | (d2, .ok b) => (d2, .ok (h ++ b))

/-- MODEL_LOAD: the steps of R239, then the window of the new generation is mapped and its model map written. -/
def Dev.modelLoadCmd (d : Dev) (q : Nat) : Dev :=
  d.begin q 0x24 (fun d c =>
    let v := d.qView q
    let p := v.part
    let s := cmdArg c / 256
    d.takeSlot q (cmdArg c % 8) (fun d =>
      match d.fetchManifest v (bytesAt c 8 8) with
      | (d1, .error e) => d1.failMem q e
      | (d1, .ok m) =>
        match d1.loadFault v s m with
        | some e => d1.failDisp q e
        | none =>
          let R := d1.partR p
          let D := d1.partD p
          let g := (d1.slot (slotNo p s)).count + 1
          match d1.mapModel p s g v.party 0 (d1.startEnd p m / tileSize) (descLineOf m R D s) with
          | (d2, some e) => d2.failDisp q e
          | (d2, none) =>
            let d3 := d2.loadWrite p s g 0 (modelMap m R D s)
            let l : Load := { gen := g, manifest := m, signer := (d1.cfg.signerSlot v.party m).getD 0xFF, owner := v.party, queue := q,
                              timeoutMs := if bytesAt c 16 4 = 0 then 10000 else bytesAt c 16 4 }
            (d3.modSlot (slotNo p s) (fun x => { x with load := some (l.begin d.time), owner := if x.empty then v.party else x.owner })).setProgress v.party (cmdArg c % 8) 0 0))

/-! ## Shards (R240-R242) -/

/-- A load ends in failure, and an empty slot is free again. -/
def Dev.failLoad (d : Dev) (n : Nat) (f : Fail) : Dev := ((d.endLoad n f).settle n)

/-- The failure of a shard's fourth attempt: its address is that of its first stream byte in its first placed piece (R241). -/
def Dev.shardFail (d : Dev) (n : Nat) (l : Load) (i : Nat) (digest : Bool) : Fail :=
  let p := n / 8
  { status := if digest then 0x05 else 0x06, code := if digest then 0xC8 else 0xC9, val := i,
    addr := windowBase (n % 8) + (firstPlace l.manifest (d.partR p) (d.partD p) (shardStart l.manifest i)).getD 0, space := 0 }

/-- The next fetch of shard `i` begins. -/
def Dev.fetchAgain (d : Dev) (n i : Nat) (f : Load → Load) : Dev :=
  d.modSlot n (fun v => { v with load := v.load.map (fun x => { (f x) with started := x.started.set i d.time }) })

/-- An attempt at shard `i` has failed; the one that made up for a failed cache entry does not count (R244). -/
def Dev.shardMiss (d : Dev) (n : Nat) (l : Load) (i : Nat) (digest : Bool) : Dev :=
  let k := l.attempts.get i 0 + 1
  if l.uncounted.contains i then d.fetchAgain n i (fun x => { x with uncounted := x.uncounted.filter (fun j => decide (j ≠ i)) })
  else if 4 ≤ k then d.failLoad n (d.shardFail n l i digest)
  else d.fetchAgain n i (fun x => { x with attempts := x.attempts.set i k })

/-- A program header of the table fails R135 or names buffers that are not there (R308). -/
def progTableOk (m : Manifest) (len : Nat) (b : List B8) : Bool :=
  let es := progEntries b
  let ok (e : ProgEntry) : Bool :=
    decide (e.cls ≤ 1) && decide (e.rows ≠ 0) && decide (e.rows % 16 = 0) && decide (e.rows ≤ srvBatchRows m) && decide (e.off % 64 = 0)
      && decide (e.len ≠ 0) && decide (e.off + 64 * e.len ≤ len)
      && (if e.cls = 0 then decide (e.segment = 0) && decide (e.scatter = 0xFF) else decide (e.scatter = 0xFF) || decide (e.scatter < attLayers m))
  let buckets := (es.filter (fun e => decide (e.cls = 0))).map (fun e => e.rows)
  let segs (r : Nat) : List Nat := (es.filter (fun e => decide (e.cls = 1) && decide (e.rows = r))).map (fun e => e.segment)
  let S := (segs (srvBatchRows m)).length
  zeroAt b 4 12 && (List.range es.length).all (fun i => zeroAt b (16 + 16 * i + 3) 1) && es.all ok && buckets.contains (srvBatchRows m)
    && decide (buckets.eraseDups.length = buckets.length) && decide (1 ≤ S) && decide (S ≤ 256)
    && buckets.all (fun r => decide ((segs r).length = S) && (List.range S).all (fun k => (segs r).contains k))
    && es.all (fun e => decide (e.cls = 0) || buckets.contains e.rows)

/-- Every shard has verified: the program table is checked and the rest of the workspace mapped; the load then waits for its tick (R242, R308). -/
def Dev.loadDone (d : Dev) (n : Nat) (l : Load) : Dev :=
  let p := n / 8
  let s := n % 8
  let m := l.manifest
  let complete (d : Dev) : Dev := d.modSlot n (fun v => { v with load := v.load.map (fun x => { x with complete := true }) })
  if srvVocab m = 0 then complete d
  else
    let t := tensor m (srvTable m)
    let v : View := { party := l.owner, part := p, pin := some (s, l.gen) }
    match d.tableRead v m 0 (srvTable m) 0 t.len with
    | (d1, .error e) => d1.failLoad n e
    | (d1, .ok b) =>
      if !progTableOk m t.len b then d1.failLoad n { status := 0x04, code := 0xC3, val := 0xB8 }
      else if (progEntries b).any (fun e => let h := w512Of (b.drop e.off); (headerFormat h e.len).isSome || headerBig h) then
        d1.failLoad n { status := 0x02, code := 0xE0 }
      else
        let w := workspace m (placeEnd m (d1.partR p) (d1.partD p)) (((progEntries b).map (fun e => e.items)).foldl max 0) (d1.cfg.partSeqs p)
        if 0x1000000000 < w.stop then d1.failLoad n { status := 0x02, code := 0xCC }
        else match d1.mapModel p s l.gen l.owner (d1.startEnd p m / tileSize) ((w.stop - d1.startEnd p m) / tileSize) (fun _ => none) with
          | (d2, some e) => d2.failLoad n e
          | (d2, none) => complete d2

/-- Shard `i` has verified: its bytes go to their places, and the progress follows (R240, R242). -/
def Dev.shardOk (d : Dev) (n : Nat) (l : Load) (i : Nat) (b : List B8) : Dev :=
  let p := n / 8
  let s := n % 8
  let m := l.manifest
  let a := shardStart m i
  let d1 := ((runs m (d.partR p) (d.partD p)).filterMap (fun r => r.clip a (shardLen m i))).foldl
    (fun d r => d.loadWrite p s l.gen r.win ((b.drop (r.stream - a)).take r.len)) d
  let l1 := ({ l with verified := l.verified ++ [i] } : Load).begin d.time
  let bytes := (l1.verified.map (shardLen m)).sum
  let d2 := d1.modSlot n (fun v => { v with load := some l1 })
  let d3 := match d2.running l.queue with
    | some r => d2.setProgress l.owner (cmdArg r.cmd % 8) 0 (10000 * bytes / max 1 (manStream m))
    | none => d2
  if manShards m ≤ l1.verified.length then d3.loadDone n l1 else d3

/-- The digest of bytes is the one a shard entry states. -/
def shardMatches (m : Manifest) (i : Nat) (b : List B8) : Bool := decide (b.length = shardLen m i) && decide (Config.sha384 b = shardDigest m i)

/-- A cache entry for shard `i` under the load's signing key; it becomes the most recently used (R244). -/
def Dev.cacheFind (d : Dev) (l : Load) (i : Nat) : Option CacheEntry :=
  d.mdl.cache.find? (fun e => decide (e.digest = shardDigest l.manifest i) && decide (e.signer = Config.sha384 (d.cfg.key l.signer)))
def Dev.cacheDrop (d : Dev) (e : CacheEntry) : Dev := { d with mdl := { d.mdl with cache := d.mdl.cache.filter (fun x => decide (x ≠ e)) } }
def Dev.cacheTouch (d : Dev) (e : CacheEntry) : Dev := { d with mdl := { d.mdl with cache := d.mdl.cache.filter (fun x => decide (x ≠ e)) ++ [e] } }

/-- SHARD_ARRIVAL: the last byte of a shard in flight arrives, from the weight cache, from memory, or as `bytes` from the network. Where it
was a cache entry that fails, the entry is dropped and the fetch from the primary source begins (R244). -/
def Dev.shardArrival (d : Dev) (n i : Nat) (bytes : List B8) : Dev :=
  match (d.slot n).load with
  | none => d
  | some l =>
    if l.complete || !l.inFlight.contains i then d
    else
      let m := l.manifest
      let fetch (d : Dev) : Dev :=
        let src := l.sourceOf i
        if src.typ = 1 ∧ !d.cfg.targetOn src.target then d.shardMiss n l i false
        else if src.typ = 2 then
          (match d.readMem { party := l.owner, part := n / 8 } src.addr (shardLen m i) with
            | (d1, .error _) => d1.shardMiss n l i false
            | (d1, .ok b) => if shardMatches m i b then d1.shardOk n l i b else d1.shardMiss n l i true)
        else if shardMatches m i bytes then d.shardOk n l i bytes else d.shardMiss n l i true
      match d.cacheFind l i with
      | some e => if shardMatches m i e.bytes && !d.mem.nvmeFail.get e.drive false then (d.cacheTouch e).shardOk n l i e.bytes
        else (d.cacheDrop e).fetchAgain n i (fun x => { x with uncounted := i :: x.uncounted })
      | none => fetch d

/-- A shard in flight will not arrive: its fetch has failed (R240). -/
def Dev.shardLost (d : Dev) (n i : Nat) : Dev :=
  match (d.slot n).load with
  | none => d
  | some l => if l.complete || !l.inFlight.contains i then d else d.shardMiss n l i false

/-- The time for a shard's present fetch has passed (R240). -/
def Load.late (l : Load) (t : W64) (i : Nat) : Bool := decide ((l.started.get i 0).toNat + 1000000 * l.timeoutMs ≤ t.toNat)

/-- SHARD_TIMEOUT: a shard in flight has not arrived in its time. -/
def Dev.shardTimeout (d : Dev) (n i : Nat) : Dev :=
  match (d.slot n).load with
  | none => d
  | some l => if l.late d.time i then d.shardLost n i else d

/-- One adjustable item of the running tick's batch has been applied (R63). -/
def Dev.itemApplied (d : Dev) : Dev := { d with fw := { d.fw with applied := d.fw.applied + 1 } }

/-- LOAD_COMMIT: at a tick boundary after the last shard has verified, the new generation becomes current or staged, and the command
completes; a later tick than that is reported (R31, R242, R243). -/
def Dev.loadCommit (d : Dev) (n : Nat) : Dev :=
  match (d.slot n).load with
  | none => d
  | some l =>
    if l.due.isNone || !d.atTick || d.coreOut 0 then d
    else
      let v := d.slot n
      let staged := !v.gens.isEmpty
      let g : GenState := { number := l.gen, role := if staged then 1 else 0, manifest := l.manifest, since := d.time }
      let d1 := d.modSlot n (fun v => { v with gens := v.gens ++ [g], load := none, count := l.gen, owner := if staged then v.owner else l.owner })
      let d2 := match d1.running l.queue with | some r => d1.setProgress l.owner (cmdArg r.cmd % 8) 2 10000 | none => d1
      let fills := if manCacheFlag l.manifest then ((List.range (manShards l.manifest)).filter (fun i => (d.cacheFind l i).isNone)).map (fun i => (shardDigest l.manifest i, l.signer)) else []
      let d3 := { d2 with mdl := { d2.mdl with fill := d2.mdl.fill ++ fills } }
      (d3.itemApplied.finish l.queue (BitVec.ofNat 64 (l.gen + if staged then 4294967296 else 0))).deferred 0 l.owner (l.due.getD 0)

/-! ## The weight cache (R244) -/

/-- Bytes of a shard that some resident generation holds, by its digest. -/
def Dev.shardBytes (d : Dev) (dg : B384) : Option (List B8) :=
  (List.range 128).findSome? (fun n => (d.slot n).gens.findSome? (fun g =>
    match (List.range (manShards g.manifest)).find? (fun i => decide (shardDigest g.manifest i = dg)) with
    | none => none
    | some i => match d.rebuild (n / 8) (n % 8) g.number g.manifest 0 (shardStart g.manifest i) (shardLen g.manifest i) with
      | (_, .ok b) => some b
      | (_, .error _) => none))

/-- Evicts cache entries, least recently used first, until a fill of `n` places fits free space and the cache's share. -/
def Dev.cacheMake (d : Dev) (n : Nat) : Nat → Dev
  | 0 => d
  | fuel + 1 =>
    let tier := ((List.range 2).map (fun k => if d.mem.nvmePresent.getLsbD k then d.mem.nvmeCap.get k 0 else 0)).sum
    let held := d.cachePlaces 0 + d.cachePlaces 1
    if n ≤ d.nvmeFree d.nvmeDrive ∧ 100 * (held + n) ≤ d.mdl.cacheMaxPct * tier then d
    else match d.mdl.cache with
      | [] => d
      | _ :: r => Dev.cacheMake { d with mdl := { d.mdl with cache := r } } n fuel

/-- WEIGHT_CACHE_FILL: the oldest shard that waits is written to the cache, where it fits. -/
def Dev.cacheFill (d : Dev) : Dev :=
  match d.mdl.fill with
  | [] => d
  | (dg, k) :: rest =>
    let d0 := { d with mdl := { d.mdl with fill := rest } }
    let signer := Config.sha384 (d.cfg.key k)
    if d.coreOut 1 then d
    else if d.mdl.cache.any (fun e => decide (e.digest = dg) && decide (e.signer = signer)) then d0
    else match d0.shardBytes dg with
      | none => d0
      | some b =>
        let n := cdiv b.length tileSize
        let tier := ((List.range 2).map (fun k => if d.mem.nvmePresent.getLsbD k then d.mem.nvmeCap.get k 0 else 0)).sum
        if d.mdl.cacheMaxPct * tier < 100 * n then d0
        else
          let d1 := d0.cacheMake n (d0.mdl.cache.length + 1)
          if d1.nvmeFree d1.nvmeDrive < n then d1
          else { d1 with mdl := { d1.mdl with cache := d1.mdl.cache ++ [{ digest := dg, signer := signer, bytes := b, drive := d1.nvmeDrive }] } }

/-! ## Unload, switch, free (R246-R248, R250) -/

/-- MODEL_CTL op 0. -/
def Dev.unloadCmd (d : Dev) (q : Nat) : Dev :=
  match d.startable q 0x25 with
  | none => d
  | some c0 =>
    if cmdArg c0 % 4 ≠ 0 then d
    else d.begin q 0x25 (fun d c =>
      let n := slotNo (d.qPart q) (cmdArg c / 256)
      let v := d.slot n
      if v.degraded ∨ v.unloading then d.failDisp q { status := 0x10, code := 0x89, val := cmdArg c / 256 }
      else
        let d1 := d.endLoad n { status := 0x10, code := 0xCA }
        ((d1.modSlot n (fun v => { v with unloading := true, freeStaged := v.staged.isSome, unloadQ := some q })).settle n))

/-- MODEL_CTL op 1. -/
def Dev.switchCmd (d : Dev) (q : Nat) : Dev :=
  match d.startable q 0x25 with
  | none => d
  | some c0 =>
    if cmdArg c0 % 4 ≠ 1 then d
    else d.begin q 0x25 (fun d c =>
      let n := slotNo (d.qPart q) (cmdArg c / 256)
      let v := d.slot n
      if v.degraded ∨ v.unloading then d.failDisp q { status := 0x10, code := 0x89, val := cmdArg c / 256 }
      else match v.staged with
        | some g => if g.number = bytesAt c 8 4 && !v.freeStaged then d.modSlot n (fun v => { v with switches := v.switches ++ [{ gen := g.number, queue := q, due := d.tick + 1 }] })
          else d.failDisp q { status := 0x10, code := 0xC7 }
        | none => d.failDisp q { status := 0x10, code := 0xC7 })

/-- The slot with its staged generation current and the old current one draining. -/
def Slot.switched (v : Slot) (g : Nat) : Slot := { v with gens := v.gens.map (fun y => { y with role := if y.number = g then 0 else 2 }) }

/-- The switches that wait on slot `n` take effect at a tick: the staged generation becomes current, and each command that names it
completes (R246). -/
def Dev.applySwitch (d : Dev) (n : Nat) : Dev :=
  let v := d.slot n
  let d0 := d.modSlot n (fun v => { v with switches := [] })
  let fits (w : Switch) : Bool := match v.staged with | some x => decide (x.number = w.gen) && !v.freeStaged | none => false
  let d1 := match v.switches.find? fits with
    | some w => ((d0.modSlot n (fun v => v.switched w.gen)).logRec 0 0x8D v.owner (unitHub 0 0) n w.gen).deferred 0 v.owner w.due
    | none => d0
  v.switches.foldl (fun d w => if fits w then d.finish w.queue (BitVec.ofNat 64 w.gen) else d.failDisp w.queue { status := 0x10, code := 0xC7 }) d1

/-- Whether generation `g` of a slot is to be freed now: nothing pins it, and it drains, or was staged and is given up, or its
slot is unloaded or degraded. -/
def Slot.freeable (v : Slot) (g : GenState) : Bool :=
  decide (g.pins = 0) && (decide (g.role = 2) || (decide (g.role = 1) && v.freeStaged) || (decide (g.role ≤ 1) && v.unloading) || (decide (g.role = 0) && g.degraded))

/-- Prefix nodes of a generation go with it (R296). -/
def Dev.dropGenNodes (d : Dev) (p s g : Nat) : Dev :=
  d.removeNodes (d.kv.nodes.filter (fun n => decide (n.partition = p) && decide (n.slot = s) && decide (n.gen = g)))

/-- What the tick finds due on a slot: a load whose shards have all verified, and generations that are to be freed, each with the first tick
that found it so (R242, R247). -/
def Slot.marked (v : Slot) (t : Nat) : Slot :=
  { v with load := v.load.map (fun l => { l with due := if l.complete then some (l.due.getD t) else none })
           gens := v.gens.map (fun g => { g with freeDue := if v.freeable g then some (g.freeDue.getD t) else none }) }
def Dev.markDue (d : Dev) : Dev := { d with mdl := { d.mdl with slots := d.mdl.slots.map (fun e => (e.1, e.2.marked d.tick)) } }

/-- A generation leaves its slot: tiles unmapped, nodes removed. -/
def Dev.freeGen (d : Dev) (n g : Nat) : Dev :=
  let d1 := (((d.stopSweep n g).unmapGen (n / 8) (n % 8) g).dropGenNodes (n / 8) (n % 8) g).modSlot n (fun v => { v with gens := v.gens.filter (fun x => decide (x.number ≠ g)) })
  (d1.modSlot n (fun v => { v with freeStaged := v.freeStaged && v.staged.isSome })).settle n

/-- GENERATION_FREE: at a tick boundary after a generation's last pin dropped its tiles are unmapped; a later tick than the first is reported
(R31, R247). -/
def Dev.generationFree (d : Dev) (n g : Nat) : Dev :=
  match (d.slot n).gens.find? (fun x => decide (x.number = g)) with
  | none => d
  | some x =>
    if x.freeDue.isNone || !(d.slot n).freeable x || !d.atTick || d.coreOut 0 then d
    else
      let d0 := if x.role = 0 && x.degraded then d.modSlot n (fun v => { v with unloading := true, freeStaged := v.staged.isSome }) else d
      (d0.freeGen n g).itemApplied.deferred 0 (d.slot n).owner (x.freeDue.getD 0)

/-! ## The digest sweep (R249, R250) -/

/-- Rebuilds of a generation: one for each die where a tensor is kept per die. -/
def Dev.sweepCopies (d : Dev) (n : Nat) (m : Manifest) : Nat := if (tensors m).any (fun t => decide (t.split = 3)) then d.partD (n / 8) else 1

/-- Shards that a sweep of a generation rebuilds, over the copies of the dies in turn. -/
def Dev.sweepTotal (d : Dev) (n : Nat) (m : Manifest) : Nat := manShards m * d.sweepCopies n m

/-- When a generation's sweep is due (R249, R251). -/
def Dev.dueAt (d : Dev) (g : GenState) : Nat :=
  let t := g.since.toNat + d.mdl.sweepS * 1000000000
  match g.sweepAt with
  | some x => min x.toNat t
  | none => t

/-- The generations whose sweep is due, each with its slot and the time since when it is. -/
def Dev.sweepsDue (d : Dev) : List (Nat × Nat × Nat) :=
  d.mdl.slots.flatMap (fun e => ((e.2.gens.filter (fun g => decide (g.role ≠ 2) && !g.degraded)).map (fun g => (e.1, g.number, d.dueAt g))).filter
    (fun x => decide (x.2.2 ≤ d.time.toNat)))

/-- The sweep of generation `gen` of slot `n` that runs, or that may begin: none other runs, and none is due longer. -/
def Dev.sweepTurn (d : Dev) (n gen : Nat) : Option Sweep :=
  match d.mdl.sweep with
  | some w => if w.slot = n ∧ w.gen = gen then some w else none
  | none =>
    match d.sweepsDue.find? (fun x => decide (x.1 = n) && decide (x.2.1 = gen)) with
    | some x => if d.sweepsDue.all (fun y => decide (x.2.2 ≤ y.2.2)) then some { slot := n, gen := gen } else none
    | none => none

/-- Rebuilds and digests the `k`-th to `k + m - 1`-th shard of a sweep; the first that fails, with the failure of its read. -/
def Dev.sweepPart (d : Dev) (n : Nat) (g : GenState) (k m : Nat) : Dev × Option (Nat × Option Fail) :=
  (List.range m).foldl (fun s j =>
    match s with
    | (d, some x) => (d, some x)
    | (d, none) =>
      let i := (k + j) % manShards g.manifest
      match d.rebuild (n / 8) (n % 8) g.number g.manifest ((k + j) / manShards g.manifest) (shardStart g.manifest i) (shardLen g.manifest i) with
      | (d1, .error e) => (d1, some (i, some e))
      | (d1, .ok b) => if shardMatches g.manifest i b then (d1, none) else (d1, some (i, none))) (d, none)

/-- A sweep ends: the next one is due an interval later. -/
def Dev.sweepEnd (d : Dev) (n gen : Nat) : Dev :=
  (({ d with mdl := { d.mdl with sweep := none } } : Dev).modGen n gen (fun x => { x with since := d.time, sweepAt := none })).endDegraded

/-- DIGEST_SWEEP: the next `shards` shards of the sweep of a due generation are rebuilt and digested, all that are left where it is 0; a
mismatch or a failing read degrades the generation. -/
def Dev.digestSweep (d : Dev) (n gen shards : Nat) : Dev :=
  match (d.slot n).gens.find? (fun x => decide (x.number = gen)), d.sweepTurn n gen with
  | some g, some w =>
    if d.coreOut 1 then d
    else
      let left := d.sweepTotal n g.manifest - w.next
      let m := if shards = 0 then left else min shards left
      match d.sweepPart n g w.next m with
      | (d1, none) =>
        if left ≤ m then (d1.logRec 1 0x8C (d1.slot n).owner (unitHub 0 1) n gen).sweepEnd n gen
        else { d1 with mdl := { d1.mdl with sweep := some { w with next := w.next + m } } }
      | (d1, some (i, none)) => (d1.degrade n gen i).sweepEnd n gen
      | (d1, some (i, some e)) =>
        let d2 := d1.failRec (d1.slot n).owner (dispatcher (n / 8)) e
        (if e.status = 0x0C ∨ e.status = 0x0D then d2.degrade n gen i else d2).sweepEnd n gen
  | _, _ => d

/-! ## The rows -/

def execModelLoad (q : Nat) (s : State) : Host.Outcome State Fault Refusal := .next { s with dev := s.dev.modelLoadCmd q }
def execShardArrival (slot shard : Nat) (bytes : List B8) (s : State) : Host.Outcome State Fault Refusal :=
  .next { s with dev := s.dev.shardArrival slot shard bytes }
def execShardTimeout (slot shard : Nat) (s : State) : Host.Outcome State Fault Refusal := .next { s with dev := s.dev.shardTimeout slot shard }
def execLoadCommit (slot : Nat) (s : State) : Host.Outcome State Fault Refusal := .next { s with dev := s.dev.loadCommit slot }
def execWeightCacheFill (s : State) : Host.Outcome State Fault Refusal := .next { s with dev := s.dev.cacheFill }
def execModelCtlUnload (q : Nat) (s : State) : Host.Outcome State Fault Refusal := .next { s with dev := s.dev.unloadCmd q }
def execModelCtlSwitch (q : Nat) (s : State) : Host.Outcome State Fault Refusal := .next { s with dev := s.dev.switchCmd q }
def execGenerationFree (slot gen : Nat) (s : State) : Host.Outcome State Fault Refusal := .next { s with dev := s.dev.generationFree slot gen }
def execDigestSweep (slot : Nat) (w : SweepTurn) (s : State) : Host.Outcome State Fault Refusal := .next { s with dev := s.dev.digestSweep slot w.gen w.shards }

end Sys2Proof.Machine
end

