-- ==== Sys2Proof/Machine/Outputs.lean ====
section
/-! DEFINITION. Ends of pulse programs, limit inputs, and the UARTs (R400-R405, R409). -/
namespace Sys2Proof.Machine
open Sys2Proof

/-! ## Pulse channels -/

/-- The running program of channel `n` ends with a status after `steps` steps of its own, the track having moved `moved` steps. -/
def Dev.pulseEnd (d : Dev) (n status : Nat) (steps moved : Int) : Dev :=
  match (d.pulse n).running with
  | none => d
  | some h =>
    let d1 := d.modPulse n (fun v => { v with running := none, pos := v.pos + BitVec.ofInt 64 moved, brake := 0, brakeV := 0, brakeD := 0, stepPin := false })
    d1.deviceWrite h.party (d.partyPart h.party) (h.addr + 8) (pulseResult status steps)

/-- Steps that the running program itself has issued: braking belongs to the program that it aborted. -/
def Dev.ownSteps (d : Dev) (n : Nat) : Int :=
  let t := d.pulseTravel n
  if (d.pulse n).brake ≠ 0 ∧ t.leg = 0 then 0 else t.steps - (d.pulse n).brake

/-- PULSE_PROGRAM_DONE: the last segment has ended, at its last edge or the end of its dwell (R400). A PWM segment of 0 periods holds and
does not end. -/
def Dev.pulseDone (d : Dev) (n : Nat) : Dev :=
  match (d.pulse n).running with
  | none => d
  | some h =>
    let legs := d.cfg.legs n h.bytes
    if (d.pulseTravel n).leg < (d.pulseLegs n h).length then d
    else
      let own := (legs.map (fun g => g.steps)).sum
      d.pulseEnd n 0 own ((d.pulse n).brake + own)

/-- The direction of motion of channel `n` is positive. -/
def Dev.pulseForward (d : Dev) (n : Nat) : Bool :=
  match d.pulseLeg n with
  | some g => if g.steps = 0 then (d.pulse n).dirPin != d.cfg.dirInvert n else g.forward
  | none => true

/-- LIMIT_INPUT: a limit input of the channel's direction asserts (R401, R404). -/
def Dev.limitInput (d : Dev) (pin : Nat) : Dev :=
  let f := d.cfg.gpioFunction pin
  let n := d.cfg.gpioChannel pin
  if !d.awake || !d.cfg.has 11 || decide (48 ≤ pin) || !(decide (f = 2) || decide (f = 3)) || (d.pulse n).running.isNone || (d.pulseForward n != decide (f = 3)) then d
  else
    let d1 := (d.pulseEnd n 1 (d.ownSteps n) (d.pulseTravel n).steps).modPulse n (fun v => { v with limit := true, limitCnt := satInc v.limitCnt })
    match d.cfg.pulseOwner n with
    | some t => d1.failRec t (unitHub 0x0E n) { status := 0x01, code := 0xFB }
    | none => d1

/-! ## UARTs -/

def uartSend (b : List B8) : Nat := leAt b 0 2
def uartMax (b : List B8) : Nat := leAt b 2 1
def uartTermOn (b : List B8) : Bool := (leAt b 4 1).testBit 0
def uartRecv (b : List B8) : Nat := leAt b 16 8

/-- Data-plane time at which the last stop bit of the running program of UART `u` ends: the baud rate is the configured one (DEDUCED: R402 lets
it lie within 0.5 %). -/
def Dev.uartSent (d : Dev) (u : Nat) : Nat :=
  match (d.uart u).running with
  | some h => (d.uart u).start.toNat + cdiv (uartSend h.bytes * d.cfg.uartBits u * 1000000000) (d.cfg.uartBaud u)
  | none => 0
/-- recv_timeout_us after the last stop bit has passed. -/
def Dev.uartExpired (d : Dev) (u : Nat) (b : List B8) : Bool := decide (d.uartSent u + 1000 * leAt b 8 4 ≤ d.time.toNat)
/-- UART_u_DE is high: the program sends, with the de flag set (R402). -/
def Dev.uartDePin (d : Dev) (u : Nat) : Bool := (d.uart u).dePin && decide (d.time.toNat < d.uartSent u)

/-- UART_PROGRAM_RUN: an idle UART starts the program that fired first (R403). -/
def Dev.uartRun (d : Dev) (u : Nat) : Dev :=
  match (d.uart u).running, (d.uart u).queue with
  | none, h :: rest =>
    if !d.awake then d
    else d.modUart u (fun v => { v with running := some h, queue := rest, start := d.time, sent := (h.bytes.drop 64).take (uartSend h.bytes), captured := [], capErr := false, dePin := d.cfg.uartDe u })
  | _, _ => d

/-- The capture has what ends it: its last byte, or the terminator. -/
def captureFull (b captured : List B8) : Bool :=
  decide (uartMax b ≤ captured.length) || (uartTermOn b && (match captured.getLast? with | some x => decide (x.toNat = leAt b 3 1) | none => false))

/-- The running program ends: its result, its time, and a record of a failure. -/
def Dev.uartEnd (d : Dev) (u : Nat) (f : Option Fail) : Dev :=
  match (d.uart u).running with
  | none => d
  | some h =>
    let st := match f with | some e => e.status.toNat | none => 0
    let d1 := d.modUart u (fun v => { v with running := none, dePin := false, captured := [], capErr := false })
    let d2 := d1.deviceWrite h.party (d.partyPart h.party) (h.addr + 48) (leBytes 8 (st + 256 * (d.uart u).captured.length + 2 ^ 63) ++ leBytes 8 d.time.toNat)
    match f with
    | some e => d2.failRec h.party (unitHub 0x0F u) e
    | none => d2

/-- A byte with a framing or parity error was captured. -/
def uartBad : Fail := { status := 0x04, code := 0xFD }

/-- UART_CAPTURE_END: capture ended on its length or its terminator. -/
def Dev.uartCaptureEnd (d : Dev) (u : Nat) : Dev :=
  match (d.uart u).running with
  | none => d
  | some h => if captureFull h.bytes (d.uart u).captured && decide (d.uartSent u ≤ d.time.toNat) then d.uartEnd u (if (d.uart u).capErr then some uartBad else none) else d

/-- UART_CAPTURE_TIMEOUT: capture ended on its timeout, recv_timeout_us after the last stop bit, with fewer bytes. -/
def Dev.uartCaptureTimeout (d : Dev) (u : Nat) : Dev :=
  match (d.uart u).running with
  | none => d
  | some h =>
    if captureFull h.bytes (d.uart u).captured || !d.uartExpired u h.bytes then d
    else d.uartEnd u (some (if (d.uart u).capErr then uartBad else { status := 0x11, code := 0xFE }))

/-- UART_RX_BYTE: a byte is captured to recv_addr, or discarded and counted where no capture is open: no program runs, it still sends, or
its capture is full or has timed out (R403). -/
def Dev.uartByte (d : Dev) (u : Nat) (byte : B8) (err : Bool) : Dev :=
  if !d.awake || decide (4 ≤ u) then d
  else
    let d1 := if err then d.modUart u (fun v => { v with rxErr := true, rxErrCnt := satInc v.rxErrCnt }) else d
    let lost (d : Dev) : Dev := d.modUart u (fun v => { v with rxDrop := true, rxDropCnt := satInc v.rxDropCnt })
    match (d.uart u).running with
    | none => lost d1
    | some h =>
      if captureFull h.bytes (d.uart u).captured || decide (d.time.toNat < d.uartSent u) || d.uartExpired u h.bytes then lost d1
      else
        let d2 := d1.deviceWrite h.party (d.partyPart h.party) (uartRecv h.bytes + (d.uart u).captured.length) [byte]
        d2.modUart u (fun v => { v with captured := v.captured ++ [byte], capErr := v.capErr || err })

/-! ## The rows -/

def execPulseProgramDone (n : Nat) (s : State) : Host.Outcome State Fault Refusal := .next { s with dev := s.dev.pulseDone n }
def execLimitInput (pin : Nat) (s : State) : Host.Outcome State Fault Refusal := .next { s with dev := s.dev.limitInput pin }
def execUartProgramRun (u : Nat) (s : State) : Host.Outcome State Fault Refusal := .next { s with dev := s.dev.uartRun u }
def execUartCaptureEnd (u : Nat) (s : State) : Host.Outcome State Fault Refusal := .next { s with dev := s.dev.uartCaptureEnd u }
def execUartCaptureTimeout (u : Nat) (s : State) : Host.Outcome State Fault Refusal := .next { s with dev := s.dev.uartCaptureTimeout u }
def execUartRxByte (u : Nat) (byte : B8) (err : Bool) (s : State) : Host.Outcome State Fault Refusal := .next { s with dev := s.dev.uartByte u byte err }

end Sys2Proof.Machine
end

