-- ==== Sys2Proof/Machine/Interfaces.lean ====
section
/-! DEFINITION. PTP, Ethernet frames and links, NVMe drives, the SMBus port's plain rows (R70, R71, R213, R523-R540). -/
namespace Sys2Proof.Machine
open Sys2Proof

/-! ## PTP (R70, R71, R528) -/

/-- The servo's correction over the next `n` ns: the rate correction, toward the error that is left; in holdover the last rate correction
runs on (R70, R71). -/
def Dev.slew (d : Dev) (n : Nat) : Dev :=
  let t := d.time.toNat
  let ppm := min d.ptp.rate.natAbs d.ptp.slewPpm
  let room := (t + n) * ppm / 1000000 - t * ppm / 1000000
  let k : Int := if d.ptp.holdover then room else min room d.ptp.slewLeft.natAbs
  let k := d.ptp.rate.sign * k
  { d with ptp := { d.ptp with offset := d.ptp.offset - BitVec.ofInt 64 k, slewLeft := if k.natAbs ≤ d.ptp.slewLeft.natAbs then d.ptp.slewLeft - k else 0 } }

/-- `n` ns of data-plane time pass. -/
def Dev.advance (d : Dev) (n : Nat) : Dev := { d.slew n with time := d.time + BitVec.ofNat 64 n }

/-- A signed number of 32 bits, stopped at its ends. -/
def satS32 (i : Int) : W32 := BitVec.ofInt 32 (max (-2147483648) (min 2147483647 i))

/-- Tracks that follow PTP time jump: the PTP tracks and those of AES67 streams (R73, R74). -/
def Dev.ptpJump (d : Dev) : Dev :=
  let ts := d.tracksBy 2 ++ d.tracksBy 4
  ((d.jump ts).audioJump none).resumeTracks ts

/-- An accepted Sync on the slave port, with the measured offset error (R70, R71). The rate correction that a slew takes is a free value
of 1 to slew_ppm, toward the error. -/
def Dev.ptpSync (d : Dev) (port : Nat) (err : Int) : Dev :=
  if !d.awake || !d.cfg.ptpOn || decide (d.ptp.slavePort ≠ some port) || !(d.ethPort port).up then d
  else
    let d1 := { d with ptp := { d.ptp with offsetErr := satS32 err, holdover := false } }
    if err.natAbs ≤ d.ptp.stepNs.toNat then { d1.drawn with ptp := { d1.ptp with slewLeft := err, rate := err.sign * (1 + Config.freeNat d1.draw % d1.ptp.slewPpm : Nat) } }
    else
      ({ d1 with ptp := { d1.ptp with offset := d1.ptp.offset - BitVec.ofInt 64 err, slewLeft := 0, valid := true }
                 aud := { d1.aud with ptpEver := true } }).ptpJump

/-- The port whose master is best: the lower announced vector, port 0 of equals. -/
def Ptp.best (v : Ptp) : Option Nat :=
  match v.master0, v.master1 with
  | none, none => none
  | some _, none => some 0
  | none, some _ => some 1
  | some a, some b => if b.toNat < a.toNat then some 1 else some 0
def Dev.setMaster (d : Dev) (port : Nat) (m : Option W64) : Dev :=
  let v := if port = 0 then { d.ptp with master0 := m } else if port = 1 then { d.ptp with master1 := m } else d.ptp
  { d with ptp := { v with slavePort := v.best } }

/-! ## Ethernet (R527, R530, R539) -/

/-- An IGMPv3 membership report for a group, without source filter (R530). -/
def Dev.igmpReport (d : Dev) (p group : Nat) : Dev :=
  let rec_ := [BitVec.ofNat 8 4, 0, 0, 0] ++ beBytes 4 group
  let body (c : Nat) : List B8 := [BitVec.ofNat 8 0x22, 0] ++ beBytes 2 c ++ beBytes 2 0 ++ beBytes 2 1 ++ rec_
  d.sendIp p 2 0xC0 1 (beBytes 4 0xE0000016) (body (checksum (body 0)))
/-- Reports for every enabled stream with a multicast address on a port. -/
def Dev.joinPort (d : Dev) (p : Nat) : Dev :=
  ((List.range 1024).filter (fun s => d.cfg.streamOn s && decide (d.cfg.streamEth s = p) && decide (d.cfg.streamAddr s / 268435456 = 14))).foldl
    (fun d s => d.igmpReport p (d.cfg.streamAddr s)) d
def Dev.joinAll (d : Dev) : Dev := [0, 1].foldl (fun d p => if d.cfg.ethOn p then d.joinPort p else d) d

/-- A frame that belongs to no known flow. -/
def Dev.dropFrameRx (d : Dev) (p : Nat) : Dev := d.modEth p (fun v => { v with rxDrop := true, rxDropCnt := satInc v.rxDropCnt })

/-- The answer to an ARP request for the port's address, and what an ARP reply resolves. -/
def Dev.arpFrame (d : Dev) (p : Nat) (b : List B8) : Dev :=
  let op := beNat ((b.drop 6).take 2)
  let sha := (b.drop 8).take 6
  let spa := (b.drop 14).take 4
  let mine := decide ((b.drop 24).take 4 = d.cfg.ethIp p)
  if op = 1 ∧ mine then
    let tag := if d.cfg.ethVlanOn p then beBytes 2 0x8100 ++ beBytes 2 (d.cfg.ethVlan p) else []
    d.send p (sha ++ d.cfg.ethMac p ++ tag ++ beBytes 2 0x0806 ++ beBytes 2 1 ++ beBytes 2 0x0800 ++ [6, 4] ++ beBytes 2 2 ++ d.cfg.ethMac p ++ d.cfg.ethIp p ++ sha ++ spa)
  else if op = 2 ∧ mine then d.modEth p (fun v => v.resolve (beNat spa) sha)
  else d

/-- The answer to an ICMP echo request. -/
def Dev.icmpFrame (d : Dev) (p : Nat) (src b : List B8) : Dev :=
  if leAt b 0 1 = 8 then
    let body (c : Nat) : List B8 := [0, 0] ++ beBytes 2 c ++ b.drop 4
    d.sendIp p 1 0 64 src (body (checksum (body 0)))
  else d

/-- NVMe/TCP target `k` is reached through port `p`. -/
def Cfg.targetVia (c : Cfg) (k p : Nat) : Bool := c.targetOn k && c.bit 7 (0x100 + 256 * k) (1 + p)
def Cfg.targetIp (c : Cfg) (k : Nat) : List B8 := c.bytes 7 (0x104 + 256 * k) 4
def Cfg.targetTcp (c : Cfg) (k : Nat) : Nat := c.u16 7 (0x102 + 256 * k)

/-- An IPv4 packet, in the order of R527. -/
def Dev.ipv4Frame (d : Dev) (p : Nat) (b : List B8) : Dev :=
  let ihl := 4 * (leAt b 0 1 % 16)
  let proto := leAt b 9 1
  let src := (b.drop 12).take 4
  let dst := (b.drop 16).take 4
  let body := ((b.take (beNat ((b.drop 2).take 2))).drop ihl)
  let dport := beNat ((body.drop 2).take 2)
  if proto = 17 then
    if d.cfg.ptpOn ∧ (dport = 319 ∨ dport = 320) then d
    else match (List.range 1024).find? (fun s => d.cfg.streamOn s && decide (d.cfg.streamEth s = p) && decide (d.cfg.streamAddr s = beNat dst) && decide (d.cfg.streamUdp s = dport)) with
      | some s =>
        let rtp := body.drop 8
        d.audioPacket s (BitVec.ofNat 16 (beNat ((rtp.drop 2).take 2))) (BitVec.ofNat 32 (beNat ((rtp.drop 4).take 4))) (rtp.drop 12)
      | none => d.dropFrameRx p
  else if proto = 6 then
    if (List.range 16).any (fun k => d.cfg.targetVia k p && decide (d.cfg.targetIp k = src) && decide (d.cfg.targetTcp k = beNat (body.take 2))) then d else d.dropFrameRx p
  else if proto = 1 then (if dst = d.cfg.ethIp p then d.icmpFrame p src body else d.dropFrameRx p)
  else if proto = 2 ∧ leAt body 0 1 = 0x11 then d.joinPort p
  else d.dropFrameRx p

/-- A PAUSE frame for the port (R526). -/
def Cfg.isPause (c : Cfg) (p : Nat) (f : List B8) : Bool :=
  decide (beNat ((f.drop 12).take 2) = 0x8808) && (decide (beNat (f.take 6) = 0x0180C2000001) || decide (f.take 6 = c.ethMac p))

/-- A frame arrives on a port (R527). PAUSE is honoured: it only delays what is sent, and this model sends without delay (R526). -/
def Dev.ethReceive (d : Dev) (p : Nat) (f : List B8) : Dev :=
  if !d.awake || !d.cfg.ethOn p || !(d.ethPort p).up || d.cfg.isPause p f then d
  else
    let tagged := decide (beNat ((f.drop 12).take 2) = 0x8100)
    let vid := beNat ((f.drop 14).take 2) % 4096
    let known := if d.cfg.ethVlanOn p then tagged && decide (vid = d.cfg.ethVlan p % 4096) else !tagged
    let group := (leAt f 0 1).testBit 0
    let rest := f.drop (if tagged then 16 else 12)
    let typ := beNat (rest.take 2)
    if !known || !(group || decide (f.take 6 = d.cfg.ethMac p)) then d.dropFrameRx p
    else if typ = 0x0806 then d.arpFrame p (rest.drop 2)
    else if typ = 0x0800 then d.ipv4Frame p (rest.drop 2)
    else d.dropFrameRx p

/-- Shards in flight over port `p` count as not arriving (R240, R539). -/
def Dev.shardsLost (d : Dev) (p : Nat) : Dev :=
  d.mdl.slots.foldl (fun d e =>
    match e.2.load with
    | none => d
    | some l =>
      if l.complete then d
      else (l.inFlight.filter (fun i =>
        let src := l.sourceOf i
        decide (src.typ = 1) && d.cfg.targetVia src.target p && (!d.cfg.targetVia src.target (1 - p) || decide (i % 2 = p)))).foldl (fun d i => d.shardLost e.1 i) d) d

/-- The link of an Ethernet port goes down (R539). -/
def Dev.ethDown (d : Dev) (p : Nat) : Dev :=
  if !(d.ethPort p).up then d
  else
    let d1 := (d.modEth p (fun v => { v with up := false })).setMaster p none
    let d2 := if d1.ptp.slavePort = none ∧ d1.ptp.valid then { d1 with ptp := { d1.ptp with holdover := true } } else d1
    d2.shardsLost p

/-! ## The rows -/

def execPtpSync (port : Nat) (err : Int) (s : State) : Host.Outcome State Fault Refusal := .next { s with dev := s.dev.ptpSync port err }
/-- PTP_HOLDOVER (R71): 8 expected Sync intervals have passed without an accepted Sync. -/
def execPtpHoldover (s : State) : Host.Outcome State Fault Refusal :=
  .next { s with dev := if s.dev.awake && s.dev.ptp.valid then { s.dev with ptp := { s.dev.ptp with holdover := true } } else s.dev }
/-- PTP_ANNOUNCE (R528): the best master known on a port. -/
def execPtpAnnounce (port : Nat) (vector : W64) (s : State) : Host.Outcome State Fault Refusal :=
  .next { s with dev := if s.dev.awake && s.dev.cfg.ptpOn && s.dev.cfg.ethOn port && (s.dev.ethPort port).up then s.dev.setMaster port (some vector) else s.dev }
/-- ANNOUNCE_RECEIPT_TIMEOUT (R528): a port's master is lost, and the other port may be chosen. -/
def execAnnounceReceiptTimeout (port : Nat) (s : State) : Host.Outcome State Fault Refusal :=
  .next { s with dev := if s.dev.awake then s.dev.setMaster port none else s.dev }
def execEthFrameReceive (port : Nat) (frame : List B8) (s : State) : Host.Outcome State Fault Refusal := .next { s with dev := s.dev.ethReceive port frame }
def execEthLinkDown (port : Nat) (s : State) : Host.Outcome State Fault Refusal := .next { s with dev := s.dev.ethDown port }
/-- ETH_LINK_UP (R540): the PCS of an enabled port locks at its configured rate. -/
def execEthLinkUp (port : Nat) (s : State) : Host.Outcome State Fault Refusal :=
  .next { s with dev :=
    if s.dev.awake && s.dev.cfg.ethOn port then s.dev.modEth port (fun v => { v with up := true, rate := s.dev.cfg.ethRate port }) else s.dev }
/-- IGMP_QUERY (R530): a membership query is answered. -/
def execIgmpQuery (port : Nat) (s : State) : Host.Outcome State Fault Refusal :=
  .next { s with dev := if s.dev.awake && s.dev.cfg.ethOn port && (s.dev.ethPort port).up then s.dev.joinPort port else s.dev }
/-- 16 KiB places of a drive: at most the first 4 TiB of its namespace, less 1/256 for metadata (R210). -/
def drivePlaces (bytes : Nat) : Nat := min bytes 0x40000000000 * 255 / 256 / 16384

/-- A drive that meets the terms of R210 serves the tier, with a namespace of some bytes; one that does not, or none, is absent. -/
def Dev.driveUp (d : Dev) (k : Nat) (drive : Option Nat) : Dev :=
  match drive with
  | some n => { d with mem := { d.mem with nvmePresent := d.mem.nvmePresent ||| (1#2 <<< k), nvmeCap := d.mem.nvmeCap.set k (drivePlaces n) } }
  | none => { d with mem := { d.mem with nvmePresent := d.mem.nvmePresent &&& ~~~(1#2 <<< k) } }

/-- An endpoint or root port trains (R540): a port of the configuration, or port 0 in the safe configuration and in recovery (R43, R57). -/
def Dev.linkUp (d : Dev) (port speed width : Nat) (drive : Option Nat) : Dev :=
  if d.awake && decide (port < 6) && (d.cfg.portOn port || decide (4 ≤ port) || (decide (port = 0) && (d.cfg.safe || d.cfg.recovery))) then
    let d1 := d.modPort port (fun v => { v with up := true, speed := speed % 8, width := width % 8 })
    if 4 ≤ port then d1.driveUp (port - 4) drive else d1
  else d

/-! NVMe drives (R213, R525). A command that times out or that the drive completes with an error is retried once. -/

/-- A command to drive `k` fails: it is retried, or on the second failure the next access to the drive ends with it. -/
def Dev.driveError (d : Dev) (k : Nat) : Dev :=
  if decide (2 ≤ k) || !d.mem.nvmePresent.getLsbD k then d
  else if d.mem.nvmeRetry.get k false then
    { d with mem := { d.mem with
        nvmeRetry := d.mem.nvmeRetry.set k false, nvmeFail := d.mem.nvmeFail.set k true
        nvmeErr := d.mem.nvmeErr ||| (1#2 <<< k), nvmeErrCnt := d.mem.nvmeErrCnt.set k (satInc (d.mem.nvmeErrCnt.get k 0)) } }
  else { d with mem := { d.mem with nvmeRetry := d.mem.nvmeRetry.set k true } }

def execNvmeCommandTimeout (drive : Nat) (s : State) : Host.Outcome State Fault Refusal := .next { s with dev := s.dev.driveError drive }
def execNvmeCommandError (drive : Nat) (s : State) : Host.Outcome State Fault Refusal := .next { s with dev := s.dev.driveError drive }
/-- NVME_TRAINING_TIMEOUT (R524): a drive that has not trained is absent. -/
def execNvmeTrainingTimeout (drive : Nat) (s : State) : Host.Outcome State Fault Refusal :=
  .next (if 2 ≤ drive ∨ (s.dev.port (4 + drive)).up then s else { s with dev := s.dev.driveUp drive none })
def Dev.smartDue (d : Dev) (drive : Nat) : Bool := match d.mem.smartAt.get drive none with | none => true | some t => decide (t.toNat + 3600000000000 ≤ d.time.toNat)
/-- NVME_SMART_READ (R525): the SMART / Health log page of a drive is read, an hour after its last read. -/
def execNvmeSmartRead (drive : Nat) (s : State) : Host.Outcome State Fault Refusal :=
  .next (if s.dev.awake && s.dev.mem.nvmePresent.getLsbD drive && s.dev.smartDue drive then
    { s with dev := { s.dev with mem := { s.dev.mem with
        smart := s.dev.mem.smart.set drive (s.dev.mem.smart.get drive 0 + 1), smartAt := s.dev.mem.smartAt.set drive (some s.dev.time) } } } else s)
def execPcieLinkUp (port speed width : Nat) (drive : Option Nat) (s : State) : Host.Outcome State Fault Refusal :=
  .next { s with dev := s.dev.linkUp port speed width drive }

end Sys2Proof.Machine
end

