-- ==== Sys2Proof/Machine/Boot.lean ====
section
/-! DEFINITION. Power-on, RESET_L and the boot sequence up to boot lock, and staging of an image (02_boot_configuration.md). -/
namespace Sys2Proof.Machine
open Sys2Proof

/-! ## The boot flash (R41) -/

def Flash.bci (f : Flash) (slot : Nat) : Memory := cutMem f.bytes (0x100000 + 0x40000 * slot) 0x40000
def Flash.firmware (f : Flash) (slot : Nat) : Memory := cutMem f.bytes (0x200000 + 0x200000 * slot) 0x200000
/-- Bytes of the device certificate chain: a 16-byte header and `total length` bytes (R415). -/
def Flash.chainLength (f : Flash) : Nat := m32 f.bytes 0x30008
def Flash.chain (f : Flash) : List B8 := f.bytes.read 0x30000 (16 + f.chainLength)
def Flash.chainOk (f : Flash) : Bool :=
  decide (m32 f.bytes 0x30000 = 0x4E484351) && !outside (m8 f.bytes 0x30004) 1 4 && decide (f.chainLength ≤ 65520)

/-! ## Keys and measurements (R414, R415, R417) -/

/-- Bytes of a text. -/
def ascii (s : String) : List B8 := s.toList.map (fun c => BitVec.ofNat 8 c.toNat)
/-- Order of brainpoolP384r1. -/
def curveOrder : Nat := 0x8CB91E82A3386D280F5D6F7E50E641DF152F7109ED5456B31F166E6CAC0425A7CF3AB6AF6B7FC3103B883202E9046565
/-- The identity private key d_id (R414). -/
def Fuses.identity (f : Fuses) : List B8 :=
  beBytes 48 (1 + beNat (Config.hkdf (List.replicate 48 0) (leBytes 48 f.dus.toNat) (ascii "quipa identity") 56) % (curveOrder - 1))
def Fuses.identityPub (f : Fuses) : List B8 := Config.publicKey f.identity

/-- MRk extended with a digest (R417). -/
def extendMr (m x : B384) : B384 := Config.sha384 (leBytes 48 m.toNat ++ leBytes 48 x.toNat)
def Dev.extend (d : Dev) (k : Nat) (x : B384) : Dev := { d with sec := { d.sec with mr := d.sec.mr.set k (extendMr (d.sec.mr.get k 0) x) } }
/-- The fuse state that MR0 measures (R417). -/
def Fuses.measured (f : Fuses) : List B8 :=
  ((List.range 4).map (fun k => leBytes 48 ((f.signer.get k none).getD 0).toNat)).flatten ++ leBytes 1 f.revoked.toNat ++ leBytes 1 f.bciMin ++ leBytes 1 f.fwMin

/-- A random value of 256 bits, and of 128 bits (R413). -/
def Dev.draw256 (d : Dev) : Dev × W256 := (d.drawn, Config.freeKey d.draw)
def Dev.draw128 (d : Dev) : Dev × W128 := (d.drawn, (Config.freeKey d.draw).truncate 128)
/-- A random value of 384 bits: a private key on the curve (R415, R428). -/
def Dev.draw384 (d : Dev) : Dev × B384 := (d.drawn.drawn, Config.freeKey d.draw ++ (Config.freeKey (d.draw + 1)).truncate 128)

/-! ## Firmware images (R43, R456) -/

def fwLength (m : Memory) : Nat := m32 m 8
def fwGeneration (m : Memory) : Nat := m32 m 0x0C
def fwSecVersion (m : Memory) : Nat := m8 m 0x10
def fwHandoff (m : Memory) : Nat := m8 m 0x11
/-- A header field outside R456. -/
def fwHeaderBad (m : Memory) : Bool :=
  decide (m32 m 0 ≠ 0x57465551) || decide (m16 m 4 ≠ 1) || outside (fwLength m) 176 786592 || decide (fwLength m % 16 ≠ 0) || decide (fwGeneration m = 0)
    || decide (64 < fwSecVersion m) || decide (fwHandoff m = 0) || decide (m8 m 0x13 < m8 m 0x12) || decide (m32 m 0x14 % 4 ≠ 0)
def fwSigned (f : Fuses) (m : Memory) : Bool := Config.imageVerify f.fwKeyHash (m.read 0 (fwLength m))
/-- The image may boot (R416). -/
def fwVerifies (f : Fuses) (m : Memory) : Bool := !fwHeaderBad m && fwSigned f m && decide (f.fwMin ≤ fwSecVersion m)
/-- The slot with the higher update generation among images that verify (R43). -/
def NonVol.fwSlot (v : NonVol) : Option Nat :=
  let a := fwVerifies v.fuses (v.flash.firmware 0)
  let b := fwVerifies v.fuses (v.flash.firmware 1)
  if a && (!b || decide (fwGeneration (v.flash.firmware 1) ≤ fwGeneration (v.flash.firmware 0))) then some 0 else if b then some 1 else none

/-! ## The boot ROM (R38, R42, R43, R416-R418) -/

/-- The BCI slots that are not empty, the one to try first in front: the higher sequence (R42); of two equal ones the slot `used`, which was
in use at the last boot, since an image takes effect only if its sequence is higher than that of the image in use (R66). Slot A where
no boot has used one: DESIGN CHOICE (log entry on equal sequence numbers). -/
def Flash.bciOrder (f : Flash) (used : Option Nat) : List Nat :=
  let live := [0, 1].filter (fun k => decide (m32 (f.bci k) 0 = bciMagic))
  let a := imgSequence (f.bci 0)
  let b := imgSequence (f.bci 1)
  if live = [0, 1] ∧ (a < b ∨ (a = b ∧ used = some 1)) then [1, 0] else live

/-- The outcome of the choice of a BCI: slot used, fallback, and the reason and detail of the first refusal. -/
structure Choice where
  slot : Option Nat := none
  first : Nat := 15
  reason : Nat := 0
  detail : Nat := 0
deriving DecidableEq, Repr

def NonVol.chooseBci (v : NonVol) : Choice :=
  match v.flash.bciOrder v.bciUsed with
  | [] => {}
  | a :: rest =>
    match bciFault v.fuses (v.flash.bci a) with
    | none => { slot := some a, first := a }
    | some r =>
      { slot := rest.find? (fun b => (bciFault v.fuses (v.flash.bci b)).isNone), first := a, reason := r.1, detail := r.2 }

/-- Raised fuses of a BCI in use (R418). -/
def Fuses.commit (f : Fuses) (m : Memory) : Fuses :=
  let c := cfgOf m
  if c.commitVersion then { f with bciMin := max f.bciMin (min (imgVersion m) 64), revoked := f.revoked ||| BitVec.ofNat 4 c.revokeMask } else f

/-- The epoch record as the ROM finds it: the higher valid copy (R38). -/
def Flash.epoch (f : Flash) : Option W32 :=
  match f.epochA, f.epochB with
  | some a, some b => some (if a.toNat < b.toNat then b else a)
  | some a, none => some a
  | none, b => b
/-- The record after a power-on: the value plus 1 over the other copy. -/
def Flash.stepEpoch (f : Flash) : Flash :=
  match f.epoch with
  | none => f
  | some v => if !f.writable then f else if f.epochA = some v then { f with epochB := some (satInc v) } else { f with epochA := some (satInc v) }

/-- Everything of the device that a reset of the whole device clears, cleared: the weight cache's NVMe contents, the bytes already
in host memory, the levels of the input pins and the count of free values drawn are not the device's to clear (R33, R244). -/
def Dev.cleared (d : Dev) : Dev :=
  { draw := d.draw, hostMem := d.hostMem, mdl := { cache := d.mdl.cache }, pls := { gpioIn := d.pls.gpioIn } }

/-- AON cycles since power-on (R493). -/
def Dev.rtcCount (d : Dev) : W64 := d.pwr.rtc + BitVec.ofNat 64 (d.time.toNat * 32768 / 1000000000)

/-- Domains of PWR_DOMAINS that boot powers before any region: HOSTIO, MEMA, MEMB, CTRL, AON (R475). -/
def baseDomains : BitVec 24 := 0xF40000

/-- The end of boot in the safe configuration or in recovery (R43, R57). -/
def Dev.safeBoot (d : Dev) (stage reason detail : Nat) : Dev :=
  let ms := min 0xFFFF (d.time.toNat / 1000000)
  let d1 := { d with
    cfg := { safe := decide (stage = 7), recovery := decide (stage = 8) }
    boot := { d.boot with stage := stage, reason := reason, detail := detail, bootTimeMs := ms, locked := decide (stage = 7) } }
  if stage = 7 then d1.logRec 0 0x80 0xFF (unitHub 0 0) ms 0 else d1

/-- The firmware that starts at event 8: its state, MR2 and MR4 (R417, R470). -/
def Dev.startFirmware (d : Dev) (m : Memory) (slot : Nat) : Dev :=
  let image := m.read 0 (fwLength m)
  let x := Config.sha384 image
  ({ d with
    fw := { d.fw with generation := BitVec.ofNat 32 (fwGeneration m), slot := slot, image := image, secVersion := fwSecVersion m, handoffVersion := fwHandoff m }
    sec := { d.sec with mr := d.sec.mr.set 2 x } }).extend 4 x

/-- The fuses and the flash after the boot ROM: the fuses that the BCI in use raises, at power-on the stepped epoch record, and the slot in
use. -/
def NonVol.booted (v : NonVol) (pon : Bool) : NonVol :=
  { bciUsed := v.chooseBci.slot.or v.bciUsed
    fuses := (match v.chooseBci.slot with | some k => v.fuses.commit (v.flash.bci k) | none => v.fuses)
    flash := if pon then v.flash.stepEpoch else v.flash }

/-- Boot events 1 to 9 on a cleared device (R38-R44, R415-R418): choice and checks of the BCI, epoch, firmware. Where a check of events 6
or earlier fails and no firmware image verifies either, the device goes to recovery with reason 0x14: R57 has firmware serve the window
of the safe configuration, and there is none (DESIGN CHOICE, log entry on recovery). -/
def bootDev (v : NonVol) (d : Dev) (pon : Bool) (pending : Option (List B8)) : Dev :=
  let d1 := ((d.extend 0 v.fuses.romDigest).extend 0 (Config.sha384 v.fuses.measured))
  let d2 := match d1.draw384 with
    | (e, k) => match e.draw256 with
      | (e2, n) => { e2 with sec := { e2.sec with attKey := k, nonce := n, chainBad := !v.flash.chainOk || decide (Config.certKey (v.flash.chain.drop 16) ≠ v.fuses.identityPub) } }
  let ch := v.chooseBci
  let v1 := v.booted pon
  let epochOk := v.flash.epoch.isSome && (!pon || v.flash.writable)
  let img := v.flash.bci (ch.slot.getD ch.first)
  let d3 := { d2 with
    time := 20000000
    pwr := { d2.pwr with domains := baseDomains }
    epochs := { d2.epochs with pon := if pon then v1.flash.epoch.getD 0 else d2.epochs.pon }
    boot := { d2.boot with bciSlot := ch.slot.getD ch.first, reason := ch.reason, detail := ch.detail,
                           fallback := ch.slot.isSome && decide (ch.slot ≠ some ch.first),
                           sequence := if ch.first = 15 then 0 else imgSequence img, secVersion := if ch.first = 15 then 0 else imgVersion img,
                           imageLen := if ch.first = 15 then 0 else imgLength img } }
  let d4 := match ch.slot with
    | some k =>
      let m := v.flash.bci k
      let e := d3.extend 1 (Config.sha384 (m.read 0 (imgLength m)))
      match pending with
      | some tok => ({ e with sec := { e.sec with debugOpen := true } }).extend 3 (Config.sha384 tok)
      | none => e
    | none => d3
  match v1.fwSlot with
  | none => d4.safeBoot 8 0x14 0
  | some s =>
    let d5 := d4.startFirmware (v1.flash.firmware s) s
    match ch.slot with
    | none => d5.safeBoot 7 ch.reason ch.detail
    | some k =>
      if !epochOk then d5.safeBoot 7 0x13 0
      else
        let c := cfgOf (v.flash.bci k)
        let p := ((List.range 4).find? (fun n => c.portOn n && c.portMgmt n)).getD 0
        { d5 with cfg := { c with port := p }, boot := { d5.boot with stage := 3 } }

/-- The boot ROM on a cleared device: an entropy source that fails its tests holds it in stage 0 (R413). -/
def bootRom (v : NonVol) (d : Dev) (pon rngOk : Bool) (pending : Option (List B8)) : NonVol × Dev :=
  if !rngOk then (v, { d with boot := { d.boot with romHeld := true } }) else (v.booted pon, bootDev v d pon pending)

/-- Power-on (R33, R38): everything is cleared, and the boot ROM runs. `cells` and the two copies are what the board's own
programmer put into the flash while the device was off. -/
def State.powerOn (s : State) (cells : List Host.Cell) (epochA epochB : Option W32) (writable smbAddr rngOk : Bool) : State :=
  let f := s.nv.flash
  let flash : Flash := { f with bytes := f.bytes.overlay cells, epochA := epochA.or f.epochA, epochB := epochB.or f.epochB, writable := writable }
  let r := bootRom { s.nv with flash := flash } { s.dev.cleared with pwr := { smbAddr := smbAddr } } true rngOk none
  { s with nv := r.1, dev := r.2, latch := none }

/-- RESET_L and every event that acts as RESET_L (R33, R40, R553): all but the power-on epoch, the RTC and the sampled SMB_ADDR is
cleared, and the boot ROM runs. After THERMTRIP_L, and without power, nothing happens (R505). -/
def State.resetL (s : State) (rngOk : Bool) : State :=
  if s.dev.boot.thermtrip || !s.dev.boot.powered then s
  else
    let d := s.dev
    let d0 := { d.cleared with
      epochs := { pon := d.epochs.pon, rst := satInc d.epochs.rst }
      pwr := { rtc := d.rtcCount, smbAddr := d.pwr.smbAddr } }
    let r := bootRom s.nv d0 false rngOk d.sec.debugPending
    { s with nv := r.1, dev := r.2, latch := none }

/-! ## Memory training and initialisation (R46, R56, R57, R204) -/

/-- What the training cache was stored for: data rate, capacity, ranks and density. -/
def trainKey (rate cap ranks density : Nat) : W32 := BitVec.ofNat 32 (rate + 65536 * cap + 16777216 * ranks + 268435456 * density)

/-- The sum that reason 0x15 judges, in MiB. -/
def Cfg.memoryAsked (c : Cfg) : Nat := ((partsOn c).map c.kvPoolMib).sum + (c.tenants.map c.tenQuotaMib).sum

/-- The supported memory configurations: capacity in GiB, ranks, die density code (R202, R219). -/
def memConfigs : List (Nat × Nat × Nat) := [(32, 1, 0), (48, 1, 1), (64, 1, 2), (64, 2, 0), (96, 2, 1), (128, 2, 2)]

/-- The end of training on every channel, or the failure of one; devices that make no configuration of R202 are not those that the
configuration names (DEDUCED). -/
def State.trained (s : State) (cap rate ranks density : Nat) (fail : Option (Nat × Bool)) : State :=
  let d := s.dev
  if d.boot.stage ≠ 3 ∨ !d.boot.powered then s
  else
    let c := d.cfg
    let key := trainKey rate cap ranks density
    let cached := c.useCache && decide (s.nv.flash.cacheRate = some key)
    let d0 := { d with boot := { d.boot with cacheRejected := c.useCache && !cached } }
    match fail with
    | some (ch, true) => { s with dev := d0.safeBoot 7 0x11 ch }
    | some (ch, false) => { s with dev := d0.safeBoot 7 0x12 ch }
    | none =>
      if cap ≠ c.capacityGib ∨ rate ≠ c.dataRate ∨ !memConfigs.contains (cap, ranks, density) then { s with dev := d0.safeBoot 7 0x11 0 }
      else
        let flash := if cached then s.nv.flash else { s.nv.flash with cacheRate := some key }
        let d1 := { d0 with mem := { d0.mem with
          cfgCap := cap, cfgRate := rate, cfgProt := c.protection, cfgRanks := ranks, cfgDensity := density, cfgCached := cached, trained := true,
          usableMib := usableOf cap c.protection, systemMib := systemOf cap } }
        { s with
          nv := { s.nv with flash := flash }
          dev := if usableOf cap c.protection < c.memoryAsked then d1.safeBoot 7 0x15 0 else { d1 with boot := { d1.boot with stage := 4 } } }

/-- The end of tag and version-tree initialisation; the capacity check of reason 0x15 holds here too. -/
def Dev.initialised (d : Dev) : Dev :=
  if d.boot.stage ≠ 4 ∨ !d.boot.powered then d
  else if d.mem.usableMib < d.cfg.memoryAsked then d.safeBoot 7 0x15 0
  else { d with boot := { d.boot with stage := 5 } }

/-! ## The last boot events (R45, R475, R496) -/

/-- Domains that the configuration powers: regions of partitions, CAM, AUD, NETIO (R475). -/
def Cfg.domains (c : Cfg) : BitVec 24 :=
  let rg := (List.range 16).foldl (fun m p => m ||| c.regionMask p) 0
  let cam := !c.contexts.isEmpty || (List.range 8).any (fun n => (c.i3cOwner n).isSome)
  let aud := (List.range 1024).any c.streamOn || (List.range 4).any c.tdmOn
  let net := c.ethOn 0 || c.ethOn 1
  BitVec.ofNat 24 (rg + (if cam then 0x10000 else 0) + (if aud then 0x20000 else 0) + (if net then 0x80000 else 0)) ||| baseDomains

/-- fused_max of a region (R498). -/
def Fuses.maxOp (f : Fuses) (r : Nat) : Nat := 8 - f.fusedMax.get r 0
/-- A die supports an operating point (R498). -/
def Fuses.supports (f : Fuses) (die k : Nat) : Bool := !f.unsupported.contains (9 * die + k)

/-- Ceiling of a partition (R496): its policy, on a multi-die partition held to what every die supports and every region allows. -/
def Dev.ceiling (d : Dev) (f : Fuses) (p : Nat) : Nat :=
  let top := d.cfg.partMaxOp p
  let dies := d.cfg.partDies p
  if dies.length ≤ 1 then top
  else
    let regs := (d.cfg.partRegions p).foldl (fun m r => min m (d.region r).maxOp) top
    ((List.range (regs + 1)).reverse.find? (fun k => dies.all (fun x => f.supports x k))).getD 0

/-- Lowest t_max and t_duty of a partition's dies (R504). -/
def Dev.partTMax (d : Dev) (p : Nat) : Nat := (d.cfg.partDies p).foldl (fun m k => min m (d.die k).tMax) 8
def Dev.partTDuty (d : Dev) (p : Nat) : Nat := (d.cfg.partDies p).foldl (fun m k => min m (d.die k).tDuty) 8

/-- PWR_PART_n.duty: the lower of the package's duty and the thermal one. -/
def Dev.partDuty (d : Dev) (p : Nat) : Nat := min d.pwr.duty (d.partTDuty p)

/-- The fixed point of a fixed-frequency partition (R496). -/
def fixedPoint (ceiling : Nat) : Nat := min ceiling 7

/-- A partition's point at the start (R496): OP0, or its fixed point, under the thermal limit. -/
def Dev.startPart (d : Dev) (f : Fuses) (p : Nat) : Dev :=
  let c := d.ceiling f p
  let fixed := d.cfg.partFixed p
  let loop := if fixed then fixedPoint c else 0
  let op := min loop (d.partTMax p)
  let d1 := d.modPart p (fun v => { v with ceiling := c, fixed := fixed, loopOp := loop, op := op, loopSusp := false, thermSusp := false,
                                           throttled := decide (op < loop), duty := d.partDuty p, saved := none })
  (d1.cfg.partRegions p).foldl (fun d r => d.modRegion r (fun v => { v with op := min op v.maxOp, target := min op v.maxOp })) d1

/-- Voltage code of a die: highest point of its powered regions, guard band and largest margin (R495, R498). -/
def Dev.dieVolt (d : Dev) (f : Fuses) (k : Nat) : Dev :=
  let rs := (List.range 4).map (fun i => 4 * k + i) |>.filter (fun r => (d.region r).powered)
  let op := rs.foldl (fun m r => max m (d.region r).op) 0
  let margin := rs.foldl (fun m r => max m (d.region r).margin) 0
  d.modDie k (fun v => { v with op := op, vcode := BitVec.ofNat 8 ((f.vcode.get (9 * k + op) 0).toNat + 8 + margin / 5) })
def Dev.allVolts (d : Dev) (f : Fuses) : Dev := (List.range 4).foldl (fun d k => d.dieVolt f k) d

/-- A region is powered: margin 0 and its fused maximum; its first ageing read is due (R507). -/
def Dev.powerRegion (d : Dev) (f : Fuses) (r : Nat) : Dev :=
  d.modRegion r (fun v => { v with powered := true, maxOp := f.maxOp r, margin := 0, exhausted := false, nextRead := d.time, fresh := true })

/-- New memory keys for a key index (R432). -/
def Dev.keyMem (d : Dev) (k : Nat) : Dev :=
  let (d1, x) := d.draw256
  let (d2, y) := d1.draw256
  let (d3, z) := d2.draw256
  { d3 with mem := { d3.mem with keys := d3.mem.keys.set k (some { data := x, tweak := y, mac := z }) } }
/-- Keys of a tenant: its memory keys, its tier key and its tree's SipHash key are generated (R291, R432, R437). -/
def Dev.keyTenant (d : Dev) (t : Nat) : Dev :=
  match (d.keyMem t).draw128 with
  | (e, k) => e.modTen t (fun v => { v with keyed := true, tierKeyed := true, treeKey := k })

/-- Tracks take the source that TRACKS gives them, none where it gives none (R67, R88). -/
def Dev.loadTracks (d : Dev) : Dev :=
  (List.range 256).foldl (fun d n => d.modTrk n (fun t => { t with source := d.cfg.trkSource n, sourceIndex := d.cfg.trkIndex n })) d

/-- BOOT_LOCK: regions are powered, contexts and tracks armed, tenants enabled, and boot lock is set. -/
def State.bootLock (s : State) : State :=
  let d := s.dev
  if d.boot.stage ≠ 5 ∨ !d.boot.powered then s
  else
    let f := s.nv.fuses
    let ms := min 0xFFFF (d.time.toNat / 1000000)
    let d0 := { d with
      pwr := { d.pwr with domains := d.cfg.domains, capW := d.cfg.capBoot }
      gustRate := d.cfg.gustRate
      boot := { d.boot with stage := 6, locked := true, bootTimeMs := ms } }
    let d1 := ((partsOn d.cfg).map d.cfg.partRegions).flatten.foldl (fun e r => e.powerRegion f r) d0
    let d2 := (partsOn d.cfg).foldl (fun e p => e.startPart f p) d1
    let d3 := ((List.range 16).filter d.cfg.groupOn).foldl (fun e g => match e.draw128 with | (e1, k) => { e1 with kv := { e1.kv with groupKeys := e1.kv.groupKeys.set g k } }.keyMem (64 + g)) ((d2.keyMem 0x50).keyMem 0x51)
    let d4 := d.cfg.tenants.foldl (fun e t => ((e.keyTenant t).modTen t (fun v => { v with serving := true })).statusEvent t) d3
    { s with dev := ((((d4.allVolts f).loadTracks)).joinAll).logRec 0 0x80 0xFF (unitHub 0 0) ms 0 }

/-- Loss of every rail (R554): all but flash and fuses is gone. -/
def Dev.unpowered (d : Dev) : Dev := { d.cleared with boot := { powered := false } }

/-! ## Staging (R64-R66, R457) -/

/-- The slot that staging writes: the one not in use (R59); in recovery the firmware slot whose image does not verify, else A (R457). -/
def Boot.stageSlot (b : Boot) : Nat := if b.bciSlot = 0 then 1 else 0
def NonVol.recoverySlot (v : NonVol) : Nat := if fwVerifies v.fuses (v.flash.firmware 0) then 1 else 0

/-- The record of a failed staging (R65). -/
def Dev.stageRec (d : Dev) (status : B8) (code : Nat) : Dev := d.regRec mgmtParty status code 0 0x2028

/-- Where a staging writes: flash offset and size of the slot. -/
def State.stagePlace (s : State) : Nat × Nat :=
  if s.dev.cfg.recovery then (0x200000 + 0x200000 * s.nv.recoverySlot, 0x200000) else (0x100000 + 0x40000 * s.dev.boot.stageSlot, 0x40000)

/-- Bytes in the slot that staging writes; nothing reaches beyond the slot. -/
def State.putSlot (s : State) (l : List B8) : State :=
  { s with nv := { s.nv with flash := { s.nv.flash with
      bytes := (s.nv.flash.bytes.clear s.stagePlace.1 s.stagePlace.2).write s.stagePlace.1 (l.take s.stagePlace.2) } } }

/-- A staging ends in failure (R65, R461). -/
def Dev.stageFail (d : Dev) (status : B8) (code : Nat) : Dev :=
  ({ d with stage := { d.stage with active := false, image := [] } }.setProgress mgmtParty 0 3 status.toNat).stageRec status code

/-- The check that a staged image fails: reason code of R56 (R65, R457), in the order of R56. The length written (R64) is judged after
them: shorter than image_length, or longer than the slot, is refused with 0x03; a longer one that fits is accepted, and what follows the
image is not staged (DESIGN CHOICE, log entry on staging). -/
def State.stageFault (s : State) (m : Memory) (len : Nat) : Option Nat :=
  if s.dev.cfg.recovery then (if fwLength m ≠ len ∨ !fwVerifies s.nv.fuses m then some 0x14 else none)
  else match bciFault s.nv.fuses m with
    | some r => some r.1
    | none => if m32 m 0 ≠ bciMagic ∨ len < imgLength m ∨ s.stagePlace.2 < len then some 0x03 else none

/-- Length of a checked image, without what the length written holds beyond it. -/
def State.stageLength (s : State) (m : Memory) : Nat := if s.dev.cfg.recovery then fwLength m else imgLength m

/-- STAGE_IMAGE with an accepted write of MG_STAGE_CTL: the image is read from host memory and checked. A good image goes to the
slot, its signature last: until the staging ends the slot holds no valid signature (R65, R66). With the link of the management port down
no image can be read: the staging ends at once with 0x11 and detail 0x8D, and MG_PROGRESS_0 with kind failed (DEDUCED from R523, log entry on staging). -/
def State.stageStart (s : State) (len : Nat) (host : List Host.Cell) : State :=
  let d := s.dev
  let b := d.hostRead d.cfg.port host d.stage.addr.toNat len
  if !(d.port d.cfg.port).up then { s with dev := d.stageFail 0x11 0x8D } else
  let m := Memory.write [] 0 b
  match s.stageFault m len with
  | some r => { s with dev := d.stageFail 0x02 (0x80 + r) }
  | none =>
    let image := b.take (s.stageLength m)
    { s.putSlot (image.take (image.length - 96)) with dev := { d with stage := { d.stage with active := true, image := image } }.setProgress mgmtParty 0 0 0 }

/-- A staging at a tick, with `left` bytes of the image still to program: its percent; with none left it ends: the last bytes are
written and the slot is read back (R65). -/
def State.stageEnd (s : State) (left : Nat) : State :=
  let d := s.dev
  if !d.stage.active then s
  else if 0 < left then { s with dev := d.setProgress mgmtParty 0 0 (percentOf (d.stage.image.length - left) d.stage.image.length) }
  else if !s.nv.flash.writable then { s with dev := d.drawn.stageFail 0x04 (Config.freeByte d.draw).toNat }
  else { s.putSlot d.stage.image with dev := { d with stage := { d.stage with active := false, image := [] } }.setProgress mgmtParty 0 2 10000 }

/-! ## The rows -/

def execPowerOn (flash : List Host.Cell) (epochA epochB : Option W32) (writable smbAddr rngOk : Bool) (s : State) : Host.Outcome State Fault Refusal :=
  .next (s.powerOn flash epochA epochB writable smbAddr rngOk)
def execResetL (rngOk : Bool) (s : State) : Host.Outcome State Fault Refusal := .next (s.resetL rngOk)
def execMemoryTrainingComplete (capGib rate ranks density : Nat) (fail : Option (Nat × Bool)) (s : State) : Host.Outcome State Fault Refusal :=
  .next (s.trained capGib rate ranks density fail)
def execIntegrityInitComplete (s : State) : Host.Outcome State Fault Refusal := .next { s with dev := s.dev.initialised }
def execBootLock (s : State) : Host.Outcome State Fault Refusal := .next s.bootLock
/-- RAIL_FAULT: VDD_AON gives a power-on reset, any other rail acts as RESET_L (R553). -/
def execRailFault (aon : Bool) (s : State) : Host.Outcome State Fault Refusal :=
  .next (if aon then s.powerOn [] none none s.nv.flash.writable s.dev.pwr.smbAddr true else s.resetL true)
def execPowerRemoval (s : State) : Host.Outcome State Fault Refusal := .next { s with dev := s.dev.unpowered, latch := none }
/-- THERMTRIP (R505, R536): every domain except AON is held in reset, and SMB_ALERT_L asserts with the trip. -/
def execThermtrip (s : State) : Host.Outcome State Fault Refusal :=
  .next (if !s.dev.boot.powered then s else
    { s with latch := none, dev := { s.dev.cleared with
        time := s.dev.time
        boot := { thermtrip := true }
        epochs := s.dev.epochs
        pwr := { s.dev.pwr with domains := 0x800000, alert := true } } })

end Sys2Proof.Machine
end

