-- ==== Sys2Proof/Machine/Resets.lean ====
section
/-! DEFINITION. Link, partition and tenant resets, the scrub, and the host's actions on functions (R33-R39, R437-R441, R522). -/
namespace Sys2Proof.Machine
open Sys2Proof

/-! ## Link reset (R33, R127, R429, R483) -/

/-- Lists of which no command has started are discarded without an entry. -/
def Queue.dropUnstarted (v : Queue) : Queue :=
  match v.lists with
  | [] => v
  | l :: _ => (let k := decide (v.running.isSome ∨ 0 < l.index); { v with lists := if k then [l] else [], reserved := v.reserved && k })
def Dev.dropUnstarted (d : Dev) (mine : Nat → Bool) : Dev :=
  { d with queues := d.queues.map (fun e => if mine e.1 then (e.1, e.2.dropUnstarted) else e) }

/-- The session of a tenant ends: its keys are destroyed and the end is logged with its cause (R429, R467). -/
def Dev.closeSession (d : Dev) (t cause : Nat) : Dev :=
  match (d.ten t).session with
  | none => d
  | some x => (d.modTen t (fun v => { v with session := none })).logRec (coreOf t) 0x90 t (unitHub 1 0) cause x.sid.toNat

/-- Requests of a party in the mailbox are gone (R426). -/
def Dev.dropRequests (d : Dev) (party : Nat) : Dev := { d with sec := { d.sec with mailbox := d.sec.mailbox.filter (fun r => decide (r.party ≠ party)) } }
def Dev.setAttStatus (d : Dev) (party : Nat) (st : B8) : Dev :=
  if party < 64 then d.modTen party (fun v => { v with attStatus := st }) else { d with mgmt := { d.mgmt with attStatus := st } }
/-- A request that a link reset meets is discarded: last_status is 0x01 (R426). -/
def Dev.linkRequests (d : Dev) (party : Nat) : Dev :=
  if d.sec.mailbox.any (fun r => decide (r.party = party)) then (d.dropRequests party).setAttStatus party 0x01 else d

/-- Mirror pointers and mirror_en bits of a tenant's rings are cleared (R127). -/
def Tenant.noMirrors (v : Tenant) : Tenant :=
  { v with compl := { v.compl with mirror := 0, mirrorEn := false }, err := { v.err with mirror := 0, mirrorEn := false } }

/-- What a link reset does to one tenant beside its PCIe state. -/
def Dev.linkTenant (d : Dev) (t : Nat) : Dev :=
  (((d.modTen t Tenant.noMirrors).closeSession t 2).linkRequests t).dropUnstarted (fun q => decide (qParty q = t))

/-- The effects of a link reset of port `n` that wait for Dawn in Dusk and Night (R483). -/
def Dev.linkEffects (d : Dev) (n : Nat) : Dev :=
  let d1 := (d.cfg.portTenants n).foldl (fun d t => d.linkTenant t) d
  if d.cfg.port = n then (d1.linkRequests mgmtParty).dropUnstarted qIsMgmt else d1

/-- A function's PCIe state: neither enabled nor bus master. -/
def Tenant.noFunction (v : Tenant) : Tenant := { v with vfEnabled := false, busMaster := false }

/-- A link reset of port `n`; `up` says whether the link itself stays up (a function level reset) (R33, R37). -/
def Dev.linkReset (d : Dev) (n : Nat) (up : Bool) : Dev :=
  if !d.boot.powered || d.boot.thermtrip || decide (4 ≤ n) || decide (d.boot.stage < 3) then d
  else
    let keep (p : Port) : Port := if up then { p with numVfs := 0 } else { p with up := false, speed := 0, width := 0, numVfs := 0 }
    let d1 := ({ d with epochs := { d.epochs with link := d.epochs.link.set n (satInc (d.epochs.link.get n 0)) } }).modPort n keep
    let d2 := (d.cfg.portTenants n).foldl (fun d t => d.modTen t Tenant.noFunction) d1
    if d.pwr.state ≤ 1 then d2.linkEffects n
    else { d2 with pwr := { d2.pwr with linkResetPend := d2.pwr.linkResetPend ++ [n] } }

/-- VF_ENABLE: the host makes virtual functions 0 to N - 1 of port `n` appear; a function it takes away is link-reset for its tenant
alone (R522). -/
def Dev.vfEnable (d : Dev) (n count : Nat) : Dev :=
  if !(d.port n).up || decide (4 ≤ n) || decide (d.cfg.portVfs n < count) then d
  else
    let d1 := d.modPort n (fun v => { v with numVfs := count })
    (d.cfg.portTenants n).foldl (fun d t =>
      if d.cfg.tenVf t < count then d.modTen t (fun v => { v with vfEnabled := true, busMaster := v.busMaster || !v.vfEnabled })
      else if (d.ten t).vfEnabled then (d.modTen t Tenant.noFunction).linkTenant t
      else d) d1

/-- BUS_MASTER_DISABLE: the function may no longer master the bus (R522). -/
def Dev.busMasterOff (d : Dev) (port vf : Nat) : Dev :=
  match d.cfg.vfTenant port vf with
  | some t => d.modTen t (fun v => { v with busMaster := false })
  | none => d

/-! ## Partition reset (R34, R186, R201, R342) -/

/-- Queues whose running command works in partition `p`. -/
def Dev.runningIn (d : Dev) (p : Nat) : List Nat := (d.queues.filter (fun e => e.2.running.isSome && decide (d.qPart e.1 = p))).map (fun e => e.1)

/-- The members of the running batch go back to the admission queue with their pages, T as before the batch (R34). -/
def Dev.requeueBatch (d : Dev) (p : Nat) : Dev :=
  match (d.part p).batch with
  | none => d
  | some b =>
    let d1 := (d.unpin (slotNo p b.slot) b.gen).modPart p (fun v => { v with batch := none })
    b.members.foldl (fun d x => d.modSeq x.1 (b.undo x)) d1

/-- Loads that run into the slots of partition `p` fail (R34). -/
def Dev.failLoads (d : Dev) (p : Nat) (f : Fail) : Dev := (List.range 8).foldl (fun d s => if (d.slot (slotNo p s)).load.isSome then d.failLoad (slotNo p s) f else d) d

/-- Barriers of a tenant whose round is full let their queues go (R113). -/
def Dev.fullBarriers (d : Dev) (t : Nat) : Dev := (List.range 16).foldl (fun d b => d.barrierRelease t b) d

/-- The start of a partition reset: started commands end, the batch dissolves, and the busy bit is set. -/
def Dev.partReset (d : Dev) (p : Nat) : Dev :=
  let f : Fail := { status := 0x01, code := 0x81 }
  let d0 := { d with epochs := { d.epochs with part := d.epochs.part.set p (satInc (d.epochs.part.get p 0)) } }
  let d1 := (((d.cfg.partTenants p).foldl (fun d t => d.fullBarriers t) d0).modPart p (fun v => { v with resetting := true })).failLoads p f
  let d2 := (d1.runningIn p).foldl (fun d q => d.failDisp q f) d1
  let d3 := (((d2.requeueBatch p).flushEnded).clearRegions (BitVec.ofNat 16 (d2.cfg.regionMask p)))
  (d3.cfg.partTenants p).foldl (fun d t => (d.modTen t (fun v => { v with partReset := true })).statusEvent t) d3

/-- Registers and contents of one region at its reset state (R33, R153, R168, R512). -/
def Dev.regionReset (d : Dev) (r : Nat) : Dev :=
  let d1 := d.modRegion r (fun v => { v with rampCnt := 0, lastLen := 0, waiting := [], relNo := 0, relDelay := 0, relAt := 0, ramped := 0 })
  { d1 with
    clusters := d1.clusters.filter (fun e => decide (e.1 / 16 ≠ r))
    mem := { d1.mem with tags := d1.mem.tags.filter (fun e => decide (e.1 / 32 / 16 ≠ r ∨ 8192 ≤ e.1) && decide (e.1 < 8192 ∨ (e.1 - 8192) / 64 ≠ r)) }
    pmc := { d1.pmc with cl := d1.pmc.cl.filter (fun e => decide (e.1 / 8 / 16 ≠ r)), rg := d1.pmc.rg.filter (fun e => decide (e.1 / 4 ≠ r)) } }

/-- PARTITION_RESET_COMPLETE: copies are written back, the regions reset, and the partition serves again (R61, R201). -/
def Dev.partResetDone (d : Dev) (p : Nat) : Dev :=
  if !(d.part p).resetting then d
  else
    let rs := d.cfg.partRegions p
    let copies := d.mapped.filter (fun e => e.2.onchip && rs.contains (e.2.slot / 32 / 16))
    let d1 := copies.foldl (fun d e => d.giveUpSlot e) d
    let d2 := rs.foldl (fun d r => d.regionReset r) d1
    let d3 := { d2 with halo := d2.halo.filter (fun e => !(d.cfg.partDies p).contains (e.1 / 2)) }
    let d4 := d3.modPart p (fun v => { v with resetting := false, drafted := 0, accepted := 0, batches := 0, lastRows := 0 })
    ((d4.cfg.partTenants p).foldl (fun d t => (d.modTen t (fun v => { v with partReset := false })).statusEvent t) d4).waitAnew (fun q => decide (d4.qPart q = p))

/-! ## Tenant reset (R35, R87, R299, R375, R405, R437) -/

/-- A sequence goes without an entry: its image, blocks, pins and record are freed. -/
def Dev.dropSeq (d : Dev) (r : Nat) : Dev :=
  match d.seq r with
  | none => d
  | some q =>
    let d1 := ((d.dropImage r).dropBlocks r false).dropBlocks r true
    let d2 := d1.unpin (slotNo q.partition (q.slotOf false)) q.gen
    let d3 := if q.hasDraft then d2.unpin (slotNo q.partition (q.slotOf true)) q.draftGen else d2
    { d3 with tok := { d3.tok with seqs := d3.tok.seqs.filter (fun e => decide (e.1 ≠ r)) } }

/-- Every sequence of a tenant goes; a batch that goes on has no such member any more. -/
def Dev.dropSeqs (d : Dev) (t : Nat) : Dev :=
  let rs := d.tok.seqs.filterMap (fun e => match e.2 with | some q => if q.tenant = t then some e.1 else none | none => none)
  let gone (b : Batch) : Batch := { b with members := b.members.map (fun x => if rs.contains x.1 then (x.1 + 4096, x.2) else x) }
  rs.foldl (fun d r => d.dropSeq r) { d with parts := d.parts.map (fun e => (e.1, { e.2 with batch := e.2.batch.map gone })) }

/-- A tenant's slots are freed without draining; a batch on one of them ends, and an unload that waits completes. -/
def Dev.dropSlots (d : Dev) (t : Nat) : Dev :=
  let mine := (d.mdl.slots.filter (fun e => decide (e.2.owner = t) && !e.2.empty)).map (fun e => e.1)
  mine.foldl (fun d n =>
    let d1 := match (d.part (n / 8)).batch with
      | some b => if b.slot = n % 8 then d.modPart (n / 8) (fun v => { v with batch := none }) else d
      | none => d
    let d2 := (d1.slot n).gens.foldl (fun d g => ((d.stopSweep n g.number).unmapGen (n / 8) (n % 8) g.number).dropGenNodes (n / 8) (n % 8) g.number) d1
    (d2.modSlot n (fun v => { count := v.count, unloading := v.unloading, unloadQ := v.unloadQ })).settle n) d

/-- The pages that a tenant owns are to be scrubbed (R299, R437). -/
def Dev.markPages (d : Dev) (t : Nat) : Dev :=
  { d with kv := { d.kv with pages := d.kv.pages.map (fun e => (e.1, e.2.map (fun g => if g.owner = t then { g with scrub := true } else g))) } }

/-- The tenant's tree goes, with every node it inserted elsewhere; pages that another sequence still references count against no
tenant from now on, and are not scrubbed (R299). -/
def Dev.dropPages (d : Dev) (t : Nat) : Dev :=
  let d1 := d.removeNodes (d.kv.nodes.filter (fun n => decide (n.tree = t) || decide (n.inserter = t)))
  let kept := d1.kv.lists.flatMap (fun e => match e.2 with | some l => (l.pages ++ l.other).filterMap (fun x => x.2) | none => [])
  { d1 with kv := { d1.kv with pages := d1.kv.pages.map (fun e => (e.1, e.2.map (fun g => if g.owner = t ∧ kept.contains e.1 then { g with owner := 127, scrub := false } else g))) } }

/-- The pages of a tenant that were freed by its reset have been overwritten, and their places are free (R299, R305). -/
def Dev.scrubPages (d : Dev) (t : Nat) : Dev :=
  let gone (g : Page) : Bool := decide (g.owner = t) && g.scrub
  let d1 := (d.kv.pages.filterMap (fun e => e.2)).foldl (fun d g => if gone g then d.scrubPhys (d.granuleDpa g.partition g.granule) (4096 * g.count) else d) d
  { d1 with kv := { d1.kv with pages := d1.kv.pages.filter (fun e => match e.2 with | some g => !gone g | none => true) } }

/-- A context of the tenant goes back to its default set with no output bound and no record (R375, R379, R380). -/
def Dev.dropContext (d : Dev) (n : Nat) : Dev :=
  let d1 := d.modCtx n (fun v => { v with
    drop := false, uncertain := false, dropCnt := 0, uncCnt := 0, lastReason := 0, frames := 0, gen := 0, params := [], staged := none, outs := [],
    discard := true, commits := [], inFlight := [], stats := none })
  { d1 with cam := { d1.cam with pool := d1.cam.pool.filter (fun l => decide (l.ctx ≠ n)) } }

/-- An array of the tenant loses its ring, its record and its counts (R395, R405, R408). -/
def Dev.dropArray (d : Dev) (n : Nat) : Dev :=
  d.modArray n (fun v => { v with running := false, drop := false, dropCnt := 0, frames := 0, ring := none, chunk := [], chunkSlot := none, chunkFrames := 0, record := none })

/-- A pulse channel of the tenant slows down to v_min and stops; its programs are freed (R405). -/
def Dev.stopPulse (d : Dev) (n : Nat) : Dev :=
  let moved := if (d.pulse n).running.isSome then (d.pulseTravel n).steps + (d.brakeSteps n).1 else 0
  d.modPulse n (fun v => { v with running := none, held := [], pos := v.pos + BitVec.ofInt 64 moved, brake := 0, brakeV := 0, brakeD := 0, stepPin := false })

/-- A UART of the tenant finishes its byte and stops; its programs are freed (R405). -/
def Dev.stopUart (d : Dev) (n : Nat) : Dev := d.modUart n (fun v => { v with held := [], queue := [], running := none, sent := [], captured := [], capErr := false, dePin := false })

/-- Lists of the tenant leave an I3C controller. -/
def Dev.stopI3c (d : Dev) (n t : Nat) : Dev :=
  d.modI3c n (fun v => { v with queue := v.queue.filter (fun x => decide (x.1 ≠ t)), running := v.running.filter (fun x => decide (x.1 ≠ t)) })

/-- Units, contexts, arrays and triggers of the tenant stop. -/
def Dev.dropUnits (d : Dev) (t : Nat) : Dev :=
  let c := d.cfg
  let d1 := (c.contexts.filter (fun n => decide (c.ctxOwner n = t))).foldl (fun d n => d.dropContext n) d
  let d2 := ((List.range 64).filter (fun n => c.arrayOn n && decide (c.arrayOwner n = t))).foldl (fun d n => d.dropArray n) d1
  let d3 := ((List.range 1024).filter (fun n => decide (c.trgOwner n = some t))).foldl (fun d n => (d.freeHeld n).modTrg n (fun _ => {})) d2
  let d4 := ((List.range 32).filter (fun n => decide (c.pulseOwner n = some t))).foldl (fun d n => d.stopPulse n) d3
  let d5 := ((List.range 4).filter (fun n => decide (c.uartOwner n = some t))).foldl (fun d n => d.stopUart n) d4
  (List.range 8).foldl (fun d n => d.stopI3c n t) d5

/-- Counters owned by the tenant return to their reset values (PMC). -/
def Dev.dropCounters (d : Dev) (t : Nat) : Dev :=
  let f (x : Tbl CtrSel) : Tbl CtrSel := x.filter (fun e => decide (e.2.owner ≠ t))
  { d with pmc := { d.pmc with cl := f d.pmc.cl, rg := f d.pmc.rg, hub := f d.pmc.hub } }

/-- On-chip copies of the tenant's tiles are dropped without write-back (R201). -/
def Dev.dropCopies (d : Dev) (t : Nat) : Dev :=
  (d.mapped.filter (fun e => e.2.onchip && decide (e.2.owner = t))).foldl (fun d e =>
    d.putTile e.1 (some { e.2 with onchip := false, dirty := false, slot := 0 })) d

/-- Frames that a scrub has to write: the tenant's LP5X tiles, and its private pages and pool images (R437). -/
def Dev.scrubList (d : Dev) (t : Nat) : Nat := d.lp5xTiles t + cdiv (((d.kv.pages.filterMap (fun e => e.2)).filter (fun g => decide (g.owner = t))).map (fun g => g.count)).sum 4

/-- The window of a tenant at the start of its reset: every register at its reset value but for the status bits that others set. -/
def Tenant.reset (v : Tenant) (frames : Nat) : Tenant :=
  { fwRestart := v.fwRestart, updateHold := v.updateHold, partReset := v.partReset, vfEnabled := v.vfEnabled, busMaster := v.busMaster,
    handoffSeen := v.handoffSeen, scrub := true, scrubFrames := frames }

/-- The start of a tenant reset: steps 1 to 3 of R437. -/
def Dev.tenantReset (d : Dev) (t : Nat) : Dev :=
  let frames := d.scrubList t
  let d0 := ({ d with epochs := { d.epochs with ten := d.epochs.ten.set t (satInc (d.epochs.ten.get t 0)) } } : Dev).fullBarriers t
  let d1 := (d0.mdl.slots.filter (fun e => match e.2.load with | some l => decide (l.owner = t) | none => false)).foldl (fun d e => d.failLoad e.1 { status := 0x09, code := 0 }) d0
  let mine := (d1.queues.filter (fun e => decide (e.1 / 32 = t) && e.2.running.isSome)).map (fun e => e.1)
  let d2 := mine.foldl (fun d q => d.failOpen q 0x09) d1
  let d3 := ((((((((d2.markPages t).dropRequests t).dropSeqs t).dropSlots t).dropPages t).dropUnits t).dropCounters t).dropCopies t).freeRetired
  (({ d3 with queues := d3.queues.filter (fun e => decide (e.1 / 32 ≠ t)), mem := { d3.mem with keys := d3.mem.keys.set t none } }.modTen t (fun v => v.reset frames)).setProgress t 7 0 0)

/-- SCRUB_COMPLETE: the last line is written and K_s destroyed; the frames and the NVMe places are free (R437). -/
def Dev.scrubComplete (d : Dev) (t : Nat) : Dev :=
  if !(d.ten t).scrub || (d.ten t).scrubDone then d
  else
    let mine := d.mapped.filter (fun e => decide (e.2.owner = t))
    let d1 := mine.foldl (fun d e => let d1 := d.scrubPhys (e.2.frame * tileSize) tileSize; { d1 with mem := { d1.mem with sector := d1.mem.sector.filter (fun x => decide (x.1 ≠ e.2.frame)) } }) d
    let d2 := { d1 with mem := { d1.mem with tiles := d1.mem.tiles.filter (fun e => match e.2 with | some v => decide (v.owner ≠ t) | none => true) } }
    (((d2.scrubPages t).modTen t (fun v => { v with scrubDone := true, scrubDue := d.tick + 1 })).setProgress t 7 0 10000)

/-- TENANT_ENABLE: at the tick after a scrub, new keys are generated and the function is enabled; it waits for CC4, and without an
entropy source it does not come about (R413, R437, R449). -/
def Dev.tenantEnable (d : Dev) (t : Nat) : Dev :=
  if !(d.ten t).scrub || !(d.ten t).scrubDone || !d.atTick || decide (d.tick < (d.ten t).scrubDue) || d.coreOut 4 || d.coreOut (coreOf t) || d.sec.rngFail then d
  else
    let n := (d.ten t).scrubFrames
    let d1 := ((d.modTen t (fun v => { v with scrub := false, scrubDone := false, scrubFrames := 0, serving := true })).keyTenant t).statusEvent t
    ((d1.setProgress t 7 2 10000).logRec 4 0x8E t (unitHub 0 4) 0 n).deferred 4 t (d.ten t).scrubDue

/-! ## The rows -/

def execPciePerst (port : Nat) (linkUp : Bool) (s : State) : Host.Outcome State Fault Refusal := .next { s with dev := s.dev.linkReset port linkUp }
/-- VF_FLR starts a tenant reset of the function's tenant; one that runs already goes on (R39, R522). -/
def execVfFlr (port vf : Nat) (s : State) : Host.Outcome State Fault Refusal :=
  .next (match s.dev.cfg.vfTenant port vf with
    | some t => if (s.dev.ten t).scrub || s.dev.sec.rngFail || !s.dev.awake then s else { s with dev := s.dev.tenantReset t }
    | none => s)
def execVfEnable (port n : Nat) (s : State) : Host.Outcome State Fault Refusal := .next { s with dev := s.dev.vfEnable port n }
def execBusMasterDisable (port vf : Nat) (s : State) : Host.Outcome State Fault Refusal := .next { s with dev := s.dev.busMasterOff port vf }
def execPartitionResetComplete (p : Nat) (s : State) : Host.Outcome State Fault Refusal := .next { s with dev := s.dev.partResetDone p }
def execScrubComplete (tenant : Nat) (s : State) : Host.Outcome State Fault Refusal := .next { s with dev := s.dev.scrubComplete tenant }
def execTenantEnable (tenant : Nat) (s : State) : Host.Outcome State Fault Refusal := .next { s with dev := s.dev.tenantEnable tenant }

end Sys2Proof.Machine
end

