-- ==== Sys2Proof/Machine/Security.lean ====
section
/-! DEFINITION. The attestation and session mailbox, reports, debug unlock, and the entropy source (13_security_and_tenancy.md). -/
namespace Sys2Proof.Machine
open Sys2Proof

/-! ## The mailbox (R421, R422, R426) -/

def Dev.attBusy (d : Dev) (party : Nat) : Bool := d.sec.mailbox.any (fun r => decide (r.party = party))

/-- The attestation key certificate (R415). -/
def State.attCertificate (s : State) : List B8 :=
  Config.attCert s.nv.fuses.identity (Config.publicKey (leBytes 48 s.dev.sec.attKey.toNat)) s.dev.epochs.pon s.dev.epochs.rst

/-- Offset of the chain's length in what op 4 writes, counted from byte 256, and the length of all of it (R423). -/
def State.chainAt (s : State) : Nat := 4 * cdiv (4 + s.attCertificate.length) 4
def State.certLength (s : State) : Nat := s.chainAt + 4 + 16 + s.nv.flash.chainLength

/-- Units that an op needs at least (R422). -/
def State.attUnits (s : State) (op : Nat) : Nat := if op = 4 then cdiv (256 + s.certLength) 4096 else 1

/-- The first check of R422 that a request fails: status and detail code. The management function has no sessions (R545). -/
def State.attFault (s : State) (party op units addr : Nat) : Option (B8 × Nat) :=
  let d := s.dev
  if d.attBusy party then some (0x01, 0xAB)
  else if op = 0 ∨ 4 < op ∨ (party = mgmtParty ∧ (op = 2 ∨ op = 3)) ∨ units < s.attUnits op ∨ 16 < units then some (0x04, 0xAC)
  else if party < 64 ∧ (2 ^ 39 < addr + 4096 * units ∨ !d.ownedRange { party := party, part := d.partyPart party } addr (4096 * units)) then some (0x03, 0xA8)
  else none

/-- A write to TW_ATT_REQ or MG_ATT_REQ. -/
def State.attRequest (s : State) (party : Nat) (value : W64) : State :=
  let d := s.dev
  let addr := (if party < 64 then (d.ten party).attAddr else d.mgmt.attAddr).toNat
  let op := fld value 0 3
  let units := fld value 8 5
  match s.attFault party op units addr with
  | some (st, code) => { s with dev := (d.setAttStatus party st).reply party st code 0x408 }
  | none =>
    let r : AttReq := { party := party, op := op, units := units, addr := addr }
    let d1 : Dev := { d with sec := { d.sec with mailbox := d.sec.mailbox ++ [r] } }
    { s with dev := d1.reply party 0 0 0x408 }

/-- The request that the island serves: the first in arrival order whose control core is there to answer it (R422, R426). -/
def Dev.attHead (d : Dev) (party op : Nat) : Option AttReq :=
  match d.sec.mailbox.find? (fun r => !d.coreOut (coreOf r.party)) with
  | some r => if r.party = party ∧ r.op = op ∧ d.awake then some r else none
  | none => none

/-- A request ends with a status; a failure is recorded. -/
def Dev.attEnd (d : Dev) (party : Nat) (status : B8) (code : Nat) : Dev :=
  let d1 := (d.dropRequests party).setAttStatus party status
  if status = 0 then d1 else d1.regRec party status code 0 0x408

/-- Reads and writes of a request's buffer: partition memory for a tenant, host memory for the management function. -/
def Dev.attRead (d : Dev) (r : AttReq) (host : List Host.Cell) (off n : Nat) : Dev × Except Fail (List B8) :=
  if r.party < 64 then d.readMem { party := r.party, part := d.partyPart r.party } (r.addr + off) n
  else (d, .ok (d.hostRead d.cfg.port host (r.addr + off) n))
def Dev.attWrite (d : Dev) (r : AttReq) (off : Nat) (l : List B8) : Dev :=
  if r.party < 64 then d.deviceWrite r.party (d.partyPart r.party) (r.addr + off) l else d.hostWrite d.cfg.port (r.addr + off) l

/-! ## Reports (R424, R425) -/

/-- The 56 bytes of a model entry. -/
def modelEntry (slot : Nat) (g : GenState) : List B8 :=
  leBytes 1 slot ++ leBytes 1 (if g.degraded then 3 else g.role) ++ leBytes 2 0 ++ leBytes 4 g.number ++ leBytes 48 (Config.sha384 g.manifest).toNat

/-- Generations that a tenant may name, by slot, the current one of a slot first. -/
def Dev.modelEntries (d : Dev) (t : Nat) : List (List B8) :=
  ((List.range 8).map (fun s =>
    if d.slotForeign t (d.partyPart t) s then []
    else
      let l := (d.slot (slotNo (d.partyPart t) s)).gens
      (l.filter (fun g => decide (g.role = 0)) ++ l.filter (fun g => decide (g.role ≠ 0))).map (modelEntry s))).flatten

/-- Bytes 0x000-0x71F of a report. -/
def Dev.reportBody (d : Dev) (party : Nat) (nonce : List B8) (seq : W32) (bind : Option B384) : List B8 :=
  let ten := decide (party < 64)
  let flag (b : Bool) (k : Nat) : Nat := if b then 2 ^ k else 0
  let p := d.partyPart party
  let seen := if ten then (d.ten party).handoffSeen else d.mgmt.handoffSeen
  let ep (t : Tbl W32) (k : Nat) : List B8 := leBytes 4 (if ten then (t.get k 0).toNat else 0)
  let models := if ten then (d.modelEntries party).take 16 else []
  leBytes 4 0x52544151 ++ leBytes 2 1
    ++ leBytes 2 (flag seen 0 + flag d.sec.debugOpen 1 + flag (ten && d.cfg.confidential party) 2 + flag bind.isSome 3)
    ++ leBytes 1 party ++ leBytes 1 p ++ leBytes 1 (d.portOf party) ++ leBytes 1 0 ++ leBytes 4 seq.toNat
    ++ leBytes 8 d.time.toNat ++ nonce
    ++ leBytes 4 d.epochs.pon.toNat ++ leBytes 4 d.epochs.rst.toNat ++ ep d.epochs.link (d.portOf party) ++ ep d.epochs.part p
    ++ ep d.epochs.ten party ++ ep d.epochs.cc (coreOf party)
    ++ leBytes 4 d.fw.generation.toNat ++ leBytes 4 d.boot.secVersion ++ leBytes 8 0
    ++ ((List.range 16).map (fun k => leBytes 48 (d.sec.mr.get k 0).toNat)).flatten
    ++ leBytes 48 (bind.getD 0).toNat
    ++ leBytes 1 models.length ++ leBytes 15 0 ++ models.flatten ++ List.replicate (56 * (16 - models.length)) 0

/-- A report, signed by the attestation key: the requester's report_seq and the count of reports move on, and its handoff flag is
told. -/
def Dev.report (d : Dev) (party : Nat) (nonce : List B8) (bind : Option B384) : Dev × List B8 :=
  let seq := (if party < 64 then (d.ten party).reportSeq else d.mgmt.reportSeq) + 1
  let body := d.reportBody party nonce seq bind
  let d1 := if party < 64 then d.modTen party (fun v => { v with reportSeq := seq, handoffSeen := false })
    else { d with mgmt := { d.mgmt with reportSeq := seq, handoffSeen := false } }
  ({ d1 with sec := { d1.sec with reports := d1.sec.reports + 1 } }, body ++ Config.ecdsaSign (leBytes 48 d.sec.attKey.toNat) body)

/-- ATT_REPORT: op 1. -/
def Dev.attReport (d : Dev) (party : Nat) (host : List Host.Cell) : Dev :=
  match d.attHead party 1 with
  | none => d
  | some r =>
    match d.attRead r host 0 32 with
    | (d1, .error e) => d1.attEnd party e.status e.code
    | (d1, .ok nonce) =>
      match d1.report party nonce none with
      | (d2, b) => (d2.attWrite r 256 b).attEnd party 0 0

/-- ATT_CERTIFICATES: op 4. -/
def State.attCertificates (s : State) (party : Nat) : State :=
  let d := s.dev
  match d.attHead party 4 with
  | none => s
  | some r =>
    let cert := s.attCertificate
    let chain := s.nv.flash.chain
    let b := leBytes 4 cert.length ++ cert ++ List.replicate (s.chainAt - 4 - cert.length) 0 ++ leBytes 4 chain.length ++ chain
    { s with dev := (d.attWrite r 256 b).attEnd party 0 0 }

/-! ## Sessions (R427-R429) -/

/-- The next session_id. -/
def nextSid (n : W32) : W32 := if n = BitVec.allOnes 32 then 1 else n + 1

/-- SESSION_OPEN: op 2. -/
def Dev.sessionOpen (d : Dev) (t : Nat) : Dev :=
  match d.attHead t 2 with
  | none => d
  | some r =>
    match d.attRead r [] 0 224 with
    | (d1, .error e) => d1.attEnd t e.status e.code
    | (d1, .ok b) =>
      let host := b.take 96
      let slot := d1.cfg.authKeySlot t
      if !Config.onCurve host then d1.attEnd t 0x04 0xAC
      else if slot ≠ 0xFF ∧ !Config.ecdsaVerify (d1.cfg.key slot) (b.take 128) ((b.drop 128).take 96) then d1.attEnd t 0x03 0xAD
      else if d1.sec.rngFail then d1.drawn.attEnd t 0x01 (Config.freeByte d1.draw).toNat
      else
        match d1.draw384 with
        | (d2, k) =>
          let key := leBytes 48 k.toNat
          let pub := Config.publicKey key
          let z := Config.ecdh key host
          let h := Config.sha384 (b.take 128 ++ pub)
          let derive (info : String) : W256 := BitVec.ofNat 256 (leNat (Config.hkdf (leBytes 48 h.toNat) z (ascii info) 32))
          let sid := (d2.ten t).sessionNext
          let d3 := ((d2.closeSession t 1).modTen t (fun v => { v with
              session := some { sid := sid, keyD2H := derive "quipa d2h", keyH2D := derive "quipa h2d" }, sessionNext := nextSid sid })).logRec
                (coreOf t) 0x8F t (unitHub 1 0) 0 sid.toNat
          match d3.report t ((b.drop 96).take 32) (some h) with
          | (d4, rep) => (d4.attWrite r 256 (pub ++ leBytes 4 sid.toNat ++ List.replicate 28 0 ++ rep)).attEnd t 0 0

/-- SESSION_CLOSE: op 3. -/
def Dev.sessionClose (d : Dev) (t : Nat) : Dev :=
  match d.attHead t 3 with
  | none => d
  | some _ => (d.closeSession t 0).attEnd t 0 0

/-! ## The JTAG TAP (R442, R537) -/

/-- The part number and the stepping, A2, as MG_IDENT and the IDCODE hold them (R537, R544). -/
def partNumber : Nat := 0x0440
def stepping : Nat := 2
/-- The IDCODE: stepping, part, maker, and a one (R537). -/
def idcode : W32 := BitVec.ofNat 4 stepping ++ BitVec.ofNat 16 partNumber ++ Config.jedecMaker ++ 1#1

/-- The TAP's instructions that R442 names; `debugAccess` stands for every other one, the debug access port's among them. -/
inductive TapInstr where
  | bypass | idcode | samplePreload | extest | debugAccess
deriving DecidableEq, Repr
/-- Neither BCI slot holds an image that begins with the BCI magic. -/
def Flash.noBci (f : Flash) : Bool := [0, 1].all (fun k => decide (m32 (f.bci k) 0 ≠ bciMagic))
/-- What the TAP offers: BYPASS and IDCODE while it is closed, the board test's pair too on a part without a BCI, everything while debug is open. -/
def State.tapOffers (s : State) : TapInstr → Bool
  | .bypass | .idcode => true
  | .samplePreload | .extest => s.nv.flash.noBci || s.dev.sec.debugOpen
  | .debugAccess => s.dev.sec.debugOpen

/-- The pin banks of R558. -/
inductive PinBank where
  | xspi | jtag | avs | i3c | gpio | pulse | uart | tdm | reset | wake | smbAddr | thermtrip | smbus | perst | pcie | ethernet | csi | lp5x
deriving DecidableEq, Repr
def PinBank.all : List PinBank :=
  [.xspi, .jtag, .avs, .i3c, .gpio, .pulse, .uart, .tdm, .reset, .wake, .smbAddr, .thermtrip, .smbus, .perst, .pcie, .ethernet, .csi, .lp5x]
/-- The differential bank of R558. -/
def PinBank.differential : PinBank → Bool
  | .pcie | .ethernet | .csi | .lp5x => true
  | .xspi | .jtag | .avs | .i3c | .gpio | .pulse | .uart | .tdm | .reset | .wake | .smbAddr | .thermtrip | .smbus | .perst => false
/-- The boundary chain: every single-ended pin (R537); PERST, single-ended by R558, is read as in it (DEDUCED, log entry on the TAP). -/
def boundaryChain : List PinBank := PinBank.all.filter (fun b => !b.differential)

/-! ## Debug (R442, R443), measurement extension (R446), entropy (R413) -/

/-- A fetch from management host memory can be made. -/
def Dev.hostUp (d : Dev) : Bool := (d.port d.cfg.port).up

/-- The token's reasons for refusal. -/
def State.tokenRefused (s : State) (tok : List B8) : Bool :=
  let d := s.dev
  s.nv.fuses.debugClosed || !d.cfg.debugAllowed || decide (d.cfg.debugSlot = 0xFF) || decide (leAt tok 0 4 ≠ 0x4B4C4451)
    || decide (leAt tok 8 48 ≠ (Config.sha384 s.nv.fuses.identityPub).toNat) || decide (leAt tok 56 32 ≠ d.sec.nonce.toNat)
    || !Config.ecdsaVerify (d.cfg.key d.cfg.debugSlot) (tok.take 96) ((tok.drop 96).take 96)

/-- Window offset of SEC_DBG_CTL and SEC_MR_EXT. -/
def secDbgCtl : Nat := 0xB0038
def secMrExt : Nat := 0xB0048

/-- SEC_DBG_CTL.go. -/
def State.debugUnlock (s : State) (host : List Host.Cell) : State :=
  let d := s.dev
  if !d.hostUp then { s with dev := d.drawn.regRec mgmtParty 0x01 (Config.freeByte d.draw).toNat 0 secDbgCtl }
  else
    let tok := d.hostRead d.cfg.port host d.sec.dbgAddr.toNat 192
    match d.draw256 with
    | (d1, n) =>
      let d2 := { d1 with sec := { d1.sec with nonce := n } }
      if s.tokenRefused tok then { s with dev := d2.regRec mgmtParty 0x03 0xAE 0 secDbgCtl }
      else { s with dev := { d2 with sec := { d2.sec with debugPending := some tok } } }

/-- SEC_DBG_CTL.cancel. -/
def Dev.debugCancel (d : Dev) : Dev := { d with sec := { d.sec with debugPending := none } }

/-- SEC_MR_EXT with go: the digest is read now and extends its register at the next tick. -/
def Dev.mrExtend (d : Dev) (value : W64) (host : List Host.Cell) : Dev :=
  let k := fld value 0 4
  if !value.getLsbD 63 then d
  else if k < 8 then d.regRec mgmtParty 0x04 0 0 secMrExt
  else if !d.hostUp then d.drawn.regRec mgmtParty 0x01 (Config.freeByte d.draw).toNat 0 secMrExt
  else
    let x := BitVec.ofNat 384 (leNat (d.hostRead d.cfg.port host d.sec.mrExtAddr.toNat 48))
    { d with sec := { d.sec with mrPend := d.sec.mrPend ++ [(k, x)] } }

/-! ## The rows -/

def execAttReport (party : Nat) (host : List Host.Cell) (s : State) : Host.Outcome State Fault Refusal := .next { s with dev := s.dev.attReport party host }
def execAttCertificates (party : Nat) (s : State) : Host.Outcome State Fault Refusal := .next (s.attCertificates party)
def execSessionOpen (tenant : Nat) (s : State) : Host.Outcome State Fault Refusal := .next { s with dev := s.dev.sessionOpen tenant }
def execSessionClose (tenant : Nat) (s : State) : Host.Outcome State Fault Refusal := .next { s with dev := s.dev.sessionClose tenant }
/-- RNG_HEALTH_FAIL: the continuous tests fail after boot. -/
def execRngHealthFail (s : State) : Host.Outcome State Fault Refusal :=
  .next (if s.dev.boot.stage = 0 then s else { s with dev := { s.dev with sec := { s.dev.sec with rngFail := true } } })
/-- ISLAND_WATCHDOG acts as RESET_L (R450). -/
def execIslandWatchdog (s : State) : Host.Outcome State Fault Refusal := .next (s.resetL true)

end Sys2Proof.Machine
end

