-- ==== Sys2Proof/Machine/Power.lean ====
section
/-! DEFINITION. Thermal limits, the power-cap loop, operating points, ageing, package states, the Dusk watch and wake
(15_power_thermal_ageing.md). -/
namespace Sys2Proof.Machine
open Sys2Proof

/-- The power and clock controller as a unit (R21). -/
def powerUnit : Nat := unitHub 0x14 0

/-! ## Measurement (R503, R505) -/

def Dev.measure (d : Dev) (env : TickEnv) : Dev :=
  let p := d.pwr
  let put (f : Nat → Int → Int) (t : Tbl Int) : Tbl Int := (List.range 5).foldl (fun t k => match env.temps.drop k with | x :: _ => t.set k (f k x) | [] => t) t
  { d with pwr := { p with
      powerMw := min 0xFFFFF env.powerMw
      maxMw := max p.maxMw (min 0xFFFFF env.powerMw)
      temp := put (fun _ x => x) p.temp
      tempMax := put (fun k x => max x (p.tempMax.get k x)) p.tempMax } }

/-! ## Temperature (R504) -/

/-- Temperatures in 1/16 degree Celsius. -/
def degrees (n : Nat) : Int := 16 * n

/-- The thermal limit and duty of die `k` after one tick. -/
def Dev.dieLimit (d : Dev) (k : Nat) : DieState :=
  let t := d.pwr.temp.get k 0
  let h := d.pwr.temp.get 4 0
  let v := d.die k
  let v1 : DieState :=
    if degrees 100 ≤ t ∨ degrees 100 ≤ h then (if 0 < v.tMax then { v with tMax := v.tMax - 1 } else { v with tDuty := max 1 (v.tDuty - 1) })
    else if t < degrees 97 ∧ h < degrees 97 then (if v.tDuty < 8 then { v with tDuty := v.tDuty + 1 } else { v with tMax := min 8 (v.tMax + 1) })
    else v
  if degrees 95 ≤ t then { v1 with tMax := min 7 v1.tMax } else v1

def Dev.anySensor (d : Dev) (n : Nat) : Bool := (List.range 5).any (fun k => decide (degrees n ≤ d.pwr.temp.get k 0))

/-- Limits, the throttle and over-temperature flags, and suspension for temperature. -/
def Dev.thermal (d : Dev) : Dev :=
  let d1 := (List.range 4).foldl (fun e k => e.modDie k (fun _ => d.dieLimit k)) d
  let d2 := if d.anySensor 100 then
      { d1 with pwr := { d1.pwr with throttle := true, throttleCnt := satInc d1.pwr.throttleCnt, alert := d1.pwr.alert || !d1.pwr.throttle } }
    else d1
  if d.anySensor 105 then
    (partsOn d.cfg).foldl (fun d p => d.modPart p (fun v => { v with thermSusp := true }))
      { d2 with pwr := { d2.pwr with overTemp := true, overCnt := satInc d2.pwr.overCnt } }
  else if d.anySensor 100 then d2
  else (partsOn d.cfg).foldl (fun d p => d.modPart p (fun v => { v with thermSusp := false })) d2

/-! ## The power-cap loop (R500, R501, R503) -/

/-- Partition `x` ranks below partition `y` (R51). -/
def Cfg.ranksBelow (c : Cfg) (x y : Nat) : Bool :=
  decide (c.partPriority x < c.partPriority y) || (decide (c.partPriority x = c.partPriority y) && decide (y < x))
def pick (better : Nat → Nat → Bool) (l : List Nat) : Option Nat :=
  l.foldl (fun b x => match b with | none => some x | some y => if better x y then some x else some y) none

def Dev.lowerPart (d : Dev) (p : Nat) : Dev := d.modPart p (fun v => { v with loopOp := v.loopOp - 1 })

/-- The loop suspends a partition: a record to the global ring, one to the ring of each of its tenants, and the flag (R501). -/
def Dev.capSuspend (d : Dev) (p mw : Nat) : Dev :=
  let r : ErrRec := { time := d.time, tenant := 0xFF, status := 0x0B, unit := powerUnit, detail := detailOf 0x80 p, partition := p }
  let d1 := (d.modPart p (fun v => { v with loopSusp := true, powerBefore := mw, saved := none })).record r
  let d2 := (d1.cfg.partTenants p).foldl (fun d t => (d.tenantRec t { r with tenant := t }).countUnit powerUnit t) d1
  { d2 with pwr := { d2.pwr with flags := d2.pwr.flags ||| 2, unattCnt := satInc d2.pwr.unattCnt } }

/-- saved(x) of the partitions suspended at the tick before: the fall of P. -/
def Dev.noteSaved (d : Dev) (mw : Nat) : Dev :=
  (partsOn d.cfg).foldl (fun d p => d.modPart p (fun v =>
    if v.loopSusp ∧ v.saved = none then { v with saved := some ((v.powerBefore : Int) - (mw : Int)) } else v)) d

/-- One raise of a partition below its ceiling; OP8 needs every die of it below 95 degrees. -/
def Dev.raisePart (d : Dev) (p : Nat) : Dev :=
  let v := d.part p
  if v.fixed ∨ v.ceiling ≤ v.loopOp ∨ (v.loopOp = 7 ∧ (d.cfg.partDies p).any (fun k => decide (degrees 95 ≤ d.pwr.temp.get k 0))) then d
  else d.modPart p (fun v => { v with loopOp := v.loopOp + 1 })

/-- CAP_LOOP: the loop of R500 on the power of the tick just ended, in mW. -/
def Dev.capLoop (d : Dev) (mw : Nat) : Dev :=
  let cap := 1000 * d.pwr.capW
  let parts := partsOn d.cfg
  let running := parts.filter (fun p => !d.isSuspended p)
  let d1 :=
    if cap < mw then
      match pick d.cfg.ranksBelow (running.filter (fun p => !(d.part p).fixed && decide (0 < (d.part p).loopOp))) with
      | some p => d.lowerPart p
      | none =>
        if 1 < d.pwr.duty then
          match d.pwr.floorStart with
          | some _ => { d with pwr := { d.pwr with duty := d.pwr.duty - 1 } }
          | none => { d with pwr := { d.pwr with duty := d.pwr.duty - 1, floorStart := some d.tick, flags := d.pwr.flags ||| 1, floorCnt := satInc d.pwr.floorCnt } }
        else match d.pwr.floorStart, pick d.cfg.ranksBelow running with
          | some t, some p => if t + 10 ≤ d.tick then d.capSuspend p mw else d
          | _, _ => d
    else match pick (fun x y => d.cfg.ranksBelow y x) (parts.filter (fun p => (d.part p).loopSusp)) with
      | some p =>
        match (d.part p).saved with
        | some v => if (mw : Int) + v ≤ (cap : Int) then d.modPart p (fun v => { v with loopSusp := false, saved := none }) else d
        | none => d
      | none =>
        if cap < mw + 1000 * d.pwr.raiseW then d
        else if d.pwr.duty < 8 then { d with pwr := { d.pwr with duty := d.pwr.duty + 1 } }
        else parts.foldl (fun d p => d.raisePart p) d
  if d1.pwr.duty = 8 then { d1 with pwr := { d1.pwr with floorStart := none } } else d1

/-- HW_GUARD: without CC0, every running partition above OP0 that is not fixed is lowered while P exceeds the cap by more than 5 %. -/
def Dev.hwGuard (d : Dev) (mw : Nat) : Dev :=
  if 100 * mw ≤ 105 * (1000 * d.pwr.capW) then d
  else
    let d1 := ((partsOn d.cfg).filter (fun p => !d.isSuspended p && !(d.part p).fixed && decide (0 < (d.part p).loopOp))).foldl (fun d p => d.lowerPart p) d
    { d1 with pwr := { d1.pwr with flags := d1.pwr.flags ||| 4, guardCnt := satInc d1.pwr.guardCnt } }

/-! ## Points in force (R496-R498, R551) -/

/-- Ceilings follow the regions' maxima, and loop points their ceilings. -/
def Dev.newCeilings (d : Dev) (f : Fuses) : Dev :=
  let d0 := (List.range 16).foldl (fun d r => match (d.region r).maxNext with
    | some n => d.modRegion r (fun v => { v with maxOp := n, maxNext := none })
    | none => d) d
  (partsOn d0.cfg).foldl (fun d p =>
    let c := d.ceiling f p
    d.modPart p (fun v => { v with ceiling := c, loopOp := if v.fixed then fixedPoint c else min v.loopOp c })) d0

/-- The point that a partition is to run at, and the one of a region of it. -/
def Dev.partPoint (d : Dev) (p : Nat) : Nat := min (d.part p).loopOp (d.partTMax p)
def Dev.regionPoint (d : Dev) (p r : Nat) : Nat := if (d.cfg.partDies p).length ≤ 1 then min (d.partPoint p) (d.region r).maxOp else d.partPoint p

/-- A lowered point is in force at the tick; a raise waits for the regulator of its die. -/
def Dev.setPoints (d : Dev) (p : Nat) : Dev :=
  let d1 := (d.cfg.partRegions p).foldl (fun d r =>
    let t := d.regionPoint p r
    d.modRegion r (fun v => if t ≤ v.op then { v with op := t, target := t } else { v with target := t })) d
  let raises := (d1.cfg.partRegions p).filter (fun r => decide ((d1.region r).op < (d1.region r).target))
  let d2 := raises.foldl (fun d r => d.modDie (r / 4) (fun v => { v with avsWait := true })) d1
  let n := d2.partPoint p
  d2.modPart p (fun v => { v with
    op := if raises.isEmpty then n else min n v.op
    duty := d2.partDuty p
    throttled := decide (n < v.loopOp) || decide (d2.partTDuty p < d2.pwr.duty) })

/-- OP_CHANGE_COMPLETE: the regulator of a die reports its setpoint; the regions of a multi-die partition change together. -/
def Dev.opChange (d : Dev) (f : Fuses) (k : Nat) : Dev :=
  if !(d.die k).avsWait then d
  else
    let d1 := d.modDie k (fun v => { v with avsWait := false })
    let ps := (partsOn d1.cfg).filter (fun p => (d1.cfg.partDies p).contains k && ((d1.cfg.partDies p).all (fun x => !(d1.die x).avsWait) || decide ((d1.cfg.partDies p).length ≤ 1)))
    (ps.foldl (fun d p =>
      let d1 := (d.cfg.partRegions p).foldl (fun d r => d.modRegion r (fun v => { v with op := v.target })) d
      d1.modPart p (fun v => { v with op := d1.partPoint p })) d1).allVolts f

/-- The condition of Overcast (R478). -/
def Dev.overcast (d : Dev) : Bool :=
  (partsOn d.cfg).any (fun p => d.isSuspended p || decide (d.partPoint p < min (d.part p).ceiling 7) || decide ((d.part p).duty < 8))

/-! ## Clocks (R494, R510, R511) -/

/-- Cycles of one tick: those that run are counted by the cluster cycle counters, those that are gated by GATED. -/
def Dev.countTick (d : Dev) : Dev :=
  ((partsOn d.cfg).flatMap (fun p => (d.cfg.partRegions p).map (fun r => (p, r)))).foldl (fun d x =>
    let eighth := 125 * opMhz (d.region x.2).op
    let n := if d.isSuspended x.1 then 0 else (d.part x.1).duty
    let d1 := (List.range 16).foldl (fun d c => d.modCluster (16 * x.2 + c) (fun v => { v with cyc := v.cyc + BitVec.ofNat 64 (eighth * n) })) d
    d1.countRg x.2 0x0B 0x7E (eighth * (8 - n))) d

/-- Events whose number this model does not fix, since it has no cycle schedule, no cache and no count of re-read
operands: their counters advance by a free amount at each tick. -/
def openEvent (set ev : Nat) : Bool :=
  if set = 0 then [0x03, 0x04, 0x08, 0x0E].contains ev
  else if set = 1 then [0x02, 0x05].contains ev
  else [0x01, 0x02, 0x03, 0x04, 0x05, 0x10, 0x11, 0x12].contains ev
def freeTally (set draw : Nat) (t : Tbl CtrSel) : Tbl CtrSel :=
  t.mapIdx (fun i e => if openEvent set e.2.event then (e.1, { e.2 with count := e.2.count + BitVec.ofNat 48 (Config.freeNat (draw + i)) }) else e)
def Dev.countOpen (d : Dev) : Dev :=
  let m := d.pmc
  { d with pmc := { m with cl := freeTally 0 d.draw m.cl
                           rg := freeTally 1 (d.draw + m.cl.length) m.rg
                           hub := freeTally 2 (d.draw + m.cl.length + m.rg.length) m.hub }
           draw := d.draw + m.cl.length + m.rg.length + m.hub.length }

/-! ## LP5X at a tick (R205) -/

def Dev.driftCheck (d : Dev) (env : TickEnv) : Dev :=
  if !d.mem.trained || d.mem.selfRefresh then d
  else
    let m := d.mem
    let rates := (List.range 32).foldl (fun t k => match env.refresh.drop k with | x :: _ => t.set k x | [] => t) m.chRefresh
    let m1 := { m with
      chRefresh := rates
      chRetrain := (env.drifted.filter (fun k => decide (k < 32))).foldl (fun t k => t.set k (satInc (t.get k 0))) m.chRetrain }
    { d with mem := if env.refresh.any (fun x => decide (x = 7)) then { m1 with tempHigh := true, tempCnt := satInc m1.tempCnt } else m1 }

/-- A line of LP5X that an array error has changed: with protection 0 or 1 its new bytes, which are free, reach whatever reads it, undetected
(R207). -/
def Dev.arrayError (d : Dev) (line : Nat) : Dev :=
  if d.cfg.protection = 3 ∨ sramBase ≤ line then d
  else { d.drawn with mem := { d.mem with phys := d.mem.phys.write line ((List.range 64).map (fun i => (Config.freeF32 d.draw i).setWidth 8)) } }

/-- Errors that have come up in memories, on the ring and on the links since the tick before, as the environment reports them (R185, R207,
R211, R217, R436, R540): link errors are counted; whatever reads the word, line, block or frame next finds them. -/
def Dev.errorsArise (d : Dev) (env : TickEnv) : Dev :=
  let m := d.mem
  let word (x : Nat) : Nat := x / 8 * 8
  let line (x : Nat) : Nat := x / 64 * 64
  let d1 : Dev := { d with
    mem := { m with bad := m.bad ++ env.ueWords.map word, ceWords := m.ceWords ++ env.ceWords.map word, badLp := m.badLp ++ env.ueLines.map line,
                    ceLines := m.ceLines ++ env.ceLines.map (fun x => (line x.1, x.2 % 32)), badMac := m.badMac ++ env.macLines.map line }
    sec := { d.sec with badNodes := d.sec.badNodes ++ env.nodes } }
  let d2 := env.frames.foldl (fun d x => d.modStop (x.1 % 8) (fun v => { v with frames := v.frames.set x.2.1 x.2.2 })) d1
  let d3 := env.images.foldl (fun d r => d.modSeq r (fun v => { v with image := v.image.map (fun im => { im with badTag := true }) })) d2
  let d4 := env.aer.foldl (fun d x => d.modPort (x.1 % 6) (fun v => { v with aerCnt := satAdd v.aerCnt x.2 })) d3
  let d5 := env.fecUncorr.foldl (fun d x => d.modEth (x.1 % 2) (fun v => { v with fecUncorr := satAdd v.fecUncorr x.2 })) d4
  let d6 := (env.macLines.map line).foldl (fun d x => d.arrayError x) d5
  env.fecCorr.foldl (fun d x => d.modEth (x.1 % 2) (fun v => { v with fecCe := v.fecCe + BitVec.ofNat 64 x.2 })) d6

/-! ## Configuration apply (R63, R502) -/

def Dev.applyCap (d : Dev) : Dev :=
  match d.pwr.capNext with
  | none => d
  | some w =>
    (({ d with pwr := { d.pwr with capW := w, capNext := none } }.itemApplied).logRec 0 0x88 0xFF powerUnit w d.tick).deferred 0 0xFF d.pwr.capDue

/-- CONFIGURATION_APPLY: what was requested since the last tick takes effect together, and the batch is reported: MG_PROGRESS_1 counts its
items, and is done at the next tick (R11, R63). -/
def Dev.applyItems (d : Dev) : Dev :=
  if d.coreOut 0 then d
  else
    let slots := (d.mdl.slots.filter (fun e => !e.2.switches.isEmpty)).map (fun e => e.1)
    let d1 := slots.foldl (fun d n => (d.applySwitch n).itemApplied) d.applyCap
    let n := d1.fw.applied
    if n = 0 then d1
    else (({ d1 with fw := { d1.fw with applied := 0 } }.setProgress mgmtParty 1 1 n).setProgress mgmtParty 1 2 n).logRec 0 0x81 0xFF (unitHub 0 0) n d1.tick

/-- Extensions of MR8 to MR15 that the management function asked for (R446). -/
def Dev.applyMr (d : Dev) : Dev :=
  let d1 := d.sec.mrPend.foldl (fun d x => d.extend x.1 x.2) d
  { d1 with sec := { d1.sec with mrPend := [] } }

/-! ## Ageing (R506-R508) -/

/-- The re-plan: margin, maximum, exhausted, the worst slack last read, and the lowered maxima in order. -/
structure Replan where
  margin : Nat
  maxOp : Nat
  exhausted : Bool := false
  worst : Nat := 0
  lowered : List Nat := []
deriving DecidableEq, Repr, Inhabited

/-- Each number of the list is the worst slack of one read, in ps. -/
def replan (v : Replan) : List Nat → Replan
  | [] => v
  | w :: rest =>
    let u := { v with worst := w }
    if 15 ≤ w then u
    else if v.margin + 5 ≤ 50 then replan { u with margin := v.margin + 5 } rest
    else if 0 < v.maxOp then replan { u with maxOp := v.maxOp - 1, margin := 0, lowered := v.lowered ++ [v.maxOp - 1] } rest
    else { u with exhausted := true }

/-- A read of region `r` may be made: the region was just powered, or its week is over and this is a tick that has had no read (R507). -/
def Dev.ageingDue (d : Dev) (r : Nat) : Bool :=
  (d.region r).fresh || (decide ((d.region r).nextRead.toNat ≤ d.time.toNat) && d.atTick && decide (d.pwr.ageTick < d.tick))
/-- A periodic read is that of its tick; one that meets a sleep or a restart is logged as late (R31, R507). -/
def Dev.noteRead (d : Dev) (r : Nat) : Dev :=
  if (d.region r).fresh then d
  else { d with pwr := { d.pwr with ageTick := d.tick } }.deferred 2 0xFF (max (d.pwr.ageTick + 1) (cdiv (d.region r).nextRead.toNat 1000000))

/-- AGEING_READ of a region that is due: the margin changes at once, the maximum at the next tick. -/
def Dev.ageingRead (d : Dev) (f : Fuses) (r : Nat) (slacks : List Nat) : Dev :=
  let v := d.region r
  if !d.awake || !v.powered || decide (15 < r) || !d.ageingDue r || d.coreOut 2 || slacks.isEmpty then d
  else
    let x := replan { margin := v.margin, maxOp := v.maxNext.getD v.maxOp, exhausted := v.exhausted } slacks
    let d1 := x.lowered.foldl (fun d n => d.logRec 2 0x8A 0xFF (unitRegion r 19) n 0) (d.noteRead r)
    let d2 := if x.margin = v.margin then d1 else d1.logRec 2 0x89 0xFF (unitRegion r 19) x.margin 0
    (d2.modRegion r (fun v => { v with
      margin := x.margin, exhausted := x.exhausted, worstPs := min 0xFFFF x.worst, reads := satInc v.reads
      maxNext := if x.lowered.isEmpty then v.maxNext else some x.maxOp
      nextRead := d.time + 604800000000000, fresh := false })).allVolts f

/-! ## Entering Dusk and Night (R480-R484) -/

def Pwr.duskInterval (p : Pwr) : Nat := fld p.duskCfg 0 16
def Pwr.duskCtx (p : Pwr) : Nat := fld p.duskCfg 16 7
def Pwr.camEn (p : Pwr) : Bool := p.duskCfg.getLsbD 23
def Pwr.tdmPort (p : Pwr) : Nat := fld p.duskCfg 24 2
def Pwr.audEn (p : Pwr) : Bool := p.duskCfg.getLsbD 30
def Pwr.faultWake (p : Pwr) : Bool := p.duskCfg.getLsbD 31
def Pwr.frameTimeout (p : Pwr) : Nat := fld p.duskCfg 32 8
def Pwr.startEn (p : Pwr) : Bool := p.duskCfg.getLsbD 40
def Pwr.stopEn (p : Pwr) : Bool := p.duskCfg.getLsbD 41
/-- The start list (words 0-7) or the stop list (words 8-15). -/
def Pwr.duskWords (p : Pwr) (first : Nat) : List B8 := ((List.range 8).map (fun k => leBytes 8 (p.duskList.get (first + k) 0).toNat)).flatten

/-- A list of the watch that R485 refuses. -/
def Dev.duskListBad (d : Dev) (first : Nat) : Bool :=
  let b := d.pwr.duskWords first
  let s := d.cfg.ctxSensor d.pwr.duskCtx
  decide (128 ≤ s) || (d.cfg.listFault mgmtParty b).isSome || decide (leAt b 2 1 ≠ 0) || decide (3 < leAt b 0 1) || decide (leAt b 1 1 ≠ s)
/-- The watch configuration breaks the rules of R485. -/
def Dev.duskBad (d : Dev) : Bool :=
  let p := d.pwr
  (!p.camEn && !p.audEn) || (p.camEn && !d.cfg.ctxOn p.duskCtx) || (p.startEn && d.duskListBad 0) || (p.stopEn && d.duskListBad 8) || (p.audEn && !d.cfg.tdmOn p.tdmPort)

/-- Something that bars an entry is in progress (R480). -/
def Dev.busyResetting (d : Dev) : Bool :=
  d.tenants.any (fun e => e.2.scrub) || d.parts.any (fun e => e.2.resetting) || d.stage.active || decide (d.fw.updState ≠ 0)

/-- The first check of R480 that a request fails. -/
def Dev.entryFault (d : Dev) (target : Nat) : Option B8 :=
  if target < 2 then some 0x04
  else if d.pwr.entering ∨ 1 < d.pwr.state then some 0x01
  else if d.busyResetting then some 0x01
  else if target = 2 ∧ d.duskBad then some 0x08
  else none

/-- One request is checked at its tick. -/
def Dev.entryCheck (d : Dev) (x : Nat × Nat) : Dev :=
  match d.entryFault x.1 with
  | some st =>
    ({ d with pwr := { d.pwr with reqStatus := st } }).record
      { time := d.time, tenant := mgmtParty, status := st, unit := powerUnit, detail := 0x81, address := 0xD0008 }
  | none => { d with pwr := { d.pwr with reqStatus := 0, entering := true, entryTarget := x.1, entryAt := d.time, wakeSeen := false, alarmLatched := false, drainMs := if x.2 = 0 then 50 else x.2 } }
def Dev.entryChecks (d : Dev) : Dev := d.pwr.req.foldl (fun d x => d.entryCheck x) { d with pwr := { d.pwr with req := [] } }

/-- Everything that an entry waits for has ended (R481 step 2). -/
def Dev.drained (d : Dev) : Bool :=
  d.queues.all (fun e => e.2.running.isNone) && d.parts.all (fun e => e.2.batch.isNone) && d.pls.ch.all (fun e => e.2.running.isNone)
    && d.pls.uarts.all (fun e => e.2.running.isNone) && d.cam.ctx.all (fun e => e.2.inFlight.isEmpty)

/-- A wake in Dusk or Night: Dawn begins (R491). -/
def Dev.wake (d : Dev) (cause : Nat) : Dev :=
  if d.pwr.state ≤ 1 || d.pwr.dawn then d
  else { d with pwr := { d.pwr with dawn := true, wakeCause := cause, sleptS := min 0xFFFFFFFF ((d.time.toNat - d.pwr.sleepAt.toNat) / 1000000000), wakePin := false, wakeSeen := false, alarmLatched := false } }

/-- Region buffers that keep their data and tags (R482). -/
def Dev.keepsTag (d : Dev) (tile : Nat) : Bool := decide (8192 ≤ tile) && d.cfg.retain.testBit ((tile - 8192) / 64)

/-- Tracks other than TRK_0 and the pulse tracks become invalid (R484). -/
def Dev.tracksOff (d : Dev) : Dev :=
  let d1 := (List.range 256).foldl (fun d n => if (2 ≤ d.trkSource n ∧ d.trkSource n ≤ 5) then d.modTrk n (fun t => { t with resuming := true }) else d) d
  { d1 with
    ptp := { d1.ptp with valid := false, holdover := false }
    aud := { d1.aud with tdmValid := [] }
    cam := { d1.cam with ctx := d1.cam.ctx.map (fun e => (e.1, { e.2 with fsValid := 0, active := false, extrapolating := false, stalled := false })), pool := [] } }

/-- The length of steps 3 to 7 of an entry in AON cycles: 1.5 ms, then 4 cycles in which an alarm is lost (R481, R491). -/
def entryCycles : Nat := 50
/-- Nanoseconds of `n` AON cycles. -/
def aonNs (n : Nat) : Nat := cdiv (n * 1000000000) 32768

/-- An alarm that matures while the entry ends: latched before its last 4 cycles, lost in them. -/
def Dev.alarmAtEntry (d : Dev) : Dev :=
  let c := d.rtcCount.toNat
  let p := d.pwr
  if !p.alarmEn ∨ c + entryCycles + 4 < p.alarm.toNat then d
  else if p.alarm.toNat ≤ c + entryCycles then { d with pwr := { p with alarmEn := false, alarmLatched := true } }
  else { d with pwr := { p with alarmEn := false, alarmLostPend := true } }

/-- Steps 3 to 7: copies are written back, contents that no domain keeps are lost, domains go off, and the wake logic is armed. -/
def Dev.fallAsleep (d : Dev) : Dev :=
  let d1 := (d.mapped.filter (fun e => e.2.onchip)).foldl (fun d e => d.giveUpSlot e) d.alarmAtEntry
  let d2 := ([0, 1].foldl (fun d p => d.ethDown p) d1).tracksOff
  let d3 : Dev := { d2 with
    time := d2.time + BitVec.ofNat 64 (aonNs (entryCycles + 4))
    clusters := d2.clusters.map (fun (e : Nat × Cluster) => (e.1, { e.2 with scales := [] }))
    mem := { d2.mem with tags := d2.mem.tags.filter (fun e => d2.keepsTag e.1), selfRefresh := true }
    pls := { d2.pls with
      ch := d2.pls.ch.map (fun (e : Nat × Pulse) => (e.1, { e.2 with stepPin := false }))
      uarts := d2.pls.uarts.map (fun (e : Nat × Uart) => (e.1, { e.2 with dePin := false })) }
    regions := d2.regions.map (fun (e : Nat × RegionState) => (e.1, { e.2 with powered := false, waiting := [] })) }
  let d4 : Dev := { d3 with pwr := { d3.pwr with
    state := d3.pwr.entryTarget, entering := false, sleeps := d3.pwr.sleeps + 1, domains := 0x840000, sleepAt := d3.time, watchAt := d3.time
    watches := 0, faults := 0, duskRef := none } }
  if d4.pwr.wakePin || d4.pwr.wakeSeen then d4.wake 5 else if d4.pwr.alarmLatched then d4.wake 1 else d4

/-- ENTRY_DRAIN_TIMEOUT: what still runs at T + drain_ms makes the device give the entry up. -/
def Dev.drainTimeout (d : Dev) : Dev :=
  if d.pwr.entering && !d.drained && decide (d.pwr.entryAt.toNat + 1000000 * d.pwr.drainMs ≤ d.time.toNat) then
    { d with pwr := { d.pwr with entering := false, reqStatus := 0x11 } }
  else d

/-! ## The Dusk watch (R486-R489) -/

/-- Mean of block (i, j) of a frame, its samples in line order. -/
def blockMean (bits w h : Nat) (lines : List (List W16)) (i j : Nat) : Nat :=
  let x0 := i * w / 16
  let x1 := (i + 1) * w / 16
  let y0 := j * h / 16
  let y1 := (j + 1) * h / 16
  let v := (((lines.drop y0).take (y1 - y0)).map (fun l => (l.drop x0).take (x1 - x0))).flatten
  (v.foldl (fun s x => s + x.toNat * 2 ^ (16 - bits)) 0) / v.length
def blockMeans (bits w h : Nat) (samples : List W16) : List Nat :=
  let lines := chunksOf w samples h
  (List.range 256).map (fun k => blockMean bits w h lines (k % 16) (k / 16))
/-- Blocks whose mean differs from the reference by more than a threshold. -/
def changedBlocks (thr : Nat) (ref new : List Nat) : Nat := ((ref.zip new).filter (fun x => decide (thr < x.1 - x.2 + (x.2 - x.1)))).length

/-- floor(20 log10(rms)) of samples of `bits` bits, at least -128: l is reached where mean^10 is at least 10^l (R488). -/
def audioLevel (bits : Nat) (samples : List W32) : Int :=
  let s := samples.foldl (fun s x => s + (toSigned bits x.toNat).natAbs ^ 2) 0
  let m := samples.length * 4 ^ (bits - 1)
  match (List.range 128).find? (fun l => decide (s ≠ 0) && decide (m ^ 10 ≤ s ^ 10 * 10 ^ l)) with
  | some l => -(l : Int)
  | none => -128

def Dev.dawnFault (d : Dev) : Dev := if d.pwr.faultWake then d.wake 4 else d
/-- A watch that ends in a fault keeps the reference. -/
def Dev.watchFault (d : Dev) : Dev :=
  ({ d with pwr := { d.pwr with watches := d.pwr.watches + 1, faults := satInc d.pwr.faults } }).dawnFault

/-- The start of the next watch: its interval has elapsed. -/
def Dev.watchDue (d : Dev) : Dev :=
  let t := max d.time.toNat (d.pwr.watchAt.toNat + 1000000 * d.pwr.duskInterval)
  { d with time := BitVec.ofNat 64 t, pwr := { d.pwr with watchAt := BitVec.ofNat 64 t } }

/-- DUSK_WATCH: a frame and 2,400 audio samples as captured; other lengths are faults of the frame, its lists or the TDM port. -/
def Dev.duskWatch (d0 : Dev) (samples : List W16) (audio : List W32) : Dev :=
  if d0.pwr.state ≠ 2 || d0.pwr.dawn || d0.boot.thermtrip || !d0.boot.powered then d0
  else
    let d := d0.watchDue
    let p := d.pwr
    let w := d.cfg.ctxWidth p.duskCtx
    let h := d.cfg.ctxHeight p.duskCtx
    if (p.camEn && decide (samples.length ≠ w * h)) || (p.audEn && decide (audio.length ≠ 2400)) then d.watchFault
    else
      let means := if p.camEn then some (blockMeans (rawBits (d.cfg.ctxType p.duskCtx)) w h samples) else none
      let changed := match means, p.duskRef with
        | some m, some r => changedBlocks (fld p.duskThr 0 16) r m
        | _, _ => 0
      let level := if p.audEn then audioLevel (d.cfg.tdmBits p.tdmPort) audio else -128
      let first := decide (p.watches = 0)
      let camHit := p.camEn && p.duskRef.isSome && decide (fld p.duskThr 16 9 ≤ changed)
      let audHit := p.audEn && decide (toSigned 8 (fld p.duskThr 32 8) ≤ level)
      let d1 := { d with pwr := { p with watches := p.watches + 1, changed := changed, level := BitVec.ofInt 8 level, duskRef := means.or p.duskRef } }
      if first then d1 else if camHit then d1.wake 2 else if audHit then d1.wake 3 else d1

/-- DUSK_WATCH_TIMEOUT: FE did not arrive within frame_timeout_ms, after the 1 ms in which CAM powers up (R486, R489). -/
def Dev.duskTimeout (d : Dev) : Dev :=
  if d.pwr.state ≠ 2 || d.pwr.dawn || !d.pwr.camEn || d.boot.thermtrip || !d.boot.powered then d
  else
    let d1 := d.watchDue
    { d1 with time := d1.time + BitVec.ofNat 64 (1000000 * (1 + d.pwr.frameTimeout)) }.watchFault

/-! ## Wake (R491, R493) -/

/-- WAKE_L low. -/
def Dev.wakeLow (d : Dev) : Dev :=
  if d.pwr.entering then { d with pwr := { d.pwr with wakeSeen := true } } else d.wake 5

/-- RTC_ALARM: the RTC count reaches the alarm; in Dusk and Night nothing else has to happen before it. -/
def Dev.rtcAlarm (d : Dev) : Dev :=
  if !d.pwr.alarmEn || d.boot.thermtrip || !d.boot.powered then d
  else if d.pwr.state ≤ 1 then
    if d.rtcCount.toNat < d.pwr.alarm.toNat then d
    else { d with pwr := { d.pwr with alarmEn := false, alarmLatched := d.pwr.entering } }
  else if d.pwr.dawn then d
  else
    let t := max d.time.toNat (aonNs (d.pwr.alarm.toNat - d.pwr.rtc.toNat))
    ({ d with time := BitVec.ofNat 64 t, pwr := { d.pwr with alarmEn := false } }).wake 1

/-- Steps 1 to 9 of Dawn but for the held writes, with the drift check as LP5X leaves self-refresh; every
counter, selection and owner is at its reset value (R206, R484, R487, R492, R496, R519). -/
def Dev.dawnSteps (d : Dev) (f : Fuses) (env : TickEnv) : Dev :=
  let n := ((partsOn d.cfg).map (fun p => (d.cfg.partRegions p).length)).sum
  let us := 5500 + 1000 * n
  let d1 : Dev := { d with
    time := d.time + BitVec.ofNat 64 (1000 * us)
    mem := { d.mem with selfRefresh := false }
    pwr := { d.pwr with dawn := false, state := 0, domains := d.cfg.domains, dawnUs := min 0xFFFF us, alarmLost := d.pwr.alarmLostPend, alarmLostPend := false,
                        duty := 8, floorStart := none, duskRef := none } }
  let d2 := (({ d1 with
    pmc := { d1.pmc with cl := [], rg := [], hub := [] }
    clusters := d1.clusters.map (fun (e : Nat × Cluster) => (e.1, { e.2 with cyc := 0 })) } : Dev).driftCheck env).audioJump none
  let d3 := ((partsOn d2.cfg).flatMap (fun p => d2.cfg.partRegions p)).foldl (fun d r => d.modRegion r (fun v => { v with powered := true, nextRead := d.time, fresh := true })) d2
  let d4 := (partsOn d3.cfg).foldl (fun d p => d.startPart f p) d3
  let d5 : Dev := d4.pwr.linkResetPend.foldl (fun d p => d.linkEffects p) { d4 with pwr := { d4.pwr with linkResetPend := [] } }
  let d6 : Dev := ((d5.allVolts f).joinAll).waitAnew (fun _ => true)
  d6.fireJumped ((List.range 256).filter (fun k => decide (d6.trkSource k = 1) || decide (d6.trkSource k = 6)))

/-! ## Idling (R29, R484) -/

/-- The device with no command waiting: data-plane time moves by 1 ns, in Dusk and Night to the next AON cycle; a device without power
or held by THERMTRIP_L keeps no time. -/
def Dev.idle (d : Dev) : Dev :=
  if !d.boot.powered || d.boot.thermtrip then d
  else if d.pwr.state ≤ 1 then d.advance 1
  else d.advance (aonNs (d.time.toNat * 32768 / 1000000000 + 1) - d.time.toNat)

/-! ## The rows -/

def execOpChangeComplete (die : Nat) (s : State) : Host.Outcome State Fault Refusal := .next { s with dev := s.dev.opChange s.nv.fuses die }
/-- AVS_SETPOINT_TIMEOUT acts as RESET_L where a setpoint of the die is awaited (R553). -/
def execAvsSetpointTimeout (die : Nat) (s : State) : Host.Outcome State Fault Refusal := .next (if (s.dev.die die).avsWait then s.resetL true else s)
def execAgeingRead (region : Nat) (slacks : List Nat) (s : State) : Host.Outcome State Fault Refusal := .next { s with dev := s.dev.ageingRead s.nv.fuses region slacks }
def execEntryDrainTimeout (s : State) : Host.Outcome State Fault Refusal := .next { s with dev := s.dev.drainTimeout }
def execDuskWatch (samples : List W16) (audio : List W32) (s : State) : Host.Outcome State Fault Refusal := .next { s with dev := s.dev.duskWatch samples audio }
def execDuskWatchTimeout (s : State) : Host.Outcome State Fault Refusal := .next { s with dev := s.dev.duskTimeout }
def execWakeL (s : State) : Host.Outcome State Fault Refusal := .next { s with dev := s.dev.wakeLow }
def execRtcAlarm (s : State) : Host.Outcome State Fault Refusal := .next { s with dev := s.dev.rtcAlarm }

end Sys2Proof.Machine
end

