-- ==== Sys2Proof/Machine/Readout.lean ====
section
/-! DEFINITION. What every register reads as: the layouts of the tenant window and of the management window (18_register_index.md). -/
namespace Sys2Proof.Machine
open Sys2Proof

/-- Number of the array element at offset `off`, in an array of `count` elements that starts at `base`. -/
def arrayAt (off base stride count : Nat) : Option Nat :=
  if base ≤ off ∧ (off - base) % stride = 0 ∧ (off - base) / stride < count then some ((off - base) / stride) else none
/-- The register of array element `off`, or 0. -/
def arrayReg (off base stride count : Nat) (f : Nat → W64) : W64 := match arrayAt off base stride count with | some n => f n | none => 0

/-! ## Rings (R122, R129, R518) -/

def Ring.ctlReg (r : Ring) (errors : Bool) : W64 := regOf [(0, 1, one r.enable), (1, 1, one r.mirrorEn), (8, 5, r.log2), (48, 16, if errors then r.dropped.toNat else 0)]
def Ring.tailReg (r : Ring) (phase : Bool) : W64 := regOf [(0, 16, r.tail), (16, 1, if phase then one r.phase else 0)]
def Ring.pmcCtl (r : Ring) : W64 := regOf [(0, 1, one r.enable), (8, 5, r.log2), (16, 4, r.log2Slot), (48, 16, r.dropped.toNat)]
/-- A ring's registers from its base offset: BASE, MIRROR, CTL, HEAD, TAIL. -/
def Ring.regAt (r : Ring) (errors phase : Bool) (k : Nat) : W64 :=
  match k with
  | 0 => r.base
  | 8 => r.mirror
  | 16 => r.ctlReg errors
  | 24 => regOf [(0, 16, r.head)]
  | 32 => r.tailReg phase
  | _ => 0
/-- A snapshot ring's registers: BASE, CTL, HEAD, TAIL (R518). -/
def Ring.pmcAt (r : Ring) (k : Nat) : W64 :=
  match k with
  | 0 => r.base
  | 8 => r.pmcCtl
  | 16 => regOf [(0, 16, r.head)]
  | 24 => r.tailReg false
  | _ => 0

/-! ## TB (R67-R90) -/

def Dev.trkStatus (d : Dev) (n : Nat) : W64 :=
  let s := d.trkSource n
  let i := d.trkIndex n
  let c := d.camCtx i
  let t := d.trk n
  if s = 0 then 0 else
  regOf [(0, 1, one (d.trkValid n)), (1, 1, if s = 2 ∨ s = 4 then one d.ptp.holdover else 0),
    (2, 1, if s = 3 then one (d.camExtrapolating i) else 0), (3, 1, if s = 3 then one (d.camStalled i) else 0), (4, 1, one t.presetRefused),
    (16, 16, t.jumpCnt.toNat), (32, 16, t.presetCnt.toNat), (48, 16, if s = 3 then c.linePeriod.toNat else 0)]
def Trigger.ctlReg (g : Trigger) : W64 := regOf [(0, 8, g.track), (8, 2, g.mode), (10, 1, one g.lateOk), (32, 32, g.interval.toNat)]
def Trigger.statusReg (g : Trigger) : W64 :=
  regOf [(0, 1, one g.armed), (1, 1, one g.fired), (2, 1, one g.missed), (3, 1, one g.actionFailed), (4, 1, one g.late), (5, 1, one g.jumped),
    (8, 8, g.lastStatus.toNat), (16, 16, g.firedCnt.toNat), (32, 16, g.missedCnt.toNat), (48, 16, g.failCnt.toNat)]
/-- CTL, ACTION, STATUS or TIME of a trigger. -/
def Trigger.regAt (g : Trigger) (k : Nat) : W64 :=
  match k with
  | 0 => g.ctlReg
  | 8 => g.action
  | 16 => g.statusReg
  | 24 => g.time
  | _ => 0

def Dev.readTb (d : Dev) (o : Nat) : W64 :=
  if o = 0 then d.time
  else if o = 8 then BitVec.ofNat 64 d.tick
  else if o = 0x10 then regOf [(0, 1, one d.ptp.valid), (1, 1, one d.ptp.holdover), (32, 32, d.ptp.offsetErr.toNat)]
  else if o = 0x18 then regOf [(0, 32, d.ptp.stepNs.toNat), (32, 10, d.ptp.slewPpm)]
  else if o < 0x1000 then arrayReg o 0x800 8 256 (fun n => regOf [(0, 4, d.trkSource n), (16, 10, d.trkIndex n)])
  else if o < 0x1800 then arrayReg o 0x1000 8 256 d.trkPos
  else if o < 0x4000 then arrayReg o 0x1800 8 256 d.trkStatus
  else if o < 0xC000 then arrayReg (o / 32 * 32) 0x4000 32 1024 (fun n => (d.trg n).regAt (o % 32))
  else arrayReg o 0xC000 8 1024 (fun n => (d.trg n).target)

/-! ## RG, HALO, MEM, MDL, KV, TOK -/

def Dev.readRg (d : Dev) (o : Nat) : W64 :=
  if o = 0 then regOf [(0, 5, d.gustRate)]
  else arrayReg o 0x100 8 16 (fun n => regOf [(0, 32, (d.region n).rampCnt.toNat), (32, 16, (d.region n).lastLen.toNat)])

def Dev.readHalo (d : Dev) (o : Nat) : W64 :=
  let v := d.stop (o / 32)
  if 256 ≤ o then 0
  else match o % 32 with
    | 0 => v.bytesIn
    | 8 => v.bytesOut
    | 16 => regOf [(0, 1, one v.decErr), (16, 16, v.decErrCnt.toNat)]
    | _ => 0

/-- MEM_NVME_STATUS.used_pct, rounded down. -/
def Dev.nvmePct (d : Dev) : Nat :=
  let cap := ([0, 1].map (fun p => d.mem.nvmeCap.get p 0)).sum
  if cap = 0 then 0 else min 100 (100 * ([0, 1].map d.nvmeUsed).sum / cap)

def Dev.readMemBlock (d : Dev) (o : Nat) : W64 :=
  let m := d.mem
  if o = 0 then regOf [(0, 16, m.cfgCap), (16, 16, m.cfgRate), (32, 2, m.cfgProt), (34, 2, m.cfgRanks), (36, 2, m.cfgDensity), (38, 1, one m.cfgCached)]
  else if o = 8 then regOf [(0, 1, one m.trained), (1, 1, one m.selfRefresh), (2, 1, one m.tempHigh), (16, 16, m.tempCnt.toNat)]
  else if o = 0x10 then regOf [(0, 24, m.usableMib), (24, 24, m.systemMib)]
  else if o = 0x18 then regOf [(0, 2, m.sramFlags.toNat), (16, 16, m.sramCe.toNat), (32, 16, m.sramUe.toNat)]
  else if o = 0x20 then regOf [(0, 3, m.dramFlags.toNat), (16, 16, m.dramCe.toNat), (32, 16, m.dramUe.toNat), (48, 16, m.macCnt.toNat)]
  else if o = 0x28 then
    regOf [(0, 2, m.nvmePresent.toNat), (2, 2, m.nvmeErr.toNat), (16, 16, (m.nvmeErrCnt.get 0 0).toNat), (32, 16, (m.nvmeErrCnt.get 1 0).toNat), (48, 7, d.nvmePct)]
  else if o < 0x400 then
    arrayReg o 0x100 8 32 (fun n => regOf [(0, 1, one m.trained), (1, 3, m.chRefresh.get n 0), (16, 16, (m.chRetrain.get n 0).toNat), (32, 16, (m.chLinkCe.get n 0).toNat)])
  else arrayReg o 0x400 8 64 (fun n => regOf [(0, 24, d.lp5xTiles n), (24, 24, d.nvmePlaces n), (48, 10, (d.spans n).length)])

def pinsOf (g : Option GenState) : Nat := match g with | some x => min 0xFFFF x.pins | none => 0
def numOf (g : Option GenState) : Nat := match g with | some x => x.number | none => 0

def Dev.readMdl (d : Dev) (o : Nat) : W64 :=
  if o = 0 then regOf [(0, 20, d.mdl.sweepS), (24, 7, d.mdl.cacheMaxPct)]
  else if o = 8 then regOf [(0, 1, one d.mdl.sweepFail), (1, 1, one d.mdl.sweep.isSome), (16, 16, d.mdl.sweepFailCnt.toNat), (32, 7, (d.mdl.sweep.map (fun w => w.slot)).getD 0)]
  else if 16 ∣ o then
    arrayReg o 0x100 16 128 (fun n =>
      let v := d.slot n
      regOf [(0, 3, v.code), (8, 7, v.owner), (16, 16, pinsOf v.current), (32, 16, pinsOf v.draining)])
  else
    arrayReg o 0x108 16 128 (fun n =>
      let v := d.slot n
      regOf [(0, 32, numOf v.current), (32, 32, numOf (v.staged.or v.draining))])

def Dev.readKv (d : Dev) (o : Nat) : W64 :=
  let k := d.kv
  if o = 0 then regOf [(0, 8, k.rebuildTicks), (8, 4, k.compactEighths)]
  else if o = 8 then regOf [(0, 1, one k.insertDrop), (1, 1, one (d.parts.any (fun e => e.2.rebuildDue.isSome))), (2, 1, one (d.parts.any (fun e => e.2.compactDue.isSome))), (16, 16, k.dropCnt.toNat)]
  else if 0x400 ≤ o then arrayReg o 0x400 8 64 (fun n => regOf [(0, 28, d.kvHeld n), (28, 20, d.kvNodesOf n)])
  else if 16 ∣ o then arrayReg o 0x100 16 16 (fun n => regOf [(0, 24, if d.cfg.partOn n then d.kvFreeChunks n else 0), (24, 24, if d.cfg.partOn n then d.kvChunks n else 0)])
  else arrayReg o 0x108 16 16 (fun n => regOf [(0, 24, (d.treeNodes n).length), (24, 16, d.indexEntries n), (40, 24, (d.part n).slowCnt.toNat)])

/-- Sequences of a partition in one of some states (R341). -/
def Dev.seqsIn (d : Dev) (p : Nat) (states : List Nat) : Nat :=
  (d.tok.seqs.filter (fun e => match e.2 with | some q => decide (q.partition = p) && states.contains q.state | none => false)).length

def Dev.readTok (d : Dev) (o : Nat) : W64 :=
  let t := d.tok
  let p := (o - 0x100) / 32
  let v := d.part p
  if o = 0 then regOf [(0, 8, t.pageWaitS), (8, 4, t.prefillPerDecode)]
  else if o = 8 then regOf [(0, 3, t.flags.toNat), (16, 16, t.countSatCnt.toNat), (32, 16, t.preemptCnt.toNat), (48, 16, t.pageWaitCnt.toNat)]
  else if o < 0x100 ∨ 16 ≤ p then 0
  else match o % 32 with
    | 0 => regOf [(0, 13, d.seqsIn p [0, 1, 2, 3, 4, 5, 6, 7]), (13, 13, d.seqsIn p [4, 5]), (26, 13, d.seqsIn p [2]), (39, 13, d.seqsIn p [3])]
    | 8 => regOf [(0, 32, v.drafted.toNat), (32, 32, v.accepted.toNat)]
    | 16 => regOf [(0, 32, v.batches.toNat), (32, 16, v.lastRows)]
    | _ => 0

/-! ## CAM, AUD, PLS -/

def CamCtx.statusReg (v : CamCtx) : W64 :=
  regOf [(0, 1, one v.drop), (1, 1, one v.uncertain), (2, 1, one v.active), (16, 16, v.dropCnt.toNat), (32, 16, v.uncCnt.toNat), (48, 4, v.lastReason)]

def Dev.readCam (d : Dev) (o : Nat) : W64 :=
  let c := d.cam
  if o = 0 then regOf [(0, 1, one c.overflow), (16, 16, c.overflowCnt.toNat), (32, 13, cdiv c.peak 1024)]
  else if o < 0x200 then
    arrayReg o 0x100 8 8 (fun n => regOf [(0, 1, one (c.locked.get n false)), (1, 2, (c.portFlags.get n 0).toNat), (16, 16, (c.crcCnt.get n 0).toNat),
      (32, 16, (c.eccCnt.get n 0).toNat), (48, 16, (c.unmatched.get n 0).toNat)])
  else if o < 0x1000 then
    arrayReg o 0x200 8 8 (fun n => regOf [(0, 1, one (d.i3c n).nack), (8, 5, (d.i3c n).slots.length), (16, 16, (d.i3c n).nackCnt.toNat)])
  else if 16 ∣ o then arrayReg o 0x1000 16 128 (fun n => (d.camCtx n).statusReg)
  else arrayReg o 0x1008 16 128 (fun n => regOf [(0, 32, (d.camCtx n).frames.toNat), (32, 32, (d.camCtx n).gen.toNat)])

/-- Channels of the enabled AES67 streams. -/
def Cfg.audChannels (c : Cfg) : Nat := (((List.range 1024).filter c.streamOn).map c.streamChannels).sum
/-- Packets of a stream arrived within the last 10 ms. -/
def Dev.receiving (d : Dev) (n : Nat) : Bool :=
  let t := (d.aud.lastPkt.get n 0).toNat
  decide (t ≠ 0) && decide (d.time.toNat ≤ t - 1 + 10000000)

def Dev.readAud (d : Dev) (o : Nat) : W64 :=
  let a := d.aud
  if o = 0 then regOf [(0, 1, one a.gap), (1, 1, one (decide (d.boot.stage = 6) && !a.ptpEver)), (16, 16, a.gapCnt.toNat), (32, 16, d.cfg.audChannels)]
  else if o < 0x200 then arrayReg o 0x100 8 4 (fun n => regOf [(0, 1, one (a.tdmLocked.get n false)), (1, 1, one (a.fsErr.get n false)), (16, 16, (a.fsErrCnt.get n 0).toNat)])
  else if o < 0x1000 then
    arrayReg o 0x200 8 64 (fun n => regOf [(0, 1, one (d.array n).running), (1, 1, one (d.array n).drop), (16, 16, (d.array n).dropCnt.toNat), (32, 32, (d.array n).frames.toNat)])
  else
    arrayReg o 0x1000 8 1024 (fun n => regOf [(0, 1, one (d.receiving n)), (1, 1, one (a.late.get n false)), (16, 16, (a.lateCnt.get n 0).toNat), (32, 32, (a.lost.get n 0).toNat)])

/-- GPIO pins whose function is 0 (R410). -/
def Cfg.gpioMask (c : Cfg) : BitVec 48 := (List.range 48).foldl (fun m n => if c.gpioFunction n = 0 then m ||| (1#48 <<< n) else m) 0

def Dev.readPls (d : Dev) (o : Nat) : W64 :=
  let p := d.pls
  if o < 0x100 then
    arrayReg o 0 8 32 (fun n => regOf [(0, 1, one (d.pulse n).running.isSome), (1, 1, one (d.pulse n).limit), (2, 3, (d.pulse n).held.length),
      (16, 16, (d.pulse n).limitCnt.toNat), (32, 32, (d.pulse n).runs.toNat)])
  else if o < 0x200 then
    arrayReg o 0x100 8 4 (fun n => regOf [(0, 1, one (d.uart n).running.isSome), (1, 1, one (d.uart n).rxDrop), (2, 1, one (d.uart n).rxErr),
      (16, 16, (d.uart n).rxDropCnt.toNat), (32, 16, (d.uart n).rxErrCnt.toNat)])
  else if o = 0x200 then BitVec.ofNat 64 (p.gpioIn &&& d.cfg.gpioMask).toNat
  else if o = 0x208 then BitVec.ofNat 64 (p.gpioOut &&& d.cfg.gpioMask).toNat
  else if o = 0x210 then BitVec.ofNat 64 (p.gpioDir &&& d.cfg.gpioMask).toNat
  else 0

/-! ## SEC, FW, PWR -/

def Tenant.sessionReg (v : Tenant) : W64 := match v.session with | some s => regOf [(0, 1, 1), (32, 32, s.sid.toNat)] | none => 0
def Sec.statusReg (s : Sec) : W64 :=
  regOf [(0, 1, one s.debugOpen), (1, 1, one s.debugPending.isSome), (2, 1, one s.chainBad), (3, 1, one s.rngFail), (4, 1, one s.treeFail),
    (16, 16, s.treeFailCnt.toNat), (32, 16, s.reports.toNat)]
def Fuses.statusReg (f : Fuses) : W64 :=
  regOf [(0, 4, f.revoked.toNat), (4, 4, ((List.range 4).map (fun k => if (f.signer.get k none).isSome then 2 ^ k else 0)).sum), (8, 7, f.bciMin), (16, 7, f.fwMin), (23, 1, one f.debugClosed)]

def Dev.readSec (d : Dev) (f : Fuses) (o : Nat) : W64 :=
  let s := d.sec
  if o = 0 then s.statusReg
  else if o = 8 then f.statusReg
  else if o < 0x30 then arrayReg o 0x10 8 4 (fun n => BitVec.ofNat 64 (fld s.nonce (64 * n) 64))
  else if o = 0x30 then s.dbgAddr
  else if o = 0x40 then s.mrExtAddr
  else if 0x100 ≤ o ∧ o < 0x500 then (if o % 64 < 48 then BitVec.ofNat 64 (fld (s.mr.get ((o - 0x100) / 64) 0) (8 * (o % 64)) 64) else 0)
  else arrayReg o 0x500 8 64 (fun n =>
    let v := d.ten n
    regOf [(0, 1, one (d.cfg.confidential n)), (1, 1, one v.session.isSome), (2, 1, one v.scrub), (32, 32, fld v.sessionReg 32 32)])

def Dev.coresReg (d : Dev) : Nat := ((List.range 8).map (fun k => if (d.core k).restarting then 2 ^ k else 0)).sum

def Dev.readFw (d : Dev) (o : Nat) : W64 :=
  let w := d.fw
  if o = 0 then regOf [(0, 32, w.generation.toNat), (32, 1, w.bank), (33, 1, w.slot), (40, 8, d.coresReg), (48, 3, w.updState)]
  else if o = 0x10 then w.updAddr
  else if o = 0x20 then regOf [(0, 8, w.status.toNat), (8, 8, w.detail.toNat), (16, 16, w.holdUs), (32, 32, w.stagedGen.toNat)]
  else if 16 ∣ o then arrayReg o 0x1000 16 256 (fun n => let t := w.trace.get n {}; regOf [(0, 1, one t.enable), (1, 1, one t.log), (16, 32, t.hits.toNat)])
  else arrayReg o 0x1008 16 256 (fun n => (w.trace.get n {}).last)

def Pwr.stateReg (p : Pwr) : W64 := regOf [(0, 2, p.state), (2, 1, one p.entering), (3, 1, one p.dawn), (8, 8, p.reqStatus.toNat), (16, 32, p.sleeps.toNat)]
def Pwr.powerReg (p : Pwr) : W64 := regOf [(0, 20, p.powerMw), (20, 20, p.maxMw)]
def Pwr.wakeReg (p : Pwr) : W64 := regOf [(0, 3, p.wakeCause), (3, 1, one p.alarmLost), (16, 16, p.dawnUs), (32, 32, p.sleptS)]
def Pwr.tempReg (p : Pwr) (n : Nat) : W64 := regOf [(0, 16, ofSigned 16 (p.temp.get n 0)), (16, 16, ofSigned 16 (p.tempMax.get n 0))]
def Pwr.statusReg (p : Pwr) : W64 := regOf [(0, 3, p.flags.toNat), (16, 16, p.floorCnt.toNat), (32, 16, p.unattCnt.toNat), (48, 16, p.guardCnt.toNat)]
def RegionState.powerReg (v : RegionState) (fusedMax : Nat) : W64 :=
  regOf [(0, 4, v.op), (4, 4, min v.maxOp fusedMax), (8, 4, fusedMax), (16, 8, v.margin), (24, 1, one v.exhausted), (32, 16, v.worstPs), (48, 16, v.reads.toNat)]
def PartState.powerReg (v : PartState) : W64 :=
  regOf [(0, 4, v.op), (4, 4, v.ceiling), (8, 4, v.duty), (12, 1, one (v.loopSusp || v.thermSusp)), (13, 1, one v.fixed), (14, 1, one v.throttled), (16, 4, v.loopOp)]

def Dev.readPwr (d : Dev) (f : Fuses) (o : Nat) : W64 :=
  let p := d.pwr
  if o < 0x80 then
    match o with
    | 0x00 => p.stateReg
    | 0x10 => BitVec.ofNat 64 p.domains.toNat
    | 0x18 => regOf [(0, 9, p.capW), (16, 8, p.raiseW)]
    | 0x20 => p.powerReg
    | 0x28 => p.statusReg
    | 0x30 => regOf [(0, 1, one p.throttle), (1, 1, one p.overTemp), (16, 16, p.throttleCnt.toNat), (32, 16, p.overCnt.toNat)]
    | 0x38 => d.rtcCount
    | 0x40 => regOf [(0, 48, p.alarm.toNat), (63, 1, one p.alarmEn)]
    | 0x48 => p.wakeReg
    | 0x50 => p.duskCfg
    | 0x58 => p.duskThr
    | 0x60 => regOf [(0, 32, p.watches.toNat), (32, 9, p.changed), (48, 8, p.level.toNat), (56, 8, p.faults.toNat)]
    | _ => 0
  else if o < 0x100 then arrayReg o 0x80 8 16 (fun n => p.duskList.get n 0)
  else if o < 0x180 then arrayReg o 0x100 8 5 p.tempReg
  else if o < 0x200 then arrayReg o 0x180 8 4 (fun n => regOf [(0, 8, (d.die n).vcode.toNat), (8, 4, (d.die n).op)])
  else if o < 0x400 then arrayReg o 0x200 8 36 (fun j => regOf [(0, 8, (f.vcode.get j 0).toNat), (8, 1, one (!f.unsupported.contains j))])
  else if o < 0x500 then arrayReg o 0x400 8 16 (fun n => (d.region n).powerReg (f.maxOp n))
  else arrayReg o 0x500 8 16 (fun n => (d.part n).powerReg)

/-! ## PCIE, ETH, PMC -/

def Dev.readPcie (d : Dev) (o : Nat) : W64 :=
  arrayReg o 0 8 6 (fun n => let v := d.port n
    regOf [(0, 1, one v.up), (1, 3, v.speed), (4, 3, v.width), (7, 1, one v.dmaErr), (16, 16, v.dmaErrCnt.toNat), (32, 16, v.aerCnt.toNat)])

def Dev.readEth (d : Dev) (o : Nat) : W64 :=
  if 0x400 ≤ o then arrayReg o 0x400 8 64 (fun n => regOf [(0, 1, one (d.rtpSt n).drop), (16, 16, (d.rtpSt n).dropCnt.toNat), (32, 32, (d.rtpSt n).packets.toNat)])
  else if 64 ∣ o then
    arrayReg o 0 64 2 (fun n => let v := d.ethPort n
      regOf [(0, 1, one v.up), (1, 2, v.rate), (3, 1, one (decide (d.ptp.slavePort = some n))), (4, 1, one v.rxDrop), (16, 16, v.rxDropCnt.toNat), (32, 16, v.fecUncorr.toNat)])
  else arrayReg o 8 64 2 (fun n => (d.ethPort n).fecCe)

def CtrSel.selReg (c : CtrSel) : W64 := regOf [(0, 8, c.event), (8, 7, c.filter), (16, 7, c.owner)]

/-- Which counter's event select or count lies at an offset of the PMC block: set, number, whether the count. -/
def pmcAt (o : Nat) : Option (Nat × Nat × Bool) :=
  let find (s base unit half : Nat) : Option (Nat × Nat × Bool) :=
    let u := (o - base) / unit
    let k := (o - base) % unit
    let n (j : Nat) : Nat := setWidth s * u + j
    let first := if s = 0 then 0x40 else 0
    if k % 8 ≠ 0 ∨ k < first then none
    else if k < first + 8 * setWidth s then (if counterExists s (n ((k - first) / 8)) then some (s, n ((k - first) / 8), false) else none)
    else if half ≤ k ∧ k < half + 8 * setWidth s then (if counterExists s (n ((k - half) / 8)) then some (s, n ((k - half) / 8), true) else none)
    else none
  if o < 0x10000 then none
  else if o < 0x20000 then find 0 0x10000 256 0x80
  else if o < 0x30000 then find 1 0x20000 128 0x40
  else find 2 0x30000 128 0x40

def Dev.readPmc (d : Dev) (o : Nat) : W64 :=
  if o = 0 then regOf [(0, 5, d.pmc.period)]
  else if o = 8 then d.pmc.snapSel
  else if 0x20 ≤ o ∧ o ≤ 0x38 then d.pmc.ring.pmcAt (o - 0x20)
  else if 0x10000 ≤ o ∧ o < 0x20000 ∧ 256 ∣ o then (d.cluster ((o - 0x10000) / 256)).cyc
  else match pmcAt o with
    | some (s, n, false) => (d.counter s n).selReg
    | some (s, n, true) => BitVec.ofNat 64 (d.counter s n).count.toNat
    | none => 0

/-! ## MG (R545, R58-R62) -/

def Boot.statusReg (b : Boot) : W64 :=
  regOf [(0, 4, b.stage), (4, 4, b.bciSlot), (8, 8, b.reason), (16, 16, b.detail), (32, 16, b.bootTimeMs), (48, 1, one b.fallback), (49, 1, one b.cacheRejected)]
def Boot.bciReg (b : Boot) : W64 := regOf [(0, 32, b.sequence), (32, 16, b.secVersion), (48, 15, b.imageLen / 16), (63, 1, b.stageSlot)]

/-- MG_RESET_STATUS: partitions, control cores, and the lowest 32 tenants (R61). -/
def Dev.resetReg (d : Dev) : W64 :=
  regOf [(0, 16, ((List.range 16).map (fun p => if (d.part p).resetting then 2 ^ p else 0)).sum), (16, 8, d.coresReg),
    (32, 32, ((List.range 32).map (fun t => if (d.ten t).scrub then 2 ^ t else 0)).sum)]

def Progress.reg (p : Progress) : W64 := BitVec.ofNat 64 p.bits

/-- TW_ATT_STATUS, MG_ATT_STATUS. -/
def Dev.attReg (d : Dev) (party : Nat) : W64 :=
  let x : B8 × W32 := if party < 64 then ((d.ten party).attStatus, (d.ten party).reportSeq) else (d.mgmt.attStatus, d.mgmt.reportSeq)
  regOf [(0, 1, one (d.attBusy party)), (8, 8, x.1.toNat), (32, 32, x.2.toNat)]

/-- The emulated registers of the management window (R107, R451, R545). -/
def mgEmulated : List Nat := [0x38, 0x40, 0x48, 0x50, 0x80, 0x90, 0x98, 0xA0, 0x200, 0x208, 0x210, 0x218, 0x220, 0x300, 0x308, 0x310, 0x318, 0x320,
  0x400, 0x408, 0x410, 0x2010, 0x2018, 0x2020, 0x2028]
/-- The emulated registers of a tenant window (R96, R547). -/
def twEmulated : List Nat := [0x40, 0x48, 0x50, 0x80, 0x88, 0x90, 0x98, 0xA0, 0x200, 0x208, 0x210, 0x218, 0x220, 0x400, 0x408, 0x410, 0x418, 0x420, 0x428]
def emulated (party off : Nat) : Bool := (if party < 64 then twEmulated else mgEmulated).contains off

/-- An emulated register of the management window as the firmware keeps it. -/
def Dev.mgLive (d : Dev) (o : Nat) : W64 :=
  let m := d.mgmt
  if o = 0x38 then regOf [(0, 8, m.replyStatus.toNat), (16, 16, m.replyOffset.toNat), (32, 32, m.replyCount.toNat)]
  else if 0x80 ≤ o ∧ o ≤ 0xA0 then (if o = 0x88 then 0 else m.compl.regAt false true (o - 0x80))
  else if 0x200 ≤ o ∧ o ≤ 0x220 then (if o = 0x200 then 0 else m.gerr.regAt true false (o - 0x200))
  else if 0x300 ≤ o ∧ o ≤ 0x320 then (if o = 0x300 then 0 else m.log.regAt true false (o - 0x300))
  else if o = 0x400 then m.attAddr
  else if o = 0x410 then d.attReg mgmtParty
  else if o = 0x2018 then d.resetReg
  else if o = 0x2020 then d.stage.addr
  else 0

/-- A 64-bit read of two MG_EPOCH registers, or of one where no other follows. -/
def Dev.epochs64 (d : Dev) (o : Nat) : W64 :=
  let e := d.epochs
  let at_ (a : Nat) : W32 :=
    if a = 0x2100 then e.pon else if a = 0x2104 then e.rst
    else if 0x2110 ≤ a ∧ a < 0x2120 then e.link.get ((a - 0x2110) / 4) 0
    else if 0x2140 ≤ a ∧ a < 0x2180 then e.part.get ((a - 0x2140) / 4) 0
    else if 0x2200 ≤ a ∧ a < 0x2300 then e.ten.get ((a - 0x2200) / 4) 0
    else if 0x2300 ≤ a ∧ a < 0x2320 then e.cc.get ((a - 0x2300) / 4) 0
    else 0
  regOf [(0, 32, (at_ o).toNat), (32, 32, (at_ (o + 4)).toNat)]

/-- What an emulated register reads as: while its core is away, its read shadow (R452, R459). -/
def Dev.shadowed (d : Dev) (party off : Nat) (shadow : Tbl W64) (live : W64) : W64 := if d.coreOut (coreOf party) then shadow.get off live else live

/-- MG_IDENT (R544). -/
def Dev.identReg (d : Dev) : W64 := regOf [(0, 16, partNumber), (16, 4, stepping), (20, 8, 1), (28, 2, d.cfg.port)]

/-- The MG block. -/
def Dev.readMgBlock (d : Dev) (o : Nat) : W64 :=
  if emulated mgmtParty o then d.shadowed mgmtParty o d.mgmt.shadow (d.mgLive o)
  else if o = 0 then d.identReg
  else if 0x100 ≤ o ∧ o < 0x140 then (d.mgmt.progress.get ((o - 0x100) / 8) {}).reg
  else if o = 0x2000 then d.boot.statusReg
  else if o = 0x2008 then d.boot.bciReg
  else if 0x2100 ≤ o ∧ o < 0x2320 then d.epochs64 o
  else 0

/-! ## The whole management window (R541) -/

/-- Registers that answer in the safe configuration (R57) and in recovery (R43). -/
def safeReg (o : Nat) : Bool :=
  [0x0, 0x2000, 0x2008, 0x2010, 0x2020, 0x2028].contains o || (decide (0x300 ≤ o) && decide (o ≤ 0x320)) || (decide (0x2100 ≤ o) && decide (o < 0x2320))
def recoveryReg (o : Nat) : Bool := [0x0, 0x2000, 0x2020, 0x2028].contains o
/-- Whether a register of the management window answers. -/
def Dev.mgAnswers (d : Dev) (o : Nat) : Bool := if d.cfg.recovery then recoveryReg o else if d.cfg.safe then safeReg o else true

/-- A 64-bit aligned read of the management window at offset `o`, of the running device. -/
def Dev.readMg (d : Dev) (f : Fuses) (o : Nat) : W64 :=
  if !d.mgAnswers o then 0
  else
    let b := o / 0x10000
    let k := o % 0x10000
    if b = 0 then d.readMgBlock k
    else if b = 1 then d.readTb k
    else if b = 2 then d.readRg k
    else if b = 3 then d.readHalo k
    else if b = 4 then d.readMemBlock k
    else if b = 5 then d.readMdl k
    else if b = 6 then d.readKv k
    else if b = 7 then d.readTok k
    else if b = 8 then d.readCam k
    else if b = 9 then d.readAud k
    else if b = 10 then d.readPls k
    else if b = 11 then d.readSec f k
    else if b = 12 then d.readFw k
    else if b = 13 then d.readPwr f k
    else if b = 14 then d.readPcie k
    else if b = 15 then d.readEth k
    else if b < 24 then d.readPmc (o - 0x100000)
    else 0

/-! ## The tenant window (R96-R101, R421, R514, R547) -/

/-- TW_IDENT (R97). -/
def Dev.twIdent (d : Dev) (t : Nat) : W64 :=
  let c := d.cfg
  regOf [(0, 6, t), (8, 4, c.tenPart t), (12, 2, c.tenPort t), (16, 6, c.tenVf t), (24, 4, c.tenQueues t 0), (28, 4, c.tenQueues t 1), (32, 4, c.tenQueues t 2),
    (36, 4, c.tenQueues t 3), (40, 8, 1)]
/-- Queues of a tenant that hold a list, as bits 8 × engine + queue. -/
def Dev.queueActive (d : Dev) (t : Nat) : Nat :=
  ((List.range 32).map (fun k => if (d.que (32 * t + k)).lists.isEmpty then 0 else 2 ^ k)).sum
/-- TW_STATUS (R98). -/
def Dev.twStatus (d : Dev) (t : Nat) : W64 :=
  let v := d.ten t
  regOf [(0, 1, one v.serving), (1, 1, one v.fwRestart), (2, 1, one v.scrub), (3, 1, one v.updateHold), (4, 1, one v.partReset), (5, 1, one (d.stalled t)),
    (6, 1, one (!v.compl.enable)), (16, 32, d.queueActive t)]
/-- TW_EVENT_CNT (R100). -/
def Tenant.cntReg (v : Tenant) : W64 := regOf ((List.range 4).map (fun k => (16 * k, 16, (v.eventCnt.get k 0).toNat)))

/-- An emulated register of a tenant window as the firmware keeps it. -/
def Dev.twLive (d : Dev) (t o : Nat) : W64 :=
  let v := d.ten t
  if 0x80 ≤ o ∧ o ≤ 0xA0 then v.compl.regAt false true (o - 0x80)
  else if 0x200 ≤ o ∧ o ≤ 0x220 then v.err.regAt true false (o - 0x200)
  else match o with
    | 0x400 => v.attAddr
    | 0x410 => d.attReg t
    | 0x418 => v.sessionReg
    | 0x420 => (match v.session with | some s => s.h2d | none => 0)
    | 0x428 => (match v.session with | some s => s.d2h | none => 0)
    | _ => 0

/-- The counter view (R514). -/
def Dev.readView (d : Dev) (t o : Nat) : W64 :=
  let v := d.ten t
  if 0x1100 ≤ o then
    (if !d.cfg.tenSnapshot t then 0
    else if o = 0x1100 then regOf [(0, 5, v.snapPeriod)]
    else if o = 0x1108 then v.snapSel
    else v.snapRing.pmcAt (o - 0x1110))
  else if !d.cfg.tenCounterRead t then 0
  else
    let k := (o % 0x40) / 8
    let c := d.counter v.pmcKind (setWidth v.pmcKind * v.pmcUnit + k)
    let mine := decide (k < setWidth v.pmcKind) && decide (c.owner = t)
    if o = 0x1000 then regOf [(0, 8, v.pmcUnit), (8, 1, v.pmcKind)]
    else if o = 0x1008 then (if v.pmcKind = 0 then (d.cluster v.pmcUnit).cyc else 0)
    else if 0x1040 ≤ o ∧ o < 0x1080 then (if mine then regOf [(0, 8, c.event)] else 0)
    else if 0x1080 ≤ o ∧ o < 0x10C0 then (if mine then BitVec.ofNat 64 c.count.toNat else 0)
    else 0

/-- The trigger and track view (R76, R90). -/
def Dev.readTrgView (d : Dev) (t o : Nat) : W64 :=
  let g (k : Nat) : Trigger := match d.trgOf t k with | some n => d.trg n | none => {}
  if o < 0x6000 then (g ((o - 0x4000) / 32)).regAt (o % 32)
  else if o < 0x6800 then (g ((o - 0x6000) / 8)).target
  else if o < 0x7000 then d.trkSeen t ((o - 0x6800) / 8)
  else if d.trackReadable t ((o - 0x7000) / 8) then d.trkStatus ((o - 0x7000) / 8) else 0

/-- A 64-bit aligned read of the window of tenant `t`; before event 13 all but TW_IDENT reads 0 (R44), and in a scrub all but
three registers (R439). -/
def Dev.readTw (d : Dev) (t o : Nat) : W64 :=
  let v := d.ten t
  if !d.cfg.tenOn t then 0
  else if o = 0 then d.twIdent t
  else if d.boot.stage ≠ 6 then 0
  else if o = 8 then d.twStatus t
  else if v.scrub then (if o = 0x138 then (v.progress.get 7 {}).reg else 0)
  else if emulated t o then d.shadowed t o v.shadow (d.twLive t o)
  else if o = 0x10 then BitVec.ofNat 64 v.event.toNat
  else if o = 0x18 then v.cntReg
  else if o = 0x20 then BitVec.ofNat 64 v.eventEn.toNat
  else if 0x100 ≤ o ∧ o < 0x140 then (v.progress.get ((o - 0x100) / 8) {}).reg
  else if 0x1000 ≤ o ∧ o < 0x1130 then d.readView t o
  else if 0x4000 ≤ o ∧ o < 0x7800 then d.readTrgView t o
  else 0

/-- A 64-bit aligned read of a window by the host: in Dusk and Night the values latched at the entry (R483). -/
def State.readReg (s : State) (party off : Nat) : W64 :=
  let d := s.latch.getD s.dev
  if party < 64 then d.readTw party off else d.readMg s.nv.fuses off
/-- A 32-bit read of either half (R543). -/
def State.readHalf (s : State) (party off : Nat) : W32 :=
  let v := s.readReg party (off / 8 * 8)
  BitVec.ofNat 32 (if off % 8 = 4 then v.toNat / 2 ^ 32 else v.toNat)

/-! ## Read shadows (R452, R459) -/

/-- The shadows of a window keep the values that its emulated registers have now. -/
def Dev.latchShadow (d : Dev) (party : Nat) : Dev :=
  if party < 64 then d.modTen party (fun v => { v with shadow := twEmulated.map (fun o => (o, d.twLive party o)) })
  else { d with mgmt := { d.mgmt with shadow := mgEmulated.map (fun o => (o, d.mgLive o)) } }
def Dev.dropShadow (d : Dev) (party : Nat) : Dev :=
  if party < 64 then d.modTen party (fun v => { v with shadow := [] }) else { d with mgmt := { d.mgmt with shadow := [] } }

end Sys2Proof.Machine
end

