-- ==== Sys2Proof/Machine/Firmware.lean ====
section
/-! DEFINITION. Control-core restarts, live update, trace points, and the management tick (14_firmware.md, R69). -/
namespace Sys2Proof.Machine
open Sys2Proof

/-- The control cores run: after boot event 8 with a firmware, and not in Dusk, Night or recovery. -/
def Dev.coresOn (d : Dev) : Bool := d.awake && (decide (d.boot.stage = 6) || decide (d.boot.stage = 7))

/-- Windows of enabled tenants that core `k` owns, and every window that it owns. -/
def Cfg.coreTenants (c : Cfg) (k : Nat) : List Nat := c.tenants.filter (fun t => decide (coreOf t = k))
def Cfg.coreParties (c : Cfg) (k : Nat) : List Nat := if k = 0 then mgmtParty :: c.coreTenants 0 else c.coreTenants k
def Cfg.parties (c : Cfg) : List Nat := mgmtParty :: c.tenants

/-! ## Live update (R462-R465) -/

/-- Window offset of FW_UPD_CTL. -/
def fwUpdCtl : Nat := 0xC0018

/-- An update ends in failure: FW_UPD_STATUS, MG_PROGRESS_2 and a record hold it. -/
def Dev.updFail (d : Dev) (status : B8) (code : Nat) : Dev :=
  ({ d with fw := { d.fw with updState := 0, newImage := [], status := status, detail := BitVec.ofNat 8 code } }.setProgress mgmtParty 2 3 status.toNat).regRec
    mgmtParty status code 0 fwUpdCtl

/-- The first check of R462 that an image fails. -/
def State.updFault (s : State) (m : Memory) (len : Nat) : Option (B8 × Nat) :=
  let fw := s.dev.fw
  if fwHeaderBad m ∨ fwLength m ≠ len then some (0x04, 0x97)
  else if !fwSigned s.nv.fuses m then some (0x05, 0x96)
  else if fwSecVersion m < s.nv.fuses.fwMin ∨ fwGeneration m ≤ fw.generation.toNat then some (0x02, 0x98)
  else if fw.handoffVersion < m8 m 0x12 ∨ m8 m 0x13 < fw.handoffVersion then some (0x08, 0x99)
  else none

/-- Where the spare firmware slot lies in flash. -/
def Fw.spareAt (f : Fw) : Nat := 0x200000 + 0x200000 * (1 - f.slot)
/-- Bytes written to the spare firmware slot. -/
def State.putSpare (s : State) (l : List B8) : State :=
  { s with nv := { s.nv with flash := { s.nv.flash with bytes := (s.nv.flash.bytes.clear s.dev.fw.spareAt 0x200000).write s.dev.fw.spareAt l } } }

/-- FW_UPD_CTL.go: the image is read and checked, and its writing begins. An update that is under way already only refuses the new one. -/
def State.fwGo (s : State) (value : W64) (host : List Host.Cell) : State :=
  let d := s.dev
  let len := fld value 0 20
  if d.fw.updState ≠ 0 then { s with dev := d.regRec mgmtParty 0x01 0x9D 0 fwUpdCtl }
  else if !d.hostUp then { s with dev := d.updFail 0x11 0x8D }
  else
    let b := d.hostRead d.cfg.port host d.fw.updAddr.toNat len
    match s.updFault (Memory.write [] 0 b) len with
    | some (st, code) => { s with dev := d.updFail st code }
    | none =>
      { s.putSpare (b.take (len - 96)) with
        dev := { d with fw := { d.fw with updState := 1, newImage := b, deferTicks := fld value 32 16 } }.setProgress mgmtParty 2 0 0 }

/-- FW_UPD_CTL.abort ends an update that is staging or ready. -/
def Dev.fwAbort (d : Dev) : Dev := if d.fw.updState = 1 ∨ d.fw.updState = 2 then d.updFail 0x01 0x9D else d

/-- FW_IMAGE_READY: the image is in flash and in the spare bank, or the readback differs. -/
def State.fwReady (s : State) : State :=
  let d := s.dev
  if d.fw.updState ≠ 1 || d.coreOut 0 || !d.coresOn then s
  else if !s.nv.flash.writable then { s with dev := d.updFail 0x04 0x9A }
  else
    let g := fwGeneration (Memory.write [] 0 d.fw.newImage)
    { s.putSpare d.fw.newImage with
      dev := ({ d with fw := { d.fw with updState := 2, readyTick := d.tick + 1, stagedGen := BitVec.ofNat 32 g } }).logRec 0 0x85 0xFF (unitHub 0 0) 0 g }

/-- update_hold of every window. -/
def Dev.holdAll (d : Dev) (b : Bool) : Dev := d.cfg.tenants.foldl (fun d t => (d.modTen t (fun v => { v with updateHold := b })).statusEvent t) d

/-- The read shadows of every window keep their values (R452). -/
def Dev.latchShadows (d : Dev) : Dev := d.cfg.parties.foldl (fun d p => d.latchShadow p) d

/-- FW_HANDOFF at a tick: the old image quiesces and the new one starts; a handoff later than its first tick is logged (R31, R463). -/
def Dev.fwHandoff (d : Dev) : Dev :=
  if d.fw.updState ≠ 2 || !d.coresOn || !d.atTick || d.pwr.entering || decide (d.tick < d.fw.readyTick + d.fw.deferTicks) || (List.range 8).any (fun k => (d.core k).restarting) then d
  else
    let x := Config.sha384 d.fw.newImage
    ((({ d with
      fw := { d.fw with updState := 3, holdSince := d.time }
      sec := { d.sec with mr := d.sec.mr.set 2 x } }.extend 4 x).holdAll true).latchShadows).deferred 0 0xFF (d.fw.readyTick + d.fw.deferTicks)

/-- Length of the hold, in microseconds. -/
def Dev.holdUs (d : Dev) : Nat := min 0xFFFF ((d.time.toNat - d.fw.holdSince.toNat) / 1000)

/-- The new image has not acknowledged within 100 ms of its start (R464). -/
def Dev.ackOverdue (d : Dev) : Bool := decide (d.fw.holdSince.toNat + 100000000 ≤ d.time.toNat)

/-- HANDOFF_ACK before the held writes: the banks exchange roles, the fused minimum may rise, and every requester is told. -/
def State.handoffDone (s : State) : State :=
  let d := s.dev
  let m := Memory.write [] 0 d.fw.newImage
  let g := BitVec.ofNat 32 (fwGeneration m)
  let fuses := if m16 m 6 % 2 = 1 then { s.nv.fuses with fwMin := max s.nv.fuses.fwMin (fwSecVersion m) } else s.nv.fuses
  let d1 : Dev := { d with
    fw := { d.fw with
      generation := g, bank := 1 - d.fw.bank, slot := 1 - d.fw.slot, image := d.fw.newImage, secVersion := fwSecVersion m, handoffVersion := m8 m 0x11
      updState := 0, newImage := [], status := 0, detail := 0, holdUs := d.holdUs, doneTick := true }
    mgmt := { d.mgmt with handoffSeen := true }
    tenants := d.tenants.map (fun (e : Nat × Tenant) => (e.1, { e.2 with handoffSeen := true })) }
  { s with nv := { s.nv with fuses := fuses }, dev := (d1.holdAll false).logRec 0 0x86 0xFF (unitHub 0 0) d.holdUs g.toNat }

/-- HANDOFF_ROLLBACK before the held writes: the old image resumes; MR4 keeps the extension (R464). -/
def Dev.rolledBack (d : Dev) : Dev :=
  let g := fwGeneration (Memory.write [] 0 d.fw.newImage)
  let d1 : Dev := { d with
    fw := { d.fw with holdUs := d.holdUs }
    sec := { d.sec with mr := d.sec.mr.set 2 (Config.sha384 d.fw.image) } }
  ((d1.updFail 0x11 0x9C).holdAll false).logRec 0 0x87 0xFF (unitHub 0 0) 0 g

/-! ## Restarts (R458-R461) -/

/-- The start of a restart: the core's unflushed records are lost, and with CC0 what is staging ends. -/
def Dev.coreRestart (d : Dev) (k cause : Nat) : Dev :=
  let d1 := { d with
    epochs := { d.epochs with cc := d.epochs.cc.set k (satInc (d.epochs.cc.get k 0)) }
    mgmt := { d.mgmt with logBuf := d.mgmt.logBuf.filter (fun e => decide (e.1 ≠ k)), logDropped := d.mgmt.logDropped.filter (fun e => decide (e.1 ≠ k)) } }
  let d2 := d1.modCore k (fun _ => { restarting := true, cause := cause, since := d.time })
  let d3 := (d2.cfg.coreTenants k).foldl (fun d t => (d.modTen t (fun v => { v with fwRestart := true })).statusEvent t) d2
  let d4 := if k = 0 ∧ d3.stage.active then d3.stageFail 0x0A 0x9B else d3
  let d5 : Dev := if k = 0 ∧ d4.fw.updState = 1 then d4.updFail 0x0A 0x9B else d4
  (d5.cfg.coreParties k).foldl (fun d p => d.latchShadow p) d5

/-- What a window's writes wait for: its core restarts, an update holds it, or the package sleeps (R105, R483). -/
def Dev.holding (d : Dev) (party : Nat) : Bool := d.coreOut (coreOf party) || decide (1 < d.pwr.state)

/-! ## Trace points (R469, R473) -/

/-- The core on which a point is hit. -/
def traceCore (p : Nat) : Nat := if p < 160 then p % 8 else if p = 168 then 2 else if p = 169 ∨ p = 170 then 1 else if p = 172 then 7 else 0

def Dev.traceHit (d : Dev) (p : Nat) (arg : W32) : Dev :=
  let v := d.fw.trace.get p {}
  if decide (174 ≤ p) || !v.enable || !d.coresOn || d.coreOut (traceCore p) then d
  else
    let note := v.log && !v.logged
    let d1 := { d with fw := { d.fw with trace := d.fw.trace.set p { v with hits := v.hits + 1, last := d.time, logged := v.logged || note } } }
    if note then d1.logRec (traceCore p) 0x92 0xFF (unitHub 0 (traceCore p)) p arg.toNat else d1

/-! ## The management tick (R69, R30) -/

/-- What the tick does to power: limits, the loop or the guard, points and voltages. -/
def Dev.powerTick (d : Dev) (f : Fuses) (env : TickEnv) : Dev :=
  let d1 := ((d.countTick.countOpen.measure env).thermal.noteSaved env.powerMw).newCeilings f
  let d2 := d1.applyItems
  let d3 := if d2.coreOut 0 then d2.hwGuard env.powerMw else d2.capLoop env.powerMw
  let d4 := (partsOn d3.cfg).foldl (fun d p => d.setPoints p) d3
  let d5 := d4.allVolts f
  { d5 with pwr := { d5.pwr with state := if d5.overcast then 1 else 0 } }

/-- Progress of what reports in percent (R10, R65, R438, R462), and updates that waited for the tick (R11). -/
def Dev.progressTick (d : Dev) (env : TickEnv) : Dev :=
  let d1 := d.cfg.parties.foldl (fun d p => d.flushProgress p) d
  let d2 := if d1.fw.updState = 1 then d1.setProgress mgmtParty 2 0 (percentOf (d1.fw.newImage.length - env.updLeft) d1.fw.newImage.length) else d1
  env.scrubLeft.foldl (fun d x =>
    if x.1 < 64 ∧ (d.ten x.1).scrub ∧ (d.ten x.1).scrubDone = false ∧ 0 < (d.ten x.1).scrubFrames then
      d.setProgress x.1 7 0 (percentOf ((d.ten x.1).scrubFrames - x.2) (d.ten x.1).scrubFrames)
    else d) d2

/-- Marks of the firmware that end with the tick. -/
def Dev.fwTick (d : Dev) : Dev :=
  let d1 := { d with fw := { d.fw with doneTick := false, trace := d.fw.trace.map (fun (e : Nat × TracePt) => (e.1, { e.2 with logged := false })) } }
  if d.fw.doneTick then d1.setProgress mgmtParty 2 2 10000 else d1

/-- The work of a tick in Noon and Overcast. -/
def Dev.runTick (d : Dev) (f : Fuses) (env : TickEnv) : Dev :=
  let d1 := ((((d.markDue.kvTick.powerTick f env).driftCheck env).errorsArise env).applyMr).fwTick
  let d2 := if d.pwr.entering && d1.drained then d1.entryChecks.fallAsleep else d1.entryChecks
  d2

/-- Log records reach the log ring at the tick (R468). -/
def Dev.flushTick (d : Dev) : Dev := if d.coreOut 7 then d else d.logFlush

/-- MANAGEMENT_TICK: data-plane time reaches the next multiple of 1,000,000 ns. In Dusk and Night, and before boot lock, nothing
else happens; in the safe configuration and in recovery staging and the log go on. -/
def State.tick (s : State) (env : TickEnv) : State :=
  if !s.dev.boot.powered || s.dev.boot.thermtrip then s
  else
    let d := s.dev.advance ((s.dev.tick + 1) * 1000000 - s.dev.time.toNat)
    let s1 := { s with dev := d }
    if 1 < d.pwr.state ∨ d.boot.stage < 6 then s1
    else
      let s2 := { s1 with dev := d.progressTick env }.stageEnd env.flashLeft
      if d.boot.stage ≠ 6 then { s2 with dev := s2.dev.flushTick }
      else
        let d1 := ((s2.dev.runTick s.nv.fuses env)).flushTick
        { s2 with dev := d1, latch := if 1 < d1.pwr.state then some d1 else none }

/-! ## The rows -/

def execManagementTick (env : TickEnv) (s : State) : Host.Outcome State Fault Refusal := .next (s.tick env)
def execFwImageReady (s : State) : Host.Outcome State Fault Refusal := .next s.fwReady
def execFwHandoff (s : State) : Host.Outcome State Fault Refusal := .next { s with dev := s.dev.fwHandoff }
def execTraceHit (point : Nat) (arg : W32) (s : State) : Host.Outcome State Fault Refusal := .next { s with dev := s.dev.traceHit point arg }

end Sys2Proof.Machine
end

