-- ==== Sys2Proof/Machine/Registers.lean ====
section
/-! DEFINITION. Writes of the two kinds of window: when a write acts, is held or is ignored, and what each register's write does
(R5-R7, R43-R45, R57, R102-R108, R439, R451-R455, R483, R543, R569, R570). -/
namespace Sys2Proof.Machine
open Sys2Proof

/-! ## Submission (R102-R108, R118, R119) -/

/-- The fields of SUBMIT_CTL, with the pointer that LO and HI hold at that moment. -/
structure Submission where
  party : Nat
  part : Nat
  key : Nat
  ptr : Nat
  host : Bool
  length : Nat
  subTag : W16
  missing : Bool
deriving DecidableEq, Repr, Inhabited

def Dev.submission (d : Dev) (party : Nat) (v : W64) : Submission :=
  let e := fld v 0 2
  let q := fld v 2 3
  let ten := decide (party < 64)
  let p := if ten then d.cfg.tenPart party else fld v 28 4
  let lo := if ten then (d.ten party).submitLo else d.mgmt.submitLo
  let hi := if ten then (d.ten party).submitHi else d.mgmt.submitHi
  { party := party, part := p, key := if ten then qkey party e q else qkeyMgmt p e + q
    ptr := lo.toNat + 2 ^ 32 * hi.toNat, host := v.getLsbD 5, length := fld v 8 11, subTag := BitVec.ofNat 16 (fld v 32 16)
    missing := if ten then decide (d.cfg.tenQueues party e ≤ q) else decide (q ≠ 0) || !d.cfg.partOn p }

/-- The record of a submission that is not queued (R106, R119). -/
def Dev.submitRec (d : Dev) (x : Submission) (r : Refuse) (addr index : Nat) : Dev :=
  d.record { time := d.time, tenant := x.party, status := r.status, unit := dispatcher x.part, detail := detailOf r.code r.val,
             address := addr, space := if x.host then 2 else 0, partition := x.part, queue := qByte x.key + 0x80, index := index, subTag := x.subTag }

/-- A refused submission writes one kind 2 entry and one record (R119); `at_` is the command that failed and its index. -/
def Dev.refuse (d : Dev) (x : Submission) (r : Refuse) (at_ : Option (Nat × W512)) : Dev :=
  let i := match at_ with | some y => y.1 | none => 0
  let tag : W32 := match at_ with | some y => cmdTag y.2 | none => 0
  (d.emit x.key { tag := tag, subTag := x.subTag, status := r.status, kind := 2, index := i, result := BitVec.ofNat 64 (detailOf r.code r.val).toNat }).submitRec
    x r (x.ptr + 64 * i) (if at_.isSome then i else 0xFFFF)

/-- The view with which a party's list is read. -/
def Submission.view (x : Submission) : View := { party := x.party, part := x.part }

/-- Checks 1 to 4 on a list. -/
def Dev.listFaultOf (d : Dev) (x : Submission) : Option Refuse :=
  firstFault [
    (decide (x.ptr % 64 ≠ 0) || (!x.host && decide (2 ^ 48 ≤ x.ptr)) || decide (x.length = 0) || decide (1024 < x.length), { status := 0x04, code := 0x80, val := 0 }),
    (x.missing, { status := 0x03, code := 0x81, val := 8 * qEngine x.key + qIndex x.key }),
    (decide (64 ≤ (d.que x.key).lists.length), { status := 0x01, code := 0x82, val := 0 }),
    ((if x.host then !d.hostReachable x.party else if x.party < 64 then !d.ownedRange x.view x.ptr (64 * x.length) else d.foreign x.view x.ptr (64 * x.length)),
      { status := 0x03, code := 0x83, val := 0 })]

/-- The device's copy of a list (R104). -/
def Dev.fetchList (d : Dev) (x : Submission) (host : List Host.Cell) : Dev × Except Fail (List W512) :=
  let cmds (b : List B8) : List W512 := (chunksOf 64 b x.length).map (fun l => BitVec.ofNat 512 (leNat l))
  if x.host then (d, .ok (cmds (d.hostRead (d.portOf x.party) host x.ptr (64 * x.length))))
  else match d.readMem x.view x.ptr (64 * x.length) with
    | (d1, .error e) => (d1, .error e)
    | (d1, .ok b) => (d1, .ok (cmds b))

/-- What validation kept of each command, by index. -/
def keptTbl {α : Type} (f : Kept → Option α) (l : List Kept) : Tbl α :=
  (l.mapIdx (fun i k => (i, f k))).filterMap (fun x => x.2.map (fun y => (x.1, y)))

/-- A valid list joins its queue. -/
def Dev.enqueue (d : Dev) (x : Submission) (cmds : List W512) (kept : List Kept) : Dev :=
  ({ d with submitted := d.submitted + 1 } : Dev).modQue x.key (fun v => { v with
    lists := v.lists ++ [{ cmds := cmds, subTag := x.subTag, time := d.time, no := d.submitted, index := 0, progs := keptTbl Kept.prog kept, reqs := keptTbl Kept.req kept }]
    readySince := if v.lists.isEmpty then d.time else v.readySince })

/-- A write of SUBMIT_CTL. -/
def Dev.submit (d : Dev) (party : Nat) (v : W64) (host : List Host.Cell) : Dev :=
  let x := d.submission party v
  if !(d.complRing party).enable then d.submitRec x { status := 0x01, code := 0x8E, val := 0 } x.ptr 0xFFFF
  else match d.listFaultOf x with
    | some r => d.refuse x r none
    | none =>
      match d.fetchList x host with
      | (d1, .error e) => d1.refuse x { status := e.status, code := 0x84, val := 0 } none
      | (d1, .ok cmds) =>
        match d1.checkList (qEngine x.key) x.view cmds with
        | (d2, .error (i, r)) => d2.refuse x r (some (i, cmds.getD i 0))
        | (d2, .ok kept) => d2.enqueue x cmds kept

/-! ## Answers (R455, R569, R570) -/

/-- The answer to a write: an emulated register replies, a hardware register only logs what it ignored. -/
def Dev.answer (d : Dev) (party off : Nat) (status : B8) (code : Nat) : Dev :=
  if emulated party off then d.reply party status code off
  else if status = 0 then d else d.regRec party status code 0 off

/-! ## Rings (R122, R126, R127, R129, R130, R518) -/

/-- A write of a ring's BASE; `bits` is the width of the address. -/
def Ring.writeBase (r : Ring) (bits : Nat) (w : W64) : Ring × B8 :=
  let a := w.toNat % 2 ^ bits
  if r.enable then (r, 0x01) else if a % 4096 ≠ 0 then (r, 0x04) else ({ r with base := BitVec.ofNat 64 a }, 0)
/-- A write of a ring's MIRROR. -/
def Ring.writeMirror (r : Ring) (w : W64) : Ring × B8 := if w.toNat % 4096 ≠ 0 then (r, 0x04) else ({ r with mirror := w }, 0)
/-- A write of a ring's HEAD: it may not pass the tail. -/
def Ring.writeHead (r : Ring) (w : W64) : Ring × B8 :=
  let h := fld w 0 16
  if r.size ≤ h ∨ r.unread < (h + r.size - r.head) % r.size then (r, 0x04) else ({ r with head := h }, 0)
/-- The restart of a ring that is enabled again. -/
def Ring.restart (r : Ring) : Ring := { r with head := 0, tail := 0, phase := true, seq := 1, dropped := 0 }
/-- A write of a ring's CTL: `fixed` where the ring has one size, `mirrored` where it can have a mirror. A size changed while the ring is
enabled is ignored and answered 0x01. -/
def Ring.writeCtl (r : Ring) (fixed mirrored : Bool) (w : W64) : Ring × B8 :=
  let n := if fixed then r.log2 else fld w 8 5
  if n < 6 ∨ 16 < n then (r, 0x04)
  else
    let busy := r.enable && decide (n ≠ r.log2)
    let r1 := { r with enable := w.getLsbD 0, mirrorEn := mirrored && w.getLsbD 1, log2 := if busy then r.log2 else n }
    (if r1.enable && !r.enable then r1.restart else r1, if busy then 0x01 else 0)
/-- A write of a snapshot ring's CTL (R518). -/
def Ring.writePmcCtl (r : Ring) (w : W64) : Ring × B8 :=
  let n := fld w 8 5
  let k := fld w 16 4
  if n < 2 ∨ 12 < n ∨ k < 12 then (r, 0x04)
  else
    let busy := r.enable && (decide (n ≠ r.log2) || decide (k ≠ r.log2Slot))
    let r1 := { r with enable := w.getLsbD 0, log2 := if busy then r.log2 else n, log2Slot := if busy then r.log2Slot else k }
    (if r1.enable && !r.enable then r1.restart else r1, if busy then 0x01 else 0)

/-- The indices from head to tail. -/
def Ring.unreadIdx (r : Ring) : List Nat := (List.range r.unread).map (fun i => (r.head + i) % r.size)
/-- mirror_en has just been set on a ring with a mirror. -/
def Ring.mirrorRose (old new : Ring) : Bool := new.mirrorEn && !old.mirrorEn && decide (new.mirror ≠ 0)

/-- Entries of a tenant's ring are copied from partition memory to the mirror (R127). -/
def Dev.copyMirror (d : Dev) (t : Nat) (r : Ring) : Dev :=
  r.unreadIdx.foldl (fun d i =>
    match d.readMem { party := t, part := d.cfg.tenPart t } (r.base.toNat + 32 * i) 32 with
    | (d1, .ok b) => d1.hostWrite (d.cfg.tenPort t) (r.mirror.toNat + 32 * i) b
    | (d1, .error _) => d1) d
/-- Records of a hub ring are copied to the mirror. -/
def Dev.copyRecs (d : Dev) (r : Ring) (l : List ErrRec) : Dev :=
  (r.unreadIdx.zip l).foldl (fun d x => d.hostWrite d.cfg.port (r.mirror.toNat + 32 * x.1) x.2.bytes) d

/-- A write of a completion ring register at offset `k` from 0x80. What waits is written while there is room, and an ended sequence whose
entry then has a place in its FIFO goes (R126). -/
def Dev.writeCompl (d : Dev) (party k : Nat) (w : W64) : Dev × B8 :=
  let r := d.complRing party
  let ten := decide (party < 64)
  if k = 0x10 then
    match r.writeCtl false ten w with
    | (n, st) =>
      let d1 := d.setCompl party n
      let d2 := if n.mirrorRose r ∧ ten then d1.copyMirror party n else d1
      let d3 := if ten && decide (n.enable ≠ r.enable) then d2.statusEvent party else d2
      ((d3.drainAll party (d3.heldCount party)).flushEnded, st)
  else if k = 0x18 then
    match r.writeHead w with
    | (n, st) => let d1 := d.setCompl party n; ((d1.drainAll party (d1.heldCount party)).flushEnded, st)
  else
    match (if k = 0 then r.writeBase (if ten then 48 else 64) w else if k = 8 then r.writeMirror w else (r, 0)) with
    | (n, st) => (d.setCompl party n, st)

/-- A write of an error ring register of a tenant at offset `k` from 0x200. -/
def Dev.writeErr (d : Dev) (t k : Nat) (w : W64) : Dev × B8 :=
  let r := (d.ten t).err
  match (if k = 0 then r.writeBase 48 w else if k = 8 then r.writeMirror w else if k = 0x10 then r.writeCtl false true w else if k = 0x18 then r.writeHead w else (r, 0)) with
  | (n, st) =>
    let d1 := d.modTen t (fun v => { v with err := n })
    (if n.mirrorRose r then d1.copyMirror t n else d1, st)

/-- A write of a hub ring register: the ring, its unread records. -/
def writeHub (r : Ring) (l : List ErrRec) (k : Nat) (w : W64) : (Ring × List ErrRec) × B8 :=
  match (if k = 8 then r.writeMirror w else if k = 0x10 then r.writeCtl true true w else if k = 0x18 then r.writeHead w else (r, 0)) with
  | (n, st) => ((n, l.drop (l.length - n.unread)), st)
/-- The global error ring at 0x200, the log ring at 0x300 of the management window. -/
def Dev.writeGlobal (d : Dev) (k : Nat) (w : W64) : Dev × B8 :=
  match writeHub d.mgmt.gerr d.mgmt.globalRing k w with
  | ((n, l), st) =>
    let d1 := { d with mgmt := { d.mgmt with gerr := n, globalRing := l } }
    (if n.mirrorRose d.mgmt.gerr then d1.copyRecs n l else d1, st)
def Dev.writeLog (d : Dev) (k : Nat) (w : W64) : Dev × B8 :=
  match writeHub d.mgmt.log d.mgmt.logRing k w with
  | ((n, l), st) =>
    let d1 := { d with mgmt := { d.mgmt with log := n, logRing := l } }
    (if n.mirrorRose d.mgmt.log then d1.copyRecs n l else d1, st)

/-- A snapshot ring's registers: BASE, CTL, HEAD. -/
def Dev.writeSnapRing (d : Dev) (party k : Nat) (w : W64) : Dev × B8 :=
  let r := d.snapRing party
  match (if k = 0 then r.writeBase (if party < 64 then 48 else 64) w else if k = 8 then r.writePmcCtl w else if k = 0x10 then r.writeHead w else (r, 0)) with
  | (n, st) => (d.setSnapRing party n, st)

/-! ## Snapshot period and selector (R513, R515, R518) -/

/-- The status of a written period, and of a written selector. -/
def periodStatus (n : Nat) : B8 := if n = 0 ∨ (4 ≤ n ∧ n ≤ 20) then 0 else 0x04
def Dev.selectorStatus (d : Dev) (party : Nat) (sel : W64) : B8 :=
  if !d.cfg.selectorOk party sel then 0x03 else if sel ≠ 0 ∧ 2 ^ (d.snapRing party).log2Slot < snapLength sel then 0x08 else 0

/-- A write of 0x1100-0x112F in the counter view (R514). -/
def Dev.writeSnapView (d : Dev) (t off : Nat) (w : W64) : Dev :=
  let sel := w &&& 0x7FFFF
  if !d.cfg.tenSnapshot t then d.viewRec t 0x03 0x86 off
  else if off = 0x1100 then
    (if periodStatus (fld w 0 5) = 0 then d.modTen t (fun v => { v with snapPeriod := fld w 0 5 }) else d.regRec t 0x04 0 0 off)
  else if off = 0x1108 then
    (if d.selectorStatus t sel = 0 then d.modTen t (fun v => { v with snapSel := sel })
    else if d.selectorStatus t sel = 0x03 then d.viewRec t 0x03 0x86 off else d.regRec t 0x08 0 0 off)
  else match d.writeSnapRing t (off - 0x1110) w with
    | (d1, st) => d1.answer t off st 0

/-! ## Registers of the tenant window -/

/-- TW_EVENT: flags written 1 clear, and cnt_clr clears counters (R99, R100). -/
def Tenant.writeEvent (v : Tenant) (a : W64) : Tenant :=
  { v with
    event := v.event &&& ~~~(BitVec.ofNat 4 (fld a 0 4))
    eventCnt := (List.range 4).foldl (fun t k => if a.getLsbD (16 + k) then t.set k 0 else t) v.eventCnt }

/-- TB_TRG_STATUS: fired, missed and action_failed written 1 clear. -/
def Trigger.writeStatus (g : Trigger) (a : W64) : Trigger :=
  { g with fired := g.fired && !a.getLsbD 1, missed := g.missed && !a.getLsbD 2, actionFailed := g.actionFailed && !a.getLsbD 3 }
def Dev.writeTrgStatus (d : Dev) (party k : Nat) (a : W64) : Dev := match d.trgOf party k with | some n => d.modTrg n (fun g => g.writeStatus a) | none => d
def Track.writeStatus (t : Track) (a : W64) : Track := { t with presetRefused := t.presetRefused && !a.getLsbD 4 }

/-- CTL, ACTION or STATUS of trigger `k` of a window (R80, R89). -/
def Dev.writeTrigger (d : Dev) (party k reg : Nat) (w a : W64) : Dev :=
  if reg = 0 then d.writeTrgCtl party k false w else if reg = 8 then d.writeTrgCtl party k true w else if reg = 16 then d.writeTrgStatus party k a else d

/-- An emulated register of a tenant window. -/
def State.writeTwEmulated (s : State) (t off : Nat) (w : W64) (host : List Host.Cell) : State :=
  let d := s.dev
  let ok (e : Dev) : State := { s with dev := e.reply t 0 0 off }
  let put (x : Dev × B8) : State := { s with dev := x.1.reply t x.2 0 off }
  if off = 0x40 then ok (d.modTen t (fun v => { v with submitLo := BitVec.ofNat 32 w.toNat }))
  else if off = 0x48 then ok (d.modTen t (fun v => { v with submitHi := BitVec.ofNat 32 w.toNat }))
  else if off = 0x50 then ok (d.submit t w host)
  else if off < 0xA0 then put (d.writeCompl t (off - 0x80) w)
  else if 0x200 ≤ off ∧ off < 0x220 then put (d.writeErr t (off - 0x200) w)
  else if off = 0x400 then
    (if fld w 0 48 % 4096 ≠ 0 then put (d, 0x04) else ok (d.modTen t (fun v => { v with attAddr := BitVec.ofNat 64 (fld w 0 48) })))
  else if off = 0x408 then s.attRequest t w
  else ok d

/-- A hardware register of a tenant window: `w` with the other half kept, `a` with it 0 (R543). -/
def Dev.writeTwHardware (d : Dev) (t off : Nat) (w a : W64) : Dev :=
  if off = 0x10 then d.modTen t (fun v => v.writeEvent a)
  else if off = 0x20 then d.modTen t (fun v => { v with eventEn := BitVec.ofNat 4 (fld w 0 4) })
  else if 0x1000 ≤ off ∧ off < 0x10C0 then d.writeView t off w
  else if 0x1100 ≤ off ∧ off < 0x1130 then d.writeSnapView t off w
  else if 0x4000 ≤ off ∧ off < 0x6000 then d.writeTrigger t ((off - 0x4000) / 32) (off % 32) w a
  else if 0x6800 ≤ off ∧ off < 0x7000 then d.writePos t ((off - 0x6800) / 8) w
  else if 0x7000 ≤ off ∧ off < 0x7800 then
    (let n := (off - 0x7000) / 8; if d.trackReadable t n then d.modTrk n (fun v => v.writeStatus a) else d)
  else d

/-! ## Resets asked for (R39, R60) -/

/-- An entry to Dusk or Night that has not reached step 3 is given up for a reset request (R509). -/
def Dev.leaveEntry (d : Dev) : Dev := if d.pwr.entering then { d with pwr := { d.pwr with entering := false, reqStatus := 0x01 } } else d

/-- The reply to a reset request. -/
def Dev.resetStatus (d : Dev) (kind i : Nat) : B8 :=
  if d.cfg.safe ∧ kind ≠ 1 then 0x02
  else match kind with
    | 1 => 0
    | 2 => if !d.cfg.partOn i then 0x02 else if (d.part i).resetting then 0x01 else 0
    | 3 => if !d.cfg.tenOn i then 0x02 else if (d.ten i).scrub || d.sec.rngFail then 0x01 else 0
    | 4 => if 8 ≤ i then 0x02 else if (d.core i).restarting then 0x01 else 0
    | _ => 0x02

/-- A write of MG_RESET_REQ. -/
def State.resetRequest (s : State) (a : W64) : State :=
  let kind := fld a 0 3
  let i := fld a 8 8
  let d := s.dev
  let st := d.resetStatus kind i
  let d1 := (d.reply mgmtParty st 0 0x2010).leaveEntry
  if st ≠ 0 then { s with dev := d1 }
  else match kind with
    | 1 => ({ s with dev := d1 }).resetL true
    | 2 => { s with dev := d1.partReset i }
    | 3 => { s with dev := d1.tenantReset i }
    | _ => { s with dev := d1.coreRestart i 1 }

/-- A write of MG_STAGE_CTL (R64, R66). -/
def State.stageWrite (s : State) (a : W64) (host : List Host.Cell) : State :=
  if s.dev.stage.active then { s with dev := s.dev.reply mgmtParty 0x01 0 0x2028 }
  else if !a.getLsbD 63 then { s with dev := s.dev.reply mgmtParty 0 0 0x2028 }
  else ({ s with dev := s.dev.reply mgmtParty 0 0 0x2028 }).stageStart (fld a 0 20) host

/-- An emulated register of the management window. -/
def State.writeMgEmulated (s : State) (off : Nat) (w : W64) (host : List Host.Cell) : State :=
  let d := s.dev
  let ok (e : Dev) : State := { s with dev := e.reply mgmtParty 0 0 off }
  let put (x : Dev × B8) : State := { s with dev := x.1.reply mgmtParty x.2 0 off }
  if off = 0x40 then ok { d with mgmt := { d.mgmt with submitLo := BitVec.ofNat 32 w.toNat } }
  else if off = 0x48 then ok { d with mgmt := { d.mgmt with submitHi := BitVec.ofNat 32 w.toNat } }
  else if off = 0x50 then ok (d.submit mgmtParty w host)
  else if 0x80 ≤ off ∧ off < 0xA0 then put (d.writeCompl mgmtParty (off - 0x80) w)
  else if 0x200 ≤ off ∧ off < 0x220 then put (d.writeGlobal (off - 0x200) w)
  else if 0x300 ≤ off ∧ off < 0x320 then put (d.writeLog (off - 0x300) w)
  else if off = 0x400 then
    (if fld w 0 48 % 4096 ≠ 0 then put (d, 0x04) else ok { d with mgmt := { d.mgmt with attAddr := BitVec.ofNat 64 (fld w 0 48) } })
  else if off = 0x408 then s.attRequest mgmtParty w
  else if off = 0x2010 then s.resetRequest w
  else if off = 0x2020 then ok { d with stage := { d.stage with addr := w } }
  else if off = 0x2028 then s.stageWrite w host
  else ok d

/-! ## Hardware registers of the hub blocks -/

/-- Registers of the timebase. Before boot lock a track takes a source that is not reserved, and TRK_0 none but the free-running one (R67,
R88, R569). -/
def Dev.writeTb (d : Dev) (o : Nat) (w a : W64) : Dev × B8 :=
  if o = 0x18 then
    (if fld w 0 32 < 1000 ∨ 1000000000 < fld w 0 32 ∨ fld w 32 10 = 0 ∨ 1000 < fld w 32 10 then (d, 0x04)
    else ({ d with ptp := { d.ptp with stepNs := BitVec.ofNat 32 (fld w 0 32), slewPpm := fld w 32 10 } }, 0))
  else if o < 0x800 then (d, 0)
  else if o < 0x1000 then
    (if d.boot.locked then (d, 0x03)
    else if 6 < fld w 0 4 ∨ (o = 0x800 ∧ fld w 0 4 ≠ 1) then (d, 0x04)
    else (d.modTrk ((o - 0x800) / 8) (fun t => { t with source := fld w 0 4, sourceIndex := fld w 16 10 }), 0))
  else if o < 0x1800 then (d.writePos mgmtParty ((o - 0x1000) / 8) w, 0)
  else if o < 0x2000 then (d.modTrk ((o - 0x1800) / 8) (fun t => t.writeStatus a), 0)
  else if 0x4000 ≤ o ∧ o < 0xC000 then (d.writeTrigger mgmtParty ((o - 0x4000) / 32) (o % 32) w a, 0)
  else (d, 0)

/-- RG_GUST_CFG (R167). -/
def Dev.writeRg (d : Dev) (o : Nat) (w : W64) : Dev × B8 :=
  if o ≠ 0 then (d, 0)
  else if d.boot.locked then (d, 0x03)
  else if fld w 0 5 < 4 ∨ 16 < fld w 0 5 then (d, 0x04)
  else ({ d with gustRate := fld w 0 5 }, 0)

def Dev.writeHalo (d : Dev) (o : Nat) (a : W64) : Dev × B8 :=
  if o < 256 ∧ o % 32 = 16 then (d.modStop (o / 32) (fun v => { v with decErr := v.decErr && !a.getLsbD 0 }), 0) else (d, 0)

def Dev.writeMemBlock (d : Dev) (o : Nat) (a : W64) : Dev × B8 :=
  let m := d.mem
  if o = 8 then ({ d with mem := { m with tempHigh := m.tempHigh && !a.getLsbD 2 } }, 0)
  else if o = 0x18 then ({ d with mem := { m with sramFlags := m.sramFlags &&& ~~~(BitVec.ofNat 2 a.toNat) } }, 0)
  else if o = 0x20 then ({ d with mem := { m with dramFlags := m.dramFlags &&& ~~~(BitVec.ofNat 3 a.toNat) } }, 0)
  else if o = 0x28 then ({ d with mem := { m with nvmeErr := m.nvmeErr &&& ~~~(BitVec.ofNat 2 (fld a 2 2)) } }, 0)
  else (d, 0)

/-- MDL_CFG (R253) and MDL_SWEEP_STATUS. -/
def Dev.writeMdl (d : Dev) (o : Nat) (w a : W64) : Dev × B8 :=
  if o = 0 then
    (if fld w 0 20 < 60 ∨ 604800 < fld w 0 20 ∨ 100 < fld w 24 7 then (d, 0x04)
    else ({ d with mdl := { d.mdl with sweepS := fld w 0 20, cacheMaxPct := fld w 24 7 } }, 0))
  else if o = 8 then ({ d with mdl := { d.mdl with sweepFail := d.mdl.sweepFail && !a.getLsbD 0 } }, 0)
  else (d, 0)

/-- KV_CFG (R301) and KV_STATUS. -/
def Dev.writeKv (d : Dev) (o : Nat) (w a : W64) : Dev × B8 :=
  if o = 0 then
    (if fld w 0 8 = 0 ∨ 7 < fld w 8 4 then (d, 0x04)
    else ({ d with kv := { d.kv with rebuildTicks := fld w 0 8, compactEighths := fld w 8 4 } }, 0))
  else if o = 8 then ({ d with kv := { d.kv with insertDrop := d.kv.insertDrop && !a.getLsbD 0 } }, 0)
  else (d, 0)

/-- TOK_CFG (R339) and TOK_STATUS. -/
def Dev.writeTok (d : Dev) (o : Nat) (w a : W64) : Dev × B8 :=
  if o = 0 then
    (if fld w 8 4 = 0 ∨ 8 < fld w 8 4 then (d, 0x04)
    else ({ d with tok := { d.tok with pageWaitS := fld w 0 8, prefillPerDecode := fld w 8 4 } }, 0))
  else if o = 8 then ({ d with tok := { d.tok with flags := d.tok.flags &&& ~~~(BitVec.ofNat 3 a.toNat) } }, 0)
  else (d, 0)

def Dev.writeCam (d : Dev) (o : Nat) (a : W64) : Dev × B8 :=
  let c := d.cam
  if o = 0 then ({ d with cam := { c with overflow := c.overflow && !a.getLsbD 0 } }, 0)
  else if o < 0x200 then
    (match arrayAt o 0x100 8 8 with
    | some n => { d with cam := { c with portFlags := c.portFlags.set n (c.portFlags.get n 0 &&& ~~~(BitVec.ofNat 2 (fld a 1 2))) } }
    | none => d, 0)
  else if o < 0x1000 then (match arrayAt o 0x200 8 8 with | some n => d.modI3c n (fun v => { v with nack := v.nack && !a.getLsbD 0 }) | none => d, 0)
  else (match arrayAt o 0x1000 16 128 with
    | some n => d.modCtx n (fun v => { v with drop := v.drop && !a.getLsbD 0, uncertain := v.uncertain && !a.getLsbD 1 })
    | none => d, 0)

def Dev.writeAud (d : Dev) (o : Nat) (a : W64) : Dev × B8 :=
  let u := d.aud
  if o = 0 then ({ d with aud := { u with gap := u.gap && !a.getLsbD 0 } }, 0)
  else if o < 0x200 then (match arrayAt o 0x100 8 4 with | some n => { d with aud := { u with fsErr := u.fsErr.set n (u.fsErr.get n false && !a.getLsbD 1) } } | none => d, 0)
  else if o < 0x1000 then (match arrayAt o 0x200 8 64 with | some n => d.modArray n (fun v => { v with drop := v.drop && !a.getLsbD 1 }) | none => d, 0)
  else (match arrayAt o 0x1000 8 1024 with | some n => { d with aud := { u with late := u.late.set n (u.late.get n false && !a.getLsbD 1) } } | none => d, 0)

/-- PLS status flags and the GPIO registers; pins of another function ignore writes (R410). -/
def Dev.writePls (d : Dev) (o : Nat) (w a : W64) : Dev × B8 :=
  let bits := BitVec.ofNat 48 w.toNat &&& d.cfg.gpioMask
  if o < 0x100 then (match arrayAt o 0 8 32 with | some n => d.modPulse n (fun v => { v with limit := v.limit && !a.getLsbD 1 }) | none => d, 0)
  else if o < 0x200 then
    (match arrayAt o 0x100 8 4 with | some n => d.modUart n (fun v => { v with rxDrop := v.rxDrop && !a.getLsbD 1, rxErr := v.rxErr && !a.getLsbD 2 }) | none => d, 0)
  else if o = 0x208 then ({ d with pls := { d.pls with gpioOut := bits } }, 0)
  else if o = 0x210 then ({ d with pls := { d.pls with gpioDir := bits } }, 0)
  else (d, 0)

/-- PWR_CAP (R502): a cap other than the one in force is a request; raise_w changes at once. -/
def Dev.writeCap (d : Dev) (w : W64) : Dev × B8 :=
  let cap := fld w 0 9
  let raise := fld w 16 8
  if cap ≠ d.pwr.capW ∧ (cap < d.cfg.capMin ∨ d.cfg.capMax < cap) then (d, 0x0B)
  else if cap ≠ d.pwr.capW ∧ !d.cfg.adjustable 2 then (d, 0x03)
  else if raise = 0 ∨ 40 < raise then (d, 0x04)
  else
    let p := { d.pwr with raiseW := raise }
    ({ d with pwr := if cap = d.pwr.capW then p else { p with capNext := some cap, capDue := d.tick + 1 } }, 0)

def duskCfgOk (w : W64) : Bool :=
  decide (10 ≤ fld w 0 16) && decide (fld w 0 16 ≤ 60000) && decide (fld w 32 8 ≠ 0)
def duskThrOk (w : W64) : Bool :=
  decide (1 ≤ fld w 16 9) && decide (fld w 16 9 ≤ 256) && decide (-96 ≤ toSigned 8 (fld w 32 8)) && decide (toSigned 8 (fld w 32 8) ≤ 0)

/-- PWR_THERM: with throttle cleared nothing asserts SMB_ALERT_L any more (R536). -/
def Pwr.writeTherm (p : Pwr) (a : W64) : Pwr :=
  { p with throttle := p.throttle && !a.getLsbD 0, overTemp := p.overTemp && !a.getLsbD 1, alert := p.alert && p.throttle && !a.getLsbD 0 }

def Dev.writePwr (d : Dev) (o : Nat) (w a : W64) : Dev × B8 :=
  let p := d.pwr
  if o = 0x08 then (if 10000 < fld a 16 16 then (d, 0x04) else ({ d with pwr := { p with req := p.req ++ [(fld a 0 2, fld a 16 16)] } }, 0))
  else if o = 0x18 then d.writeCap w
  else if o = 0x28 then ({ d with pwr := { p with flags := p.flags &&& ~~~(BitVec.ofNat 3 a.toNat) } }, 0)
  else if o = 0x30 then ({ d with pwr := p.writeTherm a }, 0)
  else if o = 0x40 then ({ d with pwr := { p with alarm := BitVec.ofNat 48 w.toNat, alarmEn := w.getLsbD 63 } }, 0)
  else if o = 0x50 then (if duskCfgOk w then ({ d with pwr := { p with duskCfg := w &&& 0x3FFFFFFFFFF } }, 0) else (d, 0x04))
  else if o = 0x58 then (if duskThrOk w then ({ d with pwr := { p with duskThr := w &&& 0xFF01FFFFFF } }, 0) else (d, 0x04))
  else match arrayAt o 0x80 8 16 with
    | some n => ({ d with pwr := { p with duskList := p.duskList.set n w } }, 0)
    | none => (d, 0)

def Dev.writePcie (d : Dev) (o : Nat) (a : W64) : Dev × B8 :=
  (match arrayAt o 0 8 6 with | some n => d.modPort n (fun v => { v with dmaErr := v.dmaErr && !a.getLsbD 7 }) | none => d, 0)
def Dev.writeEth (d : Dev) (o : Nat) (a : W64) : Dev × B8 :=
  if o < 0x400 then (match arrayAt o 0 64 2 with | some n => d.modEth n (fun v => { v with rxDrop := v.rxDrop && !a.getLsbD 4 }) | none => d, 0)
  else (match arrayAt o 0x400 8 64 with | some n => d.modRtp n (fun v => { v with drop := v.drop && !a.getLsbD 0 }) | none => d, 0)

/-- PMC: period, selector, ring, and event selects (R512, R513, R515, R518). -/
def Dev.writePmc (d : Dev) (o : Nat) (w : W64) : Dev × B8 :=
  let sel := w &&& 0x7FFFF
  if o = 0 then (if periodStatus (fld w 0 5) = 0 then ({ d with pmc := { d.pmc with period := fld w 0 5 } }, 0) else (d, 0x04))
  else if o = 8 then (if d.selectorStatus mgmtParty sel = 0 then ({ d with pmc := { d.pmc with snapSel := sel } }, 0) else (d, d.selectorStatus mgmtParty sel))
  else if 0x20 ≤ o ∧ o < 0x38 then d.writeSnapRing mgmtParty (o - 0x20) w
  else match pmcAt o with
    | some (s, n, false) => (d.selectEvent s n w, 0)
    | _ => (d, 0)

/-- FW_UPD_CTL: go first, then abort. -/
def State.writeUpd (s : State) (a : W64) (host : List Host.Cell) : State :=
  let s1 := if a.getLsbD 63 then s.fwGo a host else s
  if a.getLsbD 62 then { s1 with dev := s1.dev.fwAbort } else s1
/-- SEC_DBG_CTL: go first, then cancel. -/
def State.writeDbg (s : State) (a : W64) (host : List Host.Cell) : State :=
  let s1 := if a.getLsbD 0 then s.debugUnlock host else s
  if a.getLsbD 1 then { s1 with dev := s1.dev.debugCancel } else s1

/-- FW_TRACE_CTL (R473): the hits clear when enable goes from 0 to 1. -/
def TracePt.writeCtl (t : TracePt) (w : W64) : TracePt :=
  { t with enable := w.getLsbD 0, log := w.getLsbD 1, hits := if w.getLsbD 0 && !t.enable then 0 else t.hits }

def State.writeSec (s : State) (o : Nat) (w a : W64) (host : List Host.Cell) : State × B8 :=
  let d := s.dev
  let put (v : Sec) : State × B8 := ({ s with dev := { d with sec := v } }, 0)
  if o = 0 then put { d.sec with treeFail := d.sec.treeFail && !a.getLsbD 4 }
  else if o = 0x30 then (if w.toNat % 64 ≠ 0 then (s, 0x04) else put { d.sec with dbgAddr := w })
  else if o = 0x38 then (s.writeDbg a host, 0)
  else if o = 0x40 then put { d.sec with mrExtAddr := w }
  else if o = 0x48 then ({ s with dev := d.mrExtend a host }, 0)
  else (s, 0)

def State.writeFw (s : State) (o : Nat) (w a : W64) (host : List Host.Cell) : State × B8 :=
  let d := s.dev
  if o = 0x10 then (if w.toNat % 64 ≠ 0 then (s, 0x04) else ({ s with dev := { d with fw := { d.fw with updAddr := w } } }, 0))
  else if o = 0x18 then (s.writeUpd a host, 0)
  else match arrayAt o 0x1000 16 256 with
    | some n => ({ s with dev := { d with fw := { d.fw with trace := d.fw.trace.set n ((d.fw.trace.get n {}).writeCtl w) } } }, 0)
    | none => (s, 0)

/-- A hardware register of the management window. -/
def State.writeMgHardware (s : State) (off : Nat) (w a : W64) (host : List Host.Cell) : State :=
  let d := s.dev
  let k := off % 0x10000
  let lift (x : Dev × B8) : State × B8 := ({ s with dev := x.1 }, x.2)
  let r : State × B8 :=
    match off / 0x10000 with
    | 1 => lift (d.writeTb k w a)
    | 2 => lift (d.writeRg k w)
    | 3 => lift (d.writeHalo k a)
    | 4 => lift (d.writeMemBlock k a)
    | 5 => lift (d.writeMdl k w a)
    | 6 => lift (d.writeKv k w a)
    | 7 => lift (d.writeTok k w a)
    | 8 => lift (d.writeCam k a)
    | 9 => lift (d.writeAud k a)
    | 10 => lift (d.writePls k w a)
    | 11 => s.writeSec k w a host
    | 12 => s.writeFw k w a host
    | 13 => lift (d.writePwr k w a)
    | 14 => lift (d.writePcie k a)
    | 15 => lift (d.writeEth k a)
    | b => if 16 ≤ b ∧ b < 24 then lift (d.writePmc (off - 0x100000) w) else (s, 0)
  if r.2 = 0 then r.1 else { r.1 with dev := r.1.dev.regRec mgmtParty r.2 0 0 off }

/-! ## A write that acts (R439, R543) -/

/-- Where TB_TRG_TARGET registers lie: trigger index of the window. -/
def targetAt (party off : Nat) : Option Nat := if party < 64 then arrayAt off 0x6000 8 256 else arrayAt off 0x1C000 8 1024

/-- One write acts: a whole register, one half of it, or nothing where it is narrower or not aligned. -/
def State.act (s : State) (party off : Nat) (value : W64) (width : Nat) (host : List Host.Cell) : State :=
  let d := s.dev
  let base := off / 8 * 8
  let high := decide (off % 8 = 4)
  if party < 64 ∧ (d.ten party).scrub then s
  else if (width ≠ 64 ∧ width ≠ 32) ∨ off % (width / 8) ≠ 0 then { s with dev := d.regRec party 0x04 0 0 off }
  else
    let v : W64 := if width = 64 then value else if high then value <<< 32 else BitVec.ofNat 64 (value.toNat % 2 ^ 32)
    match targetAt party base with
    | some k => { s with dev := d.writeTarget party k v (if width = 64 then .full else if high then .high else .low) }
    | none =>
      let old := if party < 64 then d.readTw party base else d.readMg s.nv.fuses base
      let w : W64 := if width = 64 then v else if high then v + BitVec.ofNat 64 (old.toNat % 2 ^ 32) else v + BitVec.ofNat 64 (old.toNat / 2 ^ 32 * 2 ^ 32)
      if party < 64 then (if emulated party base then s.writeTwEmulated party base w host else { s with dev := d.writeTwHardware party base w v })
      else if emulated party base then s.writeMgEmulated base w host
      else s.writeMgHardware base w v host

/-! ## Arrival: answered, ignored, held or acted on -/

/-- The window stands: the device is on, its PCIe links are enabled, and a tenant's window is that of an enabled tenant whose virtual
function the host has enabled: without it the tenant is not reachable and accepts no submissions (R53, R522). -/
def Dev.windowOn (d : Dev) (party : Nat) : Bool :=
  d.boot.powered && !d.boot.thermtrip && decide (3 ≤ d.boot.stage) &&
    (if party < 64 then d.cfg.tenOn party && (d.ten party).vfEnabled && decide (d.boot.stage ≤ 6) else decide (party = mgmtParty))

/-- Writes that a window holds (R105). -/
def Dev.heldWrites (d : Dev) (party : Nat) : List HeldWrite := if party < 64 then (d.ten party).held else d.mgmt.held
def Dev.setHeld (d : Dev) (party : Nat) (l : List HeldWrite) : Dev :=
  if party < 64 then d.modTen party (fun v => { v with held := l }) else { d with mgmt := { d.mgmt with held := l } }

/-- A write is posted, or discarded where 256 are held: that is recorded on the global ring alone (R105). -/
def Dev.post (d : Dev) (party : Nat) (w : HeldWrite) : Dev :=
  let l := d.heldWrites party
  if l.length < 256 then d.setHeld party (l ++ [w])
  else d.globalRec { time := d.time, tenant := if party < 64 then party else mgmtParty, status := 0x01, unit := 0x8000 + coreOf party,
                     detail := detailOf 0x8F 0, address := regOff party w.off, space := 3, partition := d.partyPart party }

/-- A write of `value` at offset `off` of a party's window, `width` bits wide; `host` is what the host holds in its memory. -/
def State.write (s : State) (party off : Nat) (value : W64) (width : Nat) (host : List Host.Cell) : State :=
  let d := s.dev
  let base := off / 8 * 8
  if !d.windowOn party then s
  else if party < 64 ∧ d.boot.stage ≠ 6 then { s with dev := d.regRec party 0x01 0 0 off }
  else if party < 64 ∧ (d.ten party).scrub then s
  else if 64 ≤ party ∧ !d.mgAnswers base then s
  else if 1 < d.pwr.state ∨ (emulated party base ∧ d.holding party) then
    { s with dev := d.post party { off := off, value := value, width := width, host := host } }
  else s.act party off value width host

/-- A read of the counter view that a tenant's entry does not grant: it returns 0 and is recorded (R514). -/
def Dev.viewRefused (d : Dev) (party off : Nat) : Bool :=
  decide (party < 64) && decide (d.boot.stage = 6) &&
    ((decide (0x1000 ≤ off ∧ off < 0x10C0) && !d.cfg.tenCounterRead party) || (decide (0x1100 ≤ off ∧ off < 0x1130) && !d.cfg.tenSnapshot party))

/-- A read of `width` bits at offset `off` of a party's window: what it returns, and the state after it. A read changes nothing but for the
record of one that is refused: narrower than 32 bits or not aligned (R543), or in a counter view that is not granted (R514, R570); a
tenant in a scrub gets none (R439). The table has no row that reads a register, so no command calls it. -/
def State.readAccess (s : State) (party off width : Nat) : State × W64 :=
  let d := s.dev
  if !d.windowOn party then (s, 0)
  else if (width ≠ 64 ∧ width ≠ 32) ∨ off % (width / 8) ≠ 0 then
    (if party < 64 ∧ (d.ten party).scrub then s else { s with dev := d.regRec party 0x04 0 0 off }, 0)
  else
    let v := if width = 64 then s.readReg party off else BitVec.ofNat 64 (s.readHalf party off).toNat
    (if d.viewRefused party off && !(d.ten party).scrub then { s with dev := d.viewRec party 0x03 0x86 off } else s, v)

/-! ## Held writes (R453, R459, R483) -/

/-- Held writes of a window act in arrival order, as long as its core is there; their number. -/
def State.replay (s : State) (party : Nat) : Nat → State
  | 0 => s
  | fuel + 1 =>
    if s.dev.holding party then s
    else match s.dev.heldWrites party with
      | [] => s
      | w :: r => State.replay (({ s with dev := s.dev.setHeld party r }).act party w.off w.value w.width w.host) party fuel
def State.replayAll (s : State) (l : List Nat) : State := l.foldl (fun s p => State.replay s p 256) s

/-- CC_RESTART_COMPLETE: the held writes are processed, fw_restart clears, and the restart is logged (R459, R460). -/
def State.restartDone (s : State) (k : Nat) : State :=
  let d := s.dev
  if !(d.core k).restarting || decide (8 ≤ k) || !d.coresOn then s
  else
    let ps := d.cfg.coreParties k
    let held := (ps.map (fun p => (d.heldWrites p).length)).sum
    let d1 := ps.foldl (fun d p => d.dropShadow p) (d.modCore k (fun c => { c with restarting := false }))
    let s1 := ({ s with dev := d1 }).replayAll ps
    let e := s1.dev
    if (e.core k).restarting then s1
    else
      let e1 := (d.cfg.coreTenants k).foldl (fun d t => if (d.ten t).fwRestart then (d.modTen t (fun v => { v with fwRestart := false })).statusEvent t else d) e
      let us := min 0xFFFFFF ((e.time.toNat - (d.core k).since.toNat) / 1000)
      { s1 with dev := (e1.logRec k 0x83 0xFF (unitHub 0 k) (d.core k).cause 0).logRec k 0x84 0xFF (unitHub 0 k) us held }

/-- After a handoff or a rollback the windows' writes are processed. -/
def State.releaseHold (s : State) : State :=
  let ps := s.dev.cfg.parties
  ({ s with dev := ps.foldl (fun d p => d.dropShadow p) s.dev }).replayAll ps

/-- A core of the new image stops, or does not acknowledge: rolled back (R464). -/
def State.rollback (s : State) : State := if s.dev.fw.updState = 3 then ({ s with dev := s.dev.rolledBack }).releaseHold else s

/-- A core fails: in a handoff that rolls the update back, else the core restarts (R458, R461). -/
def State.coreFails (s : State) (k cause : Nat) : State :=
  if !s.dev.coresOn || decide (8 ≤ k) then s
  else if s.dev.fw.updState = 3 then s.rollback
  else if (s.dev.core k).restarting then s
  else { s with dev := s.dev.coreRestart k cause }

/-- Cores that a sleep caught in a restart start with the others at Dawn. -/
def Dev.coresStart (d : Dev) : Dev :=
  let ks := (List.range 8).filter (fun k => (d.core k).restarting)
  ks.foldl (fun d k =>
    let d1 := (d.cfg.coreParties k).foldl (fun d p => d.dropShadow p) (d.modCore k (fun c => { c with restarting := false }))
    (d1.cfg.coreTenants k).foldl (fun d t => if (d.ten t).fwRestart then (d.modTen t (fun v => { v with fwRestart := false })).statusEvent t else d) d1) d

/-- DAWN: the steps of a wake, then the held writes (R492); a Dawn that fails acts as RESET_L. -/
def State.dawnRow (s : State) (ok : Bool) (env : TickEnv) : State :=
  if !s.dev.pwr.dawn || s.dev.boot.thermtrip || !s.dev.boot.powered then s
  else if !ok then s.resetL true
  else
    let d := (s.dev.dawnSteps s.nv.fuses env).coresStart
    ({ s with dev := d, latch := none }).replayAll d.cfg.parties

/-! ## The rows -/

def execRegisterWrite (party off : Nat) (value : W64) (width : Nat) (host : List Host.Cell) (s : State) : Host.Outcome State Fault Refusal :=
  .next (s.write party off value width host)
def execTwSubmitCtl (tenant : Nat) (value : W64) (host : List Host.Cell) (s : State) : Host.Outcome State Fault Refusal :=
  .next (if tenant < 64 then s.write tenant 0x50 value 64 host else s)
def execMgSubmitCtl (value : W64) (host : List Host.Cell) (s : State) : Host.Outcome State Fault Refusal := .next (s.write mgmtParty 0x50 value 64 host)
/-- EVENT_CNT_CLEAR (R100). -/
def execEventCntClear (tenant : Nat) (bits : BitVec 4) (s : State) : Host.Outcome State Fault Refusal :=
  .next (if tenant < 64 then s.write tenant 0x10 (BitVec.ofNat 64 (65536 * bits.toNat)) 64 [] else s)
/-- EVENT_FLAG_CLEAR (R6, R99): `setting` are the flags that hardware sets in the same cycle; those read 1 afterwards. -/
def execEventFlagClear (tenant : Nat) (bits setting : BitVec 4) (s : State) : Host.Outcome State Fault Refusal :=
  .next (if tenant < 64 then
      let s1 := s.write tenant 0x10 (BitVec.ofNat 64 bits.toNat) 64 []
      if s.dev.windowOn tenant ∧ s.dev.awake ∧ s.dev.boot.stage = 6 then
        { s1 with dev := (List.range 4).foldl (fun d k => if setting.getLsbD k then d.event tenant k else d) s1.dev }
      else s1
    else s)
def execComplRingEnable (party : Nat) (value : W64) (s : State) : Host.Outcome State Fault Refusal := .next (s.write party 0x90 value 64 [])
def execComplHeadWrite (party : Nat) (value : W64) (s : State) : Host.Outcome State Fault Refusal := .next (s.write party 0x98 value 64 [])
def execErrRingEnable (tenant : Nat) (value : W64) (s : State) : Host.Outcome State Fault Refusal := .next (s.write tenant 0x210 value 64 [])

/-- Where TB_TRG_CTL, ACTION, TARGET and TB_TRK_POS lie in a party's window. -/
def trgOff (party k : Nat) : Nat := if party < 64 then 0x4000 + 32 * k else 0x14000 + 32 * k
def trgTargetOff (party k : Nat) : Nat := if party < 64 then 0x6000 + 8 * k else 0x1C000 + 8 * k
def trkPosOff (party n : Nat) : Nat := if party < 64 then 0x6800 + 8 * n else 0x11000 + 8 * n
def trgIndexOk (party k : Nat) : Bool := if party < 64 then decide (k < 256) else decide (k < 1024)

/-- TRIGGER_ARM (R78, R80): a write of TB_TRG_TARGET, whole or one half of it. -/
def execTriggerArm (party k : Nat) (value : W64) (half : Half) (s : State) : Host.Outcome State Fault Refusal :=
  .next (if !trgIndexOk party k then s
    else match half with
      | .full => s.write party (trgTargetOff party k) value 64 []
      | .low => s.write party (trgTargetOff party k) value 32 []
      | .high => s.write party (trgTargetOff party k + 4) (value >>> 32) 32 [])
/-- TRIGGER_DISARM (R80): a write of TB_TRG_CTL or TB_TRG_ACTION. -/
def execTriggerDisarm (party k : Nat) (isAction : Bool) (value : W64) (s : State) : Host.Outcome State Fault Refusal :=
  .next (if !trgIndexOk party k then s else s.write party (trgOff party k + if isAction then 8 else 0) value 64 [])
/-- TRIGGER_COUNT_CLEAR: clr_cnt written with the CTL value that the trigger shows; like any write of CTL it also disarms (R80). -/
def execTriggerCountClear (party k : Nat) (s : State) : Host.Outcome State Fault Refusal :=
  .next (if !trgIndexOk party k then s else s.write party (trgOff party k) (s.readReg party (trgOff party k) ||| 0x800#64) 64 [])
/-- TRACK_PRESET (R75): a write of TB_TRK_POS. -/
def execTrackPreset (party n : Nat) (value : W64) (s : State) : Host.Outcome State Fault Refusal :=
  .next (if n < 256 then s.write party (trkPosOff party n) value 64 [] else s)

/-- COUNTER_EVENT_SELECT (R512): a write of an event select; the count clears. -/
def execCounterEventSelect (set n : Nat) (value : W64) (s : State) : Host.Outcome State Fault Refusal :=
  .next (if counterExists set n then s.write mgmtParty (eventOff set n) value 64 [] else s)
/-- COUNTER_CLEAR (R512): clr written with the select that the register shows. -/
def execCounterClear (set n : Nat) (s : State) : Host.Outcome State Fault Refusal :=
  .next (if counterExists set n then s.write mgmtParty (eventOff set n) (s.readReg mgmtParty (eventOff set n) ||| 0x1000000#64) 64 [] else s)
/-- TW_PMC_SELECT (R514): a write in the counter view. -/
def execTwPmcSelect (tenant off : Nat) (value : W64) (s : State) : Host.Outcome State Fault Refusal :=
  .next (if tenant < 64 ∧ 0x1000 ≤ off ∧ off < 0x10C0 then s.write tenant off value 64 [] else s)

def execStageImage (value : W64) (host : List Host.Cell) (s : State) : Host.Outcome State Fault Refusal := .next (s.write mgmtParty 0x2028 value 64 host)
/-- The four kinds of MG_RESET_REQ (R60): each row is a write whose kind field is its own. -/
def resetValue (kind : Nat) (value : W64) : W64 := BitVec.ofNat 64 (value.toNat / 8 * 8 + kind)
def execResetDevice (value : W64) (s : State) : Host.Outcome State Fault Refusal := .next (s.write mgmtParty 0x2010 (resetValue 1 value) 64 [])
def execResetPartition (value : W64) (s : State) : Host.Outcome State Fault Refusal := .next (s.write mgmtParty 0x2010 (resetValue 2 value) 64 [])
def execResetTenant (value : W64) (s : State) : Host.Outcome State Fault Refusal := .next (s.write mgmtParty 0x2010 (resetValue 3 value) 64 [])
def execResetControlCore (value : W64) (s : State) : Host.Outcome State Fault Refusal := .next (s.write mgmtParty 0x2010 (resetValue 4 value) 64 [])
def execDebugUnlock (host : List Host.Cell) (s : State) : Host.Outcome State Fault Refusal := .next (s.write mgmtParty secDbgCtl 1 64 host)
def execDebugCancel (s : State) : Host.Outcome State Fault Refusal := .next (s.write mgmtParty secDbgCtl 2 64 [])
def execMrExtend (value : W64) (host : List Host.Cell) (s : State) : Host.Outcome State Fault Refusal :=
  .next (s.write mgmtParty secMrExt (value ||| 0x8000000000000000#64) 64 host)
def execFwUpdateGo (value : W64) (host : List Host.Cell) (s : State) : Host.Outcome State Fault Refusal :=
  .next (s.write mgmtParty fwUpdCtl ((value &&& 0x3FFFFFFFFFFFFFFF#64) ||| 0x8000000000000000#64) 64 host)
def execFwUpdateAbort (s : State) : Host.Outcome State Fault Refusal := .next (s.write mgmtParty fwUpdCtl 0x4000000000000000#64 64 [])
/-- ENTER_DUSK, ENTER_NIGHT (R479, R480): PWR_STATE_REQ with the target of the row; the next tick checks it. -/
def execEnterDusk (value : W64) (s : State) : Host.Outcome State Fault Refusal := .next (s.write mgmtParty 0xD0008 (BitVec.ofNat 64 (value.toNat / 4 * 4 + 2)) 64 [])
def execEnterNight (value : W64) (s : State) : Host.Outcome State Fault Refusal := .next (s.write mgmtParty 0xD0008 (BitVec.ofNat 64 (value.toNat / 4 * 4 + 3)) 64 [])

def execCcRestartComplete (core : Nat) (s : State) : Host.Outcome State Fault Refusal := .next (s.restartDone core)
def execWatchdogExpiry (core : Nat) (s : State) : Host.Outcome State Fault Refusal := .next (s.coreFails core 0)
def execCcCodeEccError (core : Nat) (s : State) : Host.Outcome State Fault Refusal := .next (s.coreFails core 2)
/-- HANDOFF_ACK: the new image acknowledges within its 100 ms (R463, R464, R465). -/
def execHandoffAck (s : State) : Host.Outcome State Fault Refusal :=
  .next (if s.dev.fw.updState = 3 ∧ s.dev.coresOn ∧ s.dev.ackOverdue = false then s.handoffDone.releaseHold else s)
/-- HANDOFF_ROLLBACK: 100 ms have passed without it (R464). -/
def execHandoffRollback (s : State) : Host.Outcome State Fault Refusal := .next (if s.dev.coresOn ∧ s.dev.ackOverdue = true then s.rollback else s)
def execDawn (e : DawnEnv) (s : State) : Host.Outcome State Fault Refusal := .next (s.dawnRow e.ok e.env)

end Sys2Proof.Machine
end

