-- ==== Sys2Proof/Machine/Serving.lean ====
section
/-! DEFINITION. Requests, the control of sequences, images and waits, and the rows of batches and of step programs (R311-R334). -/
namespace Sys2Proof.Machine
open Sys2Proof

/-! ## REQUEST (R311, R312) -/

/-- The descriptor that validation kept for the running command of a queue. -/
def Dev.keptReq (d : Dev) (q : Nat) : W1024 :=
  match (d.que q).lists with | l :: _ => l.reqs.get l.index 0 | [] => 0

/-- The lowest free record, if any (R312). -/
def Dev.freeRecord (d : Dev) : Option Nat := (List.range 4096).find? (fun r => (d.seq r).isNone)

/-- What ends a REQUEST at start (R311), but for its prompt. -/
def Dev.requestFault (d : Dev) (party p : Nat) (r : W1024) : Option Fail :=
  let slot := bytesAt r 0 1
  let dr := bytesAt r 1 1
  let ad := bytesAt r 6 1
  let adp := (d.ten party).adapters.get ad {}
  match d.modelGone p slot, (if dr = 0xFF then none else d.modelGone p dr) with
  | some e, _ => some e
  | none, some e => some e
  | none, none =>
    if d.cfg.tenSeqs party ≤ (d.live.filter (fun e => decide (e.2.tenant = party))).length then some { status := 0x0F, code := 0xE1 }
    else if d.cfg.partSeqs p ≤ (d.partLive p).length ∨ 4096 ≤ d.live.length ∨ d.freeRecord.isNone then some { status := 0x01, code := 0xE2 }
    else if ad ≠ 0xFF ∧ !adp.bound then some { status := 0x10, code := 0xE3 }
    else if ad ≠ 0xFF ∧ adp.heldByTune then some { status := 0x01, code := 0xE4 }
    else none

/-- Looks the first blocks of a prompt up for one model of a new sequence: the lists it takes, and the slow lookups (R294, R297). -/
def Dev.matchFor (d : Dev) (tree p slot gen : Nat) (toks : List Nat) : List (Node × W64) × Nat :=
  let blocks := chunksOf 64 (toks.take ((toks.length - 1) / 64 * 64)) ((toks.length - 1) / 64)
  let ms := d.matchBlocks tree p slot gen blocks (d.rootHash (slotNo p slot) gen)
  (ms, (ms.filter (fun x => !x.1.indexed)).length + (if ms.length < blocks.length then 1 else 0))

/-- The matched blocks for whose tables the pool has granules: 256 to a table (R264, R267). -/
def Dev.tablesFor (d : Dev) (r : Nat) (draft : Bool) (n : Nat) : Dev × Nat :=
  (List.range (cdiv n 256)).foldl (fun s k =>
    if s.2 < 256 * k then s
    else match s.1.ensureTable r draft (256 * k) with
      | (d1, none) => (d1, min n (256 * (k + 1)))
      | (d1, some _) => (d1, s.2)) (d, 0)

/-- A new sequence takes the lists that its prompt matched (R294). -/
def Dev.takeMatches (d : Dev) (r : Nat) (draft : Bool) (ms : List (Node × W64)) : Dev :=
  let x := d.tablesFor r draft ms.length
  let ms := ms.take x.2
  let d1 := ms.foldl (fun d x =>
    { (d.holdList x.1.list) with kv := { (d.holdList x.1.list).kv with
        nodes := (d.holdList x.1.list).kv.nodes.map (fun n => if n.tree = x.1.tree ∧ n.hash = x.1.hash then { n with lastUse := BitVec.ofNat 32 d.tick } else n) } }) x.1
  d1.modSeq r (fun q =>
    let tb : Tbl (Option Nat) := ms.mapIdx (fun i x => (i, some x.1.list))
    if draft then { q with draftBlocks := tb, draftTail := 64 * ms.length, draftHashes := ms.mapIdx (fun i x => (i, some x.2)) }
    else { q with blocks := tb, tail := 64 * ms.length, hashes := ms.mapIdx (fun i x => (i, some x.2)) })

/-- A request is admitted in record `r`. -/
def Dev.takeRequest (d : Dev) (q r : Nat) (req : W1024) (toks : List Nat) : Dev × Nat :=
  let party := qParty q
  let p := d.qPart q
  let slot := bytesAt req 0 1
  let dr := bytesAt req 1 1
  let genOf (s : Nat) : Nat := match d.currentGen (slotNo p s) with | some g => g.number | none => 0
  let uses := (d.tok.uses.get r 0 + 1) % 1048576
  let id := r + 4096 * uses
  let s : Seq := { id := id, tenant := party, partition := p, req := req, engine := qEngine q, queue := qIndex q, subTag := (d.cmdAt q).2, gen := genOf slot,
                   draftGen := if dr = 0xFF then 0 else genOf dr, k := bytesAt req 2 1, admitted := d.time, lastBatch := d.time,
                   tokens := toks.mapIdx (fun i t => (i, t)) }
  let d1 := { (d.putSeq r (some s)) with tok := { (d.putSeq r (some s)).tok with uses := d.tok.uses.set r uses } }
  let d2 := d1.pin (slotNo p slot) s.gen
  let d3 := if dr = 0xFF then d2 else d2.pin (slotNo p dr) s.draftGen
  let d4 :=
    if s.noShare || decide (s.adapter ≠ 0xFF) then d3
    else
      let tree := d3.treeOf party
      let x := d3.matchFor tree p slot s.gen toks
      let y := if dr = 0xFF then ([], 0) else d3.matchFor tree p dr s.draftGen toks
      let d4 := (d3.takeMatches r false x.1).takeMatches r true y.1
      d4.modPart p (fun v => { v with slowCnt := satAdd v.slowCnt (x.2 + y.2) })
  (if s.countPrompt then d4.countToks r toks else d4, id)

/-- REQUEST. -/
def Dev.requestCmd (d : Dev) (q : Nat) : Dev :=
  d.begin q 0x40 (fun d _ =>
    let req := d.keptReq q
    let party := qParty q
    match d.requestFault party (d.qPart q) req with
    | some e => d.failDisp q e
    | none =>
      match d.readMem (d.qView q) (bytesAt req 8 8) (4 * bytesAt req 0x10 4) with
      | (d1, .error e) => d1.failMem q e
      | (d1, .ok b) =>
        let toks := codes32 b
        let m := match d1.currentGen (slotNo (d.qPart q) (bytesAt req 0 1)) with | some g => g.manifest | none => []
        if toks.any (fun t => decide (srvVocab m ≤ t)) then d1.failDisp q { status := 0x04, code := 0xEC }
        else match d1.freeRecord with
          | none => d1.failDisp q { status := 0x01, code := 0xE2 }
          | some r =>
            match d1.takeRequest q r req toks with
            | (d2, id) => (d2.finish q (BitVec.ofNat 64 id)))

/-! ## SEQ_CTL (R327, R330, R331) -/

/-- The refusal of a SEQ_CTL. -/
def seqRefused : Fail := { status := 0x03, code := 0xE6 }

/-- Starts a SEQ_CTL of operation `op` on the sequence that it names. -/
def Dev.seqCtl (d : Dev) (q op : Nat) (f : Dev → W512 → Nat → Seq → Dev) : Dev :=
  match d.startable q 0x41 with
  | none => d
  | some c0 =>
    if cmdArg c0 % 4 ≠ op then d
    else d.begin q 0x41 (fun d c =>
      match d.findSeq (bytesAt c 8 4) with
      | none => d.failDisp q seqRefused
      | some (r, s) =>
        if s.tenant ≠ qParty q ∨ s.state = 8 then d.failDisp q seqRefused
        else if s.heldBy.isSome then d.failOpen q 0x01
        else f d c r s)

/-- SEQ_CTL op 0. -/
def Dev.seqCancel (d : Dev) (q : Nat) : Dev :=
  d.seqCtl q 0 (fun d _ r s =>
    if s.state = 1 then (d.modSeq r (fun v => { v with cancelPend := true })).finish q s.word
    else ((d.endSeq r 4 0 0).finish q { s with state := 8, endReason := 4 }.word))

/-- SEQ_CTL op 1. -/
def Dev.seqPause (d : Dev) (q : Nat) : Dev :=
  d.seqCtl q 1 (fun d c r s =>
    let ttl := bytesAt c 12 4
    let start (v : Seq) : Seq := { v with pauseTtl := ttl, pauseTick := d.tick }
    let done (d : Dev) : Dev := d.finish q (match d.seq r with | some v => v.word | none => s.word)
    if s.state = 6 then d.failDisp q seqRefused
    -- an image needs a fresh pause key (R413)
    else if d.sec.rngFail ∧ ¬(s.state = 3 ∨ s.state = 4 ∨ s.state = 5) then d.failOpen q 0x01
    else if s.state = 1 then d.modSeq r (fun v => { start v with pausePend := true, pausers := v.pausers ++ [q] })
    else if s.state = 3 then
      let d1 := d.modSeq r (fun v => { start v with state := 5 })
      done (match d1.seq r with | some v => d1.seqEntry v | none => d1)
    else if s.state = 4 ∨ s.state = 5 then done (d.modSeq r start)
    -- an image that the sequence was being restored from stays; one that was being written as a victim's does not
    else d.modSeq r (fun v => { start v with state := 4, pausers := v.pausers ++ [q], image := v.image.filter (fun im => !im.writing) }))

/-- SEQ_CTL op 2. -/
def Dev.seqResume (d : Dev) (q : Nat) : Dev :=
  d.seqCtl q 2 (fun d _ r s =>
    if s.state = 5 ∨ s.state = 3 then d.modSeq r (fun v => { v with state := 6, resumers := v.resumers ++ [q] }) else d.failDisp q seqRefused)

/-! ## Images (R328-R330, R333) -/

/-- A drive that failed twice ends the command that used it (R213). -/
def driveFailed : Fail := { status := 0x11, code := 0xB8 }

/-- The image of a PAUSING sequence: one from which its pages were still being restored is whole and stays, and what was restored is
freed; else it is written (R327, R328). -/
def Dev.pauseImage (d : Dev) (r : Nat) (s : Seq) : Dev × ImageEnd :=
  match s.image with
  | some _ => (d.freeImaged r, .made)
  | none => d.makeImage r s.pauseNvme

/-- PAUSE_IMAGE_WRITTEN: the image is complete and the sequence is PAUSED, or there was no room for it; where the drive failed twice the
SEQ_CTLs end and the sequence keeps its pages and goes back to where it was (DESIGN CHOICE: R213 ends the command). -/
def Dev.pauseWritten (d : Dev) (r : Nat) : Dev :=
  match d.seq r with
  | none => d
  | some s =>
    if s.state ≠ 4 then d
    else match d.pauseImage r s with
      | (d1, .noRoom) => (d1.endSeq r 5 0x07 (detailOf 0xE8 0))
      | (d1, .driveFailed) => d1.ctlFail r (if s.prefillOnly && s.promptDone then 7 else 0) s.pausers driveFailed
      | (d1, .made) =>
        match d1.seq r with
        | none => d1
        | some v0 =>
          let v : Seq := { v0 with state := 5, pauseTick := d.tick, pausePend := false }
          ((d1.putSeq r (some v)).seqEntry v).ctlDone v.pausers v

/-- PREEMPT_IMAGE_WRITTEN: a victim's image lies in the NVMe tier and it is PREEMPTED. -/
def Dev.preemptWritten (d : Dev) (r : Nat) : Dev :=
  match d.seq r with
  | none => d
  | some s =>
    match s.image with
    | none => d
    | some im =>
      if !im.writing || !(decide (s.state = 0) || decide (s.state = 7)) then d
      else if d.sec.rngFail then d.modSeq r (fun v => { v with image := none })
      else match (d.modSeq r (fun v => { v with image := none })).makeImage r true with
        | (d1, .noRoom) => d1
        | (d1, .driveFailed) => d1
        | (d1, .made) =>
          let d2 := d1.modSeq r (fun v => { v with state := 3 })
          let d3 := { d2 with tok := { d2.tok with flags := d2.tok.flags ||| 2, preemptCnt := satInc d2.tok.preemptCnt } }
          (match d3.seq r with | some v => d3.seqEntry v | none => d3)

/-- PAUSE_EXPIRY: at a tick boundary, the time to live of a paused sequence has run out (R30, R329). -/
def Dev.pauseExpiry (d : Dev) (r : Nat) : Dev :=
  match d.seq r with
  | none => d
  | some s =>
    if s.state = 5 && d.atTick && decide (s.pauseTick + 1000 * s.pauseTtl ≤ d.tick) && !d.coreOut (s.tenant % 8) then
      (((d.endSeq r 7 0x11 (detailOf 0xE9 0))).logRec (s.tenant % 8) 0x8B s.tenant (unitHub 0 (s.tenant % 8)) 0 s.id).deferred (s.tenant % 8) s.tenant (s.pauseTick + 1000 * s.pauseTtl)
    else d

/-- What a restore came to. -/
inductive Restored where
  | ok (d : Dev)
  | waits (d : Dev)
  | ended (d : Dev)

/-- One page of an image gets its place again, with the steps of R333 while the pool cannot supply it. -/
def Dev.restorePage (d : Dev) (r : Nat) (x : Nat × Nat × Nat × Page × List B8) : Nat → Restored
  | 0 => .waits d
  | fuel + 1 =>
    match d.ensurePage r (decide (x.2.1 = 1)) x.1 x.2.2.1 with
    | (d1, .ok pi) =>
      match d1.kvPage pi with
      | none => .ok d1
      | some pg =>
        let o := x.2.2.2.1
        .ok ((d1.writePhys (d1.granuleDpa pg.partition pg.granule) x.2.2.2.2).putPage pi (some { pg with scaleSet := o.scaleSet, keyScale := o.keyScale, valueScale := o.valueScale }))
    | (d1, .error e) =>
      if e.code ≠ 0xD7 then .ended (d1.endGrower r e)
      else match d1.relieve r with
        | .done d2 => d2.restorePage r x fuel
        | .wait d2 => .waits d2
        | .none => .waits (d1.waitPage r)

/-- The pages of an image get their places again one by one, until one has to wait or ends the sequence (R328, R333). -/
def Dev.restoreAll (d : Dev) (r : Nat) : List (Nat × Nat × Nat × Page × List B8) → Restored
  | [] => .ok d
  | x :: xs =>
    match d.restorePage r x d.growFuel with
    | .ok d1 => Dev.restoreAll d1 r xs
    | y => y

/-- The pages of an image that the sequence does not have yet. -/
def Dev.unrestored (d : Dev) (q : Seq) (pages : List (Nat × Nat × Nat × Page × List B8)) : Nat :=
  (pages.filter (fun x => match (q.block (decide (x.2.1 = 1)) x.1).bind d.kvList with
    | some l => (l.pages.get x.2.2.1 none).isNone
    | none => true)).length

/-- The image of a sequence is restored; the quota of the owner is checked for all of its pages first (R330, R332). -/
def Dev.restoreImage (d : Dev) (r : Nat) (q : Seq) (im : Image) : Restored :=
  if d.overQuota q.tenant (d.unrestored q im.pages) then .ended (d.endGrower r kvNoQuota) else d.restoreAll r im.pages

/-- A restored sequence gives up its image and is QUEUED again with its T; one whose prefill was all it asked for is HELD again (DEDUCED). -/
def Dev.resumed (d : Dev) (r : Nat) : Dev :=
  let d1 := d.dropImage r
  match d1.seq r with
  | none => d1
  | some q =>
    let v : Seq := { q with pauseTtl := 0, state := if q.prefillOnly && q.promptDone then 7 else 0 }
    ((d1.putSeq r (some v)).seqEntry v).ctlDone v.resumers v

/-- A sequence goes on from its image: it is QUEUED again, waits for space, or ends. -/
def Dev.restoreRun (d : Dev) (r : Nat) (s : Seq) : Dev :=
  let im : Image := s.image.getD {}
  if im.badTag then (d.endSeq r 9 0x0D (detailOf 0xEA 0))
  else match (if im.nvme then d.driveUse im.drive else (d, true)) with
  | (d1, false) => d1.ctlFail r (if s.pauseTtl = 0 then 3 else 5) s.resumers driveFailed
  | (d1, true) =>
    match d1.restoreImage r s im with
    | .ok d2 => d2.resumed r
    | .waits d2 => d2
    | .ended d2 => d2

/-- RESUME_RESTORED: the pages of the image are back and the sequence is QUEUED; or it waits for space, or ends. -/
def Dev.resumeRestored (d : Dev) (r : Nat) : Dev :=
  match d.seq r with
  | none => d
  | some s => if s.state ≠ 6 then d else d.restoreRun r s

/-! ## Waiting for pages (R334) -/

/-- A waiting sequence tries its allocation again: it is QUEUED where that succeeds, ends at its quota, and else goes on waiting. -/
def Dev.retryGrow (d : Dev) (r : Nat) (s : Seq) : Dev :=
  let w := d.workOf s
  match takeMembers (d.seqManifest s w.2) w.1 w.2 [(r, s)] with
  | [] => d.modSeq r (fun v => { v with state := 0 })
  | x :: _ =>
    match d.grow r w.2 x.2.2 (x.2.2 + x.2.1) d.growFuel with
    | .ok d1 => d1.modSeq r (fun v => { v with state := 0 })
    | .out d1 => d1

/-- PAGE_WAIT_RETRY: the highest waiting sequence of a partition tries again, from its image where it was being restored (R334). -/
def Dev.pageRetry (d : Dev) (p : Nat) : Dev :=
  let ws := (d.partLive p).filter (fun e => decide (e.2.state = 2))
  match ws.foldl (fun (b : Option (Nat × Seq)) x => match b with | none => some x | some y => if y.2.below x.2 then some x else some y) none with
  | none => d
  | some (r, s) => if s.image.isSome then d.restoreRun r s else d.retryGrow r s

/-- PAGE_WAIT_TIMEOUT. -/
def Dev.pageTimeout (d : Dev) (r : Nat) : Dev :=
  match d.seq r with
  | none => d
  | some s =>
    if s.state = 2 ∧ d.tok.pageWaitS ≠ 0 ∧ s.waitSince.toNat + d.tok.pageWaitS * 1000000000 ≤ d.time.toNat then
      let d1 := (d.endSeq r 5 0x07 (detailOf 0xE7 0))
      { d1 with tok := { d1.tok with flags := d1.tok.flags ||| 4, pageWaitCnt := satInc d1.tok.pageWaitCnt } }
    else d

/-! ## The rows -/

def execRequest (q : Nat) (s : State) : Host.Outcome State Fault Refusal := .next { s with dev := s.dev.requestCmd q }
def execSeqCtlCancel (q : Nat) (s : State) : Host.Outcome State Fault Refusal := .next { s with dev := s.dev.seqCancel q }
def execSeqCtlPause (q : Nat) (s : State) : Host.Outcome State Fault Refusal := .next { s with dev := s.dev.seqPause q }
def execSeqCtlResume (q : Nat) (s : State) : Host.Outcome State Fault Refusal := .next { s with dev := s.dev.seqResume q }
def execPauseImageWritten (r : Nat) (s : State) : Host.Outcome State Fault Refusal := .next { s with dev := s.dev.pauseWritten r }
def execPreemptImageWritten (r : Nat) (s : State) : Host.Outcome State Fault Refusal := .next { s with dev := s.dev.preemptWritten r }
def execResumeRestored (r : Nat) (s : State) : Host.Outcome State Fault Refusal := .next { s with dev := s.dev.resumeRestored r }
def execPauseExpiry (r : Nat) (s : State) : Host.Outcome State Fault Refusal := .next { s with dev := s.dev.pauseExpiry r }
def execBatchStart (p : Nat) (s : State) : Host.Outcome State Fault Refusal := .next { s with dev := (s.dev.batchStart p) }
def execBatchEnd (p : Nat) (s : State) : Host.Outcome State Fault Refusal := .next { s with dev := (s.dev.batchEnd p) }
def execPageWaitRetry (p : Nat) (s : State) : Host.Outcome State Fault Refusal := .next { s with dev := s.dev.pageRetry p }
def execPageWaitTimeout (r : Nat) (s : State) : Host.Outcome State Fault Refusal := .next { s with dev := s.dev.pageTimeout r }
def execKvIndexRebuild (p : Nat) (s : State) : Host.Outcome State Fault Refusal :=
  .next { s with dev := s.dev.rebuildIndex p }
def execKvCompaction (p : Nat) (s : State) : Host.Outcome State Fault Refusal :=
  .next { s with dev := s.dev.compact p }

/-! The rows of a step program: issue, barriers, units. -/

def execStepIssue (r : RegionRun) (s : State) : Host.Outcome State Fault Refusal := .next { s with dev := s.dev.issue r.run r.region }
def execStepNop (r : RegionRun) (s : State) : Host.Outcome State Fault Refusal := .next { s with dev := s.dev.nopStep r.run r.region }
def execEngineStart (region : Nat) (s : State) : Host.Outcome State Fault Refusal := .next { s with dev := s.dev.gustStart region }
def execSync (r : RegionRun) (s : State) : Host.Outcome State Fault Refusal := .next { s with dev := s.dev.syncStep r.run r.region }
def execSyncRelease (r : RunRef) (s : State) : Host.Outcome State Fault Refusal := .next { s with dev := s.dev.syncRelease r }
def execMatmul (r : RunRef) (c : Nat) (s : State) : Host.Outcome State Fault Refusal := .next { s with dev := s.dev.matStep r c }
def execAdd (r : RunRef) (c : Nat) (s : State) : Host.Outcome State Fault Refusal := .next { s with dev := s.dev.vectorStep 0x01 r c }
def execMul (r : RunRef) (c : Nat) (s : State) : Host.Outcome State Fault Refusal := .next { s with dev := s.dev.vectorStep 0x02 r c }
def execAxpby (r : RunRef) (c : Nat) (s : State) : Host.Outcome State Fault Refusal := .next { s with dev := s.dev.vectorStep 0x03 r c }
def execMax (r : RunRef) (c : Nat) (s : State) : Host.Outcome State Fault Refusal := .next { s with dev := s.dev.vectorStep 0x04 r c }
def execConvert (r : RunRef) (c : Nat) (s : State) : Host.Outcome State Fault Refusal := .next { s with dev := s.dev.vectorStep 0x05 r c }
def execExp (r : RunRef) (c : Nat) (s : State) : Host.Outcome State Fault Refusal := .next { s with dev := s.dev.vectorStep 0x06 r c }
def execRecip (r : RunRef) (c : Nat) (s : State) : Host.Outcome State Fault Refusal := .next { s with dev := s.dev.vectorStep 0x07 r c }
def execRsqrt (r : RunRef) (c : Nat) (s : State) : Host.Outcome State Fault Refusal := .next { s with dev := s.dev.vectorStep 0x08 r c }
def execTanh (r : RunRef) (c : Nat) (s : State) : Host.Outcome State Fault Refusal := .next { s with dev := s.dev.vectorStep 0x09 r c }
def execSigmoid (r : RunRef) (c : Nat) (s : State) : Host.Outcome State Fault Refusal := .next { s with dev := s.dev.vectorStep 0x0A r c }
def execGelu (r : RunRef) (c : Nat) (s : State) : Host.Outcome State Fault Refusal := .next { s with dev := s.dev.vectorStep 0x0B r c }
def execSilu (r : RunRef) (c : Nat) (s : State) : Host.Outcome State Fault Refusal := .next { s with dev := s.dev.vectorStep 0x0C r c }
def execRowSum (r : RunRef) (c : Nat) (s : State) : Host.Outcome State Fault Refusal := .next { s with dev := s.dev.vectorStep 0x10 r c }
def execRowMax (r : RunRef) (c : Nat) (s : State) : Host.Outcome State Fault Refusal := .next { s with dev := s.dev.vectorStep 0x11 r c }
def execSoftmax (r : RunRef) (c : Nat) (s : State) : Host.Outcome State Fault Refusal := .next { s with dev := s.dev.vectorStep 0x12 r c }
def execRmsnorm (r : RunRef) (c : Nat) (s : State) : Host.Outcome State Fault Refusal := .next { s with dev := s.dev.vectorStep 0x13 r c }
def execLayernorm (r : RunRef) (c : Nat) (s : State) : Host.Outcome State Fault Refusal := .next { s with dev := s.dev.vectorStep 0x14 r c }
def execQuantRow (r : RunRef) (c : Nat) (s : State) : Host.Outcome State Fault Refusal := .next { s with dev := s.dev.vectorStep 0x15 r c }
def execTopkRow (r : RunRef) (c : Nat) (s : State) : Host.Outcome State Fault Refusal := .next { s with dev := s.dev.vectorStep 0x16 r c }
def execGatherRows (r : RunRef) (c : Nat) (s : State) : Host.Outcome State Fault Refusal := .next { s with dev := s.dev.vectorStep 0x17 r c }
def execScatterRows (r : RunRef) (c : Nat) (s : State) : Host.Outcome State Fault Refusal := .next { s with dev := s.dev.vectorStep 0x18 r c }
def execDma (r : RunRef) (c : Nat) (s : State) : Host.Outcome State Fault Refusal := .next { s with dev := s.dev.dmaStep r c }
def execLoadScales (r : RunRef) (c : Nat) (s : State) : Host.Outcome State Fault Refusal := .next { s with dev := s.dev.scalesStep r c }
def execAttend (r : RunRef) (region : Nat) (s : State) : Host.Outcome State Fault Refusal := .next { s with dev := s.dev.attendStep r region }
def execAppend (r : RunRef) (region : Nat) (s : State) : Host.Outcome State Fault Refusal := .next { s with dev := s.dev.appendStep r region }
def execRingXfer (r : RunRef) (region : Nat) (s : State) : Host.Outcome State Fault Refusal := .next { s with dev := s.dev.ringStep r region }

end Sys2Proof.Machine
end

