-- ==== Sys2Proof/Machine/Smbus.lean ====
section
/-! DEFINITION. The board-management port (R536). -/
namespace Sys2Proof.Machine
open Sys2Proof

/-- One byte of the SMBus packet error code: CRC-8 with polynomial x^8 + x^2 + x + 1. -/
def pecByte (crc b : B8) : B8 := (List.range 8).foldl (fun (c : B8) _ => if c.getLsbD 7 then (c <<< 1) ^^^ 0x07 else c <<< 1) (crc ^^^ b)
def pecOf (l : List B8) : B8 := l.foldl pecByte 0

/-- The port's address: 0x6A, or 0x6B with SMB_ADDR high. -/
def Pwr.smbTarget (p : Pwr) : Nat := if p.smbAddr then 0x6B else 0x6A

/-- A block read: the count, the data, and the PEC over the whole transaction. It is answered in every package state (R536). -/
def State.smbBlock (s : State) (command : Nat) (data : List B8) : State :=
  let d := s.dev
  if !d.boot.powered then s
  else
    let a := 2 * d.pwr.smbTarget
    let head := leBytes 1 a ++ leBytes 1 command ++ leBytes 1 (a + 1)
    let body := leBytes 1 data.length ++ data
    { s with dev := { d with pwr := { d.pwr with smbOut := body ++ [pecOf (head ++ body)] } } }

def State.smbReg (s : State) (command : Nat) (v : W64) : State := s.smbBlock command (leBytes 8 v.toNat)

/-- The bytes of command 0x03: five temperatures, then stale in Dusk and Night. -/
def Pwr.smbTemps (p : Pwr) : List B8 :=
  ((List.range 5).map (fun n => leBytes 2 (ofSigned 16 (p.temp.get n 0)))).flatten ++ leBytes 1 (one (decide (1 < p.state)))

/-- Command 0x10 with 0xA5 acts as WAKE_L held low until Dawn begins (R491). -/
def Dev.smbWake (d : Dev) (data : B8) : Dev :=
  if data ≠ 0xA5 ∨ !d.boot.powered ∨ d.boot.thermtrip then d
  else if d.pwr.state ≤ 1 then { d with pwr := { d.pwr with wakePin := true } }
  else d.wake 5

/-- The Alert Response Address read: the asserting target answers with its address and releases SMB_ALERT_L. -/
def Dev.smbAlert (d : Dev) : Dev :=
  if !d.boot.powered || !d.pwr.alert then d
  else
    let a := leBytes 1 (2 * d.pwr.smbTarget)
    { d with pwr := { d.pwr with alert := false, smbOut := a ++ [pecOf (0x19 :: a)] } }

def execSmbReadBootStatus (s : State) : Host.Outcome State Fault Refusal := .next (s.smbReg 0x01 s.dev.boot.statusReg)
def execSmbReadState (s : State) : Host.Outcome State Fault Refusal := .next (s.smbReg 0x02 s.dev.pwr.stateReg)
def execSmbReadTemperatures (s : State) : Host.Outcome State Fault Refusal := .next (s.smbBlock 0x03 s.dev.pwr.smbTemps)
def execSmbReadPower (s : State) : Host.Outcome State Fault Refusal := .next (s.smbReg 0x04 s.dev.pwr.powerReg)
def execSmbReadWake (s : State) : Host.Outcome State Fault Refusal := .next (s.smbReg 0x05 s.dev.pwr.wakeReg)
def execSmbReadSecStatus (s : State) : Host.Outcome State Fault Refusal := .next (s.smbReg 0x06 s.dev.sec.statusReg)
def execSmbWake (data : B8) (s : State) : Host.Outcome State Fault Refusal := .next { s with dev := s.dev.smbWake data }
def execSmbAlertResponse (s : State) : Host.Outcome State Fault Refusal := .next { s with dev := s.dev.smbAlert }

end Sys2Proof.Machine
end

