-- ==== Sys2Proof/Machine/Dispatch.lean ====
section
/-! DEFINITION. Which meaning each command has. -/
namespace Sys2Proof.Machine
open Sys2Proof

def exec (i : Instr) (s : State) : Host.Outcome State Fault Refusal :=
  match i with
  | .powerOn flash epochA epochB writable smbAddr rngOk => Sys2Proof.Machine.execPowerOn flash epochA epochB writable smbAddr rngOk s
  | .resetL rngOk => Sys2Proof.Machine.execResetL rngOk s
  | .memoryTrainingComplete capGib rate ranks density fail => Sys2Proof.Machine.execMemoryTrainingComplete capGib rate ranks density fail s
  | .integrityInitComplete => Sys2Proof.Machine.execIntegrityInitComplete s
  | .bootLock => Sys2Proof.Machine.execBootLock s
  | .railFault aon => Sys2Proof.Machine.execRailFault aon s
  | .avsSetpointTimeout die => Sys2Proof.Machine.execAvsSetpointTimeout die s
  | .thermtrip => Sys2Proof.Machine.execThermtrip s
  | .pciePerst port linkUp => Sys2Proof.Machine.execPciePerst port linkUp s
  | .vfFlr port vf => Sys2Proof.Machine.execVfFlr port vf s
  | .vfEnable port n => Sys2Proof.Machine.execVfEnable port n s
  | .busMasterDisable port vf => Sys2Proof.Machine.execBusMasterDisable port vf s
  | .hostDmaTimeout q addr => Sys2Proof.Machine.execHostDmaTimeout q addr s
  | .hostDmaCompletionError q addr => Sys2Proof.Machine.execHostDmaCompletionError q addr s
  | .managementTick env => Sys2Proof.Machine.execManagementTick env s
  | .opChangeComplete die => Sys2Proof.Machine.execOpChangeComplete die s
  | .triggerFire n => Sys2Proof.Machine.execTriggerFire n s
  | .trackJump n => Sys2Proof.Machine.execTrackJump n s
  | .cameraTrackStall n => Sys2Proof.Machine.execCameraTrackStall n s
  | .triggerArm party k value half => Sys2Proof.Machine.execTriggerArm party k value half s
  | .triggerDisarm party k isAction value => Sys2Proof.Machine.execTriggerDisarm party k isAction value s
  | .triggerCountClear party k => Sys2Proof.Machine.execTriggerCountClear party k s
  | .trackPreset party n value => Sys2Proof.Machine.execTrackPreset party n value s
  | .ptpSync port err => Sys2Proof.Machine.execPtpSync port err s
  | .ptpHoldover => Sys2Proof.Machine.execPtpHoldover s
  | .ptpAnnounce port vector => Sys2Proof.Machine.execPtpAnnounce port vector s
  | .ethFrameReceive port frame => Sys2Proof.Machine.execEthFrameReceive port frame s
  | .ethLinkDown port => Sys2Proof.Machine.execEthLinkDown port s
  | .igmpQuery port => Sys2Proof.Machine.execIgmpQuery port s
  | .smbReadBootStatus => Sys2Proof.Machine.execSmbReadBootStatus s
  | .smbReadState => Sys2Proof.Machine.execSmbReadState s
  | .smbReadTemperatures => Sys2Proof.Machine.execSmbReadTemperatures s
  | .smbReadPower => Sys2Proof.Machine.execSmbReadPower s
  | .smbReadWake => Sys2Proof.Machine.execSmbReadWake s
  | .smbReadSecStatus => Sys2Proof.Machine.execSmbReadSecStatus s
  | .smbWake data => Sys2Proof.Machine.execSmbWake data s
  | .smbAlertResponse => Sys2Proof.Machine.execSmbAlertResponse s
  | .registerWrite party off value width host => Sys2Proof.Machine.execRegisterWrite party off value width host s
  | .twSubmitCtl tenant value host => Sys2Proof.Machine.execTwSubmitCtl tenant value host s
  | .mgSubmitCtl value host => Sys2Proof.Machine.execMgSubmitCtl value host s
  | .eventCntClear tenant bits => Sys2Proof.Machine.execEventCntClear tenant bits s
  | .eventFlagClear tenant bits setting => Sys2Proof.Machine.execEventFlagClear tenant bits setting s
  | .complRingEnable party value => Sys2Proof.Machine.execComplRingEnable party value s
  | .complHeadWrite party value => Sys2Proof.Machine.execComplHeadWrite party value s
  | .errRingEnable tenant value => Sys2Proof.Machine.execErrRingEnable tenant value s
  | .complEntryDrain q => Sys2Proof.Machine.execComplEntryDrain q s
  | .nop q => Sys2Proof.Machine.execNop q s
  | .marker q => Sys2Proof.Machine.execMarker q s
  | .signalWrite q => Sys2Proof.Machine.execSignalWrite q s
  | .signalAdd q => Sys2Proof.Machine.execSignalAdd q s
  | .waitValue q => Sys2Proof.Machine.execWaitValue q s
  | .waitValueMet q => Sys2Proof.Machine.execWaitValueMet q s
  | .waitRelease q => Sys2Proof.Machine.execWaitRelease q s
  | .waitPosition q => Sys2Proof.Machine.execWaitPosition q s
  | .armTrigger q => Sys2Proof.Machine.execArmTrigger q s
  | .barrier q => Sys2Proof.Machine.execBarrier q s
  | .barrierRelease tenant b => Sys2Proof.Machine.execBarrierRelease tenant b s
  | .commandTimeout q => Sys2Proof.Machine.execCommandTimeout q s
  | .regionReservation q => Sys2Proof.Machine.execRegionReservation q s
  | .stepProgram q => Sys2Proof.Machine.execStepProgram q s
  | .tune q => Sys2Proof.Machine.execTune q s
  | .tuneIteration q => Sys2Proof.Machine.execTuneIteration q s
  | .copy m host => Sys2Proof.Machine.execCopy m host s
  | .scatter m => Sys2Proof.Machine.execScatter m s
  | .gather m => Sys2Proof.Machine.execGather m s
  | .migrate m => Sys2Proof.Machine.execMigrate m s
  | .modelLoad q => Sys2Proof.Machine.execModelLoad q s
  | .shardArrival slot shard bytes => Sys2Proof.Machine.execShardArrival slot shard bytes s
  | .shardTimeout slot shard => Sys2Proof.Machine.execShardTimeout slot shard s
  | .loadCommit slot => Sys2Proof.Machine.execLoadCommit slot s
  | .weightCacheFill => Sys2Proof.Machine.execWeightCacheFill s
  | .modelCtlUnload q => Sys2Proof.Machine.execModelCtlUnload q s
  | .modelCtlSwitch q => Sys2Proof.Machine.execModelCtlSwitch q s
  | .generationFree slot gen => Sys2Proof.Machine.execGenerationFree slot gen s
  | .digestSweep slot w => Sys2Proof.Machine.execDigestSweep slot w s
  | .bind q => Sys2Proof.Machine.execBind q s
  | .unbind q => Sys2Proof.Machine.execUnbind q s
  | .paramCommit q => Sys2Proof.Machine.execParamCommit q s
  | .request q => Sys2Proof.Machine.execRequest q s
  | .seqCtlCancel q => Sys2Proof.Machine.execSeqCtlCancel q s
  | .seqCtlPause q => Sys2Proof.Machine.execSeqCtlPause q s
  | .seqCtlResume q => Sys2Proof.Machine.execSeqCtlResume q s
  | .pauseImageWritten r => Sys2Proof.Machine.execPauseImageWritten r s
  | .resumeRestored r => Sys2Proof.Machine.execResumeRestored r s
  | .pauseExpiry r => Sys2Proof.Machine.execPauseExpiry r s
  | .batchStart p => Sys2Proof.Machine.execBatchStart p s
  | .batchEnd p => Sys2Proof.Machine.execBatchEnd p s
  | .pageWaitRetry p => Sys2Proof.Machine.execPageWaitRetry p s
  | .pageWaitTimeout r => Sys2Proof.Machine.execPageWaitTimeout r s
  | .kvIndexRebuild p => Sys2Proof.Machine.execKvIndexRebuild p s
  | .kvCompaction p => Sys2Proof.Machine.execKvCompaction p s
  | .stepIssue r => Sys2Proof.Machine.execStepIssue r s
  | .stepNop r => Sys2Proof.Machine.execStepNop r s
  | .matmul r cluster => Sys2Proof.Machine.execMatmul r cluster s
  | .engineStart region => Sys2Proof.Machine.execEngineStart region s
  | .add r cluster => Sys2Proof.Machine.execAdd r cluster s
  | .mul r cluster => Sys2Proof.Machine.execMul r cluster s
  | .axpby r cluster => Sys2Proof.Machine.execAxpby r cluster s
  | .max r cluster => Sys2Proof.Machine.execMax r cluster s
  | .convert r cluster => Sys2Proof.Machine.execConvert r cluster s
  | .exp r cluster => Sys2Proof.Machine.execExp r cluster s
  | .recip r cluster => Sys2Proof.Machine.execRecip r cluster s
  | .rsqrt r cluster => Sys2Proof.Machine.execRsqrt r cluster s
  | .tanh r cluster => Sys2Proof.Machine.execTanh r cluster s
  | .sigmoid r cluster => Sys2Proof.Machine.execSigmoid r cluster s
  | .gelu r cluster => Sys2Proof.Machine.execGelu r cluster s
  | .silu r cluster => Sys2Proof.Machine.execSilu r cluster s
  | .rowSum r cluster => Sys2Proof.Machine.execRowSum r cluster s
  | .rowMax r cluster => Sys2Proof.Machine.execRowMax r cluster s
  | .softmax r cluster => Sys2Proof.Machine.execSoftmax r cluster s
  | .rmsnorm r cluster => Sys2Proof.Machine.execRmsnorm r cluster s
  | .layernorm r cluster => Sys2Proof.Machine.execLayernorm r cluster s
  | .quantRow r cluster => Sys2Proof.Machine.execQuantRow r cluster s
  | .topkRow r cluster => Sys2Proof.Machine.execTopkRow r cluster s
  | .gatherRows r cluster => Sys2Proof.Machine.execGatherRows r cluster s
  | .scatterRows r cluster => Sys2Proof.Machine.execScatterRows r cluster s
  | .dma r cluster => Sys2Proof.Machine.execDma r cluster s
  | .loadScales r cluster => Sys2Proof.Machine.execLoadScales r cluster s
  | .sync r => Sys2Proof.Machine.execSync r s
  | .syncRelease r => Sys2Proof.Machine.execSyncRelease r s
  | .attend r region => Sys2Proof.Machine.execAttend r region s
  | .append r region => Sys2Proof.Machine.execAppend r region s
  | .ringXfer r region => Sys2Proof.Machine.execRingXfer r region s
  | .nvmeCommandTimeout drive => Sys2Proof.Machine.execNvmeCommandTimeout drive s
  | .nvmeSmartRead drive => Sys2Proof.Machine.execNvmeSmartRead drive s
  | .resetDevice value => Sys2Proof.Machine.execResetDevice value s
  | .resetPartition value => Sys2Proof.Machine.execResetPartition value s
  | .resetTenant value => Sys2Proof.Machine.execResetTenant value s
  | .resetControlCore value => Sys2Proof.Machine.execResetControlCore value s
  | .scrubComplete tenant => Sys2Proof.Machine.execScrubComplete tenant s
  | .tenantEnable tenant => Sys2Proof.Machine.execTenantEnable tenant s
  | .stageImage value host => Sys2Proof.Machine.execStageImage value host s
  | .attReport party host => Sys2Proof.Machine.execAttReport party host s
  | .sessionOpen tenant => Sys2Proof.Machine.execSessionOpen tenant s
  | .sessionClose tenant => Sys2Proof.Machine.execSessionClose tenant s
  | .attCertificates party => Sys2Proof.Machine.execAttCertificates party s
  | .debugUnlock host => Sys2Proof.Machine.execDebugUnlock host s
  | .debugCancel => Sys2Proof.Machine.execDebugCancel s
  | .mrExtend value host => Sys2Proof.Machine.execMrExtend value host s
  | .rngHealthFail => Sys2Proof.Machine.execRngHealthFail s
  | .watchdogExpiry core => Sys2Proof.Machine.execWatchdogExpiry core s
  | .ccRestartComplete core => Sys2Proof.Machine.execCcRestartComplete core s
  | .islandWatchdog => Sys2Proof.Machine.execIslandWatchdog s
  | .fwUpdateGo value host => Sys2Proof.Machine.execFwUpdateGo value host s
  | .fwUpdateAbort => Sys2Proof.Machine.execFwUpdateAbort s
  | .fwImageReady => Sys2Proof.Machine.execFwImageReady s
  | .fwHandoff => Sys2Proof.Machine.execFwHandoff s
  | .handoffAck => Sys2Proof.Machine.execHandoffAck s
  | .handoffRollback => Sys2Proof.Machine.execHandoffRollback s
  | .traceHit point arg => Sys2Proof.Machine.execTraceHit point arg s
  | .counterEventSelect set n value => Sys2Proof.Machine.execCounterEventSelect set n value s
  | .counterClear set n => Sys2Proof.Machine.execCounterClear set n s
  | .twPmcSelect tenant off value => Sys2Proof.Machine.execTwPmcSelect tenant off value s
  | .periodicSnapshot party => Sys2Proof.Machine.execPeriodicSnapshot party s
  | .csiFrameStart port vc => Sys2Proof.Machine.execCsiFrameStart port vc s
  | .csiLongPacket port vc dt eccBad crcBad samples => Sys2Proof.Machine.execCsiLongPacket port vc dt eccBad crcBad samples s
  | .csiFrameEnd port vc => Sys2Proof.Machine.execCsiFrameEnd port vc s
  | .pipelineBatch ctx => Sys2Proof.Machine.execPipelineBatch ctx s
  | .i3cListRun c => Sys2Proof.Machine.execI3cListRun c s
  | .i3cListComplete c ends => Sys2Proof.Machine.execI3cListComplete c ends s
  | .i3cNack c done last => Sys2Proof.Machine.execI3cNack c done last s
  | .aes67Packet stream seq ts payload => Sys2Proof.Machine.execAes67Packet stream seq ts payload s
  | .tdmFrameSync port samples periodOk => Sys2Proof.Machine.execTdmFrameSync port samples periodOk s
  | .audioFrame array => Sys2Proof.Machine.execAudioFrame array s
  | .pulseProgramDone ch => Sys2Proof.Machine.execPulseProgramDone ch s
  | .limitInput pin => Sys2Proof.Machine.execLimitInput pin s
  | .uartProgramRun u => Sys2Proof.Machine.execUartProgramRun u s
  | .uartCaptureEnd u => Sys2Proof.Machine.execUartCaptureEnd u s
  | .uartCaptureTimeout u => Sys2Proof.Machine.execUartCaptureTimeout u s
  | .uartRxByte u byte err => Sys2Proof.Machine.execUartRxByte u byte err s
  | .enterDusk value => Sys2Proof.Machine.execEnterDusk value s
  | .enterNight value => Sys2Proof.Machine.execEnterNight value s
  | .entryDrainTimeout => Sys2Proof.Machine.execEntryDrainTimeout s
  | .duskWatch samples audio => Sys2Proof.Machine.execDuskWatch samples audio s
  | .duskWatchTimeout => Sys2Proof.Machine.execDuskWatchTimeout s
  | .rtcAlarm => Sys2Proof.Machine.execRtcAlarm s
  | .wakeL => Sys2Proof.Machine.execWakeL s
  | .dawn e => Sys2Proof.Machine.execDawn e s
  | .ageingRead region slacks => Sys2Proof.Machine.execAgeingRead region slacks s
  | .powerRemoval => Sys2Proof.Machine.execPowerRemoval s
  | .pcieLinkUp port speed width drive => Sys2Proof.Machine.execPcieLinkUp port speed width drive s
  | .ethLinkUp port => Sys2Proof.Machine.execEthLinkUp port s
  | .csiPortLock port locked => Sys2Proof.Machine.execCsiPortLock port locked s
  | .announceReceiptTimeout port => Sys2Proof.Machine.execAnnounceReceiptTimeout port s
  | .nvmeCommandError drive => Sys2Proof.Machine.execNvmeCommandError drive s
  | .nvmeTrainingTimeout drive => Sys2Proof.Machine.execNvmeTrainingTimeout drive s
  | .waitPositionMet q => Sys2Proof.Machine.execWaitPositionMet q s
  | .ccCodeEccError core => Sys2Proof.Machine.execCcCodeEccError core s
  | .partitionResetComplete p => Sys2Proof.Machine.execPartitionResetComplete p s
  | .preemptImageWritten r => Sys2Proof.Machine.execPreemptImageWritten r s
  | .i3cIbiAttempt c => Sys2Proof.Machine.execI3cIbiAttempt c s

end Sys2Proof.Machine
end

