-- ==== Sys2Proof/Machine/Step.lean ====
section
/-! DEFINITION. One step of the block: the command at the front of its queue, or idling. -/
namespace Sys2Proof.Machine
open Sys2Proof

/-- One step takes the command at the front of the queue and gives it its meaning on the rest. With no command waiting the device
idles: one nanosecond of data-plane time passes (R29), in Dusk and Night one cycle of the always-on clock (R484). -/
def step (s : State) : Host.Outcome State Fault Refusal :=
  match s.pending with
  | [] => .next { s with dev := s.dev.idle }
  | c :: rest => exec c { s with pending := rest }

/-- The state with the command that a word spells at the front of its queue; unchanged where the word spells none. -/
def State.withFetchWord (s : State) (nbits w : Nat) : State :=
  match decodeTableWord nbits w with
  | some c => { s with pending := c :: s.pending }
  | none => s

end Sys2Proof.Machine
end

