-- ==== Sys2Proof/Safety.lean ====
section
/-! DEFINITION. The terms in which the statements speak: when a queued command starts, what the end of one leaves (R121), and which
parts of the device an effect may touch. A run is safe when no step of it ends in a fault or a refusal. -/
namespace Sys2Proof.Machine
open Sys2Proof

/-- A step from `s` neither faults nor refuses. -/
def State.SafeStep (s : State) : Prop := ∃ t, step s = .next t

/-- Queue `q` starts its head command `c`, of opcode `op`, when the row of that opcode runs: the queue may start a command, and its turn
among the queues of its engine has come (R93, R94). -/
def Dev.Starts (d : Dev) (q op : Nat) (c : W512) : Prop :=
  d.startable q op = some c ∧ d.turnOf q c = true

/-- Command `c` runs on queue `q`, the head list being `l` with `rest` behind it. -/
def Dev.Runs (d : Dev) (q : Nat) (r : Running) (l : CmdList) (rest : List CmdList) : Prop :=
  d.running q = some r ∧ (d.que q).lists = l :: rest

/-- The list ends with its command at `l.index`: it failed without the continue flag, or it is the last (R121). -/
abbrev listEnds (l : CmdList) (c : W512) (st : B8) : Prop := (st ≠ 0 ∧ cmdContinue c = false) ∨ l.cmds.length ≤ l.index + 1

/-- The kind 1 entry of a command that ended at time `t`, as entry number `n` of the device (R121, R123). -/
def kind1 (d : Dev) (q : Nat) (c : W512) (l : CmdList) (st : B8) (res : W64) (n : Nat) : Entry :=
  { time := d.time, tag := cmdTag c, subTag := l.subTag, status := st, kind := 1, engine := qEngine q, queue := qIndex q,
    partition := if qIsMgmt q then d.qPart q else 0, index := l.index, result := res, order := n }

/-- The kind 0 entry of a list that ended: status and index are those of its first failed command, or 0x00 and its last (R121, R123). -/
def kind0 (d : Dev) (q : Nat) (l : CmdList) (n : Nat) : Entry :=
  { time := d.time, tag := cmdTag ((l.cmds.drop ((l.firstFail.map (fun x => x.1)).getD l.index)).headD 0),
    subTag := l.subTag, status := (l.firstFail.map (fun x => x.2)).getD 0, kind := 0, engine := qEngine q, queue := qIndex q,
    partition := if qIsMgmt q then d.qPart q else 0, index := (l.firstFail.map (fun x => x.1)).getD l.index, result := 0, order := n }

/-- What the end of a command may touch: its party's window, the management path, queue states, memory and the count of version-tree
failures, host memory, the hub's counters, the count of entries, and what the command held (pins, regions, sequences, media outputs). -/
def Dev.EndFrame (q : Nat) (d e : Dev) : Prop :=
  (∀ t, t ≠ qParty q → e.ten t = d.ten t) ∧ (∀ k, k ≠ q → e.que k = d.que k) ∧
  e = { d with tenants := e.tenants, mgmt := e.mgmt, queues := e.queues, mem := e.mem, hostMem := e.hostMem, pmc := e.pmc, produced := e.produced,
               sec := { d.sec with treeFail := e.sec.treeFail, treeFailCnt := e.sec.treeFailCnt }, mdl := { d.mdl with slots := e.mdl.slots },
               regions := e.regions, tok := { d.tok with seqs := e.tok.seqs }, cam := { d.cam with ctx := e.cam.ctx }, aud := { d.aud with arrays := e.aud.arrays } }

/-- The entries that the end of a command produces (R121): of the command, where it failed or asked for one; of its list, where that ended. -/
def endEntries (d : Dev) (q : Nat) (c : W512) (l : CmdList) (st : B8) (res : W64) : List Entry :=
  let one := if st ≠ 0 ∨ cmdNotify c = true then [kind1 d q c l st res d.produced] else []
  one ++ (if listEnds l c st then [kind0 d q (l.failed st) (d.produced + one.length)] else [])

/-- From `d` to `e`, running command `c` of queue `q`, in list `l` with `rest` behind it, ended with status `st` and result `res` (R121):
nothing runs on the queue, its list moved on or went, and the entries were produced; where the ring takes none they stand in the
queue's FIFO, or wait at its source while that is full (R126); every other queue and every other part of the device stays. -/
def Dev.Ended (d e : Dev) (q : Nat) (c : W512) (l : CmdList) (rest : List CmdList) (st : B8) (res : W64) : Prop :=
  (e.que q).running = none ∧
  (e.que q).lists = (if listEnds l c st then rest else { l.failed st with index := l.index + 1 } :: rest) ∧
  e.produced = d.produced + (endEntries d q c l st res).length ∧
  ((d.complRing (qParty q)).enable = false → let v := (endEntries d q c l st res).foldl (fun v x => v.hold x) (d.que q)
    (e.que q).fifo = v.fifo ∧ (e.que q).atSource = v.atSource) ∧
  d.EndFrame q e

/-- The state with another device in it: what a command does that acts on the device alone. -/
abbrev State.withDev (s : State) (e : Dev) : State := { s with dev := e }

/-- A write to the register of party `p` at the aligned offset `off` acts when it arrives (R105, R439, R483): the window stands and the
register answers, the package is awake, a tenant's window serves and is not scrubbed, and no restart or update holds an emulated register. -/
def Dev.Serves (d : Dev) (p off : Nat) : Prop :=
  off % 8 = 0 ∧ d.windowOn p = true ∧ d.pwr.state ≤ 1 ∧ (emulated p off = true → d.holding p = false) ∧
  (p < 64 → d.boot.stage = 6 ∧ (d.ten p).scrub = false) ∧ (64 ≤ p → d.mgAnswers off = true)

/-- The device that the boot ROM starts from at a RESET_L (R33): cleared, with the power-on epoch, the stepped RESET_L epoch, the
real-time clock and the sampled SMB_ADDR. -/
def Dev.underReset (d : Dev) : Dev :=
  { d.cleared with epochs := { pon := d.epochs.pon, rst := satInc d.epochs.rst }, pwr := { rtc := d.rtcCount, smbAddr := d.pwr.smbAddr } }

/-- The outcome of the boot ROM on the flash and fuses `v` (R38, R42, R43): stage reached and reason. -/
def NonVol.bootsTo (v : NonVol) (pon : Bool) : Nat × Nat :=
  if (v.booted pon).fwSlot = none then (8, 0x14)
  else if v.chooseBci.slot = none then (7, v.chooseBci.reason)
  else if v.flash.epoch = none ∨ (pon = true ∧ v.flash.writable = false) then (7, 0x13)
  else (3, v.chooseBci.reason)

/-- From `d` to `e`, a reset of tenant `n` has started (R35, R437): its epoch, its window at reset but for the scrub, none of its command
lists, requests, sequences or armed triggers; time and configuration stay. -/
def Dev.TenantInReset (n : Nat) (d e : Dev) : Prop :=
  e.epochs = { d.epochs with ten := d.epochs.ten.set n (satInc (d.epochs.ten.get n 0)) } ∧
  (e.ten n).scrub = true ∧ (e.ten n).serving = false ∧ (e.ten n).session = none ∧ (e.ten n).compl = {} ∧ (e.ten n).err = {} ∧ (e.ten n).keyed = false ∧
  (∀ q, q / 32 = n → e.que q = {}) ∧ (∀ r ∈ e.sec.mailbox, r.party ≠ n) ∧ (∀ r x, e.seq r = some x → x.tenant ≠ n) ∧
  (∀ k, k < 1024 → d.cfg.trgOwner k = some n → e.trg k = {}) ∧ e.time = d.time ∧ e.cfg = d.cfg

/-- From `d` to `e`, a reset of partition `p` has started (R34): its epoch, its busy bit, its tenants told, no load into it and no batch;
every command that ran in it has ended. Memory stays but for what the ends of commands wrote; fuses, time and configuration stay. -/
def Dev.PartInReset (p : Nat) (d e : Dev) : Prop :=
  e.epochs = { d.epochs with part := d.epochs.part.set p (satInc (d.epochs.part.get p 0)) } ∧ (e.part p).resetting = true ∧ (e.part p).batch = none ∧
  (∀ t ∈ d.cfg.partTenants p, (e.ten t).partReset = true) ∧
  (∀ q, d.qPart q = p → (d.que q).lists ≠ [] → (e.que q).running = none) ∧ e.time = d.time ∧ e.cfg = d.cfg

/-- From `d` to `e`, core `k` started a restart for `cause` (R37, R458, R459): it is out, its epoch stepped and its tenants are told; queues,
memory, sequences and the image in use stay. -/
def Dev.CoreInRestart (k cause : Nat) (d e : Dev) : Prop :=
  e.core k = { restarting := true, cause := cause, since := d.time } ∧ (∀ j, j ≠ k → e.core j = d.core j) ∧
  e.epochs = { d.epochs with cc := d.epochs.cc.set k (satInc (d.epochs.cc.get k 0)) } ∧ (∀ n ∈ d.cfg.coreTenants k, (e.ten n).fwRestart = true) ∧
  e.queues = d.queues ∧ e.mem = d.mem ∧ e.tok = d.tok ∧ e.fw.image = d.fw.image

/-- From `d` to `e`, a command of drive `k` failed (R213): it is retried, or on the second failure flagged, counted, and the access fails. -/
def Dev.DriveFailed (k : Nat) (d e : Dev) : Prop := let m := d.mem
  (m.nvmeRetry.get k false = false → e = { d with mem := { m with nvmeRetry := m.nvmeRetry.set k true } }) ∧
  (m.nvmeRetry.get k false = true →
    e = { d with mem := { m with nvmeRetry := e.mem.nvmeRetry, nvmeFail := e.mem.nvmeFail, nvmeErr := e.mem.nvmeErr, nvmeErrCnt := e.mem.nvmeErrCnt } } ∧
    e.mem.nvmeRetry.get k false = false ∧ e.mem.nvmeFail.get k false = true ∧ e.mem.nvmeErr.getLsbD k = true ∧
    e.mem.nvmeErrCnt.get k 0 = satInc (m.nvmeErrCnt.get k 0) ∧ (∀ j, j ≠ k → e.mem.nvmeErr.getLsbD j = m.nvmeErr.getLsbD j ∧ e.mem.nvmeErrCnt.get j 0 = m.nvmeErrCnt.get j 0))

/-- No ended sequence waits for a place in its FIFO (R126). -/
def Dev.NoEnded (d : Dev) : Prop := ∀ x ∈ d.tok.seqs.map (fun e => e.2), ∀ y, x = some y → y.state ≠ 8

/-- From `d` to `e`, trigger `n` was armed by party `p` with the registers it holds (R78, R79): the first check that fails leaves it idle
with that status; otherwise it is armed, or fires at once where its condition holds. No other trigger changes. -/
def Dev.ArmedFrom (n p : Nat) (d e : Dev) : Prop := let g := d.trg n; let hit := d.trkPos g.track = g.target
  (∀ row st ptr, d.armFault n p g = some (row, st, ptr) → e.trg n = { g with armed := false, lastStatus := st }) ∧
  (d.armFault n p g = none → d.trgHolds g = false → e.trg n = { g with armed := true }) ∧
  (d.armFault n p g = none → d.trgHolds g = true → (e.trg n).fired = true ∧ (e.trg n).firedCnt = satInc g.firedCnt ∧ (e.trg n).time = BitVec.ofNat 64 d.dispatchAt ∧
    (e.trg n).late = decide (¬ hit) ∧ (e.trg n).jumped = false ∧ (e.trg n).armed = decide (g.interval ≠ 0) ∧
    (g.interval = 0 → (e.trg n).missed = (g.missed || (decide (¬ hit) && !g.lateOk)))) ∧
  (∀ k, k ≠ n → e.trg k = d.trg k)

/-- What a MATMUL step leaves on one cluster: its engines take their columns in ascending order, each reading what the device then holds
(R142, R145). -/
def Dev.enginesAll (d : Dev) (party c : Nat) (v : MatDesc) (cols : Nat) : List Nat → Nat → Dev × List (Nat × EngRes)
  | [], _ => (d, [])
  | j :: js, i =>
    let x := d.engineStep party c v (i * cols) cols
    let y := Dev.enginesAll x.1 party c v cols js (i + 1)
    (y.1, (j, x.2) :: y.2)

/-- The items of an ATTEND step on one region that began at `began`, in table order; the first failure ends it, an item whose rows end
beyond the footprint among them (R275-R277). -/
def Dev.attendAll (d : Dev) (r : RunRef) (g : Prog) (m : Manifest) (s : W512) (region : Nat) (began : W64) : List Item → Dev × Except Fail (List (Nat × Nat × List (Nat × Nat)))
  | [] => (d, .ok [])
  | x :: xs =>
    match (if itemBeyond g m s x then (d, .error { status := 0x02, code := 0x8B }) else d.attendItem r g m s region began x) with
    | (d1, .error e) => (d1, .error e)
    | (d1, .ok rows) =>
      match Dev.attendAll d1 r g m s region began xs with
      | (d2, .error e) => (d2, .error e)
      | (d2, .ok l) => (d2, .ok (rows.map (fun y => (x.cluster, y)) ++ l))

/-- The items of an APPEND step on one region: the rows to write, and the saturations by cluster; an item whose rows end beyond the
footprint fails (R276, R283). -/
def Dev.appendAll (d : Dev) (r : RunRef) (g : Prog) (m : Manifest) (s : W512) (region : Nat) :
    List Item → Dev × Except Fail (List (Nat × Nat × (List Nat × List Nat) × F32 × F32) × List (Nat × Nat))
  | [] => (d, .ok ([], []))
  | x :: xs =>
    match (if itemBeyond g m s x then (d, .error { status := 0x02, code := 0x8B }) else d.appendItem r g m s region x) with
    | (d1, .error e) => (d1, .error e)
    | (d1, .ok y) =>
      match Dev.appendAll d1 r g m s region xs with
      | (d2, .error e) => (d2, .error e)
      | (d2, .ok l) => (d2, .ok (y.1 ++ l.1, (x.cluster, y.2) :: l.2))

/-- From `d` to `e`, the running command `r` of queue `q`, of `total` parts, `per` of them in a transfer, made the transfers of its turn
(R94): without a turn nothing happens; the first part that fails ends it with its status, the last part, after `fin`, with 0x00;
otherwise it goes on at the next part, parked where that one waits. -/
def Dev.CarriedOn (q turns total per : Nat) (f : Dev → Nat → Dev × PartEnd) (fin : Dev → Dev) (r : Running) (l : CmdList) (rest : List CmdList) (d e : Dev) : Prop :=
  (d.takeTurn q = none → e = d) ∧
  (∀ d0, d.takeTurn q = some d0 → ∀ d1 k y, Dev.eachPart f d0 (((List.range total).drop r.pos).take (d.turnsNow q turns total * per)) 0 = (d1, k, y) →
    (∀ x, y = .failed x → (d1.modelFault x).Ended e q r.cmd l rest x.status 0) ∧
    ((∀ x, y ≠ .failed x) → total ≤ r.pos + k → (fin d1).Ended e q r.cmd l rest 0 0) ∧
    ((∀ x, y ≠ .failed x) → r.pos + k < total → e = d1.setRunning q { r with pos := r.pos + k, parked := decide (y = .waits) }))

/-- The result of an elementwise vector operation (R161 codes 0x01 to 0x0C) on an element of each operand. -/
def vecResult (v : VecDesc) (x y : F32) : Nat → Option F32
  | 0x01 => some (fadd x y)
  | 0x02 => some (fmul x y)
  | 0x03 => some (fadd (fmul v.sa x) (fmul v.sb y))
  | 0x04 => some (fmax x y)
  | 0x05 => some (fmul v.sa x)
  | 0x06 => some (fexp x)
  | 0x07 => some (frecip x)
  | 0x08 => some (frsqrt x)
  | 0x09 => some (ftanh x)
  | 0x0A => some (fsigmoid x)
  | 0x0B => some (fgelu x)
  | 0x0C => some (fsilu x)
  | _ => none

/-- From `d` to `e`, the VECTOR step of operation `op` that the sequencer gave cluster `c` has run (R160-R162): its rows are written, its
lines and saturations counted, and its unit has ended; or it met a failure and wrote nothing. Without such a unit nothing changes. -/
def Dev.VecRan (r : RunRef) (c op : Nat) (d e : Dev) : Prop :=
  ∀ g, d.runProg r = some g →
    (g.findUnit 2 c (fun w => decide (bytesAt w 1 1 = op)) = none → e = d) ∧
    (∀ u, g.findUnit 2 c (fun w => decide (bytesAt w 1 1 = op)) = some u → let v := vecDesc (g.step u.step); let base := clusterDpa c 0
      let done (x : Dev) (w : List (Nat × List B8) × Nat) : Prop := e = (((x.putOutput g c w.1).countCl c 0x05 g.attr w.2).countVec c g.attr (vecCycles v)).unitDone r g u [] 1
      let fails (x : Dev) (f : Fail) : Prop := e = (x.countVec c g.attr none).unitDone r g u [(unitCluster c 8, f)] 1
      (op < 0x17 → ∀ d1 f, d.readTensor g.party (base + v.src0) v.inF v.rows v.cols = (d1, .error f) → fails d1 f) ∧
      (∀ d1 a, d.readTensor g.party (base + v.src0) v.inF v.rows v.cols = (d1, .ok a) →
        (op ≤ 4 ∨ op = 0x13 → ∀ d2 b, d1.readTensor g.party (base + v.src1) v.inF (if v.bcast then 1 else v.rows) v.cols = (d2, .ok b) →
          (op ≤ 4 → done d2 (tensorWrites v.dst v.outF v.cols (a.mapIdx (fun k l => l.mapIdx (fun j x => (vecResult v x ((rowOf v b k).getD j f32Zero) op).getD f32Zero))))) ∧
          (op = 0x13 → done d2 (tensorWrites v.dst v.outF v.cols (a.mapIdx (fun k l => vecRms v l (rowOf v b k)))))) ∧
        (op ≤ 4 ∨ op = 0x13 → ∀ d2 f, d1.readTensor g.party (base + v.src1) v.inF (if v.bcast then 1 else v.rows) v.cols = (d2, .error f) → fails d2 f) ∧
        (op = 0x14 → ∀ d2 b, d1.readTensor g.party (base + v.src1) v.inF 2 v.cols = (d2, .ok b) →
          done d2 (tensorWrites v.dst v.outF v.cols (a.map (fun l => vecLayer v l (b.getD 0 []) (b.getD 1 []))))) ∧
        (op = 0x14 → ∀ d2 f, d1.readTensor g.party (base + v.src1) v.inF 2 v.cols = (d2, .error f) → fails d2 f) ∧
        (5 ≤ op → op ≤ 0x0C → done d1 (tensorWrites v.dst v.outF v.cols (a.map (fun l => l.map (fun x => (vecResult v x f32Zero op).getD f32Zero))))) ∧
        (op = 0x10 → done d1 (columnWrites v.dst v.outF (a.map rowSum))) ∧
        (op = 0x11 → done d1 (columnWrites v.dst v.outF (a.map rowMax))) ∧
        (op = 0x12 → done d1 (tensorWrites v.dst v.outF v.cols (a.map vecSoftmax))) ∧
        (op = 0x15 → let w := tensorWrites v.dst v.outF v.cols (a.map (fun l => (vecQuant v l).2)); done d1 (w.1 ++ (columnWrites v.src1 8 (a.map (fun l => (vecQuant v l).1))).1, w.2)) ∧
        (op = 0x16 → let t := (a.mapIdx (fun i l => topkRow d1.draw (f32Nat v.sa) i l)).flatten
          done (if v.cols < f32Nat v.sa then d1.drawn else d1) ([(v.dst, (t.map (fun x => leBytes 4 x.1)).flatten), (v.src1, (t.map (fun x => leBytes 4 x.2.toNat)).flatten)], 0))) ∧
      (op = 0x17 ∨ op = 0x18 →
        (∀ d1 f, d.bufCodes g.party (base + v.src1) (4 * v.rows) 32 = (d1, .error f) → fails d1 f) ∧
        (∀ d1 ix, d.bufCodes g.party (base + v.src1) (4 * v.rows) 32 = (d1, .ok ix) →
          ((∃ k ∈ ix, v.rows ≤ k) → ∃ f : Fail, f.status = 0x03 ∧ fails d1.drawn f) ∧
          ((∀ k ∈ ix, k < v.rows) → ∀ d2 a, d1.readTensor g.party (base + v.src0) v.inF v.rows v.cols = (d2, .ok a) →
            (op = 0x17 → done d2 (tensorWrites v.dst v.outF v.cols (ix.map (fun k => a.getD k [])))) ∧
            (op = 0x18 → ∃ ws sat, done d2 (ws, sat) ∧ ws = (ix.mapIdx (fun k t => ((tensorWrites v.dst v.outF v.cols (List.replicate t [] ++ [a.getD k []])).1.drop (t * (v.cols / 16))))).flatten)) ∧
          ((∀ k ∈ ix, k < v.rows) → ∀ d2 f, d1.readTensor g.party (base + v.src0) v.inF v.rows v.cols = (d2, .error f) → fails d2 f))))

/-- The members of a batch that ended commit in row order; `row` is the first logit row of the next one (R320). -/
def Dev.commitAll (d : Dev) (p : Nat) (b : Batch) (v : View) (m : Manifest) (w : Workspace) : List (Nat × Nat × Nat) → Nat → Dev
  | [], _ => d
  | x :: xs, row =>
    let n := if b.kind = 0 then (match d.seq x.1 with
      | some q => if !q.prefillOnly && decide (q.promptLen ≤ q.tailOf b.draft) then 1 else 0
      | none => 0) else x.2.1
    Dev.commitAll (d.commitMember p b v m w x row) p b v m w xs (row + n)

/-- No word, line or version-tree node is listed with an error (R217, R436). -/
def Dev.NoMarks (d : Dev) : Prop := d.mem.bad = [] ∧ d.mem.ceWords = [] ∧ d.mem.ceLines = [] ∧ d.mem.badLp = [] ∧ d.mem.badMac = [] ∧ d.sec.badNodes = []

/-- No two mapped tiles share a place: LP5X frames lie below the on-chip buffers, NVMe frames above them, and the bytes of two tiles,
and the LP5X frames of two tiles of that tier, differ (R189, R190, R209). -/
def Dev.PlacesApart (d : Dev) : Prop :=
  d.mem.usableMib ≤ 0x100000 ∧
  (∀ k v, d.tile k = some v → (v.tier = 0 → v.frame < 0x4000000) ∧ (v.tier ≠ 0 → nvmeFrameBase ≤ v.frame) ∧ (v.onchip = true → v.slot < 8192)) ∧
  (∀ k k' v v', k ≠ k' → d.tile k = some v → d.tile k' = some v' → tileDpa v ≠ tileDpa v' ∧ (v.tier = 0 → v'.tier = 0 → v.frame ≠ v'.frame))

/-- Fused values as they may change: a minimum version only rises, a revocation bit only sets, and nothing else changes (R412, R418). -/
def Fuses.rises (f g : Fuses) : Prop :=
  f.bciMin ≤ g.bciMin ∧ f.fwMin ≤ g.fwMin ∧ f.revoked &&& g.revoked = f.revoked ∧
  g = { f with bciMin := g.bciMin, fwMin := g.fwMin, revoked := g.revoked }

/-- What holds of the fuses and the flash at all times: the flash is listed in canonical form, and the fused minimum version of a boot
configuration is at most 64 (R412). -/
def NonVol.Inv (v : NonVol) : Prop := v.flash.bytes.wf ∧ v.fuses.bciMin ≤ 64

end Sys2Proof.Machine
end

