-- ==== Sys2Proof/Certificates/Slice0/Obligations.lean ====
section
/-! DEFINITION. The statements about the device, for the provers. -/
open Sys2Proof Sys2Proof.Machine

/-- A step runs the command at the front of the queue. For every command c and state s with c at the front of its queue, step answers what exec
answers for c on s with the queue's rest. (spec/opcode_table.json, spec/95 (the sub-steps of the rows)) -/
def Obligations.StepRunsTheFrontCommand : Prop :=
  ∀ (s : State) (c : Instr) (rest : List Instr), s.pending = c :: rest → step s = exec c { s with pending := rest }

/-- With no command waiting one nanosecond passes and nothing else. The model's choice (log entry 3): with an empty queue a step answers a next
state in which only time has moved: awake, the data-plane time moves to the next nanosecond; without power or after THERMTRIP_L nothing
changes. (spec/03_position_timebase.md R67, spec/01_device_organization.md R29, log entry 3) -/
def Obligations.EmptyQueueIdles : Prop :=
  ∀ s : State, s.pending = [] →
    step s = .next { s with dev := s.dev.idle } ∧
    (s.dev.boot.powered = true → s.dev.boot.thermtrip = false → s.dev.pwr.state ≤ 1 → s.dev.idle.time = s.dev.time + 1) ∧
    (s.dev.boot.powered = false ∨ s.dev.boot.thermtrip = true → s.dev.idle = s.dev)

/-- Every command has a next state and leaves the waiting commands alone. Whatever the command and the state, exec answers a next state (never a
fault or a refusal), and the queue of waiting commands is the same after it. (spec/opcode_table.json, spec/00_scope.md R12) -/
def Obligations.EveryCommandAnswersAndKeepsTheQueue : Prop :=
  ∀ (i : Instr) (s : State), ∃ t, exec i s = .next t ∧ t.pending = s.pending

/-- What the end of a command leaves. When the running command of a queue ends with a status and a result, nothing runs on the queue; its list
goes on with the next command, or ends where the command failed without continue_on_error or was the last; a kind 1 entry is produced where
the command failed or asked for one, and a kind 0 entry where the list ended, with the status and index of its first failure or 0x00 and the
index of its last command; while the completion ring is not enabled the entries stand in the queue's FIFO in that order, or wait at its
source while it holds 1,024; a failure with a detail is recorded in the global ring while that has room; no other queue, no other tenant's
window and no other part of the device changes. (spec/04_work_engines_and_command_lists.md R121, spec/04_work_engines_and_command_lists.md
R123, spec/04_work_engines_and_command_lists.md R124, spec/04_work_engines_and_command_lists.md R126,
spec/04_work_engines_and_command_lists.md R128, spec/04_work_engines_and_command_lists.md R130) -/
def Obligations.EndOfACommand : Prop :=
  ∀ (d : Dev) (q : Nat) (r : Running) (l : CmdList) (rest : List CmdList) (st : B8) (res : W64) (f : Option (Fail × Nat)), d.Runs q r l rest →
    d.Ended (d.endCmd q st res f) q r.cmd l rest st res ∧
    (∀ e unit, f = some (e, unit) → d.mgmt.gerr.full = false → ∃ rec, (d.endCmd q st res f).mgmt.globalRing = d.mgmt.globalRing ++ [rec] ∧
      rec.status = e.status ∧ rec.unit = unit ∧ rec.tenant = qParty q ∧ rec.detail = detailOf e.code e.val ∧ rec.address = e.addr ∧ rec.space = e.space ∧
      rec.index = l.index ∧ rec.subTag = l.subTag ∧ rec.seq = d.mgmt.gerr.seq ∧ rec.time = d.time)

/-- A completion entry is written to the ring, or waits in its queue's FIFO, and none is dropped. An entry produced while the party's ring is
enabled, has room and no entry of the party waits is written at the tail: the ring moves on by one entry, its phase flipping on a wrap, and
no FIFO changes; a tenant's entry sets TW_EVENT.compl. Otherwise the entry joins its queue's FIFO behind those there, or waits at its source
while the FIFO holds 1,024, and no ring changes; each entry is numbered by the order of production.
(spec/04_work_engines_and_command_lists.md R123, spec/04_work_engines_and_command_lists.md R125, spec/04_work_engines_and_command_lists.md
R126, spec/04_work_engines_and_command_lists.md R99) -/
def Obligations.CompletionEntriesGoToTheRingOrWait : Prop :=
  ∀ (d : Dev) (q : Nat) (e : Entry), let p := qParty q; let r := d.complRing p
    (d.emit q e).produced = d.produced + 1 ∧
    (r.enable = true → r.full = false → d.stalled p = false →
      (d.emit q e).queues = d.queues ∧ (d.emit q e).complRing p = r.step ∧ (p < 64 → ((d.emit q e).ten p).event.getLsbD 0 = true)) ∧
    (r.enable = false ∨ r.full = true ∨ d.stalled p = true →
      (let x : Entry := { e with time := d.time, engine := qEngine q, queue := qIndex q, order := d.produced, partition := if qIsMgmt q then d.qPart q else 0 }
       ((d.que q).fifo.length < 1024 → (d.emit q e).que q = { d.que q with fifo := (d.que q).fifo ++ [x] }) ∧
       (1024 ≤ (d.que q).fifo.length → (d.emit q e).que q = { d.que q with atSource := (d.que q).atSource ++ [x] })) ∧
      (∀ k, k ≠ q → (d.emit q e).que k = d.que k) ∧ (d.emit q e).complRing p = r ∧ (d.emit q e).mem = d.mem ∧ (d.emit q e).hostMem = d.hostMem)

/-- NOP and MARKER complete; SIGNAL writes or adds one value and ends with what memory then holds. A NOP that starts ends with status 0x00. A
MARKER that starts writes a kind 4 entry with the marker value as its result word, takes the snapshot where its selector is not 0, and ends
with status 0x00 and that result. A SIGNAL that starts, whose 8 bytes lie in no tile on the move and can be accessed, stores its value, or
the sum with what was there (64-bit, wrapping), at its address in its partition, and ends with status 0x00 and that value as its result.
Where the access is refused it ends with the status of the refusal; while a tile of the 8 bytes is on the move it has not started. Rows
completed: nop, marker, signalWrite, signalAdd. (spec/04_work_engines_and_command_lists.md R111, spec/04_work_engines_and_command_lists.md
R112, spec/04_work_engines_and_command_lists.md R124) -/
def Obligations.NopMarkerAndSignalComplete : Prop :=
  ∀ (s : State) (q : Nat) (c : W512) (l : CmdList) (rest : List CmdList), (s.dev.que q).lists = l :: rest →
    let d0 := s.dev.startCmd q c; let v := s.dev.qView q; let a := bytesAt c 8 8; let x := BitVec.ofNat 64 (bytesAt c 16 8)
    (s.dev.Starts q 0 c → ∃ t, exec (.nop q) s = .next t ∧ t = { s with dev := t.dev } ∧ s.dev.Ended t.dev q c l rest 0 0) ∧
    (s.dev.Starts q 1 c → ∃ t, exec (.marker q) s = .next t ∧ t = { s with dev := t.dev } ∧
      let d1 := if bytesAt c 8 8 = 0 then d0 else d0.snapshot (qParty q) (BitVec.ofNat 64 (bytesAt c 8 8)) (some (cmdTag c, l.subTag, cmdArg c, qByte q))
      (d1.emit q { tag := cmdTag c, subTag := l.subTag, status := 0, kind := 4, index := l.index, result := BitVec.ofNat 64 (cmdArg c) }).Ended
        t.dev q c l rest 0 (BitVec.ofNat 64 (cmdArg c))) ∧
    (∀ op, s.dev.startable q 2 = some c → cmdArg c % 4 = op → s.dev.busyIn v a 8 = true → s.dev.signalCmd q op = s.dev) ∧
    (s.dev.Starts q 2 c → s.dev.busyIn v a 8 = false → cmdArg c % 4 = 0 →
      (∀ d1, d0.writeMem v a (leBytes 8 x.toNat) = (d1, none) → ∃ t, exec (.signalWrite q) s = .next t ∧ t = { s with dev := t.dev } ∧ d1.Ended t.dev q c l rest 0 x) ∧
      (∀ d1 e, d0.writeMem v a (leBytes 8 x.toNat) = (d1, some e) →
        ∃ t, exec (.signalWrite q) s = .next t ∧ t = { s with dev := t.dev } ∧ (d1.modelFault e).Ended t.dev q c l rest e.status 0)) ∧
    (s.dev.Starts q 2 c → s.dev.busyIn v a 8 = false → cmdArg c % 4 = 1 →
      (∀ d1 b d2, d0.readMem v a 8 = (d1, .ok b) → d1.writeMem v a (leBytes 8 (BitVec.ofNat 64 (leNat b) + x).toNat) = (d2, none) →
        ∃ t, exec (.signalAdd q) s = .next t ∧ t = { s with dev := t.dev } ∧ d2.Ended t.dev q c l rest 0 (BitVec.ofNat 64 (leNat b) + x)) ∧
      (∀ d1 b d2 e, d0.readMem v a 8 = (d1, .ok b) → d1.writeMem v a (leBytes 8 (BitVec.ofNat 64 (leNat b) + x).toNat) = (d2, some e) →
        ∃ t, exec (.signalAdd q) s = .next t ∧ t = { s with dev := t.dev } ∧ (d2.modelFault e).Ended t.dev q c l rest e.status 0) ∧
      (∀ d1 e, d0.readMem v a 8 = (d1, .error e) →
        ∃ t, exec (.signalAdd q) s = .next t ∧ t = { s with dev := t.dev } ∧ (d1.modelFault e).Ended t.dev q c l rest e.status 0))

/-- WAIT_VALUE, WAIT_RELEASE and WAIT_POSITION complete when their condition holds, at start or later. A WAIT_VALUE that starts reads its
address and ends with status 0x00 and a result word of 0 (the model's choice, log entry 30) where its condition holds, else it stays
running; the same when it is looked at again; while its tile is on the move it waits. A WAIT_RELEASE that starts with a release counted
consumes one and ends, else it stays running. A WAIT_POSITION on a valid track ends with 0x00 where the track condition holds, at start or
later, else it stays running. Rows completed: waitValue, waitValueMet, waitRelease, waitPosition, waitPositionMet.
(spec/04_work_engines_and_command_lists.md R111, spec/04_work_engines_and_command_lists.md R112, spec/03_position_timebase.md R77,
spec/03_position_timebase.md R83, log entry 30) -/
def Obligations.WaitsCompleteWhenTheirConditionHolds : Prop :=
  ∀ (s : State) (q : Nat) (c : W512) (l : CmdList) (rest : List CmdList), (s.dev.que q).lists = l :: rest →
    let d0 := s.dev.startCmd q c
    (s.dev.Starts q 3 c → d0.busyIn (s.dev.qView q) (bytesAt c 8 8) 8 = false → ∀ d1 b, d0.readMem (s.dev.qView q) (bytesAt c 8 8) 8 = (d1, .ok b) →
      ∃ t, exec (.waitValue q) s = .next t ∧ t = { s with dev := t.dev } ∧
        (waitHolds c (leNat b) = true → d1.Ended t.dev q c l rest 0 0) ∧ (waitHolds c (leNat b) = false → t.dev = d1)) ∧
    (s.dev.Starts q 3 c → d0.busyIn (s.dev.qView q) (bytesAt c 8 8) 8 = true → exec (.waitValue q) s = .next { s with dev := d0 }) ∧
    (∀ r, s.dev.running q = some r → r.cmd = c → cmdOp c = 3 → s.dev.busyIn (s.dev.qView q) (bytesAt c 8 8) 8 = false → ∀ d1 b, s.dev.readMem (s.dev.qView q) (bytesAt c 8 8) 8 = (d1, .ok b) →
      ∃ t, exec (.waitValueMet q) s = .next t ∧ t = { s with dev := t.dev } ∧
        (waitHolds c (leNat b) = true → d1.Ended t.dev q c l rest 0 0) ∧ (waitHolds c (leNat b) = false → t.dev = d1)) ∧
    (s.dev.Starts q 4 c → ∃ t, exec (.waitRelease q) s = .next t ∧ t = { s with dev := t.dev } ∧
      ((s.dev.que q).release = 0 → t.dev = d0) ∧
      ((s.dev.que q).release ≠ 0 → (d0.modQue q (fun v => { v with release := v.release - 1 })).Ended t.dev q c l rest 0 0)) ∧
    (s.dev.Starts q 5 c → s.dev.trkValid (cmdArg c % 256) = true → ∃ t, exec (.waitPosition q) s = .next t ∧ t = { s with dev := t.dev } ∧
      (s.dev.positionMet c = true → s.dev.Ended t.dev q c l rest 0 0) ∧ (s.dev.positionMet c = false → t.dev = d0)) ∧
    (∀ r, s.dev.running q = some r → r.cmd = c → cmdOp c = 5 → ∃ t, exec (.waitPositionMet q) s = .next t ∧ t = { s with dev := t.dev } ∧
      (s.dev.positionMet c = true → s.dev.Ended t.dev q c l rest 0 0) ∧ (s.dev.positionMet c = false → t.dev = s.dev))

/-- Barriers count and release their queues; a passed timeout ends a command with 0x11; a waiting Compute command reserves its regions. A
BARRIER that starts and names the participants of the current round is counted and stays running, a round that is full having let its queues
go first; with another number of participants in a round that has begun and is not full it ends with 0x08 and is not counted. When the count
has reached the participants, the barrier's count is 0 again and every waiting queue's BARRIER ends with 0x00 in the order of arrival. A
running command whose timeout field is not 0 and has passed ends with status 0x11 (its detail code is a free value: log entry 8); a BARRIER
whose round is full completes instead; one that has no timeout, or whose timeout has not passed, goes on. A Compute command at the head of
its queue that has waited 2,000,000 ns for busy regions is reserved from then on, and nothing else changes. Rows completed: barrier,
barrierRelease, commandTimeout, regionReservation. (spec/04_work_engines_and_command_lists.md R111,
spec/04_work_engines_and_command_lists.md R113, spec/04_work_engines_and_command_lists.md R95, spec/04_work_engines_and_command_lists.md
R110) -/
def Obligations.BarriersTimeoutsAndReservations : Prop :=
  ((∀ (s : State) (q : Nat) (c : W512) (l : CmdList) (rest : List CmdList), s.dev.Starts q 7 c → (s.dev.que q).lists = l :: rest →
    let b := cmdArg c % 16; let n := nfld (cmdArg c) 4 6; let g := (s.dev.ten (qParty q)).barriers.get b {}
    (g.count = 0 ∨ (g.participants = n ∧ g.count < n) → exec (.barrier q) s = .next
        { s with dev := (s.dev.startCmd q c).modTen (qParty q) (fun v => { v with barriers := v.barriers.set b { count := g.count + 1, participants := n, waiting := g.waiting ++ [q] } }) }) ∧
    (g.count ≠ 0 → g.participants ≤ g.count →
      let d1 := g.waiting.foldl (fun d q => d.finish q 0) ((s.dev.startCmd q c).modTen (qParty q) (fun v => { v with barriers := v.barriers.set b {} }))
      exec (.barrier q) s = .next { s with dev := d1.modTen (qParty q) (fun v => { v with barriers := v.barriers.set b { count := 1, participants := n, waiting := [q] } }) }) ∧
    (g.count ≠ 0 → g.count < g.participants → g.participants ≠ n → ∃ t, exec (.barrier q) s = .next t ∧ t = { s with dev := t.dev } ∧
      s.dev.drawn.Ended t.dev q c l rest 0x08 0 ∧ (g.waiting.contains q = false → (t.dev.ten (qParty q)).barriers.get b {} = g))) ∧
  (∀ (s : State) (t b : Nat), let g := (s.dev.ten t).barriers.get b {}
    g.count ≠ 0 → g.participants ≤ g.count →
      exec (.barrierRelease t b) s = .next { s with dev := g.waiting.foldl (fun d q => d.finish q 0) (s.dev.modTen t (fun v => { v with barriers := v.barriers.set b {} })) })) ∧
  ((∀ (s : State) (q : Nat) (r : Running) (l : CmdList) (rest : List CmdList), s.dev.Runs q r l rest →
    (cmdTimeout r.cmd ≠ 0 → r.started.toNat + 1000 * cmdTimeout r.cmd ≤ s.dev.time.toNat → let g := (s.dev.ten (qParty q)).barriers.get (cmdArg r.cmd % 16) {}
      (cmdOp r.cmd = 7 → g.count ≠ 0 → g.participants ≤ g.count → q ∈ g.waiting →
        exec (.commandTimeout q) s = .next { s with dev := s.dev.barrierRelease (qParty q) (cmdArg r.cmd % 16) }) ∧
      ((cmdOp r.cmd = 7 → g.count = 0 ∨ g.count < g.participants) → ∃ t, exec (.commandTimeout q) s = .next t ∧ t = { s with dev := t.dev } ∧ s.dev.drawn.Ended t.dev q r.cmd l rest 0x11 0)) ∧
    (cmdTimeout r.cmd = 0 ∨ s.dev.time.toNat < r.started.toNat + 1000 * cmdTimeout r.cmd → exec (.commandTimeout q) s = .next s)) ∧
  (∀ (s : State) (q : Nat) (l : CmdList) (c : W512), s.dev.headCmd q = some (l, c) → qEngine q = 0 → s.dev.mayStart q = true →
    cmdMask c &&& s.dev.busyMask (s.dev.qPart q) ≠ 0 → (s.dev.que q).readySince.toNat + 2000000 ≤ s.dev.time.toNat →
      exec (.regionReservation q) s = .next { s with dev := s.dev.modQue q (fun v => { v with reserved := true }) }))

/-- A step never lowers a fused minimum version, clears a revocation bit or changes another fuse. For every state, whether a run reaches it or
not: if step answers a next state, the fused BCI and firmware minimum versions are no lower in it, every revocation bit that was set is set,
and every other fused value is the same. (spec/13_security_and_tenancy.md R418) -/
def Obligations.FusesOnlyRise : Prop :=
  ∀ (s t : State), step s = .next t → s.nv.fuses.rises t.nv.fuses

/-- The flash stays in canonical form and the fused BCI minimum version stays at most 64. For every state that meets the invariant of the non-
volatile state, the next state of a step meets it: the flash lists its bytes at rising addresses and no byte 0, and the fused BCI minimum
version is at most 64. (spec/13_security_and_tenancy.md R412, spec/13_security_and_tenancy.md R418, spec/02_boot_configuration.md R41) -/
def Obligations.NonVolatileInvariantKept : Prop :=
  ∀ (s t : State), s.nv.Inv → step s = .next t → t.nv.Inv

/-- The state after reset meets the invariant of the non-volatile state and holds the reset values of the field tables. State.reset has its
flash in canonical form and a fused BCI minimum version of at most 64; no command waits, no queue, tenant window, sequence, tile or slot is
in use, and no memory byte is listed; rings have 2^6 entries (the error and log rings of the management path 2^12), snapshot slots 2^12
bytes, progress registers kind 2 and value 0, and the registers of the field tables that do not reset to 0 their values. The values that the
spec does not give are the model's (log entry 1) and are not stated. (spec/13_security_and_tenancy.md R412, spec/00_scope.md R8,
spec/00_scope.md R11, spec/03_position_timebase.md R70, spec/04_work_engines_and_command_lists.md R122, spec/08_model_residency.md R253,
spec/09_attention_and_kv_cache.md R301, spec/10_token_serving.md R339, spec/15_power_thermal_ageing.md R490, spec/15_power_thermal_ageing.md
R502, spec/16_performance_counters.md R518, log entry 1) -/
def Obligations.ResetMeetsTheInvariantAndTheResetValues : Prop :=
  State.reset.nv.Inv ∧ State.reset.pending = [] ∧ let d := State.reset.dev
    d.queues = [] ∧ d.tenants = [] ∧ d.tok.seqs = [] ∧ d.mem.tiles = [] ∧ d.mem.phys = [] ∧ d.mdl.slots = [] ∧ d.boot.stage = 0 ∧ d.boot.locked = false ∧ d.time = 0 ∧
    (∀ n, (d.ten n).compl.log2 = 6 ∧ (d.ten n).err.log2 = 6 ∧ (d.ten n).snapRing.log2 = 6 ∧ (d.ten n).snapRing.log2Slot = 12 ∧ (d.ten n).compl.enable = false ∧ (d.ten n).compl.phase = true) ∧
    d.mgmt.compl.log2 = 6 ∧ d.mgmt.gerr.log2 = 12 ∧ d.mgmt.log.log2 = 12 ∧ d.pmc.ring.log2 = 6 ∧ d.pmc.ring.log2Slot = 12 ∧
    (∀ n k, ((d.ten n).progress.get k {}).kind = 2 ∧ ((d.ten n).progress.get k {}).value = 0) ∧
    d.ptp.stepNs = 100000 ∧ d.ptp.slewPpm = 500 ∧ d.gustRate = 16 ∧ d.mdl.sweepS = 3600 ∧ d.mdl.cacheMaxPct = 50 ∧ d.kv.rebuildTicks = 16 ∧ d.kv.compactEighths = 1 ∧
    d.tok.pageWaitS = 60 ∧ d.tok.prefillPerDecode = 1 ∧ d.pwr.raiseW = 8 ∧ (∀ p, (d.part p).duty = 8) ∧
    d.pwr.duskCfg = 0x00000064000000C8 ∧ d.pwr.duskThr = 0x000000D800080800

/-- POWER_ON clears the device, steps the power-on epoch and reaches the stage that the flash allows. After a power-on with a healthy entropy
source the boot ROM has run on the flash as the board left it: the fuses are raised as the BCI in use asks, the power-on epoch is the stored
one plus 1 (saturating) where the flash takes the write, the RESET_L epoch is 0, the time is 20 ms, no command list, tenant window, tile or
sequence is left, and the stage and reason are 8 and 0x14 (no firmware verifies), 7 and the refusal of the BCI (none can be used), 7 and
0x13 (epoch record invalid or not writable) or 3. Boot lock is set in the safe configuration only. With a failed entropy source the ROM
holds the device in stage 0. Rows completed: powerOn. (spec/02_boot_configuration.md R33, spec/02_boot_configuration.md R37,
spec/02_boot_configuration.md R38, spec/02_boot_configuration.md R42, spec/02_boot_configuration.md R43, spec/02_boot_configuration.md R56,
spec/13_security_and_tenancy.md R413) -/
def Obligations.PowerOnBootsFromTheFlash : Prop :=
  ∀ (s : State) (cells : List Host.Cell) (eA eB : Option W32) (w sa : Bool), let f := s.nv.flash
    let v : NonVol := { s.nv with flash := { f with bytes := f.bytes.overlay cells, epochA := eA.or f.epochA, epochB := eB.or f.epochB, writable := w } }
    (∃ t, exec (.powerOn cells eA eB w sa true) s = .next t ∧ t.pending = s.pending ∧ t.latch = none ∧ t.nv = v.booted true ∧
      t.dev.boot.stage = (v.bootsTo true).1 ∧ t.dev.boot.reason = (v.bootsTo true).2 ∧ (t.dev.boot.locked = true ↔ t.dev.boot.stage = 7) ∧
      t.dev.time = 20000000 ∧ t.dev.epochs.rst = 0 ∧ (∀ e, v.flash.epoch = some e → w = true → t.dev.epochs.pon = satInc e) ∧
      t.dev.queues = [] ∧ t.dev.tenants = [] ∧ t.dev.mem.tiles = [] ∧ t.dev.tok.seqs = [] ∧ t.dev.hostMem = s.dev.hostMem) ∧
    (∃ t, exec (.powerOn cells eA eB w sa false) s = .next t ∧ t.pending = s.pending ∧ t.nv = v ∧ t.dev.boot.romHeld = true ∧ t.dev.boot.stage = 0)

/-- RESET_L restarts the boot from its first event; its own epoch increments and the power-on epoch does not. At any point, boot included,
RESET_L on a powered device that has not tripped runs the boot ROM from its first event on the cleared device: the RESET_L epoch is one more
(saturating), the power-on epoch and its record in flash are as before, time restarts, and the stage and reason are those that the flash
allows. Without power or after THERMTRIP_L nothing changes. Rows completed: resetL. (spec/02_boot_configuration.md R40) -/
def Obligations.ResetLRestartsTheBoot : Prop :=
  ∀ s : State,
    (s.dev.boot.powered = true → s.dev.boot.thermtrip = false → ∃ t, exec (.resetL true) s = .next t ∧
      t = { s with nv := s.nv.booted false, dev := bootDev s.nv s.dev.underReset false s.dev.sec.debugPending, latch := none } ∧
      t.dev.epochs.rst = satInc s.dev.epochs.rst ∧ t.dev.epochs.pon = s.dev.epochs.pon ∧ t.nv.flash = s.nv.flash ∧
      t.dev.boot.stage = (s.nv.bootsTo false).1 ∧ t.dev.boot.reason = (s.nv.bootsTo false).2 ∧ t.dev.time = 20000000) ∧
    (s.dev.boot.powered = false ∨ s.dev.boot.thermtrip = true → ∀ ok, exec (.resetL ok) s = .next s)

/-- Faults of rails, watchdog and setpoint and a device reset act as resets; the removal of power and a trip clear the device. A fault of any
rail but VDD_AON, the expiry of the island watchdog, a regulator that has not reported its setpoint, and MG_RESET_REQ of the device kind
where that write acts each do what RESET_L does. On a powered device that has not tripped that is: the boot ROM runs from its first event on
the cleared device. A fault of VDD_AON is a power-on reset with the flash as it is. After the removal of power the device has no power and
everything in it is cleared; flash and fuses stay. A trip of a powered device leaves time, epochs and the power block, clears the rest, and
asserts SMB_ALERT_L; RESET_L then does nothing, and a power-on boots again. Rows completed: railFault, resetL, powerOn, avsSetpointTimeout,
resetDevice, islandWatchdog, powerRemoval, thermtrip. (spec/02_boot_configuration.md R33, spec/14_firmware.md R450,
spec/19_electrical_and_package.md R553, spec/02_boot_configuration.md R60, spec/15_power_thermal_ageing.md R505,
spec/17_external_interfaces.md R536, spec/19_electrical_and_package.md R554) -/
def Obligations.ResetEventsPowerRemovalAndTrip : Prop :=
  (∀ s : State,
    exec (.railFault false) s = exec (.resetL true) s ∧ exec .islandWatchdog s = exec (.resetL true) s ∧
    exec (.railFault true) s = exec (.powerOn [] none none s.nv.flash.writable s.dev.pwr.smbAddr true) s ∧
    (∀ die, ((s.dev.die die).avsWait = true → exec (.avsSetpointTimeout die) s = exec (.resetL true) s) ∧
      ((s.dev.die die).avsWait = false → exec (.avsSetpointTimeout die) s = .next s)) ∧
    (∀ v, s.dev.Serves mgmtParty 0x2010 → exec (.resetDevice v) s = exec (.resetL true) s)) ∧
  (∀ s : State, let t : State := { s with nv := s.nv.booted false, dev := bootDev s.nv s.dev.underReset false s.dev.sec.debugPending, latch := none }
    s.dev.boot.powered = true → s.dev.boot.thermtrip = false →
    exec (.railFault false) s = .next t ∧ exec .islandWatchdog s = .next t ∧ (∀ die, (s.dev.die die).avsWait = true → exec (.avsSetpointTimeout die) s = .next t) ∧
    (∀ v, s.dev.Serves mgmtParty 0x2010 → exec (.resetDevice v) s = .next t)) ∧
  (∀ s : State, ∃ t, exec (.railFault true) s = .next t ∧ t.pending = s.pending ∧ t.latch = none ∧ t.nv = s.nv.booted true) ∧
  (∀ s : State,
    (∃ t, exec .powerRemoval s = .next t ∧ t = { s with dev := { s.dev.cleared with boot := { powered := false } }, latch := none } ∧ t.dev.queues = [] ∧ t.dev.mem.phys = []) ∧
    (s.dev.boot.powered = true → ∃ t, exec .thermtrip s = .next t ∧ t.nv = s.nv ∧ t.pending = s.pending ∧ t.dev.boot.thermtrip = true ∧ t.dev.boot.stage = 0 ∧
      t.dev.time = s.dev.time ∧ t.dev.epochs = s.dev.epochs ∧ t.dev.pwr = { s.dev.pwr with domains := 0x800000, alert := true } ∧ t.dev.queues = [] ∧ t.dev.tenants = [] ∧
      (∀ ok, exec (.resetL ok) t = .next t)) ∧
    (s.dev.boot.powered = false → exec .thermtrip s = .next s))

/-- Training and initialisation end in stages 4 and 5, or in the safe configuration; BOOT_LOCK sets stage 6 and enables the tenants. At stage 3,
training with devices of the configured capacity and rate, in ranks and density that R202 lists for the capacity, sets the usable capacity
of R209 and stage 4, and stores the training cache unless it was used; where the pools and quotas exceed the usable capacity the stage is 7
with reason 0x15. Devices that make no such configuration give stage 7 with reason 0x11 (DEDUCED, log entry 70). A channel that differs
gives stage 7 with reason 0x11 and the channel, one that fails stage 7 with reason 0x12 and the channel. At stage 4 the end of
initialisation sets stage 5. At any other stage neither has an effect. At stage 5 of a powered device, the last boot event sets stage 6,
boot lock and the boot time; the boot power cap, the gust rate and the powered domains are those of the configuration; every enabled tenant
is served and has its keys, and no window of another tenant changes; time, configuration and memory stay. At any other stage nothing
changes. Rows completed: memoryTrainingComplete, integrityInitComplete, bootLock. (spec/02_boot_configuration.md R45,
spec/02_boot_configuration.md R46, spec/02_boot_configuration.md R50, spec/02_boot_configuration.md R56, spec/02_boot_configuration.md R57,
spec/07_memory_tiers.md R202, spec/07_memory_tiers.md R204, spec/07_memory_tiers.md R209, spec/13_security_and_tenancy.md R413,
spec/13_security_and_tenancy.md R432, spec/15_power_thermal_ageing.md R475, spec/15_power_thermal_ageing.md R502) -/
def Obligations.MemoryTrainingInitialisationAndBootLock : Prop :=
  ((∀ (s : State) (rate ranks density cap : Nat), s.dev.boot.stage = 3 → s.dev.boot.powered = true → let c := s.dev.cfg
    (∀ ch differ, ∃ t, exec (.memoryTrainingComplete cap rate ranks density (some (ch, differ))) s = .next t ∧ t = s.withDev t.dev ∧
      t.dev.boot.stage = 7 ∧ t.dev.boot.reason = (if differ then 0x11 else 0x12) ∧ t.dev.boot.detail = ch ∧ t.dev.mem = s.dev.mem) ∧
    (cap = c.capacityGib → rate = c.dataRate → (cap, ranks, density) ∈ memConfigs → ∃ t, exec (.memoryTrainingComplete cap rate ranks density none) s = .next t ∧
      t = { s with nv := t.nv, dev := t.dev } ∧ t.nv.fuses = s.nv.fuses ∧ t.nv.flash.bytes = s.nv.flash.bytes ∧ t.dev.mem.usableMib = usableOf cap c.protection ∧
      (c.useCache = false → t.nv.flash.cacheRate = some (trainKey rate cap ranks density)) ∧
      (c.memoryAsked ≤ usableOf cap c.protection → t.dev.boot.stage = 4 ∧ t.dev.cfg = c) ∧
      (usableOf cap c.protection < c.memoryAsked → t.dev.boot.stage = 7 ∧ t.dev.boot.reason = 0x15)) ∧
    (cap ≠ c.capacityGib ∨ rate ≠ c.dataRate ∨ (cap, ranks, density) ∉ memConfigs → ∃ t, exec (.memoryTrainingComplete cap rate ranks density none) s = .next t ∧ t.dev.boot.stage = 7 ∧ t.dev.boot.reason = 0x11)) ∧
  (∀ (s : State) cap rate ranks density fail, s.dev.boot.stage ≠ 3 → exec (.memoryTrainingComplete cap rate ranks density fail) s = .next s) ∧
  (∀ s : State, s.dev.boot.powered = true → s.dev.boot.stage = 4 → s.dev.cfg.memoryAsked ≤ s.dev.mem.usableMib →
    exec .integrityInitComplete s = .next (s.withDev { s.dev with boot := { s.dev.boot with stage := 5 } })) ∧
  (∀ s : State, s.dev.boot.stage ≠ 4 → exec .integrityInitComplete s = .next s)) ∧
  ((∀ s : State, s.dev.boot.powered = true → s.dev.boot.stage = 5 → ∃ t, exec .bootLock s = .next t ∧ t = s.withDev t.dev ∧
    t.dev.boot = { s.dev.boot with stage := 6, locked := true, bootTimeMs := min 0xFFFF (s.dev.time.toNat / 1000000) } ∧
    t.dev.pwr.capW = s.dev.cfg.capBoot ∧ t.dev.pwr.domains = s.dev.cfg.domains ∧ t.dev.gustRate = s.dev.cfg.gustRate ∧
    (∀ n, s.dev.cfg.tenOn n = true → (t.dev.ten n).serving = true ∧ (t.dev.ten n).keyed = true) ∧
    (∀ n, s.dev.cfg.tenOn n = false → t.dev.ten n = s.dev.ten n) ∧
    t.dev.time = s.dev.time ∧ t.dev.cfg = s.dev.cfg ∧ t.dev.mem = s.dev.mem ∧ t.dev.queues = s.dev.queues) ∧
  (∀ s : State, s.dev.boot.stage ≠ 5 → exec .bootLock s = .next s))

/-- A link reset clears the functions of its port and discards what has not started; the rest of the device stays. On an awake device past stage
3, PCIE_PERST on an endpoint port steps the link epoch of that port; the functions of the port's tenants are neither enabled nor bus master,
their ring mirrors and sessions are gone, and lists of theirs of which no command has started are discarded, as are the management
function's when its port is reset. Every other tenant's window and port, and all else of the device (memory, models, KV pages, sequences,
pipelines, power), stays. Rows completed: pciePerst. (spec/02_boot_configuration.md R33, spec/02_boot_configuration.md R37,
spec/04_work_engines_and_command_lists.md R127, spec/13_security_and_tenancy.md R429, spec/13_security_and_tenancy.md R426) -/
def Obligations.LinkResetOfAPort : Prop :=
  ∀ (s : State) (n : Nat) (up : Bool), n < 4 → s.dev.boot.powered = true → s.dev.boot.thermtrip = false → 3 ≤ s.dev.boot.stage → s.dev.pwr.state ≤ 1 →
    ∃ t, exec (.pciePerst n up) s = .next t ∧ t = s.withDev t.dev ∧ let d := s.dev; let e := t.dev; let own := d.cfg.portTenants n
      e = { d with epochs := { d.epochs with link := d.epochs.link.set n (satInc (d.epochs.link.get n 0)) }, ports := e.ports, tenants := e.tenants, mgmt := e.mgmt, queues := e.queues, sec := { d.sec with mailbox := e.sec.mailbox } } ∧
      (e.port n).numVfs = 0 ∧ (e.port n).up = (up && (d.port n).up) ∧ (∀ k, k ≠ n → e.port k = d.port k) ∧ (∀ x, x ∉ own → e.ten x = d.ten x) ∧
      (∀ x ∈ own, (e.ten x).vfEnabled = false ∧ (e.ten x).busMaster = false ∧ (e.ten x).session = none ∧ (e.ten x).compl.mirror = 0 ∧ (e.ten x).compl.mirrorEn = false ∧
        (e.ten x).err.mirror = 0 ∧ (e.ten x).err.mirrorEn = false) ∧
      (∀ q, e.que q = if qParty q ∈ own ∨ (qIsMgmt q = true ∧ d.cfg.port = n) then (d.que q).dropUnstarted else d.que q)

/-- A link comes up, the host enables virtual functions, and it takes bus mastering away. PCIE_LINK_UP on a configured port of an awake device
sets the link with its speed and width; on a root port it makes the drive behind it present with its places, or absent. VF_ENABLE with a
count within total_vfs enables the functions below it and makes those that newly appear bus master; one that it takes away loses both.
BUS_MASTER_DISABLE clears Bus Master Enable of that function's tenant alone. Rows completed: pcieLinkUp, vfEnable, busMasterDisable.
(spec/17_external_interfaces.md R522, spec/17_external_interfaces.md R540, spec/02_boot_configuration.md R33, spec/07_memory_tiers.md R210) -/
def Obligations.TheHostEnablesFunctions : Prop :=
  (∀ (s : State) (n speed width : Nat) (drive : Option Nat), s.dev.awake = true → n < 6 → s.dev.cfg.portOn n = true ∨ 4 ≤ n →
    ∃ t, exec (.pcieLinkUp n speed width drive) s = .next t ∧ t = s.withDev t.dev ∧
      t.dev = { s.dev with ports := s.dev.ports.set n { s.dev.port n with up := true, speed := speed % 8, width := width % 8 }, mem := t.dev.mem } ∧
      (n < 4 → t.dev.mem = s.dev.mem) ∧
      (∀ b, 4 ≤ n → drive = some b → t.dev.mem.nvmePresent.getLsbD (n - 4) = true ∧ t.dev.mem.nvmeCap.get (n - 4) 0 = min b 0x40000000000 * 255 / 256 / 16384) ∧
      (4 ≤ n → drive = none → t.dev.mem.nvmePresent.getLsbD (n - 4) = false)) ∧
  (∀ (s : State) (n count : Nat), (s.dev.port n).up = true → n < 4 → count ≤ s.dev.cfg.portVfs n →
    ∃ t, exec (.vfEnable n count) s = .next t ∧ t = s.withDev t.dev ∧ (t.dev.port n).numVfs = count ∧ t.dev.mem = s.dev.mem ∧ t.dev.tok = s.dev.tok ∧
      (∀ x, x ∉ s.dev.cfg.portTenants n → t.dev.ten x = s.dev.ten x) ∧
      (∀ x ∈ s.dev.cfg.portTenants n, (s.dev.cfg.tenVf x < count → t.dev.ten x = { s.dev.ten x with vfEnabled := true, busMaster := (s.dev.ten x).busMaster || !(s.dev.ten x).vfEnabled }) ∧
        (count ≤ s.dev.cfg.tenVf x → (s.dev.ten x).vfEnabled = true → (t.dev.ten x).vfEnabled = false ∧ (t.dev.ten x).busMaster = false ∧ (t.dev.ten x).session = none))) ∧
  (∀ (s : State) (port vf : Nat), (∀ x, s.dev.cfg.vfTenant port vf = some x →
      exec (.busMasterDisable port vf) s = .next (s.withDev { s.dev with tenants := s.dev.tenants.set x { s.dev.ten x with busMaster := false } })) ∧
    (s.dev.cfg.vfTenant port vf = none → exec (.busMasterDisable port vf) s = .next s))

/-- FLR of a virtual function and MG_RESET_REQ start a tenant reset; one that runs already is not started again. With the tenant enabled, not in
reset, and a healthy entropy source, the FLR of its virtual function and MG_RESET_REQ of the tenant kind start a reset of that tenant: its
epoch steps, its window is at reset with scrub set and serving clear, and its command lists, mailbox requests, sequences and triggers are
gone. While its scrub runs, the FLR changes nothing and MG_RESET_REQ replies 0x01 with no epoch step. Rows completed: vfFlr, resetTenant.
(spec/02_boot_configuration.md R35, spec/02_boot_configuration.md R39, spec/02_boot_configuration.md R60, spec/13_security_and_tenancy.md
R437, spec/17_external_interfaces.md R522) -/
def Obligations.TenantResetStarts : Prop :=
  (∀ (s : State) (port vf n : Nat), s.dev.cfg.vfTenant port vf = some n → s.dev.awake = true → s.dev.sec.rngFail = false →
    ((s.dev.ten n).scrub = false → ∃ t, exec (.vfFlr port vf) s = .next t ∧ t = s.withDev t.dev ∧ s.dev.TenantInReset n t.dev) ∧
    ((s.dev.ten n).scrub = true → exec (.vfFlr port vf) s = .next s)) ∧
  (∀ (s : State) (v : W64) (n : Nat), s.dev.Serves mgmtParty 0x2010 → s.dev.cfg.safe = false → fld v 8 8 = n → s.dev.cfg.tenOn n = true → s.dev.sec.rngFail = false →
    ((s.dev.ten n).scrub = false → ∃ t, exec (.resetTenant v) s = .next t ∧ t = s.withDev t.dev ∧ s.dev.TenantInReset n t.dev) ∧
    ((s.dev.ten n).scrub = true → ∃ t, exec (.resetTenant v) s = .next t ∧ t = s.withDev t.dev ∧ t.dev.epochs = s.dev.epochs ∧ t.dev.mgmt.replyStatus = 0x01 ∧
      t.dev.mgmt.replyOffset = 0x2010 ∧ t.dev.mgmt.replyCount = s.dev.mgmt.replyCount + 1))

/-- MG_RESET_REQ of the partition kind starts a partition reset; one that runs already is refused. For a partition that exists and is not in
reset, MG_RESET_REQ of the partition kind steps the partition epoch, sets the busy bit and the status bit of its tenants, dissolves its
batch, and ends every command that runs in it. While that partition is in reset it replies 0x01 and no epoch steps; for an absent partition
it replies 0x02. Rows completed: resetPartition. (spec/02_boot_configuration.md R34, spec/02_boot_configuration.md R39,
spec/02_boot_configuration.md R60) -/
def Obligations.PartitionResetStarts : Prop :=
  ∀ (s : State) (v : W64), s.dev.Serves mgmtParty 0x2010 → s.dev.cfg.safe = false → let p := fld v 8 8
    (s.dev.cfg.partOn p = true → (s.dev.part p).resetting = false → ∃ t, exec (.resetPartition v) s = .next t ∧ t = s.withDev t.dev ∧ s.dev.PartInReset p t.dev) ∧
    (s.dev.cfg.partOn p = true → (s.dev.part p).resetting = true → ∃ t, exec (.resetPartition v) s = .next t ∧ t = s.withDev t.dev ∧ t.dev.epochs = s.dev.epochs ∧ t.dev.mgmt.replyStatus = 0x01) ∧
    (s.dev.cfg.partOn p = false → ∃ t, exec (.resetPartition v) s = .next t ∧ t = s.withDev t.dev ∧ t.dev.epochs = s.dev.epochs ∧ t.dev.mgmt.replyStatus = 0x02)

/-- A partition reset ends with its regions at reset; a scrub ends with the tenant's tiles gone; the tenant is enabled again.
PARTITION_RESET_COMPLETE clears the busy bit and its tenants' status bit; the clusters of its regions and the tags of their buffers are at
reset. SCRUB_COMPLETE leaves no tile of the tenant mapped, and every byte of the LP5X frames they had is 0. TENANT_ENABLE at a tick boundary
after a scrub, with CC4, the tenant's core and the entropy source there, gives the tenant new keys, sets serving, clears scrub and reports
done where its progress register took no update in this tick; it touches no other window. Rows completed: partitionResetComplete,
scrubComplete, tenantEnable. (spec/01_device_organization.md R30, spec/02_boot_configuration.md R35, spec/02_boot_configuration.md R61,
spec/13_security_and_tenancy.md R413, spec/13_security_and_tenancy.md R437, spec/14_firmware.md R449) -/
def Obligations.ResetsComplete : Prop :=
  (∀ (s : State) (p : Nat), (s.dev.part p).resetting = true → ∃ t, exec (.partitionResetComplete p) s = .next t ∧ t = s.withDev t.dev ∧ (t.dev.part p).resetting = false ∧
    (∀ x ∈ s.dev.cfg.partTenants p, (t.dev.ten x).partReset = false) ∧
    (∀ r ∈ s.dev.cfg.partRegions p, (∀ c, c / 16 = r → t.dev.cluster c = {}) ∧ (∀ k, k < 8192 → k / 512 = r → t.dev.mem.tags.get k {} = {}))) ∧
  (∀ (s : State) (n : Nat), (s.dev.ten n).scrub = true → (s.dev.ten n).scrubDone = false → ∃ t, exec (.scrubComplete n) s = .next t ∧ t = s.withDev t.dev ∧
    (t.dev.ten n).scrub = true ∧ (t.dev.ten n).scrubDone = true ∧ (∀ k v, t.dev.tile k = some v → v.owner ≠ n) ∧
    (∀ k v i, s.dev.tile k = some v → v.owner = n → v.tier = 0 → i < tileSize → t.dev.mem.phys.get (v.frame * tileSize + i) = 0)) ∧
  (∀ (s : State) (n : Nat), n < 64 → (s.dev.ten n).scrub = true → (s.dev.ten n).scrubDone = true → s.dev.atTick = true → (s.dev.ten n).scrubDue ≤ s.dev.tick → s.dev.coreOut 4 = false → s.dev.coreOut (coreOf n) = false → s.dev.sec.rngFail = false →
    ∃ t, exec (.tenantEnable n) s = .next t ∧ t = s.withDev t.dev ∧ (t.dev.ten n).scrub = false ∧ (t.dev.ten n).serving = true ∧ (t.dev.ten n).keyed = true ∧
      (((s.dev.ten n).progress.get 7 {}).upd ≠ some s.dev.tick → ((t.dev.ten n).progress.get 7 {}).kind = 2 ∧ ((t.dev.ten n).progress.get 7 {}).value = 10000) ∧ (∀ x, x ≠ n → t.dev.ten x = s.dev.ten x) ∧ t.dev.mem = s.dev.mem)

/-- A mailbox request for a report or the certificates is served: buffer written, sequence stepped, status 0x00. When the island serves a
party's request for a report and its nonce can be read, the report with that nonce and its signature are written 256 bytes into the buffer,
report_seq and the count of reports step, the handoff flag is told, the request leaves the mailbox and last_status is 0x00; a nonce that
cannot be read ends it with that status. A request for the certificates writes the attestation certificate and the chain of the flash at the
same place. Rows completed: attReport, attCertificates. (spec/13_security_and_tenancy.md R415, spec/13_security_and_tenancy.md R422,
spec/13_security_and_tenancy.md R423, spec/13_security_and_tenancy.md R424, spec/13_security_and_tenancy.md R425,
spec/13_security_and_tenancy.md R426) -/
def Obligations.AttestationReportsAndCertificates : Prop :=
  (∀ (s : State) (p : Nat) (host : List Host.Cell) (r : AttReq), p ≤ 64 → s.dev.attHead p 1 = some r →
    (∀ d1 nonce, s.dev.attRead r host 0 32 = (d1, .ok nonce) → ∃ t, exec (.attReport p host) s = .next t ∧ t = s.withDev t.dev ∧
      t.dev = ((d1.report p nonce none).1.attWrite r 256 (d1.report p nonce none).2).attEnd p 0 0 ∧ (∀ x ∈ t.dev.sec.mailbox, x.party ≠ p) ∧ t.dev.sec.reports = s.dev.sec.reports + 1 ∧
      (p < 64 → (t.dev.ten p).reportSeq = (s.dev.ten p).reportSeq + 1 ∧ (t.dev.ten p).attStatus = 0 ∧ (t.dev.ten p).handoffSeen = false) ∧
      (p = 64 → t.dev.mgmt.reportSeq = s.dev.mgmt.reportSeq + 1 ∧ t.dev.mgmt.attStatus = 0 ∧ t.dev.mgmt.handoffSeen = false)) ∧
    (∀ d1 e, s.dev.attRead r host 0 32 = (d1, .error e) → exec (.attReport p host) s = .next (s.withDev (d1.attEnd p e.status e.code)))) ∧
  (∀ (s : State) (p : Nat) (r : AttReq), s.dev.attHead p 4 = some r → ∃ t, exec (.attCertificates p) s = .next t ∧ t = s.withDev t.dev ∧
    let cert := s.attCertificate; let chain := s.nv.flash.chain
    t.dev = (s.dev.attWrite r 256 (leBytes 4 cert.length ++ cert ++ List.replicate (s.chainAt - 4 - cert.length) 0 ++ leBytes 4 chain.length ++ chain)).attEnd p 0 0 ∧
    (∀ x ∈ t.dev.sec.mailbox, x.party ≠ p))

/-- A session opens with a fresh key and the next identifier, and closes. A served SESSION_OPEN whose host key lies on the curve, whose
signature verifies where the tenant has an authentication key, and with a healthy entropy source leaves the tenant with a session under the
next session_id and moves that on, with status 0x00; a key off the curve ends it with 0x04, a bad signature with 0x03, and an open session
is left as it was. SESSION_CLOSE ends the tenant's session with status 0x00. No other tenant's session changes. Rows completed: sessionOpen,
sessionClose. (spec/13_security_and_tenancy.md R422, spec/13_security_and_tenancy.md R427, spec/13_security_and_tenancy.md R428,
spec/13_security_and_tenancy.md R429) -/
def Obligations.SessionsOpenAndClose : Prop :=
  (∀ (s : State) (n : Nat) (r : AttReq) (d1 : Dev) (b : List B8), n < 64 → s.dev.attHead n 2 = some r → s.dev.attRead r [] 0 224 = (d1, .ok b) →
    let good := s.dev.cfg.authKeySlot n = 0xFF ∨ Config.ecdsaVerify (s.dev.cfg.key (s.dev.cfg.authKeySlot n)) (b.take 128) ((b.drop 128).take 96) = true
    ∃ t, exec (.sessionOpen n) s = .next t ∧ t = s.withDev t.dev ∧ (∀ x, x ≠ n → (t.dev.ten x).session = (s.dev.ten x).session) ∧
      (Config.onCurve (b.take 96) = true → good → s.dev.sec.rngFail = false →
        (t.dev.ten n).session.map (fun x => x.sid) = some (s.dev.ten n).sessionNext ∧ (t.dev.ten n).sessionNext = nextSid (s.dev.ten n).sessionNext ∧ (t.dev.ten n).attStatus = 0 ∧
        (t.dev.ten n).reportSeq = (s.dev.ten n).reportSeq + 1) ∧
      (Config.onCurve (b.take 96) = false → (t.dev.ten n).session = (s.dev.ten n).session ∧ (t.dev.ten n).attStatus = 0x04) ∧
      (Config.onCurve (b.take 96) = true → ¬ good → (t.dev.ten n).session = (s.dev.ten n).session ∧ (t.dev.ten n).attStatus = 0x03)) ∧
  (∀ (s : State) (n : Nat) (r : AttReq), n < 64 → s.dev.attHead n 3 = some r → ∃ t, exec (.sessionClose n) s = .next t ∧ t = s.withDev t.dev ∧
    (t.dev.ten n).session = none ∧ (t.dev.ten n).attStatus = 0 ∧ (∀ x, x ≠ n → t.dev.ten x = s.dev.ten x) ∧ t.dev.mem = s.dev.mem)

/-- Debug unlock waits for the next RESET_L, a measurement extension for the next tick; a failed entropy source is remembered. Where the
register write acts and the management link is up: a token that passes is pending and a fresh nonce is drawn, and debug is not open yet; one
that fails leaves only the fresh nonce and a record 0x03 with detail 0xAE; cancel clears what is pending. SEC_MR_EXT with go on registers 8
to 15 queues the digest read from host memory; on 0 to 7 nothing is queued. RNG_HEALTH_FAIL after boot event 1 sets the failure alone. Rows
completed: debugUnlock, mrExtend, debugCancel, rngHealthFail. (spec/13_security_and_tenancy.md R413, spec/13_security_and_tenancy.md R442,
spec/13_security_and_tenancy.md R443, spec/13_security_and_tenancy.md R446) -/
def Obligations.DebugMeasurementAndEntropy : Prop :=
  (∀ (s : State) (host : List Host.Cell), s.dev.Serves mgmtParty secDbgCtl → s.dev.hostUp = true →
    let tok := s.dev.hostRead s.dev.cfg.port host s.dev.sec.dbgAddr.toNat 192; let sec := { s.dev.sec with nonce := Config.freeKey s.dev.draw }
    (s.tokenRefused tok = false → exec (.debugUnlock host) s = .next (s.withDev { s.dev with draw := s.dev.draw + 1, sec := { sec with debugPending := some tok } })) ∧
    (s.tokenRefused tok = true → ∃ t, exec (.debugUnlock host) s = .next t ∧
      t = s.withDev (({ s.dev with draw := s.dev.draw + 1, sec := sec } : Dev).regRec mgmtParty 0x03 0xAE 0 secDbgCtl) ∧ t.dev.sec = sec)) ∧
  (∀ s : State, s.dev.Serves mgmtParty secDbgCtl → exec .debugCancel s = .next (s.withDev { s.dev with sec := { s.dev.sec with debugPending := none } })) ∧
  (∀ (s : State) (v : W64) (host : List Host.Cell), s.dev.Serves mgmtParty secMrExt → s.dev.hostUp = true →
    (8 ≤ fld v 0 4 → exec (.mrExtend v host) s = .next (s.withDev { s.dev with sec := { s.dev.sec with mrPend := s.dev.sec.mrPend ++ [(fld v 0 4, BitVec.ofNat 384 (leNat (s.dev.hostRead s.dev.cfg.port host s.dev.sec.mrExtAddr.toNat 48)))] } })) ∧
    (fld v 0 4 < 8 → exec (.mrExtend v host) s = .next (s.withDev (s.dev.regRec mgmtParty 0x04 0 0 secMrExt)))) ∧
  (∀ s : State, s.dev.boot.stage ≠ 0 → exec .rngHealthFail s = .next (s.withDev { s.dev with sec := { s.dev.sec with rngFail := true } }))

/-- A firmware image is checked, written to the spare slot, and made ready; abort ends an update before its handoff. Where the write acts and no
update runs: an image that passes the checks is kept, its update state is 1 and everything but its signature is in the spare slot; one that
fails leaves update state 0 with the status and detail of the check. While an update runs, another go leaves it as it is. FW_IMAGE_READY
completes the slot and sets state 2, or fails with 0x04 and 0x9A where the flash is not writable. An abort in state 1 or 2 gives state 0,
status 0x01 and detail 0x9D, and in another state changes nothing. The image in use does not change. Rows completed: fwUpdateGo,
fwImageReady, fwUpdateAbort. (spec/14_firmware.md R456, spec/14_firmware.md R461, spec/14_firmware.md R462, spec/14_firmware.md R463) -/
def Obligations.FirmwareUpdate : Prop :=
  (∀ (s : State) (v : W64) (host : List Host.Cell), s.dev.Serves mgmtParty fwUpdCtl → let len := fld v 0 20
    let b := s.dev.hostRead s.dev.cfg.port host s.dev.fw.updAddr.toNat len
    ∃ t, exec (.fwUpdateGo v host) s = .next t ∧ t = { s with nv := t.nv, dev := t.dev } ∧ t.nv.fuses = s.nv.fuses ∧ t.dev.fw.image = s.dev.fw.image ∧ t.dev.fw.generation = s.dev.fw.generation ∧
      (s.dev.fw.updState ≠ 0 → t.dev.fw = s.dev.fw ∧ t.nv = s.nv) ∧
      (s.dev.fw.updState = 0 → s.dev.hostUp = true → s.updFault (Memory.write [] 0 b) len = none →
        t.dev.fw = { s.dev.fw with updState := 1, newImage := b, deferTicks := fld v 32 16 } ∧ t.nv = (s.putSpare (b.take (len - 96))).nv) ∧
      (∀ st code, s.dev.fw.updState = 0 → s.dev.hostUp = true → s.updFault (Memory.write [] 0 b) len = some (st, code) →
        t.dev.fw = { s.dev.fw with updState := 0, newImage := [], status := st, detail := BitVec.ofNat 8 code } ∧ t.nv = s.nv)) ∧
  (∀ s : State, s.dev.fw.updState = 1 → s.dev.coreOut 0 = false → s.dev.coresOn = true → ∃ t, exec .fwImageReady s = .next t ∧ t = { s with nv := t.nv, dev := t.dev } ∧
    (s.nv.flash.writable = true → t.nv = (s.putSpare s.dev.fw.newImage).nv ∧ t.dev.fw.updState = 2 ∧ t.dev.fw.readyTick = s.dev.tick + 1 ∧ t.dev.fw.newImage = s.dev.fw.newImage) ∧
    (s.nv.flash.writable = false → t.nv = s.nv ∧ t.dev.fw.updState = 0 ∧ t.dev.fw.status = 0x04 ∧ t.dev.fw.detail = 0x9A)) ∧
  (∀ s : State, s.dev.Serves mgmtParty fwUpdCtl → ∃ t, exec .fwUpdateAbort s = .next t ∧ t = s.withDev t.dev ∧
    (s.dev.fw.updState = 1 ∨ s.dev.fw.updState = 2 → t.dev.fw.updState = 0 ∧ t.dev.fw.status = 0x01 ∧ t.dev.fw.detail = 0x9D ∧ t.dev.fw.image = s.dev.fw.image) ∧
    (s.dev.fw.updState = 0 ∨ s.dev.fw.updState = 3 → t = s))

/-- The handoff holds every window and measures the new image; the acknowledgement exchanges the images, the rollback keeps the old one. At a
tick boundary, with an image ready and its deferral past, no core restarting and no entry to sleep under way, FW_HANDOFF sets update_hold in
every tenant's window and MR2 and MR4 take the new image. HANDOFF_ACK within 100 ms, with no write held, gives the new image's generation,
exchanges bank and slot, raises the fused firmware minimum where the image asks, clears update_hold and marks the handoff for every
requester's next report. HANDOFF_ROLLBACK after 100 ms, with no write held, restores MR2, gives state 0 with 0x11 and 0x9C, and clears
update_hold; the image in use stays. Rows completed: fwHandoff, handoffAck, handoffRollback. (spec/13_security_and_tenancy.md R417,
spec/13_security_and_tenancy.md R425, spec/14_firmware.md R463, spec/14_firmware.md R464, spec/14_firmware.md R465) -/
def Obligations.FirmwareHandoff : Prop :=
  (∀ s : State, s.dev.fw.updState = 2 → s.dev.coresOn = true → s.dev.atTick = true → s.dev.pwr.entering = false → s.dev.fw.readyTick + s.dev.fw.deferTicks ≤ s.dev.tick →
    (∀ k, k < 8 → (s.dev.core k).restarting = false) → ∃ t, exec .fwHandoff s = .next t ∧ t = s.withDev t.dev ∧ t.dev.fw = { s.dev.fw with updState := 3, holdSince := s.dev.time } ∧
      t.dev.sec.mr.get 2 0 = Config.sha384 s.dev.fw.newImage ∧ (∀ n, s.dev.cfg.tenOn n = true → (t.dev.ten n).updateHold = true) ∧ t.dev.mem = s.dev.mem ∧ t.dev.queues = s.dev.queues) ∧
  (∀ s : State, s.dev.fw.updState = 3 → s.dev.coresOn = true → (∀ p ∈ s.dev.cfg.parties, s.dev.heldWrites p = []) → let m := Memory.write [] 0 s.dev.fw.newImage
    (s.dev.time.toNat < s.dev.fw.holdSince.toNat + 100000000 → ∃ t, exec .handoffAck s = .next t ∧ t = { s with nv := t.nv, dev := t.dev } ∧ t.nv = { s.nv with fuses := t.nv.fuses } ∧
      t.nv.fuses = (if m16 m 6 % 2 = 1 then { s.nv.fuses with fwMin := max s.nv.fuses.fwMin (fwSecVersion m) } else s.nv.fuses) ∧
      t.dev.fw.generation = BitVec.ofNat 32 (fwGeneration m) ∧ t.dev.fw.updState = 0 ∧ t.dev.fw.image = s.dev.fw.newImage ∧ t.dev.fw.bank = 1 - s.dev.fw.bank ∧ t.dev.fw.slot = 1 - s.dev.fw.slot ∧
      t.dev.fw.status = 0 ∧ t.dev.fw.detail = 0 ∧ (∀ n, s.dev.cfg.tenOn n = true → (t.dev.ten n).updateHold = false) ∧ t.dev.mgmt.handoffSeen = true) ∧
    (s.dev.fw.holdSince.toNat + 100000000 ≤ s.dev.time.toNat → ∃ t, exec .handoffRollback s = .next t ∧ t = s.withDev t.dev ∧ t.dev.fw.updState = 0 ∧ t.dev.fw.status = 0x11 ∧ t.dev.fw.detail = 0x9C ∧ t.dev.fw.image = s.dev.fw.image ∧
      t.dev.fw.generation = s.dev.fw.generation ∧ t.dev.sec.mr.get 2 0 = Config.sha384 s.dev.fw.image ∧ (∀ n, s.dev.cfg.tenOn n = true → (t.dev.ten n).updateHold = false)))

/-- A control core restarts on its watchdog, an ECC error or a request, and comes back. While cores run and no handoff is under way, the
watchdog, an uncorrectable error in a core's code and, where its write acts, MG_RESET_REQ of the core kind set the core restarting, step its
epoch and set fw_restart of its tenants; queues, memory, sequences and the image in use stay. A core that is restarting is refused with
0x01, an absent one with 0x02. CC_RESTART_COMPLETE, with no write held for its windows, clears both, and leaves memory, queues and epochs.
Rows completed: watchdogExpiry, ccCodeEccError, resetControlCore, ccRestartComplete. (spec/02_boot_configuration.md R37,
spec/02_boot_configuration.md R39, spec/14_firmware.md R458, spec/14_firmware.md R459, spec/14_firmware.md R460, spec/14_firmware.md R461) -/
def Obligations.ControlCoresRestart : Prop :=
  (∀ (s : State) (k : Nat), k < 8 → s.dev.coresOn = true → s.dev.fw.updState ≠ 3 → (s.dev.core k).restarting = false →
    (∃ t, exec (.watchdogExpiry k) s = .next t ∧ t = s.withDev t.dev ∧ s.dev.CoreInRestart k 0 t.dev) ∧
    (∃ t, exec (.ccCodeEccError k) s = .next t ∧ t = s.withDev t.dev ∧ s.dev.CoreInRestart k 2 t.dev) ∧
    (∀ v, fld v 8 8 = k → s.dev.Serves mgmtParty 0x2010 → s.dev.cfg.safe = false → ∃ t, exec (.resetControlCore v) s = .next t ∧ t = s.withDev t.dev ∧ s.dev.CoreInRestart k 1 t.dev)) ∧
  (∀ (s : State) (v : W64), s.dev.Serves mgmtParty 0x2010 → s.dev.cfg.safe = false → ∃ t, exec (.resetControlCore v) s = .next t ∧
    (8 ≤ fld v 8 8 → t.dev.mgmt.replyStatus = 0x02 ∧ t.dev.epochs = s.dev.epochs) ∧
    (fld v 8 8 < 8 → (s.dev.core (fld v 8 8)).restarting = true → t.dev.mgmt.replyStatus = 0x01 ∧ t.dev.epochs = s.dev.epochs)) ∧
  (∀ (s : State) (k : Nat), k < 8 → s.dev.coresOn = true → (s.dev.core k).restarting = true → (∀ p ∈ s.dev.cfg.coreParties k, s.dev.heldWrites p = []) →
    ∃ t, exec (.ccRestartComplete k) s = .next t ∧ t = s.withDev t.dev ∧ (t.dev.core k).restarting = false ∧ (∀ n ∈ s.dev.cfg.coreTenants k, (t.dev.ten n).fwRestart = false) ∧
      t.dev.epochs = s.dev.epochs ∧ t.dev.queues = s.dev.queues ∧ t.dev.mem = s.dev.mem)

/-- The six SMBus reads answer with their register; the wake command acts as WAKE_L; the Alert Response releases SMB_ALERT_L. On a powered
device, in every package state, each read command answers with its byte count, the register's bytes (MG_BOOT_STATUS, PWR_STATE, the five
temperatures with the stale byte, PWR_POWER, PWR_WAKE, SEC_STATUS), and a check byte (its polynomial is the model's choice, log entry 123).
Only the answer changes. Command 0x10 with 0xA5 begins Dawn with cause 5 in Dusk and Night, and in Noon and Overcast is remembered as a low
WAKE_L (the model's reading, log entry 123); any other data byte changes nothing. An Alert Response read while the alert is asserted
releases it and answers with the device's address; with no alert it changes nothing. WAKE_L begins Dawn with cause 5 in Dusk and Night, is
remembered during an entry, and has no effect in Noon. Rows completed: smbWake, smbReadBootStatus, smbReadState, smbReadTemperatures,
smbReadPower, smbReadWake, smbReadSecStatus, smbAlertResponse, wakeL. (spec/17_external_interfaces.md R536, spec/02_boot_configuration.md
R58, spec/13_security_and_tenancy.md R445, spec/15_power_thermal_ageing.md R491, spec/15_power_thermal_ageing.md R493) -/
def Obligations.BoardManagementOverSmbus : Prop :=
  (∀ s : State, s.dev.boot.powered = true → let d := s.dev
    let answer (cmd : Nat) (data : List B8) : State := s.withDev { d with pwr := { d.pwr with smbOut := leBytes 1 data.length ++ data ++ [pecOf (leBytes 1 (2 * d.pwr.smbTarget) ++ leBytes 1 cmd ++ leBytes 1 (2 * d.pwr.smbTarget + 1) ++ (leBytes 1 data.length ++ data))] } }
    let reg (v : W64) : List B8 := leBytes 8 v.toNat
    exec .smbReadBootStatus s = .next (answer 1 (reg (regOf [(0, 4, d.boot.stage), (4, 4, d.boot.bciSlot), (8, 8, d.boot.reason), (16, 16, d.boot.detail), (32, 16, d.boot.bootTimeMs), (48, 1, one d.boot.fallback), (49, 1, one d.boot.cacheRejected)]))) ∧
    exec .smbReadState s = .next (answer 2 (reg (regOf [(0, 2, d.pwr.state), (2, 1, one d.pwr.entering), (3, 1, one d.pwr.dawn), (8, 8, d.pwr.reqStatus.toNat), (16, 32, d.pwr.sleeps.toNat)]))) ∧
    exec .smbReadTemperatures s = .next (answer 3 (((List.range 5).map (fun n => leBytes 2 (ofSigned 16 (d.pwr.temp.get n 0)))).flatten ++ leBytes 1 (if 1 < d.pwr.state then 1 else 0))) ∧
    exec .smbReadPower s = .next (answer 4 (reg (regOf [(0, 20, d.pwr.powerMw), (20, 20, d.pwr.maxMw)]))) ∧
    exec .smbReadWake s = .next (answer 5 (reg (regOf [(0, 3, d.pwr.wakeCause), (3, 1, one d.pwr.alarmLost), (16, 16, d.pwr.dawnUs), (32, 32, d.pwr.sleptS)]))) ∧
    exec .smbReadSecStatus s = .next (answer 6 (reg d.sec.statusReg))) ∧
  (∀ (s : State) (data : B8), s.dev.boot.powered = true → s.dev.boot.thermtrip = false → let d := s.dev
    (data ≠ 0xA5 → exec (.smbWake data) s = .next s) ∧
    (d.pwr.state ≤ 1 → exec (.smbWake 0xA5) s = .next (s.withDev { d with pwr := { d.pwr with wakePin := true } })) ∧
    (1 < d.pwr.state → exec (.smbWake 0xA5) s = .next (s.withDev (d.wake 5))) ∧
    (d.pwr.alert = false → exec .smbAlertResponse s = .next s) ∧
    (d.pwr.alert = true → ∃ t, exec .smbAlertResponse s = .next t ∧ t = s.withDev { d with pwr := { d.pwr with alert := false, smbOut := t.dev.pwr.smbOut } } ∧
      t.dev.pwr.smbOut.head? = some (if d.pwr.smbAddr then 0xD6 else 0xD4)) ∧
    (d.pwr.entering = true → exec .wakeL s = .next (s.withDev { d with pwr := { d.pwr with wakeSeen := true } })) ∧
    (d.pwr.entering = false → d.pwr.state ≤ 1 → exec .wakeL s = .next s) ∧
    (d.pwr.entering = false → 1 < d.pwr.state → d.pwr.dawn = false → ∃ t, exec .wakeL s = .next t ∧ t = s.withDev { d with pwr := t.dev.pwr } ∧
      t.dev.pwr = { d.pwr with dawn := true, wakeCause := 5, sleptS := min 0xFFFFFFFF ((d.time.toNat - d.pwr.sleepAt.toNat) / 1000000000), wakePin := false, wakeSeen := false, alarmLatched := false }))

/-- MANAGEMENT_TICK moves time to the next tick, records power and temperature, and applies a requested cap. On a device with power, a tick
moves data-plane time to the next multiple of 1,000,000 ns (below the wrap of the 64-bit count); asleep or before boot lock nothing else
happens but the slewing of PTP time. In Noon and Overcast, with no entry under way, it takes over the tick's power and temperatures, applies
a requested power cap while CC0 runs, and empties the log buffers while CC7 runs. Fuses and waiting commands stay. Rows completed:
managementTick. (spec/01_device_organization.md R29, spec/03_position_timebase.md R69, spec/15_power_thermal_ageing.md R484,
spec/15_power_thermal_ageing.md R502, spec/15_power_thermal_ageing.md R503, spec/14_firmware.md R468) -/
def Obligations.TheManagementTick : Prop :=
  ∀ (s : State) (env : TickEnv), s.dev.boot.powered = true → s.dev.boot.thermtrip = false → (s.dev.tick + 1) * 1000000 < 2 ^ 64 →
    ∃ t, exec (.managementTick env) s = .next t ∧ t.pending = s.pending ∧ t.nv.fuses = s.nv.fuses ∧
      (1 < s.dev.pwr.state ∨ s.dev.boot.stage < 6 → t = s.withDev { s.dev with time := BitVec.ofNat 64 ((s.dev.tick + 1) * 1000000), ptp := t.dev.ptp }) ∧
      (s.dev.pwr.state ≤ 1 → s.dev.boot.stage = 6 → s.dev.pwr.entering = false →
        t.dev.time = BitVec.ofNat 64 ((s.dev.tick + 1) * 1000000) ∧ t.dev.pwr.powerMw = min 0xFFFFF env.powerMw ∧ t.dev.pwr.maxMw = max s.dev.pwr.maxMw (min 0xFFFFF env.powerMw) ∧
        (∀ k x, k < 5 → env.temps[k]? = some x → t.dev.pwr.temp.get k 0 = x) ∧
        (s.dev.coreOut 0 = false → t.dev.pwr.capW = s.dev.pwr.capNext.getD s.dev.pwr.capW ∧ t.dev.pwr.capNext = none) ∧
        (s.dev.coreOut 0 = true → t.dev.pwr.capW = s.dev.pwr.capW) ∧ (s.dev.coreOut 7 = false → t.dev.mgmt.logBuf = []))

/-- The power-cap loop lowers the lowest-ranked running partition above the cap and raises every partition when there is room. Above the cap,
with a running partition that is neither fixed nor at OP0, the loop takes one of those that no other of them ranks below, lowers its point
by one, and changes no other partition and no duty. With none left and a duty above 1/8, the duty falls by one eighth. At or below the cap
less raise_w, with no partition suspended: a duty below 8/8 rises by one eighth; at 8/8 every partition that may rise goes up one point.
(spec/15_power_thermal_ageing.md R500, spec/15_power_thermal_ageing.md R501, spec/02_boot_configuration.md R51) -/
def Obligations.ThePowerCapLoop : Prop :=
  ∀ (d : Dev) (mw : Nat), let cap := 1000 * d.pwr.capW; let e := d.capLoop mw
    let low (p : Nat) : Prop := d.cfg.partOn p = true ∧ d.isSuspended p = false ∧ (d.part p).fixed = false ∧ 0 < (d.part p).loopOp
    (cap < mw → (∃ p, low p) → ∃ p, low p ∧ (∀ x, low x → d.cfg.ranksBelow x p = false) ∧ (∀ x, x ≠ p → e.part x = d.part x) ∧
      e.part p = { d.part p with loopOp := (d.part p).loopOp - 1 } ∧ e.pwr.duty = d.pwr.duty) ∧
    (cap < mw → (∀ p, ¬ low p) → 1 < d.pwr.duty → d.pwr.duty ≤ 8 → e.pwr.duty = d.pwr.duty - 1 ∧ e.pwr.floorStart.isSome = true ∧ e.parts = d.parts) ∧
    (mw + 1000 * d.pwr.raiseW ≤ cap → (∀ p, d.cfg.partOn p = true → (d.part p).loopSusp = false) → d.pwr.duty < 8 → e.pwr.duty = d.pwr.duty + 1 ∧ e.parts = d.parts) ∧
    (mw + 1000 * d.pwr.raiseW ≤ cap → (∀ p, d.cfg.partOn p = true → (d.part p).loopSusp = false) → d.pwr.duty = 8 → ∀ p, d.cfg.partOn p = true →
      e.part p = d.part p ∨ e.part p = { d.part p with loopOp := (d.part p).loopOp + 1 })

/-- OP_CHANGE_COMPLETE puts the raised points of a die in force; AGEING_READ re-plans a region that is due. When the regulator of an awaited die
reports, the regions of every partition on that die alone run at their targets; a die that is not awaited changes nothing. An ageing read of
a powered region, with CC2 there, that is the first of the region or is due at a tick that has had no other sets margin, exhausted, worst
slack and the count of reads as the re-plan of R507 gives, with the lowered maximum for the next tick, and the next read a week later; any
other read changes nothing. A worst slack of at least 15 ps changes no margin. Rows completed: opChangeComplete, ageingRead.
(spec/15_power_thermal_ageing.md R496, spec/15_power_thermal_ageing.md R498, spec/15_power_thermal_ageing.md R506,
spec/15_power_thermal_ageing.md R507, spec/19_electrical_and_package.md R551) -/
def Obligations.OperatingPointsAndAgeing : Prop :=
  (∀ (s : State) (k : Nat), (s.dev.die k).avsWait = true → ∃ t, exec (.opChangeComplete k) s = .next t ∧ t = s.withDev { s.dev with dies := t.dev.dies, regions := t.dev.regions, parts := t.dev.parts } ∧
    (t.dev.die k).avsWait = false ∧ (∀ p r, s.dev.cfg.partOn p = true → s.dev.cfg.partDies p = [k] → r ∈ s.dev.cfg.partRegions p → (t.dev.region r).op = (s.dev.region r).target)) ∧
  (∀ (s : State) (k : Nat), (s.dev.die k).avsWait = false → exec (.opChangeComplete k) s = .next s) ∧
  (∀ (s : State) (r w : Nat) (rest : List Nat), let v := s.dev.region r
    let x := replan { margin := v.margin, maxOp := v.maxNext.getD v.maxOp, exhausted := v.exhausted } (w :: rest)
    (s.dev.awake = true → v.powered = true → r ≤ 15 → (v.fresh = true ∨ v.nextRead.toNat ≤ s.dev.time.toNat ∧ s.dev.atTick = true ∧ s.dev.pwr.ageTick < s.dev.tick) → s.dev.coreOut 2 = false →
      ∃ t, exec (.ageingRead r (w :: rest)) s = .next t ∧ t = s.withDev { s.dev with dies := t.dev.dies, regions := t.dev.regions, mgmt := t.dev.mgmt, pwr := if v.fresh then s.dev.pwr else { s.dev.pwr with ageTick := s.dev.tick } } ∧
        t.dev.region r = { v with margin := x.margin, exhausted := x.exhausted, worstPs := min 0xFFFF x.worst, reads := satInc v.reads,
                                  maxNext := if x.lowered.isEmpty then v.maxNext else some x.maxOp, nextRead := s.dev.time + 604800000000000, fresh := false } ∧
        (15 ≤ w → (t.dev.region r).margin = v.margin ∧ (t.dev.region r).maxNext = v.maxNext) ∧ (∀ j, j ≠ r → t.dev.region j = s.dev.region j)) ∧
    (v.fresh = false → s.dev.time.toNat < v.nextRead.toNat ∨ s.dev.atTick = false ∨ s.dev.tick ≤ s.dev.pwr.ageTick → exec (.ageingRead r (w :: rest)) s = .next s))

/-- PWR_STATE_REQ is kept for the tick, the drain limit gives an entry up, and an entry ends asleep with what retention keeps. Where the write
acts, ENTER_DUSK and ENTER_NIGHT with a drain limit of at most 10,000 ms queue their request for the next tick and change nothing else; a
longer limit is recorded with 0x04. ENTRY_DRAIN_TIMEOUT at or after its moment gives up an entry that has not drained, with req_status 0x11.
The last steps of an entry leave the state asked for, one more sleep, LP5X in self-refresh, no region powered, and only the retained
buffers' tags. Rows completed: enterDusk, enterNight, entryDrainTimeout. (spec/15_power_thermal_ageing.md R479,
spec/15_power_thermal_ageing.md R480, spec/15_power_thermal_ageing.md R481, spec/15_power_thermal_ageing.md R482,
spec/15_power_thermal_ageing.md R484, spec/15_power_thermal_ageing.md R509) -/
def Obligations.SleepIsAskedForAndEntered : Prop :=
  (∀ (s : State) (v : W64), s.dev.Serves mgmtParty 0xD0008 → let drain := fld v 16 16
    let asked (target : Nat) : State := s.withDev { s.dev with pwr := { s.dev.pwr with req := s.dev.pwr.req ++ [(target, drain)] } }
    (drain ≤ 10000 → exec (.enterDusk v) s = .next (asked 2) ∧ exec (.enterNight v) s = .next (asked 3)) ∧
    (10000 < drain → exec (.enterDusk v) s = .next (s.withDev (s.dev.regRec mgmtParty 0x04 0 0 0xD0008)) ∧ exec (.enterNight v) s = .next (s.withDev (s.dev.regRec mgmtParty 0x04 0 0 0xD0008)))) ∧
  (∀ s : State, let late := s.dev.pwr.entryAt.toNat + 1000000 * s.dev.pwr.drainMs ≤ s.dev.time.toNat
    (s.dev.pwr.entering = true → s.dev.drained = false → late → exec .entryDrainTimeout s = .next (s.withDev { s.dev with pwr := { s.dev.pwr with entering := false, reqStatus := 0x11 } })) ∧
    (s.dev.pwr.entering = false ∨ s.dev.drained = true ∨ ¬ late → exec .entryDrainTimeout s = .next s)) ∧
  (∀ d : Dev, let e := d.fallAsleep
    e.pwr.state = d.pwr.entryTarget ∧ e.pwr.entering = false ∧ e.pwr.sleeps = d.pwr.sleeps + 1 ∧ e.mem.selfRefresh = true ∧
    (∀ r, r ∈ e.regions.map (fun x => x.1) → (e.region r).powered = false) ∧ (∀ x ∈ e.mem.tags, e.keepsTag x.1 = true) ∧ e.ptp.valid = false)

/-- Dusk watches hit or fault, the alarm matures, and Dawn brings the package back to Noon. In Dusk without Dawn, a watch whose captures have
the right lengths counts, gives changed and level, and after the first watch begins Dawn with cause 2 where the camera hits, else 3 where
the audio hits; wrong lengths or a missing frame count a fault and keep the reference. Asleep, an enabled alarm moves time to its moment,
clears enable and begins Dawn with cause 1. Dawn, with no write held, ends in Noon with LP5X out of self-refresh; a Dawn that fails acts as
RESET_L. Rows completed: duskWatch, dawn, resetL, duskWatchTimeout, rtcAlarm. (spec/15_power_thermal_ageing.md R484,
spec/15_power_thermal_ageing.md R486, spec/15_power_thermal_ageing.md R487, spec/15_power_thermal_ageing.md R488,
spec/15_power_thermal_ageing.md R489, spec/15_power_thermal_ageing.md R491, spec/15_power_thermal_ageing.md R492,
spec/15_power_thermal_ageing.md R493) -/
def Obligations.WatchesAlarmsAndDawn : Prop :=
  (∀ (s : State) (samples : List W16) (audio : List W32), s.dev.pwr.state = 2 → s.dev.pwr.dawn = false → s.dev.boot.thermtrip = false → s.dev.boot.powered = true →
    let p := s.dev.pwr; let w := s.dev.cfg.ctxWidth p.duskCtx; let h := s.dev.cfg.ctxHeight p.duskCtx
    let means := blockMeans (rawBits (s.dev.cfg.ctxType p.duskCtx)) w h samples
    let changed := if p.camEn then (p.duskRef.map (fun r => changedBlocks (fld p.duskThr 0 16) r means)).getD 0 else 0
    let level : Int := if p.audEn then audioLevel (s.dev.cfg.tdmBits p.tdmPort) audio else -128
    let camHit := p.camEn = true ∧ p.duskRef.isSome = true ∧ fld p.duskThr 16 9 ≤ changed; let audHit := p.audEn = true ∧ toSigned 8 (fld p.duskThr 32 8) ≤ level
    let fits := (p.camEn = true → samples.length = w * h) ∧ (p.audEn = true → audio.length = 2400)
    (∃ t, exec (.duskWatch samples audio) s = .next t ∧ t = s.withDev { s.dev with time := t.dev.time, pwr := t.dev.pwr } ∧ t.dev.pwr.watches = p.watches + 1 ∧
      (fits → t.dev.pwr.changed = changed ∧ t.dev.pwr.level = BitVec.ofInt 8 level ∧ t.dev.pwr.faults = p.faults ∧ (p.camEn = true → t.dev.pwr.duskRef = some means) ∧
        (t.dev.pwr.dawn = true ↔ p.watches ≠ 0 ∧ (camHit ∨ audHit)) ∧ (t.dev.pwr.dawn = true → t.dev.pwr.wakeCause = if p.duskRef.isSome ∧ p.camEn ∧ fld p.duskThr 16 9 ≤ changed then 2 else 3)) ∧
      (¬ fits → t.dev.pwr.faults = satInc p.faults ∧ t.dev.pwr.duskRef = p.duskRef ∧ t.dev.pwr.dawn = p.faultWake ∧ (p.faultWake = true → t.dev.pwr.wakeCause = 4))) ∧
    (p.camEn = true → ∃ t, exec .duskWatchTimeout s = .next t ∧ t = s.withDev { s.dev with time := t.dev.time, pwr := t.dev.pwr } ∧ t.dev.pwr.faults = satInc p.faults ∧ t.dev.pwr.dawn = p.faultWake)) ∧
  (∀ s : State, s.dev.pwr.alarmEn = true → s.dev.boot.thermtrip = false → s.dev.boot.powered = true → 1 < s.dev.pwr.state → s.dev.pwr.dawn = false →
    ∃ t, exec .rtcAlarm s = .next t ∧ t = s.withDev { s.dev with time := t.dev.time, pwr := t.dev.pwr } ∧ t.dev.pwr.alarmEn = false ∧ t.dev.pwr.dawn = true ∧ t.dev.pwr.wakeCause = 1 ∧
      t.dev.time = BitVec.ofNat 64 (max s.dev.time.toNat (aonNs (s.dev.pwr.alarm.toNat - s.dev.pwr.rtc.toNat)))) ∧
  (∀ s : State, s.dev.pwr.dawn = true → s.dev.boot.thermtrip = false → s.dev.boot.powered = true → ∀ env, exec (.dawn ⟨false, env⟩) s = exec (.resetL true) s ∧
    ((∀ p ∈ s.dev.cfg.parties, s.dev.heldWrites p = []) → ∃ t, exec (.dawn ⟨true, env⟩) s = .next t ∧ t.nv = s.nv ∧ t.pending = s.pending ∧ t.latch = none ∧
      t.dev.pwr.state = 0 ∧ t.dev.pwr.dawn = false ∧ t.dev.mem.selfRefresh = false ∧ t.dev.pwr.domains = s.dev.cfg.domains))

/-- A register write acts, is recorded as 0x04, is held, or finds no window. An aligned 64-bit write that acts has the effect of its register;
one that is narrower than 32 bits or not aligned to its width only leaves a record with 0x04. A write to a window that is not there changes
nothing, nor does one to a tenant under scrub. Asleep, or while a restart or an update holds an emulated register, up to 256 writes of a
window wait in arrival order. TW_EVENT_EN takes its four bits; a write of RG_GUST_CFG after boot lock is ignored and recorded with 0x03.
Rows completed: registerWrite. (spec/00_scope.md R5, spec/00_scope.md R7, spec/02_boot_configuration.md R45,
spec/04_work_engines_and_command_lists.md R101, spec/04_work_engines_and_command_lists.md R105, spec/05_matrix_engines_and_number_formats.md
R167, spec/13_security_and_tenancy.md R439, spec/14_firmware.md R453, spec/15_power_thermal_ageing.md R483, spec/18_register_index.md R543,
spec/00_scope.md R569) -/
def Obligations.RegisterWritesActWaitOrAreIgnored : Prop :=
  ∀ (s : State) (p off : Nat) (v : W64) (w : Nat) (host : List Host.Cell), let d := s.dev; let base := off / 8 * 8
    (d.Serves p off → exec (.registerWrite p off v 64 host) s = .next (s.act p off v 64 host)) ∧
    (d.Serves p base → (w ≠ 64 ∧ w ≠ 32) ∨ off % (w / 8) ≠ 0 → exec (.registerWrite p off v w host) s = .next (s.withDev (d.regRec p 0x04 0 0 off))) ∧
    (d.windowOn p = false → exec (.registerWrite p off v w host) s = .next s) ∧
    (d.windowOn p = true → p < 64 → d.boot.stage = 6 → (d.ten p).scrub = true → exec (.registerWrite p off v w host) s = .next s) ∧
    (d.windowOn p = true → p < 64 → d.boot.stage = 6 → (d.ten p).scrub = false → 1 < d.pwr.state ∨ (emulated p base = true ∧ d.holding p = true) → (d.ten p).held.length < 256 →
      exec (.registerWrite p off v w host) s = .next (s.withDev { d with tenants := d.tenants.set p { d.ten p with held := (d.ten p).held ++ [{ off := off, value := v, width := w, host := host }] } })) ∧
    (p < 64 → d.Serves p 0x20 → exec (.registerWrite p 0x20 v 64 host) s = .next (s.withDev { d with tenants := d.tenants.set p { d.ten p with eventEn := BitVec.ofNat 4 (fld v 0 4) } })) ∧
    (d.Serves mgmtParty 0x20000 → d.boot.locked = true → exec (.registerWrite mgmtParty 0x20000 v 64 host) s = .next (s.withDev (d.regRec mgmtParty 0x03 0 0 0x20000))) ∧
    (d.Serves mgmtParty 0x20000 → d.boot.locked = false → 4 ≤ fld v 0 5 → fld v 0 5 ≤ 16 → exec (.registerWrite mgmtParty 0x20000 v 64 host) s = .next (s.withDev { d with gustRate := fld v 0 5 }))

/-- A valid list joins its queue; a refused one writes one kind 2 entry and one record. Where the write acts and the party's ring is enabled: a
list whose pointer, length, queue, room and ownership pass and whose commands all validate joins the end of its queue with its sub_tag,
submission time and number and what validation kept, and no other queue changes; a list that fails ends as the refusal of its check says,
with no command queued. With the ring not enabled only a record with 0x01 and detail 0x8E is written. Rows completed: twSubmitCtl,
mgSubmitCtl. (spec/04_work_engines_and_command_lists.md R102, spec/04_work_engines_and_command_lists.md R103,
spec/04_work_engines_and_command_lists.md R104, spec/04_work_engines_and_command_lists.md R106, spec/04_work_engines_and_command_lists.md
R107, spec/04_work_engines_and_command_lists.md R118, spec/04_work_engines_and_command_lists.md R119) -/
def Obligations.SubmissionsJoinTheirQueue : Prop :=
  ∀ (s : State) (p : Nat) (v : W64) (host : List Host.Cell), p ≤ 64 → s.dev.Serves p 0x50 → let d := s.dev; let x := d.submission p v
    let runs (e : Dev) : Prop := (p < 64 → exec (.twSubmitCtl p v host) s = .next (s.withDev e)) ∧ (p = 64 → exec (.mgSubmitCtl v host) s = .next (s.withDev e))
    ((d.complRing p).enable = false → runs ((d.submitRec x { status := 0x01, code := 0x8E, val := 0 } x.ptr 0xFFFF).reply p 0 0 0x50)) ∧
    ((d.complRing p).enable = true →
      (x.ptr % 64 ≠ 0 ∨ (x.host = false ∧ 2 ^ 48 ≤ x.ptr) ∨ x.length = 0 ∨ 1024 < x.length →
        runs ((d.refuse x { status := 0x04, code := 0x80, val := 0 } none).reply p 0 0 0x50)) ∧
      (d.listFaultOf x = none → ∀ d1 cmds, d.fetchList x host = (d1, .ok cmds) →
        (∀ d2 i r, d1.checkList (qEngine x.key) x.view cmds = (d2, .error (i, r)) → runs ((d2.refuse x r (some (i, cmds.getD i 0))).reply p 0 0 0x50)) ∧
        (∀ d2 kept, d1.checkList (qEngine x.key) x.view cmds = (d2, .ok kept) → ∃ e, runs e ∧
          (e.que x.key).lists = (d2.que x.key).lists ++ [{ cmds := cmds, subTag := x.subTag, time := d2.time, no := d2.submitted, index := 0, progs := keptTbl Kept.prog kept, reqs := keptTbl Kept.req kept }] ∧
          (∀ k, k ≠ x.key → e.que k = d2.que k) ∧ e.tenants = d2.tenants ∧ e.mem = d2.mem)))

/-- Event flags and counters clear where 1 is written; a flag that hardware sets in the same cycle reads 1. Where the write acts,
EVENT_CNT_CLEAR sets the counters of the bits written to 0 and leaves the rest, the flags and every other window; EVENT_FLAG_CLEAR clears
the flags written and leaves the counters of flags that hardware does not set, and a flag that hardware sets in the same cycle reads 1
afterwards. Rows completed: eventCntClear, eventFlagClear. (spec/00_scope.md R6, spec/04_work_engines_and_command_lists.md R99,
spec/04_work_engines_and_command_lists.md R100) -/
def Obligations.EventFlagsAndCountersClear : Prop :=
  ∀ (s : State) (n : Nat) (bits setting : BitVec 4), n < 64 → s.dev.Serves n 0x10 →
    (∃ t, exec (.eventCntClear n bits) s = .next t ∧ t = s.withDev { s.dev with tenants := t.dev.tenants } ∧ (∀ x, x ≠ n → t.dev.ten x = s.dev.ten x) ∧
      t.dev.ten n = { s.dev.ten n with eventCnt := (t.dev.ten n).eventCnt } ∧
      (∀ k, k < 4 → (t.dev.ten n).eventCnt.get k 0 = if bits.getLsbD k then 0 else (s.dev.ten n).eventCnt.get k 0)) ∧
    (∃ t, exec (.eventFlagClear n bits setting) s = .next t ∧ t = s.withDev { s.dev with tenants := t.dev.tenants } ∧ (∀ x, x ≠ n → t.dev.ten x = s.dev.ten x) ∧
      (t.dev.ten n).event = ((s.dev.ten n).event &&& ~~~bits) ||| setting ∧
      (∀ k, k < 4 → setting.getLsbD k = false → (t.dev.ten n).eventCnt.get k 0 = (s.dev.ten n).eventCnt.get k 0))

/-- A ring that is enabled starts empty; its reader moves the head up to the tail; a held entry is written when there is room. Where the write
acts: enabling a completion or error ring that was off with a size of 2^6 to 2^16 entries sets head and tail to 0, the phase to 1 and the
record number to 1, and a size outside that range is ignored; a head beyond the tail is ignored and one up to it is taken. A ring whose
party holds no entry, and no ended sequence of which waits for one, changes no queue. A drain writes the oldest entry of a queue while the
ring has room, the first that waits at its source taking its place in the FIFO, and with no entry held changes no ring. Rows completed:
complRingEnable, complHeadWrite, errRingEnable, complEntryDrain. (spec/04_work_engines_and_command_lists.md R122,
spec/04_work_engines_and_command_lists.md R125, spec/04_work_engines_and_command_lists.md R126, spec/04_work_engines_and_command_lists.md
R129) -/
def Obligations.RingsAreEnabledAndRead : Prop :=
  (∀ (s : State) (p : Nat) (v : W64), p ≤ 64 → s.dev.NoEnded → s.dev.Serves p 0x90 → (s.dev.complRing p).enable = false → v.getLsbD 0 = true →
    (6 ≤ fld v 8 5 → fld v 8 5 ≤ 16 → s.dev.stalled p = false → ∃ t, exec (.complRingEnable p v) s = .next t ∧ t = s.withDev t.dev ∧ t.dev.queues = s.dev.queues ∧
      t.dev.complRing p = { s.dev.complRing p with enable := true, mirrorEn := decide (p < 64) && v.getLsbD 1, log2 := fld v 8 5, head := 0, tail := 0, phase := true, seq := 1, dropped := 0 }) ∧
    (fld v 8 5 < 6 ∨ 16 < fld v 8 5 → s.dev.stalled p = false → ∃ t, exec (.complRingEnable p v) s = .next t ∧ t.dev.complRing p = s.dev.complRing p ∧ t.dev.queues = s.dev.queues)) ∧
  (∀ (s : State) (p : Nat) (v : W64), p ≤ 64 → s.dev.NoEnded → s.dev.Serves p 0x98 → s.dev.stalled p = false → let r := s.dev.complRing p; let h := fld v 0 16
    (h < r.size → (h + r.size - r.head) % r.size ≤ r.unread → ∃ t, exec (.complHeadWrite p v) s = .next t ∧ t = s.withDev t.dev ∧ t.dev.complRing p = { r with head := h } ∧ t.dev.queues = s.dev.queues) ∧
    (r.size ≤ h ∨ r.unread < (h + r.size - r.head) % r.size → ∃ t, exec (.complHeadWrite p v) s = .next t ∧ t.dev.complRing p = r ∧ t.dev.queues = s.dev.queues)) ∧
  (∀ (s : State) (n : Nat) (v : W64), n < 64 → s.dev.Serves n 0x210 → (s.dev.ten n).err.enable = false → v.getLsbD 0 = true → 6 ≤ fld v 8 5 → fld v 8 5 ≤ 16 →
    ∃ t, exec (.errRingEnable n v) s = .next t ∧ t = s.withDev t.dev ∧ (∀ x, x ≠ n → t.dev.ten x = s.dev.ten x) ∧
      (t.dev.ten n).err = { (s.dev.ten n).err with enable := true, mirrorEn := v.getLsbD 1, log2 := fld v 8 5, head := 0, tail := 0, phase := true, seq := 1, dropped := 0 }) ∧
  (∀ (s : State) (q : Nat), s.dev.NoEnded → let r := s.dev.complRing (qParty q)
    (∀ e rest, (s.dev.que q).fifo = e :: rest → r.enable = true → r.full = false → ∃ t, exec (.complEntryDrain q) s = .next t ∧ t = s.withDev t.dev ∧
      (t.dev.que q).fifo = rest ++ (s.dev.que q).atSource.take 1 ∧ (t.dev.que q).atSource = (s.dev.que q).atSource.drop 1 ∧ t.dev.complRing (qParty q) = r.step ∧ (∀ k, k ≠ q → t.dev.que k = s.dev.que k)) ∧
    ((s.dev.que q).fifo = [] → ∃ t, exec (.complEntryDrain q) s = .next t ∧ t.dev.complRing (qParty q) = r ∧ t.dev.queues = s.dev.queues))

/-- A staged image that passes its checks is written with its signature last; one that fails leaves the slot alone. Where the write acts, the
management link is up, and no staging runs: an image that passes its checks goes to the spare slot without its last 96 bytes (what the
length written holds beyond the image is not staged: the model's choice, log entry 72), staging is active and progress register 0 reads 0
where it took no update in this tick; one that fails leaves the flash as it was and progress register 0 reads failed with 0x02. While a
staging runs another write is answered 0x01 and changes neither flash nor staging; a write without go changes neither. Rows completed:
stageImage. (spec/02_boot_configuration.md R59, spec/02_boot_configuration.md R64, spec/02_boot_configuration.md R65,
spec/02_boot_configuration.md R66, spec/14_firmware.md R457) -/
def Obligations.StagingOfAnImage : Prop :=
  ∀ (s : State) (v : W64) (host : List Host.Cell), s.dev.Serves mgmtParty 0x2028 → let len := fld v 0 20
    let b := s.dev.hostRead s.dev.cfg.port host s.dev.stage.addr.toNat len
    ∃ t, exec (.stageImage v host) s = .next t ∧ t = { s with nv := t.nv, dev := t.dev } ∧ t.nv.fuses = s.nv.fuses ∧ t.dev.cfg = s.dev.cfg ∧ t.dev.boot = s.dev.boot ∧
      (v.getLsbD 63 = false → t.nv = s.nv ∧ t.dev.stage = s.dev.stage) ∧
      (s.dev.stage.active = true → t.nv = s.nv ∧ t.dev.stage = s.dev.stage ∧ t.dev.mgmt.replyStatus = 0x01) ∧
      (v.getLsbD 63 = true → s.dev.stage.active = false → (s.dev.port s.dev.cfg.port).up = true → s.stageFault (Memory.write [] 0 b) len = none →
        let image := b.take (s.stageLength (Memory.write [] 0 b))
        t.nv = (s.putSlot (image.take (image.length - 96))).nv ∧ t.dev.stage = { s.dev.stage with active := true, image := image } ∧
        ((s.dev.mgmt.progress.get 0 {}).upd ≠ some s.dev.tick → (t.dev.mgmt.progress.get 0 {}).kind = 0 ∧ (t.dev.mgmt.progress.get 0 {}).value = 0)) ∧
      (∀ r, v.getLsbD 63 = true → s.dev.stage.active = false → (s.dev.port s.dev.cfg.port).up = true → s.stageFault (Memory.write [] 0 b) len = some r →
        t.nv = s.nv ∧ t.dev.stage = { s.dev.stage with active := false, image := [] } ∧
        ((s.dev.mgmt.progress.get 0 {}).upd ≠ some s.dev.tick → (t.dev.mgmt.progress.get 0 {}).kind = 3 ∧ (t.dev.mgmt.progress.get 0 {}).value = 2))

/-- A write of TB_TRG_TARGET arms a trigger, its low half only stores; a write of CTL or ACTION disarms without firing. For a trigger that the
party holds, armed or not, and a write that acts: one 64-bit write of TB_TRG_TARGET replaces the target and arms under R78 and R79; a 32-bit
write of the low half stores it and arms nothing, and leaves the target of an armed trigger whole; one of the high half arms with the stored
low half. A write of TB_TRG_CTL or TB_TRG_ACTION stores its fields (clr_cnt clears the three counts) and leaves the trigger idle, its fired
flag and count of firings as they were without clr_cnt, and touches no other trigger. Rows completed: triggerArm, triggerDisarm,
triggerCountClear. (spec/03_position_timebase.md R80) -/
def Obligations.TriggerRegistersArmAndDisarm : Prop :=
  ∀ (s : State) (p k n : Nat) (v : W64), p ≤ 64 → trgIndexOk p k = true → s.dev.trgOf p k = some n → s.dev.trgForeign p n = false → let g := s.dev.trg n
    let put (x : Trigger) : Dev := { s.dev with triggers := s.dev.triggers.set n x }
    let low (x : W64) : W64 := BitVec.ofNat 64 (x.toNat % 2 ^ 32); let high (x : W64) : W64 := BitVec.ofNat 64 (x.toNat / 2 ^ 32 * 2 ^ 32)
    (s.dev.Serves p (trgTargetOff p k) →
      (∃ t, exec (.triggerArm p k v .full) s = .next t ∧ t = s.withDev t.dev ∧ (put { g with target := v, lowHalf := v.truncate 32 }).ArmedFrom n p t.dev) ∧
      exec (.triggerArm p k v .low) s = .next (s.withDev (put { g with lowHalf := v.truncate 32, target := if g.armed then g.target else high g.target + low v })) ∧
      (∃ t, exec (.triggerArm p k v .high) s = .next t ∧ t = s.withDev t.dev ∧ (put { g with target := high v + g.lowHalf.zeroExtend 64 }).ArmedFrom n p t.dev)) ∧
    (s.dev.Serves p (trgOff p k) → ∃ t, exec (.triggerDisarm p k false v) s = .next t ∧ t = s.withDev t.dev ∧ (∀ j, j ≠ n → t.dev.trg j = s.dev.trg j) ∧
      let c := v.getLsbD 11
      t.dev.trg n = { g with armed := false, track := fld v 0 8, mode := fld v 8 2, lateOk := v.getLsbD 10, interval := BitVec.ofNat 32 (fld v 32 32),
                             firedCnt := if c then 0 else g.firedCnt, missedCnt := if c then 0 else g.missedCnt, failCnt := if c then 0 else g.failCnt }) ∧
    (s.dev.Serves p (trgOff p k + 8) → ∃ t, exec (.triggerDisarm p k true v) s = .next t ∧ t = s.withDev t.dev ∧ (∀ j, j ≠ n → t.dev.trg j = s.dev.trg j) ∧
      t.dev.trg n = { g with armed := false, action := v &&& 0xFFFFFFFFFFFFFF0F }) ∧
    (s.dev.Serves p (trgOff p k) → ∃ t, exec (.triggerCountClear p k) s = .next t ∧ t = s.withDev t.dev ∧ (∀ j, j ≠ n → t.dev.trg j = s.dev.trg j) ∧
      (t.dev.trg n).firedCnt = 0 ∧ (t.dev.trg n).missedCnt = 0 ∧ (t.dev.trg n).failCnt = 0 ∧ (t.dev.trg n).armed = false ∧ (t.dev.trg n).fired = g.fired ∧ (t.dev.trg n).target = g.target)

/-- The first armed trigger whose condition holds fires: its record, its action, its next target. In Noon and Overcast the lowest-numbered armed
trigger whose condition holds fires: fired is set, firings count, its dispatch time (now, or 1 ns after the last firing) is kept, late and
jumped are clear, and no other trigger changes. A one-shot trigger is idle afterwards; a periodic one stays armed. A release of a queue on
which no WAIT_RELEASE runs counts one release, up to 255, and an event action raises flag 2 of its tenant. A trigger that is not armed,
whose condition does not hold, or that is not the lowest-numbered due one does not change anything, nor does one in Dusk or Night. Rows
completed: triggerFire. (spec/03_position_timebase.md R77, spec/03_position_timebase.md R79, spec/03_position_timebase.md R81,
spec/03_position_timebase.md R82, spec/03_position_timebase.md R83, spec/03_position_timebase.md R85, spec/15_power_thermal_ageing.md R484) -/
def Obligations.TriggersFire : Prop :=
  ∀ (s : State) (n : Nat), let d := s.dev; let g := d.trg n; let p := d.trgParty n
    (d.dueTriggers.head? = some n → g.armed = true → d.trgHolds g = true → d.pwr.state ≤ 1 → ∃ t, exec (.triggerFire n) s = .next t ∧ t = s.withDev t.dev ∧ let e := t.dev.trg n
      e.fired = true ∧ e.firedCnt = satInc g.firedCnt ∧ e.time = BitVec.ofNat 64 (max d.time.toNat d.trgNext.toNat) ∧ e.late = false ∧ e.jumped = false ∧ e.armed = decide (g.interval ≠ 0) ∧ (∀ k, k ≠ n → t.dev.trg k = d.trg k) ∧
      (g.interval = 0 → e.missed = g.missed ∧ e.target = g.target) ∧
      (g.actType = 0 → e.lastStatus = 0 ∧ t.dev.queues = d.queues ∧ t.dev.tenants = d.tenants ∧ t.dev.mem = d.mem) ∧
      (g.actType = 6 → p < 64 → (t.dev.ten p).event.getLsbD 2 = true ∧ t.dev.queues = d.queues) ∧
      (∀ q, g.actType = 1 → q = qkey p (g.actUnit % 4) (g.actUnit / 4 % 8) → (∀ r, d.running q = some r → cmdOp r.cmd ≠ 4) →
        (t.dev.que q).release = satInc (d.que q).release ∧ (∀ k, k ≠ q → t.dev.que k = d.que k))) ∧
    (d.dueTriggers.head? ≠ some n ∨ 1 < d.pwr.state → exec (.triggerFire n) s = .next s)

/-- A jump counts and handles its triggers, a pulse track takes a preset while idle, a camera track stalls. A jump of a valid track counts, of a
track that follows PTP time with every other such track, and the armed triggers whose condition then holds are handled as after a jump. A
preset that acts, by the owner of an idle pulse channel, sets the position and is a jump; while the channel runs a program it is refused
with its flag and count, and the position stays; a management preset of a tenant's channel is ignored and recorded with 0x03. A camera track
whose extrapolated line count has reached 0xFFFF is stalled; before that nothing changes. Rows completed: trackJump, trackPreset,
cameraTrackStall. (spec/03_position_timebase.md R72, spec/03_position_timebase.md R73, spec/03_position_timebase.md R74,
spec/03_position_timebase.md R75, spec/00_scope.md R570) -/
def Obligations.TracksJumpAndArePreset : Prop :=
  (∀ (s : State) (n : Nat), n < 256 → s.dev.trkSource n = 3 ∨ s.dev.trkSource n = 5 ∨ s.dev.trkSource n = 6 → s.dev.trkValid n = true → ∃ t, exec (.trackJump n) s = .next t ∧
    t = s.withDev (({ s.dev with tracks := s.dev.tracks.set n { s.dev.trk n with jumpCnt := satInc (s.dev.trk n).jumpCnt } } : Dev).fireJumped [n]) ∧ (t.dev.trk n).jumpCnt = satInc (s.dev.trk n).jumpCnt) ∧
  (∀ (s : State) (n : Nat), s.dev.trkSource n = 2 ∨ s.dev.trkSource n = 4 → n < 256 → s.dev.ptp.valid = true → ∃ t, exec (.trackJump n) s = .next t ∧ t = s.withDev t.dev ∧
    (∀ k, k < 256 → s.dev.trkSource k = 2 ∨ s.dev.trkSource k = 4 → (t.dev.trk k).jumpCnt = satInc (s.dev.trk k).jumpCnt)) ∧
  (∀ (s : State) (p n : Nat) (v : W64), p ≤ 64 → n < 256 → s.dev.trkSource n = 6 → s.dev.Serves p (trkPosOff p n) → let ch := s.dev.trkIndex n
    (s.dev.cfg.pulseOwner ch = some p ∨ (s.dev.cfg.pulseOwner ch = none ∧ p = 64) →
      ((s.dev.pulse ch).running = none → ∃ t, exec (.trackPreset p n v) s = .next t ∧
        t = s.withDev (({ s.dev with pls := { s.dev.pls with ch := s.dev.pls.ch.set ch { s.dev.pulse ch with pos := v } } } : Dev).jump [n]) ∧ (t.dev.trk n).jumpCnt = satInc (s.dev.trk n).jumpCnt) ∧
      (∀ r, (s.dev.pulse ch).running = some r → exec (.trackPreset p n v) s = .next (s.withDev
        { s.dev with tracks := s.dev.tracks.set n { s.dev.trk n with presetRefused := true, presetCnt := satInc (s.dev.trk n).presetCnt } }))) ∧
    (∀ x, s.dev.cfg.pulseOwner ch = some x → p = 64 → x ≠ 64 → exec (.trackPreset p n v) s = .next (s.withDev (s.dev.regRec 64 0x03 0 0 (0x11000 + 8 * n))))) ∧
  (∀ (s : State) (n : Nat), s.dev.trkSource n = 3 → let c := s.dev.trkIndex n
    (s.dev.camLine c < 0xFFFF → exec (.cameraTrackStall n) s = .next s) ∧
    ((s.dev.camCtx c).extrapolating = true → s.dev.camLine c = 0xFFFF → exec (.cameraTrackStall n) s = .next (s.withDev { s.dev with cam := { s.dev.cam with ctx := s.dev.cam.ctx.set c { s.dev.camCtx c with stalled := true, extrapolating := false } } })))

/-- A Sync on the slave port slews a small error and steps a large one; holdover; the best master is followed. An accepted Sync ends holdover
and shows its error. An error within the step limit is slewed by a rate correction of at most slew_ppm toward the error (a free value, log
entry 54) and the time does not move; a larger one steps the offset, makes PTP valid and is a jump of the PTP tracks. A Sync on a port that
is not the slave port changes nothing. Missing Syncs set holdover of a valid time. An announcement on an enabled port that is up, and its
time-out, change what that port knows, and the slave port is the one with the lower vector, port 0 of equals (the order of equals is the
model's reading, log entry 54). Rows completed: ptpSync, ptpAnnounce, announceReceiptTimeout, ptpHoldover. (spec/03_position_timebase.md
R70, spec/03_position_timebase.md R71, spec/03_position_timebase.md R73, spec/17_external_interfaces.md R528) -/
def Obligations.PtpSlewsStepsAndHoldsOver : Prop :=
  (∀ (s : State) (port : Nat) (err : Int), s.dev.awake = true → s.dev.cfg.ptpOn = true → (s.dev.ethPort port).up = true →
    (s.dev.ptp.slavePort = some port → err.natAbs ≤ s.dev.ptp.stepNs.toNat →
      ∃ t, exec (.ptpSync port err) s = .next t ∧ t = s.withDev { s.dev with draw := s.dev.draw + 1, ptp := { s.dev.ptp with offsetErr := satS32 err, holdover := false, slewLeft := err, rate := t.dev.ptp.rate } } ∧
        t.dev.ptp.rate.sign = err.sign ∧ (s.dev.ptp.slewPpm ≠ 0 → t.dev.ptp.rate.natAbs ≤ s.dev.ptp.slewPpm)) ∧
    (s.dev.ptp.slavePort = some port → s.dev.ptp.stepNs.toNat < err.natAbs → ∃ t, exec (.ptpSync port err) s = .next t ∧ t = s.withDev t.dev ∧
      t.dev.ptp = { s.dev.ptp with offsetErr := satS32 err, holdover := false, offset := s.dev.ptp.offset - BitVec.ofInt 64 err, slewLeft := 0, valid := true } ∧
      (∀ n, n < 256 → s.dev.trkSource n = 2 ∨ s.dev.trkSource n = 4 → (t.dev.trk n).jumpCnt = satInc (s.dev.trk n).jumpCnt) ∧ t.dev.time = s.dev.time) ∧
    (s.dev.ptp.slavePort ≠ some port → exec (.ptpSync port err) s = .next s)) ∧
  (∀ s : State, s.dev.awake = true → (s.dev.ptp.valid = true → exec .ptpHoldover s = .next (s.withDev { s.dev with ptp := { s.dev.ptp with holdover := true } })) ∧
    (s.dev.ptp.valid = false → exec .ptpHoldover s = .next s)) ∧
  (∀ (s : State) (port : Nat) (m : W64), port < 2 → s.dev.awake = true →
    (s.dev.cfg.ptpOn = true → s.dev.cfg.ethOn port = true → (s.dev.ethPort port).up = true → ∃ t, exec (.ptpAnnounce port m) s = .next t ∧ t = s.withDev { s.dev with ptp := t.dev.ptp } ∧
      (if port = 0 then t.dev.ptp.master0 else t.dev.ptp.master1) = some m ∧ (if port = 0 then t.dev.ptp.master1 else t.dev.ptp.master0) = (if port = 0 then s.dev.ptp.master1 else s.dev.ptp.master0) ∧
      t.dev.ptp.slavePort = t.dev.ptp.best) ∧
    (s.dev.cfg.ptpOn = false → exec (.ptpAnnounce port m) s = .next s) ∧
    (∃ t, exec (.announceReceiptTimeout port) s = .next t ∧ t = s.withDev { s.dev with ptp := t.dev.ptp } ∧ (if port = 0 then t.dev.ptp.master0 else t.dev.ptp.master1) = none ∧
      t.dev.ptp.slavePort = (match t.dev.ptp.master0, t.dev.ptp.master1 with | none, none => none | some _, none => some 0 | none, some _ => some 1 | some a, some b => if b.toNat < a.toNat then some 1 else some 0)))

/-- ARM_TRIGGER writes the three registers, arms, and ends with the status of the arming. An ARM_TRIGGER that starts on a trigger of its party
writes CTL, ACTION and TARGET and arms; it ends with the status of R78 or R79 (where that is 0x0E its detail code is a free value, log entry
8), and on a trigger that its party does not have with 0x03. Rows completed: armTrigger. (spec/03_position_timebase.md R78,
spec/03_position_timebase.md R79, spec/04_work_engines_and_command_lists.md R111, spec/04_work_engines_and_command_lists.md R112) -/
def Obligations.ArmTriggerCommand : Prop :=
  ∀ (s : State) (q n : Nat) (c : W512) (l : CmdList) (rest : List CmdList), s.dev.Starts q 6 c → (s.dev.que q).lists = l :: rest → let p := qParty q
    (s.dev.trgOf p (cmdArg c) = none → ∃ t, exec (.armTrigger q) s = .next t ∧ t = s.withDev t.dev ∧ s.dev.drawn.Ended t.dev q c l rest 0x03 0) ∧
    (s.dev.trgOf p (cmdArg c) = some n →
      let d1 := ((s.dev.startCmd q c).writeTrgCtl p (cmdArg c) false (BitVec.ofNat 64 (bytesAt c 8 8))).writeTrgCtl p (cmdArg c) true (BitVec.ofNat 64 (bytesAt c 16 8))
      let d2 := d1.modTrg n (fun g => { g with target := BitVec.ofNat 64 (bytesAt c 24 8) })
      ∃ t d3 st, exec (.armTrigger q) s = .next t ∧ t = s.withDev t.dev ∧ d2.arm n p (some (q, l.index, l.subTag)) = (d3, st) ∧ d2.ArmedFrom n p d3 ∧
        (st ≠ 0x0E → d3.Ended t.dev q c l rest st 0) ∧ (st = 0x0E → d3.drawn.Ended t.dev q c l rest 0x0E 0))

/-- Event selects are written with their counts at 0, under the checks of owner and event; snapshots are taken. Where the write acts: an event
select with a known event and a filter of R511 is taken with its count at 0, for the management function or for an enabled tenant with
counter_read in whose partition the unit lies, whose number becomes the filter; a reserved event is ignored and recorded with 0x04, a tenant
that does not qualify with 0x03. A clear keeps the select and sets the count to 0. A tenant selects a unit of its partition and an event of
a counter it owns. At a period boundary that has had none a snapshot goes to the ring of its party while that has room, else it is counted
as dropped. A trace point that is hit counts and keeps the time. Rows completed: counterEventSelect, counterClear, twPmcSelect,
periodicSnapshot, traceHit. (spec/14_firmware.md R472, spec/14_firmware.md R473, spec/16_performance_counters.md R511,
spec/16_performance_counters.md R512, spec/16_performance_counters.md R513, spec/16_performance_counters.md R514,
spec/16_performance_counters.md R515, spec/16_performance_counters.md R518) -/
def Obligations.CountersAreSelectedAndCleared : Prop :=
  (∀ (s : State) (x n : Nat) (v : W64), x ≤ 2 → counterExists x n = true → s.dev.Serves mgmtParty (eventOff x n) → let ev := fld v 0 8; let fi := fld v 8 7; let ow := fld v 16 7
    let fits := fi < 64 ∨ fi = 0x40 ∨ fi = 0x7F
    let may := s.dev.cfg.tenOn ow = true ∧ s.dev.cfg.regionPart (counterRegion x n) = some (s.dev.cfg.tenPart ow) ∧ s.dev.cfg.tenCounterRead ow = true
    (eventKnown x ev = true → fits → x = 2 ∨ ow = 0x7F →
      exec (.counterEventSelect x n v) s = .next (s.withDev (s.dev.putCounter x n { event := ev, filter := fi, owner := 0x7F, count := 0 }))) ∧
    (eventKnown x ev = true → fits → x ≠ 2 → ow < 64 → may →
      exec (.counterEventSelect x n v) s = .next (s.withDev (s.dev.putCounter x n { event := ev, filter := ow, owner := ow, count := 0 }))) ∧
    (eventKnown x ev = true → fits → x ≠ 2 → ow < 64 → ¬ may → exec (.counterEventSelect x n v) s = .next (s.withDev (s.dev.regRec mgmtParty 0x03 0 0 (eventOff x n)))) ∧
    (eventKnown x ev = false → exec (.counterEventSelect x n v) s = .next (s.withDev (s.dev.regRec mgmtParty 0x04 0 0 (eventOff x n)))) ∧
    (s.latch = none → let c := s.dev.counter x n; eventKnown x c.event = true → c.owner = 0x7F → c.filter < 64 ∨ c.filter = 0x40 ∨ c.filter = 0x7F →
      exec (.counterClear x n) s = .next (s.withDev (s.dev.putCounter x n { c with count := 0 })))) ∧
  (∀ (s : State) (t : Nat) (v : W64), t < 64 → s.dev.cfg.tenCounterRead t = true →
    (s.dev.Serves t 0x1000 → let region := if fld v 8 1 = 0 then fld v 0 8 / 16 else fld v 0 8
      (region < 16 → s.dev.cfg.regionPart region = some (s.dev.cfg.tenPart t) →
        exec (.twPmcSelect t 0x1000 v) s = .next (s.withDev { s.dev with tenants := s.dev.tenants.set t { s.dev.ten t with pmcUnit := fld v 0 8, pmcKind := fld v 8 1 } })) ∧
      (s.dev.cfg.regionPart region ≠ some (s.dev.cfg.tenPart t) → exec (.twPmcSelect t 0x1000 v) s = .next (s.withDev (s.dev.regRec t 0x03 0x86 0x1000 0x1000)))) ∧
    (∀ k, k < setWidth (s.dev.ten t).pmcKind → k < 8 → s.dev.Serves t (0x1040 + 8 * k) → let x := (s.dev.ten t).pmcKind; let n := setWidth x * (s.dev.ten t).pmcUnit + k; let c := s.dev.counter x n
      (c.owner = t → eventKnown x (fld v 0 8) = true → exec (.twPmcSelect t (0x1040 + 8 * k) v) s = .next (s.withDev (s.dev.putCounter x n { c with event := fld v 0 8, count := 0 }))) ∧
      (c.owner = t → eventKnown x (fld v 0 8) = false → exec (.twPmcSelect t (0x1040 + 8 * k) v) s = .next (s.withDev (s.dev.regRec t 0x04 0x85 (0x1040 + 8 * k) (0x1040 + 8 * k)))) ∧
      (c.owner ≠ t → exec (.twPmcSelect t (0x1040 + 8 * k) v) s = .next (s.withDev (s.dev.regRec t 0x03 0x86 (0x1040 + 8 * k) (0x1040 + 8 * k)))))) ∧
  (∀ (s : State) (p : Nat), s.dev.pwr.state ≤ 1 → let n := (s.dev.periodOf p).1; let sel := (s.dev.periodOf p).2; let r := s.dev.snapRing p; let d := s.dev.markSnap p
    let due := 4 ≤ n ∧ s.dev.time.toNat % (2 ^ n * 1000) = 0 ∧ (if p < 64 then (s.dev.ten p).snapAt else s.dev.pmc.snapAt) ≠ some s.dev.time
    (¬ due → exec (.periodicSnapshot p) s = .next s) ∧
    (due → sel = 0 ∨ r.enable = false → exec (.periodicSnapshot p) s = .next (s.withDev d)) ∧
    (due → sel ≠ 0 → r.enable = true → r.full = true → exec (.periodicSnapshot p) s = .next (s.withDev (d.setSnapRing p { r.nextSeq with dropped := satInc r.dropped }))) ∧
    (due → sel ≠ 0 → r.enable = true → r.full = false → let b := s.dev.snapBytes p r.seq sel none; let a := r.base.toNat + r.tail * 2 ^ r.log2Slot
      exec (.periodicSnapshot p) s = .next (s.withDev ((if p < 64 then d.deviceWrite p (d.cfg.tenPart p) a b else d.hostWrite d.cfg.port a b).setSnapRing p r.nextSeq.step)))) ∧
  (∀ (s : State) (p : Nat) (arg : W32), let v := s.dev.fw.trace.get p {}
    (p < 174 → v.enable = true → s.dev.coresOn = true → s.dev.coreOut (traceCore p) = false → v.log = false ∨ v.logged = true → exec (.traceHit p arg) s =
      .next (s.withDev { s.dev with fw := { s.dev.fw with trace := s.dev.fw.trace.set p { v with hits := v.hits + 1, last := s.dev.time } } })) ∧
    (174 ≤ p ∨ v.enable = false → exec (.traceHit p arg) s = .next s))

/-- Ethernet links come and go; a frame is answered, resolved, or dropped and counted; memberships are reported. A port whose link comes up
shows it and its configured rate; one whose link goes down loses its master, and PTP without a slave port is in holdover. On a port that is
up: an ARP request for the port's address and an ICMP echo request to it are answered with one frame, a packet whose next hop is not
resolved waits for the answer to one ARP request, a PAUSE frame is no dropped frame, a frame of another type or address is dropped and
counted, and a query brings one report for each enabled multicast stream of the port. A port that is not enabled, or down, takes no frame.
The layouts of ARP, ICMP and IGMP frames are those of their standards (log entry 115). Rows completed: ethLinkUp, ethLinkDown, igmpQuery,
ethFrameReceive. (spec/17_external_interfaces.md R526, spec/17_external_interfaces.md R527, spec/17_external_interfaces.md R528,
spec/17_external_interfaces.md R530, spec/17_external_interfaces.md R539, spec/17_external_interfaces.md R540, log entry 115) -/
def Obligations.EthernetLinksAndFrames : Prop :=
  ∀ (s : State) (p : Nat), p < 2 → s.dev.awake = true → let v := s.dev.ethPort p; let c := s.dev.cfg
    let drop := s.dev.modEth p (fun x => { x with rxDrop := true, rxDropCnt := satInc x.rxDropCnt })
    (c.ethOn p = true → exec (.ethLinkUp p) s = .next (s.withDev { s.dev with eth := s.dev.eth.set p { v with up := true, rate := c.ethRate p } })) ∧
    (c.ethOn p = false → exec (.ethLinkUp p) s = .next s) ∧
    (v.up = true → (∀ e ∈ s.dev.mdl.slots, e.2.load = none) → ∃ t, exec (.ethLinkDown p) s = .next t ∧ t = s.withDev { s.dev with eth := t.dev.eth, ptp := t.dev.ptp } ∧
      (t.dev.ethPort p).up = false ∧ t.dev.ethPort (1 - p) = s.dev.ethPort (1 - p) ∧ (if p = 0 then t.dev.ptp.master0 else t.dev.ptp.master1) = none ∧ t.dev.ptp.slavePort = t.dev.ptp.best ∧
      (t.dev.ptp.slavePort = none → s.dev.ptp.valid = true → t.dev.ptp.holdover = true)) ∧
    (v.up = false → exec (.ethLinkDown p) s = .next s) ∧
    (c.ethOn p = true → v.up = true → ∃ t, exec (.igmpQuery p) s = .next t ∧ t = s.withDev { s.dev with eth := t.dev.eth } ∧ ∃ fs, t.dev.ethPort p = { v with tx := v.tx ++ fs } ∧
      fs.length = ((List.range 1024).filter (fun n => c.streamOn n && decide (c.streamEth n = p) && decide (c.streamAddr n / 268435456 = 14))).length) ∧
    (∀ f, c.ethOn p = false ∨ v.up = false → exec (.ethFrameReceive p f) s = .next s) ∧
    (∀ f, c.ethOn p = true → v.up = true → (leAt f 0 1).testBit 0 = false → f.take 6 ≠ c.ethMac p → exec (.ethFrameReceive p f) s = .next (s.withDev drop)) ∧
    (∀ f, c.ethOn p = true → v.up = true → c.ethVlanOn p = false → beNat ((f.drop 12).take 2) ≠ 0x8100 → f.take 6 = c.ethMac p → let ty := beNat ((f.drop 12).take 2); let b := f.drop 14;
      (ty = 0x8808 → exec (.ethFrameReceive p f) s = .next s) ∧
      (ty ≠ 0x0800 → ty ≠ 0x0806 → ty ≠ 0x8808 → exec (.ethFrameReceive p f) s = .next (s.withDev drop)) ∧
      (ty = 0x0806 → (b.drop 24).take 4 = c.ethIp p → beNat ((b.drop 6).take 2) = 1 → exec (.ethFrameReceive p f) s = .next (s.withDev (s.dev.send p ((b.drop 8).take 6 ++ c.ethMac p ++ beBytes 2 0x0806 ++
        beBytes 2 1 ++ beBytes 2 0x0800 ++ [6, 4] ++ beBytes 2 2 ++ c.ethMac p ++ c.ethIp p ++ (b.drop 8).take 6 ++ (b.drop 14).take 4)))) ∧
      (ty = 0x0806 → (b.drop 24).take 4 = c.ethIp p → beNat ((b.drop 6).take 2) = 2 →
        exec (.ethFrameReceive p f) s = .next (s.withDev (s.dev.modEth p (fun x => { x with arp := x.arp.set (beNat ((b.drop 14).take 4)) (BitVec.ofNat 64 (beNat ((b.drop 8).take 6))), waiting := x.waiting.filter (fun y => decide (y.1 ≠ beNat ((b.drop 14).take 4))), tx := x.tx ++ (x.waiting.filter (fun y => decide (y.1 = beNat ((b.drop 14).take 4)))).map (fun y => (b.drop 8).take 6 ++ y.2) })))) ∧
      (ty = 0x0800 → leAt b 9 1 = 1 → (b.drop 16).take 4 = c.ethIp p → let m := (b.take (beNat ((b.drop 2).take 2))).drop (4 * (leAt b 0 1 % 16)); leAt m 0 1 = 8 →
        exec (.ethFrameReceive p f) s = .next (s.withDev (s.dev.sendIp p 1 0 64 ((b.drop 12).take 4)
          ([0, 0] ++ beBytes 2 (checksum ([0, 0] ++ beBytes 2 0 ++ m.drop 4)) ++ m.drop 4))))) ∧
    (∀ proto tos ttl dst body, beNat dst / 268435456 ≠ 14 → let f := s.dev.ipFrame p proto tos ttl dst body; let hop := s.dev.hopFor p dst;
      (v.arp.get hop 0 ≠ 0 → s.dev.sendIp p proto tos ttl dst body = s.dev.send p f) ∧
      (v.arp.get hop 0 = 0 → hop ≠ 0 → v.waiting = [] →
        (s.dev.sendIp p proto tos ttl dst body).ethPort p = { v with waiting := [(hop, f.drop 6)], tx := v.tx ++ [s.dev.arpRequest p hop] }))

/-- A command of a drive that fails is retried once; a second failure is an error; a drive that does not train is absent. For a drive that
serves its tier: the first time-out or error completion marks a retry and changes nothing else; one more, while the retry stands, sets the
drive's error flag, counts the error and fails the access. A SMART read, when the last is an hour old, counts one more read of that drive. A
drive without link is absent after the training time-out; one that has trained stays. Both failure rows have one effect. Rows completed:
nvmeCommandTimeout, nvmeCommandError, nvmeSmartRead, nvmeTrainingTimeout. (spec/07_memory_tiers.md R213, spec/17_external_interfaces.md
R524, spec/17_external_interfaces.md R525) -/
def Obligations.DrivesRetryFailAndAreRead : Prop :=
  (∀ (s : State) (k : Nat), k < 2 → s.dev.mem.nvmePresent.getLsbD k = true →
    (∃ t, exec (.nvmeCommandTimeout k) s = .next t ∧ t = s.withDev t.dev ∧ s.dev.DriveFailed k t.dev) ∧
    (∃ t, exec (.nvmeCommandError k) s = .next t ∧ t = s.withDev t.dev ∧ s.dev.DriveFailed k t.dev)) ∧
  (∀ (s : State) (k : Nat), 2 ≤ k ∨ s.dev.mem.nvmePresent.getLsbD k = false → exec (.nvmeCommandTimeout k) s = .next s ∧ exec (.nvmeCommandError k) s = .next s) ∧
  (∀ (s : State) (k : Nat), k < 2 →
    (let due := ∀ a, s.dev.mem.smartAt.get k none = some a → a.toNat + 3600000000000 ≤ s.dev.time.toNat;
      (s.dev.awake = true → s.dev.mem.nvmePresent.getLsbD k = true → due → exec (.nvmeSmartRead k) s =
        .next (s.withDev { s.dev with mem := { s.dev.mem with smart := s.dev.mem.smart.set k (s.dev.mem.smart.get k 0 + 1), smartAt := s.dev.mem.smartAt.set k (some s.dev.time) } })) ∧
      (¬ due → exec (.nvmeSmartRead k) s = .next s)) ∧
    (s.dev.mem.nvmePresent.getLsbD k = false → exec (.nvmeSmartRead k) s = .next s) ∧
    ((s.dev.port (4 + k)).up = false → ∃ t, exec (.nvmeTrainingTimeout k) s = .next t ∧ t = s.withDev { s.dev with mem := { s.dev.mem with nvmePresent := t.dev.mem.nvmePresent } } ∧
      t.dev.mem.nvmePresent.getLsbD k = false ∧ ∀ j, j ≠ k → t.dev.mem.nvmePresent.getLsbD j = s.dev.mem.nvmePresent.getLsbD j) ∧
    ((s.dev.port (4 + k)).up = true → exec (.nvmeTrainingTimeout k) s = .next s))

/-- A step program starts with what validation kept; a TUNE judges its block, holds its slot and sequences, and iterates. A STEP_PROGRAM whose
turn has come and whose model is there runs the program that validation kept, at its first step, with the model's generation pinned; without
its model it ends with 0x10. A TUNE ends with 0x04, 0x01 or 0x03 as R336 says, or with the failure of reading its model's serving table;
otherwise it holds its adapter slot and its sequences while its program runs, and with frozen ends at once. An iteration that has ended is
counted in the state block: the program starts again while iterations are left, and the last one ends the command with 0x00. Rows completed:
stepProgram, tune, tuneIteration. (spec/04_work_engines_and_command_lists.md R104, spec/04_work_engines_and_command_lists.md R114,
spec/04_work_engines_and_command_lists.md R120, spec/08_model_residency.md R245, spec/10_token_serving.md R335, spec/10_token_serving.md
R336, spec/10_token_serving.md R337) -/
def Obligations.StepProgramsStartAndTuneIterates : Prop :=
  (∀ (s : State) (q : Nat) (c : W512) (l : CmdList) (rest : List CmdList), s.dev.Starts q 0x10 c → (s.dev.que q).lists = l :: rest →
    let d0 := s.dev.startCmd q c; let g := d0.progOf q c
    (∀ e, (workSlot c).bind (d0.modelGone (d0.qPart q)) = some e → ∃ t, exec (.stepProgram q) s = .next t ∧ t = s.withDev t.dev ∧ d0.Ended t.dev q c l rest 0x10 0) ∧
    ((workSlot c).bind (d0.modelGone (d0.qPart q)) = none → g.steps ≠ [] → g.regions ≠ [] → ∃ t, exec (.stepProgram q) s = .next t ∧ t = s.withDev t.dev ∧ t.dev.prog (.queue q) = some g ∧
      g.pcs = [] ∧ g.units = [] ∧ g.steps = (l.progs.get l.index []).drop 1 ∧ g.party = qParty q ∧ g.partition = s.dev.qPart q ∧
      (t.dev.que q).lists = l :: rest ∧ (∀ k, k ≠ q → t.dev.que k = s.dev.que k) ∧ t.dev.time = s.dev.time ∧
      (g.slot < 8 → (t.dev.slot (slotNo g.partition g.slot)).gens = pinGen g.gen (s.dev.slot (slotNo g.partition g.slot)).gens))) ∧
  (∀ (s : State) (q : Nat) (c : W512) (l : CmdList) (rest : List CmdList), s.dev.Starts q 0x11 c → (s.dev.que q).lists = l :: rest →
    let d0 := s.dev.startCmd q c; let v := s.dev.qView q; let a := bytesAt c 40 8; let k := bytesAt c 36 1; let p := qParty q
    (workSlot c).bind (d0.modelGone (d0.qPart q)) = none → ∀ d1 h, d0.readMem v a 64 = (d1, .ok h) →
    (d1.adapterBad v c h = true → ∃ t, exec (.tune q) s = .next t ∧ t = s.withDev t.dev ∧ d1.Ended t.dev q c l rest 0x04 0) ∧
    (d1.adapterBad v c h = false → ((d0.ten p).adapters.get k {}).heldByTune = true ∨ (∃ e ∈ d1.live, e.2.tenant = p ∧ e.2.adapter = k) →
      ∃ t, exec (.tune q) s = .next t ∧ t = s.withDev t.dev ∧ d1.Ended t.dev q c l rest 0x01 0) ∧
    (d1.adapterBad v c h = false → ((d0.ten p).adapters.get k {}).heldByTune = false → (∀ e ∈ d1.live, e.2.tenant = p → e.2.adapter ≠ k) →
      ∀ d2 tb, d1.readMem v (a + leAt h 0x28 4) (4 * leAt h 0x0A 2) = (d2, .ok tb) →
      (d2.tuneSeqsOf p (bytesAt c 28 1) (codes32 tb) = none → ∃ t, exec (.tune q) s = .next t ∧ t = s.withDev t.dev ∧ d2.Ended t.dev q c l rest 0x03 0) ∧
      (∀ rs, d2.tuneSeqsOf p (bytesAt c 28 1) (codes32 tb) = some rs →
        ((leAt h 6 2).testBit 0 = true → ∃ t, exec (.tune q) s = .next t ∧ t = s.withDev t.dev ∧ d2.Ended t.dev q c l rest 0 0) ∧
        let d3 := rs.foldl (fun d r => d.modSeq r (fun s => { s with heldBy := some q })) (d2.modTen p (fun t => { t with adapters := t.adapters.set k { t.adapters.get k {} with heldByTune := true } }))
        ((leAt h 6 2).testBit 0 = false → ∀ d4 e, d3.tuneSpace (d3.progOf q c) = (d4, .error e) → ∃ t, exec (.tune q) s = .next t ∧ t = s.withDev t.dev ∧ d4.Ended t.dev q c l rest e.status 0) ∧
        ((leAt h 6 2).testBit 0 = false → 2 ≤ (l.progs.get l.index []).length → (d0.progOf q c).regions ≠ [] → ∀ d4 w, d3.tuneSpace (d3.progOf q c) = (d4, .ok w) →
          ∃ t g, exec (.tune q) s = .next t ∧ t = s.withDev t.dev ∧ t.dev.prog (.queue q) = some g ∧
          g.adapter = k ∧ g.stateAddr = a ∧ g.iters = bytesAt c 48 4 ∧ g.itersDone = 0 ∧ g.tuneSeqs = rs ∧ g.ws = w ∧ g.pcs = [] ∧ g.steps = (l.progs.get l.index []).drop 1 ∧
          ((t.dev.ten p).adapters.get k {}).heldByTune = true)))) ∧
  (∀ (s : State) (q : Nat) (r : Running) (g : Prog) (l : CmdList) (rest : List CmdList), s.dev.Runs q r l rest → cmdOp r.cmd = 0x11 → r.prog = some g →
    (g.over = false ∨ g.fail ≠ none → exec (.tuneIteration q) s = .next s) ∧
    (g.over = true → g.fail = none → ∀ d1, s.dev.writeMem (s.dev.qView q) (g.stateAddr + 0x10) (leBytes 8 (g.itersDone + 1)) = (d1, none) →
      (g.iters ≤ 1 → ∃ t, exec (.tuneIteration q) s = .next t ∧ t = s.withDev t.dev ∧ d1.Ended t.dev q r.cmd l rest 0 0) ∧
      (1 < g.iters → exec (.tuneIteration q) s = .next (s.withDev (d1.setRunning q { r with prog := some { g with iters := g.iters - 1, itersDone := g.itersDone + 1, pcs := [], units := [], holds := [] } })))))

/-- A region's sequencer issues a step to free units, passes a NOP, holds at a SYNC and goes on when its scope has finished. While the clocks of
the partition run: a step that a region may issue is given to the units it names there and that region's sequencer alone moves on; a NOP
step is passed; a SYNC step puts its releases behind it; a release whose scope has finished every earlier step is given, its regions'
barrier controllers note it, and units that waited for it alone start. Of the engines that wait at a region's gust limiter the first in the
order 16 × ME + local cluster starts. A unit that has ended is free; a failure stops the issue of further steps and is kept where its step
index is the lowest; when no unit runs and nothing is left, the command ends with the status of that failure, or with 0x00. Rows completed:
stepIssue, stepNop, sync, syncRelease, engineStart. (spec/05_matrix_engines_and_number_formats.md R136,
spec/05_matrix_engines_and_number_formats.md R137, spec/05_matrix_engines_and_number_formats.md R138,
spec/05_matrix_engines_and_number_formats.md R139, spec/05_matrix_engines_and_number_formats.md R165,
spec/05_matrix_engines_and_number_formats.md R166) -/
def Obligations.SequencersIssueHoldAndRelease : Prop :=
  (∀ (s : State) (r : RunRef) (g : Prog) (n : Nat), s.dev.prog r = some g → s.dev.clocked g.partition = true → let k := g.step (g.pc n)
    let same (t : State) := t = s.withDev { s.dev with queues := t.dev.queues, parts := t.dev.parts, regions := t.dev.regions, clusters := t.dev.clusters, pmc := t.dev.pmc }
    (g.canIssue n = true → ∃ t, exec (.stepIssue ⟨r, n⟩) s = .next t ∧ same t ∧
      t.dev.prog r = some { g.advance n with units := g.units ++ (s.dev.startUnits g ((g.unitsOf n (g.pc n)).map (fun u => { u with parked := g.isHeld u }))).2 } ∧
      (∀ m, m ≠ n → (g.advance n).pc m = g.pc m) ∧ (g.advance n).pc n = g.pc n + 1) ∧
    (g.canIssue n = false → exec (.stepIssue ⟨r, n⟩) s = .next s) ∧
    (g.next n (fun x => decide (stepKind x = 0)) = true → (g.advance n).over = false → ∃ t, exec (.stepNop ⟨r, n⟩) s = .next t ∧ same t ∧ t.dev.prog r = some (g.advance n)) ∧
    (g.next n (fun x => decide (stepKind x = 5)) = true → let g1 : Prog := { g.advance n with holds := g.holds ++ g.syncHolds k n }; g1.over = false →
      ∃ t, exec (.sync ⟨r, n⟩) s = .next t ∧ same t ∧ t.dev.prog r = some g1) ∧
    (∀ h, g.holds.find? g.holdDone = some h → let g1 := g.released h; let rs := if h.scope = 2 then g.regions else [h.region]
      let freed := g1.units.filter (fun u => !u.parked && g.units.any (fun x => decide (x = { u with parked := true })))
      let d1 := rs.foldl (fun d k => d.barrierOpen k (releaseDelay g h) (releaseTo h k)) s.dev
      let g2 : Prog := { g1 with units := g1.units.filter (fun u => !freed.contains u) ++ (d1.startUnits g freed).2 }
      g2.over = false → ∃ t, exec (.syncRelease r) s = .next t ∧ same t ∧ t.dev.prog r = some g2 ∧
        (∀ m ∈ rs, (t.dev.region m).relNo = (s.dev.region m).relNo + 1 ∧ (t.dev.region m).relDelay = releaseDelay g h ∧ (t.dev.region m).relAt = s.dev.time)) ∧
    (g.holds.find? g.holdDone = none → exec (.syncRelease r) s = .next s)) ∧
  (∀ (s : State) (n : Nat), s.dev.clocked ((s.dev.cfg.regionPart n).getD 16) = true →
    ((s.dev.region n).waiting = [] → exec (.engineStart n) s = .next s) ∧
    ((s.dev.region n).waiting ≠ [] → ∃ t m, exec (.engineStart n) s = .next t ∧ t = s.withDev { s.dev with queues := t.dev.queues, parts := t.dev.parts, regions := t.dev.regions } ∧
      m ∈ (s.dev.region n).waiting ∧ (∀ x ∈ (s.dev.region n).waiting, 16 * m.1 + m.2 ≤ 16 * x.1 + x.2) ∧
      (t.dev.region n).waiting = (s.dev.region n).waiting.filter (fun x => decide (x ≠ m)) ∧
      (∀ r, t.dev.prog r = (s.dev.prog r).map (fun g => if g.mask.getLsbD n then startEngine n m.1 m.2 g else g)))) ∧
  (∀ (d : Dev) (r : RunRef) (g : Prog) (u : UnitRun) (n : Nat), d.prog r = some g → let left := g.units.filter (fun x => decide (x ≠ u))
    let stay := g.units.filter (fun x => decide (x ≠ u) && !x.parked); let d0 : Dev := { d with clusters := (d.idleEngines g u).clusters }
    let keep (x : Nat × Fail) : Nat × B8 × W32 := match g.fail with | some y => (if y.1 ≤ u.step then y else (u.step, x.2.status, detailOf x.2.code u.step)) | none => (u.step, x.2.status, detailOf x.2.code u.step)
    (({ g with units := left } : Prog).over = false → (d.unitDone r g u [] n).prog r = some { g with units := left }) ∧
    (stay ≠ [] → ∀ x xs, (d.unitDone r g u (x :: xs) n).prog r = some { g with units := stay, holds := [], fail := some (keep x) }) ∧
    (∀ q w l rest, r = .queue q → d.Runs q w l rest → ({ g with units := left } : Prog).over = true → g.fail = none → 8 ≤ g.adapter → d0.Ended (d.unitDone r g u [] n) q w.cmd l rest 0 0) ∧
    (∀ q w l rest x, r = .queue q → d.Runs q w l rest → stay = [] → g.fail = none → d0.Ended (d.unitDone r g u [x] n) q w.cmd l rest x.2.status 0))

/-- Each vector operation reads its operands, writes the rows that R161 gives, and ends its unit. For each of the 21 vector operations, on the
unit that the sequencer gave it: an operation of codes 0x01 to 0x0C writes at every element the result of R161 on the elements of its
operands, row 0 of the second standing for every row where it is broadcast; ROW_SUM and ROW_MAX write one value a row; SOFTMAX, RMSNORM,
LAYERNORM and QUANT_ROW write rows (QUANT_ROW also its scales), TOPK_ROW its indices and values (past the columns of its row they are free
values, log entry 7); GATHER_ROWS and SCATTER_ROWS move rows by their indices. The unit ends without failure, its output lines and
saturations counted. A step that fails writes no output and ends its unit with that failure. Without a unit of the operation nothing
changes. Rows completed: add, mul, axpby, max, convert, exp, recip, rsqrt, tanh, sigmoid, gelu, silu, rowSum, rowMax, softmax, rmsnorm,
layernorm, quantRow, topkRow, gatherRows, scatterRows. (spec/05_matrix_engines_and_number_formats.md R137,
spec/05_matrix_engines_and_number_formats.md R138, spec/05_matrix_engines_and_number_formats.md R160,
spec/05_matrix_engines_and_number_formats.md R161, spec/05_matrix_engines_and_number_formats.md R162) -/
def Obligations.VectorStepsWriteTheirRows : Prop :=
  (∀ (s : State) (r : RunRef) (c : Nat),
    (∃ t, exec (.add r c) s = .next t ∧ t = s.withDev t.dev ∧ s.dev.VecRan r c 0x01 t.dev) ∧
    (∃ t, exec (.mul r c) s = .next t ∧ t = s.withDev t.dev ∧ s.dev.VecRan r c 0x02 t.dev) ∧
    (∃ t, exec (.axpby r c) s = .next t ∧ t = s.withDev t.dev ∧ s.dev.VecRan r c 0x03 t.dev) ∧
    (∃ t, exec (.max r c) s = .next t ∧ t = s.withDev t.dev ∧ s.dev.VecRan r c 0x04 t.dev) ∧
    (∃ t, exec (.convert r c) s = .next t ∧ t = s.withDev t.dev ∧ s.dev.VecRan r c 0x05 t.dev) ∧
    (∃ t, exec (.exp r c) s = .next t ∧ t = s.withDev t.dev ∧ s.dev.VecRan r c 0x06 t.dev) ∧
    (∃ t, exec (.recip r c) s = .next t ∧ t = s.withDev t.dev ∧ s.dev.VecRan r c 0x07 t.dev) ∧
    (∃ t, exec (.rsqrt r c) s = .next t ∧ t = s.withDev t.dev ∧ s.dev.VecRan r c 0x08 t.dev) ∧
    (∃ t, exec (.tanh r c) s = .next t ∧ t = s.withDev t.dev ∧ s.dev.VecRan r c 0x09 t.dev) ∧
    (∃ t, exec (.sigmoid r c) s = .next t ∧ t = s.withDev t.dev ∧ s.dev.VecRan r c 0x0A t.dev) ∧
    (∃ t, exec (.gelu r c) s = .next t ∧ t = s.withDev t.dev ∧ s.dev.VecRan r c 0x0B t.dev) ∧
    (∃ t, exec (.silu r c) s = .next t ∧ t = s.withDev t.dev ∧ s.dev.VecRan r c 0x0C t.dev) ∧
    (∃ t, exec (.rowSum r c) s = .next t ∧ t = s.withDev t.dev ∧ s.dev.VecRan r c 0x10 t.dev) ∧
    (∃ t, exec (.rowMax r c) s = .next t ∧ t = s.withDev t.dev ∧ s.dev.VecRan r c 0x11 t.dev) ∧
    (∃ t, exec (.softmax r c) s = .next t ∧ t = s.withDev t.dev ∧ s.dev.VecRan r c 0x12 t.dev) ∧
    (∃ t, exec (.rmsnorm r c) s = .next t ∧ t = s.withDev t.dev ∧ s.dev.VecRan r c 0x13 t.dev) ∧
    (∃ t, exec (.layernorm r c) s = .next t ∧ t = s.withDev t.dev ∧ s.dev.VecRan r c 0x14 t.dev) ∧
    (∃ t, exec (.quantRow r c) s = .next t ∧ t = s.withDev t.dev ∧ s.dev.VecRan r c 0x15 t.dev) ∧
    (∃ t, exec (.topkRow r c) s = .next t ∧ t = s.withDev t.dev ∧ s.dev.VecRan r c 0x16 t.dev) ∧
    (∃ t, exec (.gatherRows r c) s = .next t ∧ t = s.withDev t.dev ∧ s.dev.VecRan r c 0x17 t.dev) ∧
    (∃ t, exec (.scatterRows r c) s = .next t ∧ t = s.withDev t.dev ∧ s.dev.VecRan r c 0x18 t.dev)) ∧
  (∀ (draw k i : Nat) (l : List F32), k ≤ l.length → topkRow draw k i l = vecTopk k (l.mapIdx (fun j x => (j, x))) ∧ (topkRow draw k i l).length = k)

/-- MATMUL, DMA, LOAD_SCALES, ATTEND, APPEND and RING_XFER on the unit the sequencer gave them. MATMUL: each selected engine in turn writes its
whole output, or nothing where it fails. DMA: with no tile of its on the move the bytes move tile by tile, and what moved before a refusal
stays. LOAD_SCALES: the entries of the party take the words read and no other entry changes. RING_XFER: the bytes go to the region of the
same place on the next die of the partition, decoded chunk by chunk where they are coded, up to a chunk that fails; outside the partition it
fails with 0x08. ATTEND: the items of the region are computed and their rows written, unless one fails; APPEND writes its rows to their
pages only when every item passed. Each ends its unit, with the failure where one was met. With no zero point, scale or accumulator input an
element of the engine's output is the FP32 sum of its products in ascending K order, or the saturating INT32 sum, times the two multipliers.
Rows completed: matmul, dma, loadScales, ringXfer, attend, append. (spec/05_matrix_engines_and_number_formats.md R138,
spec/05_matrix_engines_and_number_formats.md R142, spec/05_matrix_engines_and_number_formats.md R145,
spec/05_matrix_engines_and_number_formats.md R151, spec/05_matrix_engines_and_number_formats.md R152,
spec/05_matrix_engines_and_number_formats.md R153, spec/05_matrix_engines_and_number_formats.md R163,
spec/05_matrix_engines_and_number_formats.md R164, spec/06_operand_compression.md R185, spec/09_attention_and_kv_cache.md R275,
spec/09_attention_and_kv_cache.md R277, spec/09_attention_and_kv_cache.md R283) -/
def Obligations.ClusterAndRegionStepsEndTheirUnits : Prop :=
  (∀ (s : State) (r : RunRef) (g : Prog) (c : Nat), s.dev.runProg r = some g →
    (∀ u, g.findUnit 1 c (fun _ => true) = some u → let v := matDesc (g.step u.step)
      ∀ d1 out, s.dev.enginesAll g.party c v (v.n / v.selected.length) v.selected 0 = (d1, out) →
        let d2 := out.foldl (fun d x => match x.2.fail with | some _ => d | none => d.putOutput g c x.2.writes) d1
        let d3 := out.foldl (fun d x => ((d.countCl c 0x05 g.attr x.2.sat).countCl c 0x01 g.attr x.2.busy).countCl c 0x02 g.attr x.2.stall) d2
        exec (.matmul r c) s = .next (s.withDev (d3.unitDone r g u (out.filterMap (fun x => x.2.fail.map (fun e => (unitCluster c x.1, e)))) out.length))) ∧
    (∀ u, g.findUnit 3 c (fun _ => true) = some u → let k := g.step u.step; let src := dmaPlace c (fld k 8 2) (bytesAt k 4 2); let dst := dmaPlace c (fld k 10 2) (bytesAt k 4 2)
      (s.dev.busyIn g.view (bytesAt k 8 8) (bytesAt k 24 4) = false ∨ src ≠ .memory) → (s.dev.busyIn g.view (bytesAt k 16 8) (bytesAt k 24 4) = false ∨ dst ≠ .memory) →
      ∀ d1 e w, s.dev.moveBytes g.view src dst (bytesAt k 8 8) (bytesAt k 16 8) (bytesAt k 24 4) = (d1, e, w) → ∃ d2 : Dev, d2 = { d1 with pmc := d2.pmc } ∧
        (e = none → exec (.dma r c) s = .next (s.withDev (d2.unitDone r g u [] 1))) ∧
        (∀ f, e = some f → exec (.dma r c) s = .next (s.withDev ((d2.modelFault f).unitDone r g u [(unitCluster c 9, f)] 1)))) ∧
    (∀ u, g.findUnit 4 c (fun _ => true) = some u → let k := g.step u.step; let first := bytesAt k 12 2
      (∀ d1 e, s.dev.bufCodes g.party (clusterDpa c (bytesAt k 8 4)) (4 * bytesAt k 14 2) 32 = (d1, .error e) →
        exec (.loadScales r c) s = .next (s.withDev (d1.unitDone r g u [(unitCluster c 9, e)] 1))) ∧
      (∀ d1 vs, s.dev.bufCodes g.party (clusterDpa c (bytesAt k 8 4)) (4 * bytesAt k 14 2) 32 = (d1, .ok vs) → ∃ d2 : Dev, exec (.loadScales r c) s = .next (s.withDev (d2.unitDone r g u [] 1)) ∧
        d2 = { d1 with clusters := d2.clusters } ∧ (∀ j, j ≠ c → d2.cluster j = d1.cluster j) ∧
        (∀ n x, (d2.cluster c).scales.get n x = if first ≤ n ∧ n < first + vs.length then (g.party, BitVec.ofNat 32 (vs.getD (n - first) 0)) else (d1.cluster c).scales.get n x))) ∧
    (g.findUnit 1 c (fun _ => true) = none → exec (.matmul r c) s = .next s) ∧
    (∀ u, g.findUnit 7 c (fun _ => true) = some u → let k := g.step u.step; let dir := if k.getLsbD 8 then 1 else 0; let next := 4 * ((if dir = 0 then c / 4 + 1 else c / 4 + 3) % 4) + c % 4
      let n := bytesAt k 16 4; let to_ := regionDpa next (bytesAt k 12 4)
      (next ∉ s.dev.cfg.partRegions g.partition → exec (.ringXfer r c) s = .next (s.withDev (s.dev.unitDone r g u [(unitDie (c / 4) (24 + dir), { status := 0x08, code := 0x87 })] 1))) ∧
      (next ∈ s.dev.cfg.partRegions g.partition →
        (∀ d1 e, s.dev.bufRead g.party (regionDpa c (bytesAt k 8 4)) n = (d1, .error e) → exec (.ringXfer r c) s = .next (s.withDev (d1.unitDone r g u [(unitDie (c / 4) (24 + dir), e)] 1))) ∧
        (∀ d1 b, s.dev.bufRead g.party (regionDpa c (bytesAt k 8 4)) n = (d1, .ok b) →
          (k.getLsbD 9 = false → 8 ≤ g.adapter → ∃ d2 : Dev, d2 = { d1.bufWrite g.party to_ b with pmc := d2.pmc } ∧ exec (.ringXfer r c) s = .next (s.withDev (d2.unitDone r g u [] 1))) ∧
          (k.getLsbD 9 = true ∨ g.adapter < 8 → ∀ d2 got bad,
            (d1.countCoded (2 * (c / 4) + dir) n ((chunksOf 512 b (n / 512 + 1)).map frameBytes).sum).receive (2 * (next / 4) + 1 - dir) b = (d2, got, bad) →
            ∃ d3 : Dev, d3 = { d2.bufWrite g.party to_ got with pmc := d3.pmc } ∧
              (bad = none → exec (.ringXfer r c) s = .next (s.withDev (d3.unitDone r g u [] 1))) ∧
              (∀ i, bad = some i → exec (.ringXfer r c) s = .next (s.withDev
                (d3.unitDone r g u [(unitDie (next / 4) (25 - dir), { status := 0x04, code := 0xA7, addr := to_ + 512 * i, space := 1 })] 1))))))) ∧
    (let m := s.dev.progManifest g; ∀ u, let k := g.step u.step
      let bad (d : Dev) (e : Fail) : Dev := ((d.modelFault e).unitDone r g u [(attUnit c e, e)] 1).freeRetired
      (g.findUnit 6 c (fun w => decide (bytesAt w 1 1 = 0)) = some u →
        (∀ d1 e, s.dev.readItems g m k = (d1, .error e) → exec (.attend r c) s = .next (s.withDev (bad d1 e))) ∧
        (∀ d1 b, s.dev.readItems g m k = (d1, .ok b) → let items := d1.itemsFor m g k b c
          (∀ d2 e, d1.attendAll r g m k c u.began items = (d2, .error e) → exec (.attend r c) s = .next (s.withDev (bad d2 e))) ∧
          (∀ d2 rows, d1.attendAll r g m k c u.began items = (d2, .ok rows) → exec (.attend r c) s = .next (s.withDev ((rows.foldl (fun d y =>
            (d.putOutput g (16 * c + y.1) (rowWrites (bytesAt k 0x18 4) (fld k 48 4) (attDim m) y.2.1 (y.2.2.map (fun x => x.1)))).countCl (16 * c + y.1) 0x05 g.attr ((y.2.2.map (fun x => x.2)).sum)) d2).unitDone r g u [] 1).freeRetired)))) ∧
      (g.findUnit 6 c (fun w => decide (bytesAt w 1 1 = 1)) = some u →
        (∀ d1 e, s.dev.readItems g m k = (d1, .error e) → exec (.append r c) s = .next (s.withDev (bad d1 e))) ∧
        (∀ d1 b, s.dev.readItems g m k = (d1, .ok b) → let items := d1.itemsFor m g k b c
          (∀ d2 e, d1.appendAll r g m k c items = (d2, .error e) → exec (.append r c) s = .next (s.withDev (bad d2 e))) ∧
          (∀ d2 w, d1.appendAll r g m k c items = (d2, .ok w) → let d3 := w.1.foldl (fun d y => d.putRows m y.1 y.2.1 (some y.2.2.1.1) (some y.2.2.1.2) y.2.2.2.1 y.2.2.2.2) d2
            exec (.append r c) s = .next (s.withDev ((w.2.foldl (fun d y => d.countCl (16 * c + y.1) 0x05 g.attr y.2) d3).unitDone r g u [] 1).freeRetired)))))) ∧
  (∀ (d : Dev) (k : Nat) (b : List B8), (d.stop k).frames = [] → d.receive k b = (d, b, none)) ∧
  (∀ (v : MatDesc) (x : MatData) (per n j : Nat), v.zpMode ≠ 1 → v.scaleEn = false →
    (v.accIn = false → matElem v false false x per n j = (fmul (fmul (fadd ((List.range v.k).foldl (fun a kk => fmac a (x.a.getD (subIndex v.k n kk) (.fin false 0 0)) (x.wAt per kk j).1) f32Zero) f32Zero) v.actScale) v.outMul, 0)) ∧
    ((∀ kk, kk < v.k → (x.wAt per kk j).2 = false) → let t := (List.range v.k).foldl (fun (a : Int × Nat) kk => let y := sat32 (a.1 + fvInt (x.a.getD (subIndex v.k n kk) (.fin false 0 0)) * fvInt (x.wAt per kk j).1); (y.1, a.2 + y.2)) (0, 0)
      matElem v true true x per n j = (fmul (fmul (fadd (f32OfInt t.1) f32Zero) v.actScale) v.outMul, t.2)))

/-- COPY moves bytes between the partition and the host in turns, sealed for a confidential tenant; a failing host access ends it. A COPY
starts, or goes on where its last turn ended. Its parts are the tiles of its partition side; each moves when no tile it touches is on the
move, or has a copy in a cluster buffer of a suspended partition (log entry 116), from host to partition, partition to host, between two
host ranges, or within the partition. For a confidential tenant a COPY between host and partition is one record: bytes to the host leave
encrypted, with tag and seal record, and the counter of the direction steps; bytes from the host are taken only with a record of the
session, a fresh counter and a matching tag: without a session 0x03, with another record 0x0D and nothing written, with another tag 0x0D and
zeros written. A host side that cannot be reached, a read that times out 50 ms after it began at the earliest ends it with 0x11, a
completion error, running or about to start, with 0x03, and the port counts. Rows completed: copy, hostDmaTimeout, hostDmaCompletionError.
(spec/04_work_engines_and_command_lists.md R94, spec/04_work_engines_and_command_lists.md R115, spec/06_operand_compression.md R181,
spec/07_memory_tiers.md R191, spec/07_memory_tiers.md R216, spec/13_security_and_tenancy.md R430, spec/13_security_and_tenancy.md R431,
spec/17_external_interfaces.md R522, spec/17_external_interfaces.md R523) -/
def Obligations.CopiesMoveAndAreSealed : Prop :=
  (∀ (s : State) (q : Nat) (c : W512) (host : List Host.Cell) (turns : Nat), s.dev.Starts q 0x20 c → exec (.copy ⟨q, turns⟩ host) s = exec (.copy ⟨q, turns⟩ host) (s.withDev (s.dev.startCmd q c))) ∧
  (∀ (s : State) (q : Nat) (r : Running) (l : CmdList) (rest : List CmdList) (host : List Host.Cell) (turns : Nat), s.dev.Runs q r l rest → cmdOp r.cmd = 0x20 →
    let p := qParty q; let v := s.dev.qView q; let port := s.dev.portOf p; let x := copyOf r.cmd; let sealed := decide (p < 64) && s.dev.cfg.confidential p
    let ends (d : Dev) (st : B8) : Prop := ∃ t, exec (.copy ⟨q, turns⟩ host) s = .next t ∧ t = s.withDev t.dev ∧ d.Ended t.dev q r.cmd l rest st 0
    (x.fromHost = true ∨ x.toHost = true → s.dev.hostReachable p = false → ends (s.dev.modPort port (fun y => { y with dmaErr := true, dmaErrCnt := satInc y.dmaErrCnt })) 0x11) ∧
    ((x.fromHost = true ∨ x.toHost = true → s.dev.hostReachable p = true) → sealed = false ∨ x.fromHost = x.toHost →
      ∃ t, exec (.copy ⟨q, turns⟩ host) s = .next t ∧ t = s.withDev t.dev ∧ s.dev.CarriedOn q turns x.parts.length 1 (fun d i => d.copyPart q host x i) id r l rest t.dev) ∧
    (s.dev.hostReachable p = true → sealed = true → x.fromHost ≠ x.toHost →
      (s.dev.takeTurn q = none → exec (.copy ⟨q, turns⟩ host) s = .next s) ∧
      (∀ d0, s.dev.takeTurn q = some d0 →
        (s.dev.session p = none → ends d0 0x03) ∧
        (x.toHost = true → ∀ y, s.dev.session p = some y → ∀ d1 b, d0.readMem v x.src x.len = (d1, .ok b) →
          let ct := gcmXor y.keyD2H (sealNonce 1 y.d2h) b; let body := sealBody y.d2h x.len y.sid p 1 x.src
          ends ((d1.hostWrite port x.dst (ct ++ leBytes 16 (Config.gcmTag y.keyD2H (sealNonce 1 y.d2h) body ct).toNat ++ body)).modTen p (fun t => { t with session := some { y with d2h := y.d2h + 1 } })) 0) ∧
        (x.toHost = true → ∀ y, s.dev.session p = some y → ∀ d1 e, d0.readMem v x.src x.len = (d1, .error e) → ends (d1.modelFault e) e.status) ∧
        (x.fromHost = true → ∀ y, s.dev.session p = some y → let m := d0.hostRead port host (x.src + x.len) 64; let ctr := BitVec.ofNat 64 (leAt m 16 8); let ct := d0.hostRead port host x.src x.len
          let fits := leAt m 32 4 = y.sid.toNat ∧ leAt m 37 1 = 2 ∧ leAt m 24 8 = x.len ∧ leAt m 40 8 = x.dst ∧ y.h2d.toNat < ctr.toNat
          let right := leBytes 16 (Config.gcmTag y.keyH2D (sealNonce 2 ctr) (m.drop 16) ct).toNat = m.take 16
          (¬ fits → ends d0 0x0D) ∧
          (fits → ¬ right → ∀ d1, d0.writeMem v x.dst (List.replicate x.len 0) = (d1, none) → ends d1 0x0D) ∧
          (fits → right → ∀ d1, d0.writeMem v x.dst (gcmXor y.keyH2D (sealNonce 2 ctr) ct) = (d1, none) → ends (d1.modTen p (fun t => { t with session := some { y with h2d := ctr } })) 0))))) ∧
  (∀ (d : Dev) (q : Nat) (host : List Host.Cell) (x : CopyCmd) (i a n : Nat), x.parts[i]? = some (a, n) → let v := d.qView q; let port := d.portOf (qParty q); let y := d.copyPart q host x i
    (x.fromHost = true → x.toHost = true → y = (d.hostWrite port (a - x.src + x.dst) (d.hostRead port host a n), .moved)) ∧
    (x.fromHost = false ∨ x.toHost = false → d.moveHeld v a n = true → y = (d, .waits)) ∧
    (d.moveHeld v a n = false →
      (x.fromHost = true → x.toHost = false → ∀ d1 e, d.writeMem v a (d.hostRead port host (a - x.dst + x.src) n) = (d1, e) → y = (d1, partEnd e)) ∧
      (x.fromHost = false → x.toHost = true → ∀ d1, (∀ ps, d.movePieces v .memory a n = (d1, .ok ps) → y = d1.piecesOut v port x.src x.dst ps) ∧ (∀ e, d.movePieces v .memory a n = (d1, .error e) → y = (d1, .failed e))) ∧
      (x.fromHost = false → x.toHost = false → d.moveHeld v (a - x.src + x.dst) n = false → ∀ d1 e w, d.moveBytes v .memory .memory a (a - x.src + x.dst) n = (d1, e, w) → y = (d1, partEnd e)))) ∧
  (∀ (s : State) (q : Nat) (c : W512) (l : CmdList) (rest : List CmdList) (addr : W64), let counted (d : Dev) : Dev := d.modPort (d.portOf (qParty q)) (fun x => { x with dmaErr := true, dmaErrCnt := satInc x.dmaErrCnt })
    (∀ r, r.cmd = c → cmdOp c = 0x20 → s.dev.Runs q r l rest → (cmdArg c).testBit 0 = true → r.started.toNat + 50000000 ≤ s.dev.time.toNat →
      ∃ t, exec (.hostDmaTimeout q addr) s = .next t ∧ t = s.withDev t.dev ∧ (counted s.dev).Ended t.dev q c l rest 0x11 0) ∧
    (∀ d, (∃ r, d = s.dev ∧ r.cmd = c ∧ cmdOp c = 0x20 ∧ s.dev.Runs q r l rest) ∨ (s.dev.Starts q 0x20 c ∧ (s.dev.que q).lists = l :: rest ∧ d = s.dev.startCmd q c) → (cmdArg c).testBit 0 = true →
      ∃ t, exec (.hostDmaCompletionError q addr) s = .next t ∧ t = s.withDev t.dev ∧ (counted d).Ended t.dev q c l rest 0x03 0) ∧
    (s.dev.running q = none ∨ (∃ r, s.dev.running q = some r ∧ (s.dev.time.toNat < r.started.toNat + 50000000 ∨ cmdOp r.cmd ≠ 0x20 ∨ (cmdArg r.cmd).testBit 0 = false)) → exec (.hostDmaTimeout q addr) s = .next s) ∧
    ((∃ r, s.dev.running q = some r ∧ (cmdOp r.cmd ≠ 0x20 ∨ (cmdArg r.cmd).testBit 0 = false)) ∨ (s.dev.running q = none ∧ s.dev.startable q 0x20 = none) ∨ (∃ c, s.dev.startable q 0x20 = some c ∧ (cmdArg c).testBit 0 = false) →
      exec (.hostDmaCompletionError q addr) s = .next s))

/-- SCATTER, GATHER and MIGRATE carry their elements and tiles in order and in turns; the first failure ends them. SCATTER, GATHER and MIGRATE
start, or go on where their last turn ended. Without kv each element is read by its index and moved; with kv the rows of sequences are
written or read, a SCATTER holding the sequences it names, an element waiting while its sequence is in a batch or away, elements before it
written. A MIGRATE takes its progress slot (in use: 0x01, log entry 8) and moves its tiles in ascending order, a tile that another command
moves, or of a cluster buffer in a suspended partition (log entry 116), being waited for; the slot shows the tiles moved and the tile on the
move is marked busy. Each ends with 0x00 when nothing failed, else with the status of the first failure, and what was done stays. Rows
completed: scatter, gather, migrate. (spec/04_work_engines_and_command_lists.md R94, spec/04_work_engines_and_command_lists.md R115,
spec/04_work_engines_and_command_lists.md R131, spec/07_memory_tiers.md R191, spec/07_memory_tiers.md R195, spec/07_memory_tiers.md R198,
spec/07_memory_tiers.md R214, spec/07_memory_tiers.md R216, spec/09_attention_and_kv_cache.md R285, spec/09_attention_and_kv_cache.md R286,
spec/09_attention_and_kv_cache.md R287) -/
def Obligations.ElementsAndTilesMove : Prop :=
  (∀ (s : State) (q turns : Nat) (c : W512), (s.dev.Starts q 0x21 c → exec (.scatter ⟨q, turns⟩) s = exec (.scatter ⟨q, turns⟩) (s.withDev (s.dev.startCmd q c))) ∧
    (s.dev.Starts q 0x22 c → exec (.gather ⟨q, turns⟩) s = exec (.gather ⟨q, turns⟩) (s.withDev (s.dev.startCmd q c)))) ∧
  (∀ (s : State) (q turns : Nat) (r : Running) (l : CmdList) (rest : List CmdList), s.dev.Runs q r l rest →
    let v := s.dev.qView q; let x := elems r.cmd; let kv := (cmdArg r.cmd).testBit 0
    let carries (d e : Dev) (f : Dev → Nat → Dev × PartEnd) : Prop := d.CarriedOn q turns x.count x.per f id r l rest e
    (cmdOp r.cmd = 0x21 → kv = false → ∃ t, exec (.scatter ⟨q, turns⟩) s = .next t ∧ t = s.withDev t.dev ∧ carries s.dev t.dev (Dev.plainElem v x true)) ∧
    (cmdOp r.cmd = 0x22 → kv = false → ∃ t, exec (.gather ⟨q, turns⟩) s = .next t ∧ t = s.withDev t.dev ∧ carries s.dev t.dev (Dev.plainElem v x false)) ∧
    (kv = true → ∀ d1 b, s.dev.readMem v x.table (32 * x.count) = (d1, .ok b) →
      (cmdOp r.cmd = 0x21 → ∃ t, exec (.scatter ⟨q, turns⟩) s = .next t ∧ t = s.withDev t.dev ∧ carries (d1.scatterHolds q (d1.namedSeqs b x.count)) t.dev (Dev.kvScatterElem v x b)) ∧
      (cmdOp r.cmd = 0x22 → ∃ t, exec (.gather ⟨q, turns⟩) s = .next t ∧ t = s.withDev t.dev ∧ carries d1 t.dev (Dev.kvGatherElem v x b))) ∧
    (kv = true → ∀ d1 e, s.dev.readMem v x.table (32 * x.count) = (d1, .error e) →
      (cmdOp r.cmd = 0x21 → ∃ t, exec (.scatter ⟨q, turns⟩) s = .next t ∧ t = s.withDev t.dev ∧ (d1.modelFault e).Ended t.dev q r.cmd l rest e.status 0) ∧
      (cmdOp r.cmd = 0x22 → ∃ t, exec (.gather ⟨q, turns⟩) s = .next t ∧ t = s.withDev t.dev ∧ (d1.modelFault e).Ended t.dev q r.cmd l rest e.status 0))) ∧
  (∀ (d : Dev) (v : View) (x : Elems) (b : List B8) (i : Nat),
    (d.elemWaits v.party (kvEntry b i) = true → Dev.kvScatterElem v x b d i = (d, .waits)) ∧
    (d.elemWaits v.party (kvEntry b i) = false → d.moveHeld v (x.dense + i * x.size) x.size = false → ∀ d1 m, d.readMem v (x.dense + i * x.size) x.size = (d1, .ok m) →
      ∀ d2 e, d1.scatterElem v.party (kvEntry b i) m = (d2, e) → Dev.kvScatterElem v x b d i = (d2, partEnd e)) ∧
    (d.moveHeld v (x.dense + i * x.size) x.size = false → ∀ d1 m, d.gatherElem v.party x.size (kvEntry b i) = (d1, .ok m) →
      ∀ d2 e, d1.writeMem v (x.dense + i * x.size) m = (d2, e) → Dev.kvGatherElem v x b d i = (d2, partEnd e)) ∧
    (∀ d1 n, d.moveHeld v (x.table + 4 * i) 4 = false → d.readMem v (x.table + 4 * i) 4 = (d1, .ok n) → let near := x.dense + i * x.size; let far := x.base + leNat n * x.size
      (d1.moveHeld v near x.size || d1.moveHeld v far x.size) = false → (∀ d2 e, d1.moveElem v near far x.size = (d2, e) → Dev.plainElem v x true d i = (d2, partEnd e)) ∧
        (∀ d2 e, d1.moveElem v far near x.size = (d2, e) → Dev.plainElem v x false d i = (d2, partEnd e)))) ∧
  (∀ (s : State) (q turns : Nat) (c : W512) (l : CmdList) (rest : List CmdList), s.dev.Starts q 0x23 c → (s.dev.que q).lists = l :: rest →
    let d0 := s.dev.startCmd q c; let k := nfld (cmdArg c) 2 3; let p := qParty q
    (d0.slotBusy p k = true → ∃ t, exec (.migrate ⟨q, turns⟩) s = .next t ∧ t = s.withDev t.dev ∧ d0.drawn.Ended t.dev q c l rest 0x01 0) ∧
    (d0.slotBusy p k = false → exec (.migrate ⟨q, turns⟩) s =
      exec (.migrate ⟨q, turns⟩) (s.withDev (((d0.setBusy p k true).modQue q (fun x => { x with running := x.running.map (fun r => { r with aux := 1 }) })).setProgress p k 1 0)))) ∧
  (∀ (s : State) (q turns : Nat) (r : Running) (l : CmdList) (rest : List CmdList), s.dev.Runs q r l rest → cmdOp r.cmd = 0x23 →
    let k := nfld (cmdArg r.cmd) 2 3; let p := qParty q; let n := bytesAt r.cmd 16 4
    ∃ (t : State) (e : Dev), exec (.migrate ⟨q, turns⟩) s = .next t ∧ t = s.withDev t.dev ∧
      s.dev.CarriedOn q turns n 1 (Dev.migratePart (s.dev.qView q) (cmdArg r.cmd % 4) (bytesAt r.cmd 8 8) (if r.mark then some r.pos else none)) (fun d => d.setProgress p k 2 n) r l rest e ∧
      t.dev = (match e.running q with | some r1 => if r1.pos = r.pos then e else (e.setProgress p k 1 r1.pos).markTile q | none => e)) ∧
  (∀ (d : Dev) (v : View) (target a i : Nat), let b := a + i * tileSize
    (d.moveHeld v b 1 = true ∨ (d.isSuspended v.part = true ∧ target = 0) → Dev.migratePart v target a none d i = (d, .waits)) ∧
    (d.moveHeld v b 1 = false → d.isSuspended v.part = false ∨ target ≠ 0 → ∀ t, d.tile (d.keyAt v b) = some t → t.busy = false → d.mem.tiles.set (d.keyAt v b) (some t) = d.mem.tiles →
      ∀ d1 e, d.migrateTile v target b = (d1, e) → Dev.migratePart v target a none d i = (d1, partEnd e)))

/-- A model load runs, its shards arrive, it commits; models are switched, unloaded, freed, swept and cached. MODEL_LOAD: the first of the
checks of R239 that fails ends it with its status; otherwise the slot holds a load and the command stays started. A shard in flight that
arrives and matches its digest is verified and written to its places, one that does not match or does not arrive counts a failed attempt,
and the fourth ends the load. A load that the tick has found verified takes effect at a tick boundary: the new generation is current, or
staged beside one that is there. MODEL_CTL: a switch to the staged generation and an unload wait for their tick, and end with 0x10 where the
slot does not allow them. A generation that the tick has found unpinned and draining or given up is freed at a tick boundary. The sweep due
longest goes through its shards, a bad one degrading the generation (log entry 101); the cache takes the oldest shard that waits, where it
fits. Rows completed: modelLoad, shardArrival, shardTimeout, loadCommit, modelCtlUnload, modelCtlSwitch, generationFree, digestSweep,
weightCacheFill. (spec/08_model_residency.md R239, spec/08_model_residency.md R240, spec/08_model_residency.md R241,
spec/08_model_residency.md R242, spec/08_model_residency.md R243, spec/08_model_residency.md R244, spec/08_model_residency.md R246,
spec/08_model_residency.md R247, spec/08_model_residency.md R248, spec/08_model_residency.md R249, spec/08_model_residency.md R250) -/
def Obligations.ModelsAreLoadedSwitchedAndSwept : Prop :=
  (∀ (s : State) (q : Nat) (c : W512) (l : CmdList) (rest : List CmdList), s.dev.Starts q 0x24 c → (s.dev.que q).lists = l :: rest →
    let d0 := s.dev.startCmd q c; let k := cmdArg c % 8; let v := s.dev.qView q; let p := v.part; let n := slotNo p (cmdArg c / 256); let party := qParty q
    let ends (d : Dev) (st : B8) : Prop := ∃ t, exec (.modelLoad q) s = .next t ∧ t = s.withDev t.dev ∧ d.Ended t.dev q c l rest st 0
    (d0.slotBusy party k = true → ends d0.drawn 0x01) ∧
    (d0.slotBusy party k = false → let d1 := (d0.setBusy party k true).modQue q (fun x => { x with running := x.running.map (fun r => { r with aux := 1 }) })
      (∀ d2 e, d1.fetchManifest v (bytesAt c 8 8) = (d2, .error e) → ends (d2.modelFault e) e.status) ∧
      (∀ d2 m, d1.fetchManifest v (bytesAt c 8 8) = (d2, .ok m) →
        (∀ e, d2.loadFault v (cmdArg c / 256) m = some e → ends d2 e.status) ∧
        (d2.loadFault v (cmdArg c / 256) m = none → let y := d2.mapModel p (cmdArg c / 256) ((d2.slot n).count + 1) v.party 0 (d2.startEnd p m / tileSize) (descLineOf m (d2.partR p) (d2.partD p) (cmdArg c / 256))
          (∀ d3 e, y = (d3, some e) → ends d3 e.status) ∧
          (∀ d3, y = (d3, none) → ∃ t, exec (.modelLoad q) s = .next t ∧ t = s.withDev t.dev ∧
            (t.dev.slot n).load = some (({ gen := (d2.slot n).count + 1, manifest := m, signer := (d2.cfg.signerSlot v.party m).getD 0xFF, owner := v.party, queue := q, timeoutMs := if bytesAt c 16 4 = 0 then 10000 else bytesAt c 16 4 } : Load).begin s.dev.time) ∧
            (t.dev.slot n).gens = (d2.slot n).gens ∧ (∀ j, j ≠ n → t.dev.slot j = d2.slot j) ∧ t.dev.queues = d1.queues))))) ∧
  (∀ (s : State) (n i : Nat) (b : List B8) (l : Load), (s.dev.slot n).load = some l → l.complete = false →
    (i ∉ l.inFlight → exec (.shardArrival n i b) s = .next s ∧ exec (.shardTimeout n i) s = .next s) ∧
    (i ∈ l.inFlight → (l.late s.dev.time i = true → exec (.shardTimeout n i) s = .next (s.withDev (s.dev.shardMiss n l i false))) ∧ (l.late s.dev.time i = false → exec (.shardTimeout n i) s = .next s) ∧
      (∀ e, s.dev.cacheFind l i = some e → shardMatches l.manifest i e.bytes = true → s.dev.mem.nvmeFail.get e.drive false = false →
        exec (.shardArrival n i b) s = .next (s.withDev ((s.dev.cacheTouch e).shardOk n l i e.bytes))) ∧
      (∀ e, s.dev.cacheFind l i = some e → shardMatches l.manifest i e.bytes = false ∨ s.dev.mem.nvmeFail.get e.drive false = true →
        exec (.shardArrival n i b) s = .next (s.withDev ((s.dev.cacheDrop e).fetchAgain n i (fun x => { x with uncounted := i :: x.uncounted })))) ∧
      (s.dev.cacheFind l i = none → let alt := source l.manifest i 1; let src := if l.attempts.get i 0 = 0 ∨ i ∈ l.uncounted ∨ alt.typ = 0 then source l.manifest i 0 else alt
        (src.typ ≠ 2 → src.typ = 1 → s.dev.cfg.targetOn src.target = false → exec (.shardArrival n i b) s = .next (s.withDev (s.dev.shardMiss n l i false))) ∧
        (src.typ ≠ 2 → (src.typ = 1 → s.dev.cfg.targetOn src.target = true) →
          exec (.shardArrival n i b) s = .next (s.withDev (if shardMatches l.manifest i b then s.dev.shardOk n l i b else s.dev.shardMiss n l i true))) ∧
        (src.typ = 2 → ∀ d1 m, s.dev.readMem { party := l.owner, part := n / 8 } src.addr (shardLen l.manifest i) = (d1, .ok m) →
          exec (.shardArrival n i b) s = .next (s.withDev (if shardMatches l.manifest i m then d1.shardOk n l i m else d1.shardMiss n l i true))))) ∧
    (l.attempts.get i 0 < 3 → i ∉ l.uncounted → ∀ bad, s.dev.shardMiss n l i bad =
      s.dev.modSlot n (fun v => { v with load := v.load.map (fun x => { x with attempts := x.attempts.set i (l.attempts.get i 0 + 1), started := x.started.set i s.dev.time }) })) ∧
    (3 ≤ l.attempts.get i 0 → i ∉ l.uncounted → ∀ bad, s.dev.shardMiss n l i bad = s.dev.failLoad n (s.dev.shardFail n l i bad)) ∧
    (i ∈ l.uncounted → ∀ bad, s.dev.shardMiss n l i bad = s.dev.fetchAgain n i (fun x => { x with uncounted := x.uncounted.filter (fun k => decide (k ≠ i)) })) ∧
    (l.verified.length + 1 < manShards l.manifest → ((s.dev.shardOk n l i b).slot n).load = some (({ l with verified := l.verified ++ [i] } : Load).begin s.dev.time))) ∧
  (∀ (s : State) (n : Nat) (l : Load) (r : Running) (h : CmdList) (rest : List CmdList), (s.dev.slot n).load = some l → s.dev.Runs l.queue r h rest →
    (l.due = none ∨ s.dev.atTick = false ∨ s.dev.coreOut 0 = true → exec (.loadCommit n) s = .next s) ∧
    (∀ w, l.due = some w → s.dev.atTick = true → s.dev.coreOut 0 = false → let v := s.dev.slot n; let staged := !v.gens.isEmpty
      ∃ d1 e : Dev, exec (.loadCommit n) s = .next (s.withDev (e.deferred 0 l.owner w)) ∧ d1.queues = s.dev.queues ∧ d1.produced = s.dev.produced ∧
        d1.Ended e l.queue r.cmd h rest 0 (BitVec.ofNat 64 (l.gen + if staged then 4294967296 else 0)) ∧
        d1.slot n = { v with gens := v.gens ++ [{ number := l.gen, role := if staged then 1 else 0, manifest := l.manifest, since := s.dev.time }], load := none, count := l.gen, owner := if staged then v.owner else l.owner })) ∧
  (∀ s : State, (s.dev.mdl.fill = [] → exec .weightCacheFill s = .next s) ∧
    (∀ dg k rest, s.dev.mdl.fill = (dg, k) :: rest → s.dev.coreOut 1 = false → let sg := Config.sha384 (s.dev.cfg.key k)
      ((∃ e ∈ s.dev.mdl.cache, e.digest = dg ∧ e.signer = sg) → exec .weightCacheFill s = .next (s.withDev { s.dev with mdl := { s.dev.mdl with fill := rest } })) ∧
      ((∀ e ∈ s.dev.mdl.cache, e.digest = dg → e.signer ≠ sg) → ∀ b, ({ s.dev with mdl := { s.dev.mdl with fill := rest } } : Dev).shardBytes dg = some b → let z := cdiv b.length tileSize
        let tier := ((List.range 2).map (fun j => if s.dev.mem.nvmePresent.getLsbD j then s.dev.mem.nvmeCap.get j 0 else 0)).sum
        100 * z ≤ s.dev.mdl.cacheMaxPct * tier → let d1 := ({ s.dev with mdl := { s.dev.mdl with fill := rest } } : Dev).cacheMake z (s.dev.mdl.cache.length + 1);
        z ≤ d1.nvmeFree d1.nvmeDrive → exec .weightCacheFill s = .next (s.withDev { d1 with mdl := { d1.mdl with cache := d1.mdl.cache ++ [{ digest := dg, signer := sg, bytes := b, drive := d1.nvmeDrive }] } })))) ∧
  (∀ (s : State) (q : Nat) (c : W512) (l : CmdList) (rest : List CmdList), s.dev.Starts q 0x25 c → (s.dev.que q).lists = l :: rest →
    let d0 := s.dev.startCmd q c; let n := slotNo (s.dev.qPart q) (cmdArg c / 256); let v := s.dev.slot n
    let ends (i : Instr) : Prop := ∃ t, exec i s = .next t ∧ t = s.withDev t.dev ∧ d0.Ended t.dev q c l rest 0x10 0
    (v.degraded = true ∨ v.unloading = true → (cmdArg c % 4 = 0 → ends (.modelCtlUnload q)) ∧ (cmdArg c % 4 = 1 → ends (.modelCtlSwitch q))) ∧
    (v.degraded = false → v.unloading = false → cmdArg c % 4 = 0 → v.load = none → v.gens ≠ [] → ∃ t, exec (.modelCtlUnload q) s = .next t ∧ t = s.withDev t.dev ∧
      t.dev.slot n = { v with unloading := true, freeStaged := v.staged.isSome, unloadQ := some q } ∧ t.dev.queues = d0.queues) ∧
    (v.degraded = false → v.unloading = false → cmdArg c % 4 = 1 →
      (∀ g, v.staged = some g → g.number = bytesAt c 8 4 → v.freeStaged = false →
        exec (.modelCtlSwitch q) s = .next (s.withDev (d0.modSlot n (fun x => { x with switches := x.switches ++ [{ gen := g.number, queue := q, due := s.dev.tick + 1 }] })))) ∧
      ((∀ g, v.staged = some g → g.number ≠ bytesAt c 8 4 ∨ v.freeStaged = true) → ends (.modelCtlSwitch q)))) ∧
  (∀ (s : State) (n j : Nat) (g : GenState), (s.dev.slot n).gens.find? (fun x => decide (x.number = j)) = some g →
    (g.freeDue ≠ none → (s.dev.slot n).freeable g = true → s.dev.atTick = true → s.dev.coreOut 0 = false → ∃ t, exec (.generationFree n j) s = .next t ∧ t = s.withDev t.dev ∧
      (t.dev.slot n).gens.map (fun x => x.number) = ((s.dev.slot n).gens.filter (fun x => decide (x.number ≠ j))).map (fun x => x.number)) ∧
    (g.freeDue = none ∨ (s.dev.slot n).freeable g = false ∨ s.dev.atTick = false ∨ s.dev.coreOut 0 = true → exec (.generationFree n j) s = .next s) ∧
    (∀ shards, (s.dev.sweepTurn n j = none ∨ s.dev.coreOut 1 = true → exec (.digestSweep n ⟨j, shards⟩) s = .next s) ∧
      (∀ w, s.dev.sweepTurn n j = some w → s.dev.coreOut 1 = false → let left := s.dev.sweepTotal n g.manifest - w.next; let m := if shards = 0 then left else min shards left
        ∀ d1 o, s.dev.sweepPart n g w.next m = (d1, o) → let goes (d : Dev) : Prop := exec (.digestSweep n ⟨j, shards⟩) s = .next (s.withDev d)
          (o = none → left ≤ m → goes ((d1.logRec 1 0x8C (d1.slot n).owner (unitHub 0 1) n j).sweepEnd n j)) ∧
          (o = none → m < left → goes { d1 with mdl := { d1.mdl with sweep := some { w with next := w.next + m } } }) ∧
          (∀ i, o = some (i, none) → goes ((d1.degrade n j i).sweepEnd n j)) ∧
          (∀ i e, o = some (i, some e) → let d2 := d1.failRec (d1.slot n).owner (dispatcher (n / 8)) e; goes ((if e.status = 0x0C ∨ e.status = 0x0D then d2.degrade n j i else d2).sweepEnd n j)))) ∧
    (s.dev.mdl.sweep = none → ∀ w, s.dev.sweepTurn n j = some w → w = { slot := n, gen := j } ∧ ∃ x ∈ s.dev.sweepsDue, x.1 = n ∧ x.2.1 = j ∧ x.2.2 ≤ s.dev.time.toNat ∧ ∀ y ∈ s.dev.sweepsDue, x.2.2 ≤ y.2.2)) ∧
  (∀ (s : State) (n : Nat) (t : Nat), let v := s.dev.slot n; let m := v.marked t
    m.load.map (fun l => l.due) = v.load.map (fun l => if l.complete then some (l.due.getD t) else none) ∧
    m.gens.map (fun g => (g.number, g.freeDue)) = v.gens.map (fun g => (g.number, if v.freeable g then some (g.freeDue.getD t) else none)))

/-- A REQUEST admits a sequence; SEQ_CTL cancels, pauses and resumes it; images, expiries and waits move it between its states. A REQUEST ends
with the status of the first check of R311 that fails, with 0x04 where a prompt token is no token of the model, or admits a sequence in the
lowest free record and returns its ID. A SEQ_CTL on a sequence that is not its tenant's or has ended is refused with 0x03, on one that a
TUNE holds with 0x01; a cancel ends the sequence, or waits for its batch; a pause makes it PAUSING, PAUSED, or waits for its batch; a resume
makes it RESUMING. A complete image makes a PAUSING sequence PAUSED and a victim PREEMPTED; a restored one is QUEUED or HELD; a drive that
failed twice ends the SEQ_CTL with 0x11 (log entry 104); a pause that has expired by a tick boundary and a wait for pages that has lasted
too long end it; at a retry the highest-ranked waiting sequence of a partition tries its restore or its allocation again. A sequence that
ends gives up its record and produces one entry. Rows completed: request, seqCtlCancel, seqCtlPause, seqCtlResume, pauseImageWritten,
preemptImageWritten, resumeRestored, pauseExpiry, pageWaitTimeout, pageWaitRetry. (spec/10_token_serving.md R311, spec/10_token_serving.md
R312, spec/10_token_serving.md R313, spec/10_token_serving.md R314, spec/10_token_serving.md R327, spec/10_token_serving.md R328,
spec/10_token_serving.md R329, spec/10_token_serving.md R330, spec/10_token_serving.md R331, spec/10_token_serving.md R333,
spec/10_token_serving.md R334, spec/13_security_and_tenancy.md R413) -/
def Obligations.SequencesAreAdmittedControlledAndWait : Prop :=
  (∀ (s : State) (q : Nat) (c : W512) (l : CmdList) (rest : List CmdList), s.dev.Starts q 0x40 c → (s.dev.que q).lists = l :: rest →
    let d0 := s.dev.startCmd q c; let req := l.reqs.get l.index 0; let p := qParty q; let pt := s.dev.qPart q
    let ends (d : Dev) (st : B8) : Prop := ∃ t, exec (.request q) s = .next t ∧ t = s.withDev t.dev ∧ d.Ended t.dev q c l rest st 0
    (∀ e, d0.requestFault p pt req = some e → ends d0 e.status) ∧
    (d0.requestFault p pt req = none → (∀ d1 e, d0.readMem (s.dev.qView q) (bytesAt req 8 8) (4 * bytesAt req 0x10 4) = (d1, .error e) → ends (d1.modelFault e) e.status) ∧
      (∀ d1 b, d0.readMem (s.dev.qView q) (bytesAt req 8 8) (4 * bytesAt req 0x10 4) = (d1, .ok b) →
        let vocab := srvVocab (match d1.currentGen (slotNo pt (bytesAt req 0 1)) with | some g => g.manifest | none => [])
        ((∃ k ∈ codes32 b, vocab ≤ k) → ends d1 0x04) ∧
        (∀ r, (∀ k ∈ codes32 b, k < vocab) → d1.freeRecord = some r → ∃ (t : State) (d2 : Dev) (id : Nat) (x : Seq), exec (.request q) s = .next t ∧ t = s.withDev t.dev ∧
          d2.Ended t.dev q c l rest 0 (BitVec.ofNat 64 id) ∧ d1.takeRequest q r req (codes32 b) = (d2, id) ∧ d2.seq r = some x ∧ x.id = id ∧ id % 4096 = r ∧ x.tenant = p ∧ x.state = 0 ∧ x.req = req)))) ∧
  (∀ (s : State) (q : Nat) (c : W512) (l : CmdList) (rest : List CmdList), s.dev.Starts q 0x41 c → (s.dev.que q).lists = l :: rest → cmdArg c % 4 = 0 → let d0 := s.dev.startCmd q c; let found := d0.findSeq (bytesAt c 8 4)
    let ends (d : Dev) (st : B8) (w : W64) : Prop := ∃ t, exec (.seqCtlCancel q) s = .next t ∧ t = s.withDev t.dev ∧ d.Ended t.dev q c l rest st w
    ((∀ r x, found = some (r, x) → x.tenant ≠ qParty q ∨ x.state = 8) → ends d0 0x03 0) ∧
    (∀ r x, found = some (r, x) → x.tenant = qParty q → x.state ≠ 8 → (x.heldBy ≠ none → ends d0.drawn 0x01 0) ∧ (x.heldBy = none →
      (x.state = 1 → ends (d0.putSeq r (some { x with cancelPend := true })) 0 x.word) ∧
      (x.state ≠ 1 → q ∉ x.pausers → q ∉ x.resumers → ends (d0.endSeq r 4 0 0) 0 ({ x with state := 8, endReason := 4 } : Seq).word)))) ∧
  (∀ (s : State) (q : Nat) (c : W512) (l : CmdList) (rest : List CmdList), s.dev.Starts q 0x41 c → (s.dev.que q).lists = l :: rest → cmdArg c % 4 = 1 → let d0 := s.dev.startCmd q c; let found := d0.findSeq (bytesAt c 8 4)
    let ends (d : Dev) (st : B8) (w : W64) : Prop := ∃ t, exec (.seqCtlPause q) s = .next t ∧ t = s.withDev t.dev ∧ d.Ended t.dev q c l rest st w
    ((∀ r x, found = some (r, x) → x.tenant ≠ qParty q ∨ x.state = 8) → ends d0 0x03 0) ∧
    (∀ r x, found = some (r, x) → x.tenant = qParty q → x.state ≠ 8 → (x.heldBy ≠ none → ends d0.drawn 0x01 0) ∧ (x.heldBy = none →
      let y : Seq := { x with pauseTtl := bytesAt c 12 4, pauseTick := s.dev.tick }
      (x.state = 6 → ends d0 0x03 0) ∧
      (s.dev.sec.rngFail = true → x.state ≠ 6 → x.state ≠ 3 → x.state ≠ 4 → x.state ≠ 5 → ends d0.drawn 0x01 0) ∧
      (x.state = 4 ∨ x.state = 5 → ends (d0.putSeq r (some y)) 0 y.word) ∧
      (x.state = 3 → ends ((d0.putSeq r (some { y with state := 5 })).seqEntry { y with state := 5 }) 0 ({ y with state := 5 } : Seq).word) ∧
      (s.dev.sec.rngFail = false → x.state = 1 → exec (.seqCtlPause q) s = .next (s.withDev (d0.putSeq r (some { y with pausePend := true, pausers := x.pausers ++ [q] })))) ∧
      (s.dev.sec.rngFail = false → x.state ∉ [1, 3, 4, 5, 6] → exec (.seqCtlPause q) s = .next (s.withDev (d0.putSeq r (some { y with state := 4, pausers := x.pausers ++ [q], image := x.image.filter (fun im => !im.writing) }))))))) ∧
  (∀ (s : State) (q : Nat) (c : W512) (l : CmdList) (rest : List CmdList), s.dev.Starts q 0x41 c → (s.dev.que q).lists = l :: rest → cmdArg c % 4 = 2 → let d0 := s.dev.startCmd q c; let found := d0.findSeq (bytesAt c 8 4)
    let ends (d : Dev) (st : B8) (w : W64) : Prop := ∃ t, exec (.seqCtlResume q) s = .next t ∧ t = s.withDev t.dev ∧ d.Ended t.dev q c l rest st w
    ((∀ r x, found = some (r, x) → x.tenant ≠ qParty q ∨ x.state = 8) → ends d0 0x03 0) ∧
    (∀ r x, found = some (r, x) → x.tenant = qParty q → x.state ≠ 8 → (x.heldBy ≠ none → ends d0.drawn 0x01 0) ∧ (x.heldBy = none →
      (x.state = 5 ∨ x.state = 3 → exec (.seqCtlResume q) s = .next (s.withDev (d0.putSeq r (some { x with state := 6, resumers := x.resumers ++ [q] })))) ∧
      (x.state ≠ 5 → x.state ≠ 3 → ends d0 0x03 0)))) ∧
  (∀ (s : State) (r : Nat) (x : Seq), s.dev.seq r = some x → let d := s.dev
    (x.state ≠ 4 → exec (.pauseImageWritten r) s = .next s) ∧
    (x.state = 4 → ∀ d1 o, (match x.image with | some _ => (d.freeImaged r, .made) | none => d.makeImage r x.pauseNvme) = (d1, o) → (o = .noRoom → exec (.pauseImageWritten r) s = .next (s.withDev (d1.endSeq r 5 0x07 (detailOf 0xE8 0)))) ∧
      (o = .driveFailed → exec (.pauseImageWritten r) s = .next (s.withDev (d1.ctlFail r (if x.prefillOnly && x.promptDone then 7 else 0) x.pausers { status := 0x11, code := 0xB8 }))) ∧
      (o = .made → ∀ y, d1.seq r = some y → let v : Seq := { y with state := 5, pauseTick := d.tick, pausePend := false }
        exec (.pauseImageWritten r) s = .next (s.withDev (((d1.putSeq r (some v)).seqEntry v).ctlDone v.pausers v)))) ∧
    (∀ im, x.image = some im → im.writing = true → x.state = 0 ∨ x.state = 7 → d.sec.rngFail = false → ∀ d1 o, (d.putSeq r (some { x with image := none })).makeImage r true = (d1, o) →
      (o = .made → ∀ y, d1.seq r = some y → let v : Seq := { y with state := 3 }; let d2 := d1.putSeq r (some v)
        exec (.preemptImageWritten r) s = .next (s.withDev (({ d2 with tok := { d2.tok with flags := d2.tok.flags ||| 2, preemptCnt := satInc d2.tok.preemptCnt } } : Dev).seqEntry v))) ∧
      (o ≠ .made → exec (.preemptImageWritten r) s = .next (s.withDev d1))) ∧
    (x.image = none → exec (.preemptImageWritten r) s = .next s) ∧
    (x.state ≠ 6 → exec (.resumeRestored r) s = .next s) ∧
    (x.state = 6 → exec (.resumeRestored r) s = .next (s.withDev (d.restoreRun r x))) ∧
    (let im := x.image.getD {};
      (im.badTag = true → d.restoreRun r x = d.endSeq r 9 0x0D (detailOf 0xEA 0)) ∧
      (im.badTag = false → ∀ d0, ((if im.nvme then d.driveUse im.drive else (d, true)) = (d0, false) → d.restoreRun r x = d0.ctlFail r (if x.pauseTtl = 0 then 3 else 5) x.resumers { status := 0x11, code := 0xB8 }) ∧
        ((if im.nvme then d.driveUse im.drive else (d, true)) = (d0, true) → ∀ d1,
          (x.tenant < 64 → d0.unrestored x im.pages ≠ 0 → d0.cfg.tenKvQuota x.tenant < d0.kvHeld x.tenant + d0.unrestored x im.pages → d.restoreRun r x = d0.endSeq r 5 0x07 (detailOf 0xE8 0)) ∧
          (d0.kvHeld x.tenant + d0.unrestored x im.pages ≤ d0.cfg.tenKvQuota x.tenant → (d0.restoreAll r im.pages = .waits d1 ∨ d0.restoreAll r im.pages = .ended d1 → d.restoreRun r x = d1) ∧
            (d0.restoreAll r im.pages = .ok d1 → ∀ y, (d1.dropImage r).seq r = some y → let v : Seq := { y with pauseTtl := 0, state := if y.prefillOnly && y.promptDone then 7 else 0 }
              d.restoreRun r x = (((d1.dropImage r).putSeq r (some v)).seqEntry v).ctlDone v.resumers v))))) ∧
    (let k := x.tenant % 8; let due := x.pauseTick + 1000 * x.pauseTtl
      (x.state = 5 → d.atTick = true → due ≤ d.tick → d.coreOut k = false → exec (.pauseExpiry r) s =
        .next (s.withDev (((d.endSeq r 7 0x11 (detailOf 0xE9 0)).logRec k 0x8B x.tenant (unitHub 0 k) 0 x.id).deferred k x.tenant due))) ∧
      (x.state ≠ 5 ∨ d.atTick = false ∨ d.tick < due ∨ d.coreOut k = true → exec (.pauseExpiry r) s = .next s)) ∧
    (let due := x.waitSince.toNat + d.tok.pageWaitS * 1000000000; let d1 := d.endSeq r 5 0x07 (detailOf 0xE7 0)
      (x.state = 2 → d.tok.pageWaitS ≠ 0 → due ≤ d.time.toNat → exec (.pageWaitTimeout r) s = .next (s.withDev { d1 with tok := { d1.tok with flags := d1.tok.flags ||| 4, pageWaitCnt := satInc d1.tok.pageWaitCnt } })) ∧
      (x.state ≠ 2 ∨ d.tok.pageWaitS = 0 ∨ d.time.toNat < due → exec (.pageWaitTimeout r) s = .next s)) ∧
    (x.state ≠ 8 → x.pausers = [] → x.resumers = [] → (d.que x.qk).fifo.length < 1024 → ∀ reason st dt, (d.endSeq r reason st dt).seq r = none ∧ (d.endSeq r reason st dt).produced = d.produced + 1)) ∧
  (∀ (s : State) (p : Nat), let ws := (s.dev.partLive p).filter (fun e => decide (e.2.state = 2))
    (ws = [] → exec (.pageWaitRetry p) s = .next s) ∧
    (ws ≠ [] → ∃ r x, (r, x) ∈ ws ∧ (∀ y ∈ ws, x.below y.2 = false) ∧ (x.image ≠ none → exec (.pageWaitRetry p) s = .next (s.withDev (s.dev.restoreRun r x))) ∧
      (x.image = none → let w := s.dev.workOf x; ∀ n ms, takeMembers (s.dev.seqManifest x w.2) w.1 w.2 [(r, x)] = (r, n, x.tailOf w.2) :: ms →
        (∀ d1, s.dev.grow r w.2 (x.tailOf w.2) (x.tailOf w.2 + n) s.dev.growFuel = .ok d1 → exec (.pageWaitRetry p) s = .next (s.withDev (d1.modSeq r (fun v => { v with state := 0 })))) ∧
        (∀ d1, s.dev.grow r w.2 (x.tailOf w.2) (x.tailOf w.2 + n) s.dev.growFuel = .out d1 → exec (.pageWaitRetry p) s = .next (s.withDev d1)))))

/-- The token engine forms a batch from queued sequences, runs its segments, and its members commit in row order. While a batch runs, the clocks
stop or the package falls asleep no batch forms, and one that has formed waits for its turn among the Compute commands. With no sequence
QUEUED the first PREEMPTED one is restored. Otherwise the members that could be prepared are a batch of the kind, model and adapter of its
first candidate, with its program's first segment running where its turn has come; where that cannot be read the batch is gone again. A
batch whose program has ended with a failure ends its members with that status; a prefill hands on to its next segment; after the last one
every member commits and the partition has no batch. Every rebuild_ticks ticks the index is rebuilt from the most recent nodes and swapped
in at the next tick; a compaction copies pages to second places and builds the inactive copies of their lists, which flip together at the
next tick. Rows completed: batchStart, batchEnd, kvIndexRebuild, kvCompaction. (spec/09_attention_and_kv_cache.md R297,
spec/09_attention_and_kv_cache.md R298, spec/10_token_serving.md R316, spec/10_token_serving.md R317, spec/10_token_serving.md R318,
spec/10_token_serving.md R319, spec/10_token_serving.md R320, spec/10_token_serving.md R324, spec/10_token_serving.md R334,
spec/10_token_serving.md R338) -/
def Obligations.BatchesFormRunAndCommit : Prop :=
  (∀ (s : State) (p : Nat), let d := s.dev.endDegraded; let pt := d.part p; let pre := (d.partLive p).filter (fun e => decide (e.2.state = 3))
    let free := pt.batch = none ∧ d.clocked p = true ∧ d.pwr.entering = false ∧ d.pwr.state ≤ 1 ∧ d.cfg.partOn p = true
    (pt.batch = none → ¬ free → exec (.batchStart p) s = .next (s.withDev d)) ∧
    (∀ b, pt.batch = some b → (b.waits = false ∨ d.batchTurn p b = false ∨ d.clocked p = false → exec (.batchStart p) s = .next (s.withDev d)) ∧
      (b.waits = true → d.batchTurn p b = true → d.clocked p = true → let m := d.manifest (slotNo p b.slot) b.gen
        (∀ d1 f, d.servingOf p b.slot b.gen m = (d1, .error f) → exec (.batchStart p) s = .next (s.withDev (d1.failBatch p f.status (detailOf f.code f.val)))) ∧
        (∀ d1 es w e, d.servingOf p b.slot b.gen m = (d1, .ok (es, w)) → b.entry m es = some e →
          exec (.batchStart p) s = .next (s.withDev (d1.startSegment p b (d1.batchView p b.slot b.gen m b.members w) m e))))) ∧
    (free → d.ranked p = [] → pre = [] → exec (.batchStart p) s = .next (s.withDev d)) ∧
    (free → d.ranked p = [] → pre ≠ [] → ∃ e ∈ pre, exec (.batchStart p) s = .next (s.withDev (d.modSeq e.1 (fun v => { v with state := 6 })))) ∧
    (free → (∀ e ∈ pre, ∀ f ∈ d.ranked p, e.2.before f.2 = false) → ∀ e0 cs, let pf := (d.ranked p).filter (fun e => decide ((d.workOf e.2).1 = 0)); let dc := (d.ranked p).filter (fun e => decide ((d.workOf e.2).1 ≠ 0))
      (if pf.isEmpty then dc else if dc.isEmpty then pf else if pt.prefillSince < d.tok.prefillPerDecode then pf else dc) = e0 :: cs →
      let grp := d.groupOf e0.2; let kind := grp.1; let draft := grp.2.1; let slot := grp.2.2.1; let gen := grp.2.2.2.1; let m := d.manifest (slotNo p slot) gen
      ∀ d2 ms, d.prepare kind draft (srvVocab m) (takeMembers m kind draft ((e0 :: cs).filter (fun e => decide (d.groupOf e.2 = grp)))) = (d2, ms) →
        (ms = [] → exec (.batchStart p) s = .next (s.withDev d2)) ∧
        (ms ≠ [] → ∀ d3 f, d2.servingOf p slot gen m = (d3, .error f) → exec (.batchStart p) s = .next (s.withDev (ms.foldl (fun d x => d.endSeq x.1 8 f.status (detailOf f.code f.val)) d3))) ∧
        (ms ≠ [] → ∀ d3 es w e, d2.servingOf p slot gen m = (d3, .ok (es, w)) → let n : Nat := (ms.map (fun x => x.2.1)).sum
          let bucket := ((es.filter (fun e => decide (e.cls = 0) && decide (n ≤ e.rows))).map (fun e => e.rows)).foldl min (srvBatchRows m)
          (if kind = 0 then es.find? (fun e => decide (e.cls = 1) && decide (e.rows = bucket) && decide (e.segment = 0)) else es.find? (fun e => decide (e.cls = 0) && decide (e.rows = bucket))) = some e →
          ∃ t, exec (.batchStart p) s = .next t ∧ t = s.withDev t.dev ∧ ((t.dev.part p).batch = none ∨ ∃ b, (t.dev.part p).batch = some b ∧ b.kind = kind ∧ b.slot = slot ∧ b.gen = gen ∧ b.draft = draft ∧ b.segment = 0 ∧
            b.members.map (fun x => (x.1, x.2.1)) = ms.map (fun x => (x.1, x.2.1)) ∧ b.no = s.dev.submitted ∧ (b.waits = true ∧ b.prog = none ∨
              b.waits = false ∧ ∃ g, b.prog = some g ∧ g.partition = p ∧ g.mask = BitVec.ofNat 16 (s.dev.cfg.regionMask p) ∧ g.pcs = []))))) ∧
  (∀ (s : State) (p : Nat), let d := s.dev
    ((d.part p).batch = none → exec (.batchEnd p) s = .next (s.withDev d)) ∧
    (∀ b g, (d.part p).batch = some b → b.prog = some g →
      (g.over = false → exec (.batchEnd p) s = .next (s.withDev d)) ∧
      (∀ x, g.over = true → g.fail = some x → exec (.batchEnd p) s = .next (s.withDev (d.failBatch p x.2.1 x.2.2).endDegraded)) ∧
      (g.over = true → g.fail = none → let m := d.manifest (slotNo p b.slot) b.gen; ∀ d1 es w, d.servingOf p b.slot b.gen m = (d1, .ok (es, w)) → let v := d1.batchView p b.slot b.gen m b.members w
        let bucket := ((es.filter (fun e => decide (e.cls = 0) && decide ((b.members.map (fun x => x.2.1)).sum ≤ e.rows))).map (fun e => e.rows)).foldl min (srvBatchRows m)
        let seg (k : Nat) := es.find? (fun e => decide (e.cls = 1) && decide (e.rows = bucket) && decide (e.segment = k))
        let commits (d2 : Dev) : Prop := exec (.batchEnd p) s = .next (s.withDev ((((d2.unpin (slotNo p b.slot) b.gen).modPart p (fun x => { x with batch := none })).commitAll p b v m w b.members 0).endDegraded))
        (b.kind ≠ 0 → commits d1) ∧
        (b.kind = 0 → ∀ d2, (match seg b.segment with | some e => if e.scatter = 0xFF then (d1, none) else d1.scatterChunk b v m w e.scatter | none => (d1, none)) = (d2, (none : Option Fail)) →
          (seg (b.segment + 1) = none → commits d2) ∧
          (∀ e, seg (b.segment + 1) = some e → exec (.batchEnd p) s = .next (s.withDev (d2.startSegment p { b with segment := b.segment + 1, prog := none } v m e))))))) ∧
  (∀ (s : State) (p : Nat), let d := s.dev; let v := d.part p
    (d.coreOut 3 = true ∨ v.rebuildDue ≠ none ∨ (∃ k, v.rebuildTick = some k ∧ d.tick < k + d.kv.rebuildTicks) → exec (.kvIndexRebuild p) s = .next s) ∧
    (d.coreOut 3 = false → v.rebuildDue = none → (∀ k, v.rebuildTick = some k → k + d.kv.rebuildTicks ≤ d.tick) → ∃ t, exec (.kvIndexRebuild p) s = .next t ∧
      t = s.withDev { d with kv := { d.kv with nodes := t.dev.kv.nodes }, parts := t.dev.parts } ∧ t.dev.part p = { v with rebuildTick := some d.tick, rebuildDue := some (d.tick + 1) } ∧
      t.dev.kv.nodes.map (fun n => { n with shadow := false }) = d.kv.nodes.map (fun n => { n with shadow := false }) ∧
      t.dev.kv.nodes.filter (fun n => decide (n.partition ≠ p)) = d.kv.nodes.filter (fun n => decide (n.partition ≠ p)) ∧
      (d.kv.nodes.Nodup → (t.dev.kv.nodes.filter (fun n => decide (n.partition = p) && n.shadow)).length ≤ 2048 * d.partR p)) ∧
    (∀ k, v.rebuildDue = some k → ((d.swapIndex p).part p).rebuildDue = none ∧
      (d.swapIndex p).kv.nodes = d.kv.nodes.map (fun n => if n.partition = p then { n with indexed := n.shadow, shadow := n.indexed } else n)) ∧
    (d.kv.compactEighths = 0 ∨ 8 * d.partlyFree p ≤ d.kv.compactEighths * d.kvChunks p * 512 ∨ d.coreOut 3 = true ∨ v.compactDue ≠ none ∨ (∃ x ∈ d.kv.retired, x.1 = p) → exec (.kvCompaction p) s = .next s) ∧
    (d.kv.compactEighths ≠ 0 → d.kv.compactEighths * d.kvChunks p * 512 < 8 * d.partlyFree p → d.coreOut 3 = false → v.compactDue = none → (∀ x ∈ d.kv.retired, x.1 ≠ p) →
      (∀ i, d.kv.nextId ≤ i → d.kvPage i = none) → (d.kv.lists.map (fun e => e.1)).Nodup → ∃ t, exec (.kvCompaction p) s = .next t ∧ t = s.withDev t.dev ∧ t.dev.tok = d.tok ∧ t.dev.kv.nodes = d.kv.nodes ∧
        (t.dev.part p).compactDue = some (d.tick + 1) ∧ (∀ i g, d.kvPage i = some g → t.dev.kvPage i = some g) ∧ (∀ i l, d.kvList i = some l → ∃ o b, t.dev.kvList i = some { l with other := o, built := b })) ∧
    (∀ k, v.compactDue = some k → (d.kv.lists.map (fun e => e.1)).Nodup → ((d.flipLists p).part p).compactDue = none ∧ ∀ i l, d.kvList i = some l →
      (l.partition = p → l.built = true → (d.flipLists p).kvList i = some { l with pages := l.other, other := l.pages, sel := !l.sel, built := false, flipAt := d.time }) ∧
      (l.partition ≠ p ∨ l.built = false → (d.flipLists p).kvList i = some l)))

/-- BIND and UNBIND wait for the next frame start or chunk boundary; PARAM_COMMIT stages a block that passes its checks, or waits for a set. A
BIND of a free output or array is held with the command waiting and nothing else changed; of one that is bound it ends with 0x01; an array
takes output 0 and formats 0 and 1 only, else 0x08. An UNBIND of a live binding is held in it; any other ends with 0x01. At a frame start a
waiting BIND whose scaler is disabled, or does not give what the format takes, leaves the output free (0x08). A PARAM_COMMIT ends with the
status of a refused read; with 0x04 where the block breaks a field rule; with 0x08 where it changes a bound output; it waits while both sets
are bound to unfinished frames; else the block is staged and the result is the number of the next frame. Rows completed: bind, unbind,
paramCommit. (spec/04_work_engines_and_command_lists.md R116, spec/11_camera_pipeline.md R359, spec/11_camera_pipeline.md R361,
spec/12_audio_and_control_outputs.md R394) -/
def Obligations.MediaCommandsBindAndCommit : Prop :=
  (∀ (s : State) (q : Nat) (c : W512) (l : CmdList) (rest : List CmdList), (s.dev.que q).lists = l :: rest →
    let d0 := s.dev.startCmd q c; let n := cmdArg c % 128; let o := bytesAt c 8 1; let isArray := (cmdArg c).testBit 7
    let b : OutBind := { ring := bytesAt c 16 8, entries := bytesAt c 24 4, format := bytesAt c 9 1, bindQ := q }
    let ends (i : Instr) (st : B8) := ∃ t, exec i s = .next t ∧ t = s.withDev t.dev ∧ s.dev.Ended t.dev q c l rest st 0
    let live (x : OutBind) := x.pending = false ∧ x.unbind = none ∧ x.leaving = false
    (s.dev.Starts q 0x30 c → isArray = true → (o ≠ 0 ∨ 2 ≤ b.format → ends (.bind q) 0x08) ∧
      (o = 0 → b.format < 2 → (s.dev.array n).ring ≠ none → ends (.bind q) 0x01) ∧
      (o = 0 → b.format < 2 → (s.dev.array n).ring = none → exec (.bind q) s = .next (s.withDev (d0.modArray n (fun v => { v with ring := some b }))))) ∧
    (s.dev.Starts q 0x30 c → isArray = false → ((s.dev.camCtx n).out o ≠ none → ends (.bind q) 0x01) ∧
      ((s.dev.camCtx n).out o = none → exec (.bind q) s = .next (s.withDev (d0.modCtx n (fun v => { v with outs := v.outs.set o (some b) }))))) ∧
    (s.dev.Starts q 0x31 c → isArray = true → ((∀ x, (s.dev.array n).ring = some x → o = 0 → ¬ live x) → ends (.unbind q) 0x01) ∧
      (∀ x, (s.dev.array n).ring = some x → o = 0 → live x → exec (.unbind q) s = .next (s.withDev (d0.modArray n (fun v => { v with ring := some { x with unbind := some q } }))))) ∧
    (s.dev.Starts q 0x31 c → isArray = false → ((∀ x, (s.dev.camCtx n).out o = some x → ¬ live x) → ends (.unbind q) 0x01) ∧
      (∀ x, (s.dev.camCtx n).out o = some x → live x → exec (.unbind q) s = .next (s.withDev (d0.modCtx n (fun v => { v with outs := v.outs.set o (some { x with unbind := some q }) }))))) ∧
    (s.dev.Starts q 0x32 c →
      (∀ d1 e, d0.readMem (s.dev.qView q) (bytesAt c 8 8) 0xA80 = (d1, .error e) →
        ∃ t, exec (.paramCommit q) s = .next t ∧ t = s.withDev t.dev ∧ (d1.modelFault e).Ended t.dev q c l rest e.status 0) ∧
      (∀ d1 blk, d0.readMem (s.dev.qView q) (bytesAt c 8 8) 0xA80 = (d1, .ok blk) → ∃ t, exec (.paramCommit q) s = .next t ∧ t = s.withDev t.dev ∧
        let bad := blockFault blk (s.dev.cfg.ctxWidth n) (s.dev.cfg.ctxHeight n)
        (bad ≠ none → d1.Ended t.dev q c l rest 0x04 0) ∧
        (bad = none → s.dev.keepsOutputs n blk = false → d1.Ended t.dev q c l rest 0x08 0) ∧
        (bad = none → s.dev.keepsOutputs n blk = true → (s.dev.camCtx n).setsBusy = true → t.dev = d1.modCtx n (fun v => { v with commits := v.commits ++ [(q, blk)] })) ∧
        (bad = none → s.dev.keepsOutputs n blk = true → (s.dev.camCtx n).setsBusy = false →
          (d1.modCtx n (fun v => { v with staged := some blk })).Ended t.dev q c l rest 0 (BitVec.ofNat 64 ((s.dev.camCtx n).fsCount % 2 ^ 48)))))) ∧
  (∀ (d : Dev) (c o : Nat) (b : OutBind), let x := scaler (d.ctxParams c) o
    x.enable = false ∨ formatTakes b.format x.channels = false → ((d.bindNow c o b).camCtx c).out o = none)

/-- Frames start, their lines enter the pool, batches run in priority order, and a frame that is complete is delivered. At a frame start every
context of the port and virtual channel counts it and receives a new frame from line 0. A header that cannot be corrected is counted and
discarded; a packet of no context is counted; a line of the context enters the pool while there is room, and a line with a wrong checksum or
length drops the frame with its lines (reason 2). At the frame end the frame is dropped unless it had every line; one whose batches have run
is delivered: one more frame and its statistics. The batch of the context that the pipeline takes next runs the stages over its lines, and
the last one of an ended frame delivers it; another context's batch does not run. A port shows whether its receiver is locked. A port that
is not enabled receives nothing. Rows completed: csiFrameStart, csiFrameEnd, csiPortLock, csiLongPacket, pipelineBatch.
(spec/11_camera_pipeline.md R345, spec/11_camera_pipeline.md R346, spec/11_camera_pipeline.md R359, spec/11_camera_pipeline.md R365,
spec/11_camera_pipeline.md R366, spec/11_camera_pipeline.md R372, spec/11_camera_pipeline.md R374, spec/11_camera_pipeline.md R377,
spec/11_camera_pipeline.md R380) -/
def Obligations.CamerasReceiveLinesAndFrames : Prop :=
  (∀ (s : State) (port vc : Nat), s.dev.awake = true → s.dev.cfg.camPortOn port = true →
    (∃ t, exec (.csiFrameStart port vc) s = .next t ∧ t = s.withDev t.dev ∧ ∀ k ∈ s.dev.cfg.contextsOn port vc, let v := s.dev.camCtx k; let w := t.dev.camCtx k
      w.fsCount = v.fsCount + 1 ∧ w.active = true ∧ w.discard = false ∧ w.hdrs = 0 ∧
      ∃ f, w.inFlight.getLast? = some f ∧ f.no = v.fsCount % 2 ^ 48 ∧ f.fe = false ∧ f.lines = 0 ∧ f.done = 0 ∧ f.tStart = s.dev.time) ∧
    (∃ t, exec (.csiFrameEnd port vc) s = .next t ∧ t = s.withDev t.dev ∧ ∀ k ∈ s.dev.cfg.contextsOn port vc, let v := s.dev.camCtx k; let w := t.dev.camCtx k
      w.active = false ∧
      (∀ f, v.active = true → v.current = some f → f.lines ≠ s.dev.cfg.ctxHeight k →
        w.dropCnt = satInc v.dropCnt ∧ w.lastReason = 2 ∧ w.frames = v.frames ∧ ∀ g ∈ w.inFlight, g.no ≠ f.no) ∧
      (∀ f g, v.active = true → v.current = some f → f.lines = s.dev.cfg.ctxHeight k → v.inFlight.find? (fun x => decide (x.no = f.no)) = some g → g.done = s.dev.cfg.ctxHeight k →
        w.frames = v.frames + 1 ∧ w.stats.isSome = true ∧ ∀ g ∈ w.inFlight, g.no ≠ f.no)) ∧
    (∀ b, exec (.csiPortLock port b) s = .next (s.withDev { s.dev with cam := { s.dev.cam with locked := s.dev.cam.locked.set port b } })) ∧
    (∀ dt crc px, exec (.csiLongPacket port vc dt true crc px) s = .next (s.withDev { s.dev with cam := { s.dev.cam with
      portFlags := s.dev.cam.portFlags.set port (s.dev.cam.portFlags.get port 0 ||| 2), eccCnt := s.dev.cam.eccCnt.set port (satInc (s.dev.cam.eccCnt.get port 0)) } })) ∧
    (∀ dt crc px, (∀ k ∈ s.dev.cfg.contextsOn port vc, s.dev.cfg.ctxType k ≠ dt) → exec (.csiLongPacket port vc dt false crc px) s =
      .next (s.withDev { s.dev with cam := { s.dev.cam with unmatched := s.dev.cam.unmatched.set port (satInc (s.dev.cam.unmatched.get port 0)) } })) ∧
    (∀ dt crc px k f, (s.dev.cfg.contextsOn port vc).find? (fun k => decide (s.dev.cfg.ctxType k = dt)) = some k → let v := s.dev.camCtx k
      v.active = true → v.current = some f → v.discard = false → ∃ t, exec (.csiLongPacket port vc dt false crc px) s = .next t ∧ t = s.withDev t.dev ∧ let w := t.dev.camCtx k
        let need := cdiv (cdiv (px.length * rawBits dt) 8) 64 * 64
        (crc = true ∨ px.length ≠ s.dev.cfg.ctxWidth k → w.dropCnt = satInc v.dropCnt ∧ w.lastReason = 2 ∧ (∀ g ∈ w.inFlight, g.no ≠ f.no) ∧
          t.dev.cam.pool = s.dev.cam.pool.filter (fun x => decide (x.ctx ≠ k) || decide (x.frame ≠ f.no))) ∧
        (crc = false → px.length = s.dev.cfg.ctxWidth k → f.lines < s.dev.cfg.ctxHeight k → poolUse s.dev.cam.pool + need ≤ poolSize →
          t.dev.cam.pool = s.dev.cam.pool ++ [{ ctx := k, frame := f.no, num := f.lines, bytes := need, samples := px, time := s.dev.time }] ∧
          w.inFlight = v.inFlight.map (fun x => if x.no = f.no then { x with lines := x.lines + 1 } else x) ∧ w.dropCnt = v.dropCnt))) ∧
  (∀ (s : State) (port vc dt : Nat) (e c : Bool) (px : List W16), s.dev.awake = false ∨ s.dev.cfg.camPortOn port = false →
    exec (.csiFrameStart port vc) s = .next s ∧ exec (.csiFrameEnd port vc) s = .next s ∧ exec (.csiLongPacket port vc dt e c px) s = .next s ∧ exec (.csiPortLock port e) s = .next s) ∧
  (∀ (s : State) (k : Nat), (s.dev.awake = false ∨ s.dev.nextBatch ≠ some k → exec (.pipelineBatch k) s = .next s) ∧
    (∀ f n, s.dev.awake = true → s.dev.nextBatch = some k → s.dev.readyBatch k = some (f, n) → ∃ t, exec (.pipelineBatch k) s = .next t ∧ t = s.withDev t.dev ∧
      let v := s.dev.camCtx k; let w := t.dev.camCtx k; let c := s.dev.cfg
      let ls := s.dev.cam.pool.filter (fun x => decide (x.ctx = k) && decide (x.frame = f.no) && decide (x.num < f.done + n)); let kept := ls.length - n
      let r := runStages f.params (c.ctxMosaic k) (rawBits (c.ctxType k)) (c.ctxWidth k) (c.ctxHeight k) (f.done - kept) kept (ls.map (fun x => x.samples))
      (f.fe = true → f.done + n = c.ctxHeight k → w.frames = v.frames + 1 ∧ w.stats.isSome = true ∧ ∀ g ∈ w.inFlight, g.no ≠ f.no) ∧
      (f.fe = false ∨ f.done + n ≠ c.ctxHeight k → w.frames = v.frames ∧ ∃ g ∈ w.inFlight, g.no = f.no ∧ g.done = f.done + n ∧ g.rows = f.rows ++ r.final)))

/-- A fired list runs on its controller; its end sets the generation from its effect frame; a list that is not acknowledged stops. An idle
controller starts the list that fired first; a busy one, or one without lists, does not. The end of a list frees the bus. A list that is not
stamped changes no generation. A stamped one of a sensor whose reference track is not valid is kept until it is; on a valid track its
generation takes effect at the largest effect frame of its classes, after any that took effect before. A list that is not acknowledged frees
the bus, is counted, and where stamped leaves the frames from its first effect frame on uncertain. An in-band interrupt is not acknowledged
and is counted. Rows completed: i3cListRun, i3cListComplete, i3cNack, i3cIbiAttempt. (spec/11_camera_pipeline.md R367,
spec/11_camera_pipeline.md R368, spec/11_camera_pipeline.md R369, spec/11_camera_pipeline.md R370, spec/11_camera_pipeline.md R371,
spec/17_external_interfaces.md R534) -/
def Obligations.SensorListsRunAndSetGenerations : Prop :=
  ∀ (s : State) (n : Nat), let v := s.dev.i3c n; let put (w : I3c) := s.dev.modI3c n (fun _ => w)
    (∀ x rest, s.dev.awake = true → v.running = none → v.queue = x :: rest → exec (.i3cListRun n) s = .next (s.withDev (put { v with running := some x, queue := rest }))) ∧
    (s.dev.awake = false ∨ v.running ≠ none ∨ v.queue = [] → exec (.i3cListRun n) s = .next s) ∧
    (∀ ends, v.running = none → exec (.i3cListComplete n ends) s = .next s) ∧
    (∀ ends o b, v.running = some (o, b) → let d0 := put { v with running := none }; let k := listSensor b; let rc := s.dev.cfg.sensorRef k; let gen := BitVec.ofNat 32 (leAt b 4 4)
      (listStamped b = false → exec (.i3cListComplete n ends) s = .next (s.withDev d0)) ∧
      (listStamped b = true → (s.dev.camCtx rc).fsValid < 2 → ∃ t, exec (.i3cListComplete n ends) s = .next t ∧
        t = s.withDev { d0 with cam := { d0.cam with sensors := t.dev.cam.sensors } } ∧ (∀ j, j ≠ k → t.dev.sensor j = s.dev.sensor j) ∧
        (t.dev.sensor k).invalidGen = (s.dev.sensor k).invalidGen ++ [(gen, (s.dev.camCtx rc).fsCount)] ∧ (t.dev.sensor k).effects = (s.dev.sensor k).effects) ∧
      (listStamped b = true → 2 ≤ (s.dev.camCtx rc).fsValid → ∃ t e, exec (.i3cListComplete n ends) s = .next t ∧
        t = s.withDev { d0 with cam := { d0.cam with sensors := t.dev.cam.sensors } } ∧ (∀ j, j ≠ k → t.dev.sensor j = s.dev.sensor j) ∧
        (t.dev.sensor k).effects = (s.dev.sensor k).effects ++ [(BitVec.ofNat 64 e, gen, (s.dev.sensor k).order)] ∧ (t.dev.sensor k).order = (s.dev.sensor k).order + 1 ∧
        (t.dev.sensor k).stopped = none ∧
        let at_ (c : Nat) := match ends.find? (fun x => decide (x.1 = c)) with | some x => s.dev.cfg.classEffect k c x.2.1 x.2.2 | none => s.dev.cfg.classEffect k c (s.dev.camCtx rc).frameCount (s.dev.camLine rc)
        let cs := (List.range (leAt b 0 1)).map (listClass b)
        (∀ c ∈ cs, (at_ c).1 ≤ e) ∧ (cs ≠ [] → ∃ c ∈ cs, (at_ c).1 = e) ∧ (cs = [] → e = 0) ∧
        ((∃ c ∈ cs, (at_ c).2 = true) → (t.dev.sensor k).uncFrom.getLast? = some (BitVec.ofNat 64 (e - 1), BitVec.ofNat 64 (e - 1))))) ∧
    (∀ done last, v.running = none → exec (.i3cNack n done last) s = .next s) ∧
    (∀ done last o b, v.running = some (o, b) → ∃ t, exec (.i3cNack n done last) s = .next t ∧ t = s.withDev t.dev ∧
      t.dev.i3c n = { v with running := none, nack := true, nackCnt := satInc v.nackCnt } ∧ t.dev.time = s.dev.time ∧ t.dev.cfg = s.dev.cfg ∧ t.dev.queues = s.dev.queues ∧
      (∀ j, listStamped b = false ∨ j ≠ listSensor b → t.dev.sensor j = s.dev.sensor j) ∧
      (listStamped b = true → (s.dev.sensor (listSensor b)).stopped = none → let k := listSensor b; let rc := s.dev.cfg.sensorRef k; let at_ := last.getD ((s.dev.camCtx rc).frameCount, s.dev.camLine rc)
        (t.dev.sensor k).stopped = some (BitVec.ofNat 64 (if (s.dev.camCtx rc).fsValid < 2 then (s.dev.camCtx rc).fsCount else (s.dev.cfg.classEffect k (listClass b (done - 1)) at_.1 at_.2).1)))) ∧
    (s.dev.awake = true → n < 8 → exec (.i3cIbiAttempt n) s = .next (s.withDev (put { v with ibiNacks := v.ibiNacks + 1 }))) ∧
    (s.dev.awake = false ∨ 8 ≤ n → exec (.i3cIbiAttempt n) s = .next s)

/-- Audio packets and TDM frames store their samples at their domain index; a due frame of an array is processed and recorded. A packet of an
enabled stream on a port that is up is counted with those lost before it; it stores nothing while the PTP track has never been valid; one
that is too late for its frame is counted as late; any other stores each channel's samples from the index its timestamp names. A frame sync
of an enabled TDM port steps the port's track, and with a good period stores its slots; with a bad one, on a slave port, it is counted as an
error. A frame of an enabled array that is due is counted, with its gap, and leaves a record of 64 bytes; a chunk has its number of frames
and begins again. What is not enabled, or not due, changes nothing. Rows completed: aes67Packet, tdmFrameSync, audioFrame.
(spec/03_position_timebase.md R74, spec/12_audio_and_control_outputs.md R382, spec/12_audio_and_control_outputs.md R383,
spec/12_audio_and_control_outputs.md R384, spec/12_audio_and_control_outputs.md R385, spec/12_audio_and_control_outputs.md R386,
spec/12_audio_and_control_outputs.md R394, spec/12_audio_and_control_outputs.md R395, spec/12_audio_and_control_outputs.md R407,
spec/12_audio_and_control_outputs.md R408) -/
def Obligations.AudioIsReceivedAndFramed : Prop :=
  (∀ (s : State) (n : Nat) (seq : W16) (ts : W32) (bytes : List B8), let a := s.dev.aud; let c := s.dev.cfg; let on := s.dev.awake = true ∧ c.streamOn n = true ∧ (s.dev.ethPort (c.streamEth n)).up = true
    let gap := match a.rtpSeq.get n none with | some x => (seq - x - 1).toNat | none => 0
    let ix := (nearestPos (s.dev.streamIndex n) ts + c.mediaShift n).toNat; let w := if c.streamL24 n then 3 else 2; let ch := max 1 (c.streamChannels n)
    (¬ on → exec (.aes67Packet n seq ts bytes) s = .next s) ∧
    (on → ∃ t, exec (.aes67Packet n seq ts bytes) s = .next t ∧ t = s.withDev { s.dev with aud := t.dev.aud } ∧ let b := t.dev.aud
      b.lastPkt.get n 0 = s.dev.time + 1 ∧
      (gap < 0x8000 → b.lost.get n 0 = satAdd (a.lost.get n 0) gap ∧ b.rtpSeq.get n none = some seq) ∧ (0x8000 ≤ gap → b.lost = a.lost ∧ b.rtpSeq = a.rtpSeq) ∧
      (a.ptpEver = false → b.samples = a.samples ∧ b.late = a.late) ∧
      (a.ptpEver = true → dueAt ix (c.playout n) ≤ s.dev.mediaIndex → b.samples = a.samples ∧ b.late.get n false = true ∧ b.lateCnt.get n 0 = satInc (a.lateCnt.get n 0)) ∧
      (a.ptpEver = true → s.dev.mediaIndex < dueAt ix (c.playout n) → b.late = a.late ∧ b.lateCnt = a.lateCnt ∧
        ∀ k j, k < bytes.length / (w * ch) → j < ch → (b.samples.get (8 * n + j) []).get (ix + k) 0 = sampleF32 (8 * w) (beNat ((bytes.drop ((k * ch + j) * w)).take w))))) ∧
  (∀ (s : State) (p : Nat) (xs : List W32) (good : Bool), let a := s.dev.aud; let c := s.dev.cfg; let on := s.dev.awake = true ∧ c.tdmOn p = true
    (¬ on → exec (.tdmFrameSync p xs good) s = .next s) ∧
    (on → ∃ t, exec (.tdmFrameSync p xs good) s = .next t ∧ t = s.withDev t.dev ∧ let b := t.dev.aud; let ok := good = true ∨ c.tdmMaster p = true
      b.tdmSyncs.get p 0 = a.tdmSyncs.get p 0 + 1 ∧ b.tdmValid.get p false = true ∧ (b.tdmLocked.get p false = true ↔ ok) ∧
      (¬ ok → b.fsErr.get p false = true ∧ b.fsErrCnt.get p 0 = satInc (a.fsErrCnt.get p 0) ∧ b.samples = a.samples) ∧
      (ok → b.fsErr = a.fsErr ∧ b.fsErrCnt = a.fsErrCnt ∧ ∀ k x, k < 16 → xs[k]? = some x →
        (b.samples.get (0x8000 + 16 * p + k) []).get (if c.tdmMaster p then s.dev.mediaIndex else a.tdmSyncs.get p 0) 0 = sampleF32 (c.tdmBits p) x.toNat))) ∧
  (∀ (s : State) (n : Nat), let v := s.dev.array n; let c := s.dev.cfg; let link := c.arrayLink n; let now := s.dev.domainIndex n
    let f := if v.running then v.nextFrame else (now - 480 - link) / 480
    let due := s.dev.awake = true ∧ c.arrayOn n = true ∧ 480 * f + 480 + link ≤ now
    (¬ due → exec (.audioFrame n) s = .next s) ∧
    (due → ∃ t, exec (.audioFrame n) s = .next t ∧ t = s.withDev t.dev ∧ let w := t.dev.array n; let gap := s.dev.frameGap (c.arrayMicRefs n) f
      w.running = true ∧ w.frames = v.frames + 1 ∧ w.nextFrame = f + 1 ∧ w.chunkFrames = (if v.chunkFrames + 1 = max 1 (c.chunkFrames n) then 0 else v.chunkFrames + 1) ∧
      (∃ r, w.record = some r ∧ r.length = 64 ∧ leAt r 0 4 = 0x414F4451 ∧ leAt r 4 1 = n % 256 ∧ leAt r 8 8 = (480 * f + 480) % 2 ^ 64) ∧
      (gap = true → t.dev.aud.gap = true ∧ t.dev.aud.gapCnt = satInc s.dev.aud.gapCnt) ∧ (gap = false → t.dev.aud.gap = s.dev.aud.gap ∧ t.dev.aud.gapCnt = s.dev.aud.gapCnt)))

/-- Pulse programs end with their result and position, or at a limit input; UART programs run, capture and end. A pulse program whose last
segment has ended frees the channel, moves its position by the braking and its own steps, and writes status 0x00 and its own steps; one that
still moves, dwells or holds a level goes on. A limit input of the direction of motion ends it with status 0x01 and the steps issued, and is
counted and recorded; any other input changes nothing. An idle UART starts the program that fired first; a byte is stored in order while a
capture is open (after the last stop bit, before the timeout, not full), else discarded and counted; capture ends on its length or
terminator with 0x00, or 0x04 where a byte was bad, and on its timeout with 0x11; the result holds the number of bytes. Rows completed:
pulseProgramDone, limitInput, uartProgramRun, uartCaptureEnd, uartCaptureTimeout, uartRxByte. (spec/12_audio_and_control_outputs.md R400,
spec/12_audio_and_control_outputs.md R401, spec/12_audio_and_control_outputs.md R402, spec/12_audio_and_control_outputs.md R403,
spec/12_audio_and_control_outputs.md R404, spec/12_audio_and_control_outputs.md R405, spec/12_audio_and_control_outputs.md R409) -/
def Obligations.PulseAndUartProgramsEnd : Prop :=
  (∀ (s : State) (n : Nat), let v := s.dev.pulse n
    let fin (h : HeldProg) (moved : Int) (st : Nat) (own : Int) := (s.dev.modPulse n (fun _ => { v with running := none, pos := v.pos + BitVec.ofInt 64 moved, brake := 0, brakeV := 0, brakeD := 0, stepPin := false })).deviceWrite
      h.party (s.dev.partyPart h.party) (h.addr + 8) (pulseResult st own)
    (v.running = none → exec (.pulseProgramDone n) s = .next s) ∧
    (∀ h, v.running = some h → let ls := s.dev.cfg.legs n h.bytes; let own := (ls.map (fun g => g.steps)).sum
      let at_ := (s.dev.pulseTravel n).leg; let all := (s.dev.pulseLegs n h).length
      ((∃ g ∈ ls, g.hold = true) ∨ at_ < all → exec (.pulseProgramDone n) s = .next s) ∧
      (all ≤ at_ → exec (.pulseProgramDone n) s = .next (s.withDev (fin h (v.brake + own) 0 own)))) ∧
    (∀ pin, s.dev.cfg.gpioChannel pin = n → let k := s.dev.cfg.gpioFunction pin
      (v.running = none ∨ s.dev.awake = false ∨ s.dev.cfg.has 11 = false ∨ 48 ≤ pin ∨ (k ≠ 2 ∧ k ≠ 3) ∨ s.dev.pulseForward n ≠ decide (k = 3) → exec (.limitInput pin) s = .next s) ∧
      (∀ h, v.running = some h → s.dev.awake = true → s.dev.cfg.has 11 = true → pin < 48 → k = 2 ∨ k = 3 → s.dev.pulseForward n = decide (k = 3) →
        let e := (fin h (s.dev.pulseTravel n).steps 1 (s.dev.ownSteps n)).modPulse n (fun w => { w with limit := true, limitCnt := satInc w.limitCnt })
        (s.dev.cfg.pulseOwner n = none → exec (.limitInput pin) s = .next (s.withDev e)) ∧
        (∀ o, s.dev.cfg.pulseOwner n = some o → exec (.limitInput pin) s = .next (s.withDev (e.failRec o (unitHub 0x0E n) { status := 0x01, code := 0xFB })))))) ∧
  (∀ (s : State) (u : Nat), let v := s.dev.uart u; let put (w : Uart) := s.dev.modUart u (fun _ => w)
    (∀ h rest, s.dev.awake = true → v.running = none → v.queue = h :: rest → exec (.uartProgramRun u) s = .next (s.withDev (put { v with
      running := some h, queue := rest, start := s.dev.time, sent := (h.bytes.drop 64).take (uartSend h.bytes), captured := [], capErr := false, dePin := s.dev.cfg.uartDe u }))) ∧
    (s.dev.awake = false ∨ v.running ≠ none ∨ v.queue = [] → exec (.uartProgramRun u) s = .next s) ∧
    (v.running = none → exec (.uartCaptureEnd u) s = .next s ∧ exec (.uartCaptureTimeout u) s = .next s) ∧
    (∀ h, v.running = some h → let full := captureFull h.bytes v.captured; let sent := s.dev.uartSent u; let now := s.dev.time.toNat; let limit := sent + 1000 * leAt h.bytes 8 4
      sent = v.start.toNat + cdiv (leAt h.bytes 0 2 * s.dev.cfg.uartBits u * 1000000000) (s.dev.cfg.uartBaud u) ∧
      let fin (st : Nat) := (put { v with running := none, dePin := false, captured := [], capErr := false }).deviceWrite h.party (s.dev.partyPart h.party) (h.addr + 48)
        (leBytes 8 (st + 256 * v.captured.length + 2 ^ 63) ++ leBytes 8 s.dev.time.toNat)
      let bad := (fin 4).failRec h.party (unitHub 0x0F u) { status := 0x04, code := 0xFD }
      (full = true → exec (.uartCaptureTimeout u) s = .next s ∧ (now < sent → exec (.uartCaptureEnd u) s = .next s) ∧ (sent ≤ now → exec (.uartCaptureEnd u) s = .next (s.withDev (if v.capErr then bad else fin 0)))) ∧
      (full = false → exec (.uartCaptureEnd u) s = .next s ∧ (now < limit → exec (.uartCaptureTimeout u) s = .next s) ∧
        (limit ≤ now → exec (.uartCaptureTimeout u) s = .next (s.withDev (if v.capErr then bad else (fin 0x11).failRec h.party (unitHub 0x0F u) { status := 0x11, code := 0xFE }))))) ∧
    (∀ b err, s.dev.awake = false ∨ 4 ≤ u → exec (.uartRxByte u b err) s = .next s) ∧
    (∀ b err, s.dev.awake = true → u < 4 → let w := if err then { v with rxErr := true, rxErrCnt := satInc v.rxErrCnt } else v
      let sent := s.dev.uartSent u; let now := s.dev.time.toNat
      (v.running = none ∨ (∃ h, v.running = some h ∧ (captureFull h.bytes v.captured = true ∨ now < sent ∨ sent + 1000 * leAt h.bytes 8 4 ≤ now)) →
        exec (.uartRxByte u b err) s = .next (s.withDev (put { w with rxDrop := true, rxDropCnt := satInc v.rxDropCnt }))) ∧
      (∀ h, v.running = some h → captureFull h.bytes v.captured = false → sent ≤ now → now < sent + 1000 * leAt h.bytes 8 4 → exec (.uartRxByte u b err) s = .next (s.withDev
        (((put w).deviceWrite h.party (s.dev.partyPart h.party) (uartRecv h.bytes + v.captured.length) [b]).modUart u (fun x => { x with captured := x.captured ++ [b], capErr := x.capErr || err }))))))

/-- What a write stored is read back; every other byte of memory stays; on-chip buffers answer their owner only. A write inside one tile,
outside the slot windows, that the tile table takes is read back by its writer; every other byte of the tile reads as before, a byte of a
tile that nothing had mapped as 0; so does every byte of a mapped tile outside the NVMe tier, where no two tiles share a place. The write
leaves the memory in canonical form, and no two tiles in one place. Where it is refused, none of these bytes changes. Bytes written to an
on-chip buffer inside one tile are read back by the writer, and another party's read of them ends with status 0x03. What is read back is
stated for states that list no word, line or node with an error. (spec/07_memory_tiers.md R189, spec/07_memory_tiers.md R190,
spec/07_memory_tiers.md R191, spec/07_memory_tiers.md R198, spec/07_memory_tiers.md R200, spec/07_memory_tiers.md R217,
spec/05_matrix_engines_and_number_formats.md R139) -/
def Obligations.MemoryReadsBackWhatWasWritten : Prop :=
  (∀ (d e : Dev) (v : View) (a : Nat) (l : List B8), d.mem.phys.wf → d.NoMarks → a < 0x8000000000 → a % tileSize + l.length ≤ tileSize → d.writeIn v a l = (e, none) →
    (e.readIn v a l.length).2 = .ok l ∧ e.mem.phys.wf ∧
    (∀ b n, b / tileSize = a / tileSize → b + n ≤ a ∨ a + l.length ≤ b → b % tileSize + n ≤ tileSize → (e.readIn v b n).2 = (d.readIn v b n).2) ∧
    (d.PlacesApart → e.PlacesApart ∧ ∀ w b n t, d.keyAt w b ≠ d.keyAt v a → d.tile (d.keyAt w b) = some t → t.tier = 0 → b % tileSize + n ≤ tileSize →
      (e.readIn w b n).2 = (d.readIn w b n).2)) ∧
  (∀ (d e : Dev) (v : View) (a : Nat) (l : List B8) (f : Fail), d.writeIn v a l = (e, some f) → ∀ w b n t, d.tile (d.keyAt w b) = some t → t.tier = 0 → b % tileSize + n ≤ tileSize → (e.readIn w b n).2 = (d.readIn w b n).2) ∧
  (∀ (d : Dev) (p a : Nat) (l : List B8), d.mem.phys.wf → d.NoMarks → a % tileSize + l.length ≤ tileSize → let e := d.bufWrite p a l
    (e.bufRead p a l.length).2 = .ok l ∧ e.mem.phys.wf ∧ (∀ q, q ≠ p → l ≠ [] → (e.bufRead q a l.length).2 = .error { status := 0x03, code := 0x94, addr := a / tileSize * tileSize, space := 1 })) ∧
  State.reset.dev.PlacesApart
end

