-- ==== Sys2Proof/Laws/Table.lean ====
section
/-! SUPPORT. Laws of tables and byte memories: read after write, and the canonical form. -/
namespace Sys2Proof

variable {α : Type}

/-! ## Tables -/

@[simp] theorem Tbl.get_set_same (t : Tbl α) (k : Nat) (v e : α) : (t.set k v).get k e = v := by
  induction t with
  | nil => simp [Tbl.set, Tbl.get]
  | cons x r ih =>
    obtain ⟨i, w⟩ := x
    simp only [Tbl.set]
    split <;> rename_i h1
    · simp [Tbl.get]
    · split <;> rename_i h2
      · simp [Tbl.get]
      · simp [Tbl.get, h2, ih]

theorem Tbl.get_set_other (t : Tbl α) {k j : Nat} (h : k ≠ j) (v e : α) : (t.set k v).get j e = t.get j e := by
  induction t with
  | nil => simp [Tbl.set, Tbl.get, h]
  | cons x r ih =>
    obtain ⟨i, w⟩ := x
    simp only [Tbl.set]
    split <;> rename_i h1
    · simp [Tbl.get, h]
    · split <;> rename_i h2
      · subst h2; simp [Tbl.get, h]
      · simp [Tbl.get, ih]

/-! ## Byte memories -/

/-- Two writes of one entry are the last of them. -/
@[simp] theorem Tbl.set_set (t : Tbl α) (k : Nat) (v w : α) : (t.set k v).set k w = t.set k w := by
  induction t with
  | nil => simp [Tbl.set]
  | cons x r ih =>
    obtain ⟨i, u⟩ := x
    by_cases h : k < i
    · simp [Tbl.set, h]
    · by_cases e : i = k
      · subst e; simp [Tbl.set]
      · simp [Tbl.set, h, e, ih]

/-- Every address of `m` is above `a`. -/
theorem Memory.get_above {m : Memory} {a : Nat} (h : ∀ c ∈ m, a < c.1) : m.get a = 0 := by
  induction m with
  | nil => rfl
  | cons x r ih =>
    have hx := h x (by simp)
    simp only [Memory.get]
    rw [if_neg (by omega)]
    exact ih (fun c hc => h c (by simp [hc]))

theorem Memory.wf_nil : Memory.wf [] := by simp [Memory.wf]

theorem Memory.wf_tail {x : Host.Cell} {r : Memory} (h : Memory.wf (x :: r)) : Memory.wf r :=
  ⟨(List.pairwise_cons.mp h.1).2, fun c hc => h.2 c (by simp [hc])⟩

theorem Memory.put_mem {m : Memory} {a : Nat} {b : B8} {c : Host.Cell} (h : c ∈ m.put a b) : c ∈ m ∨ (c = (a, b) ∧ b ≠ 0) := by
  induction m with
  | nil => simp only [Memory.put] at h; split at h <;> simp_all
  | cons x r ih =>
    obtain ⟨i, w⟩ := x
    simp only [Memory.put] at h
    repeat' split at h
    all_goals simp_all
    all_goals tauto

theorem Memory.put_wf {m : Memory} (h : m.wf) (a : Nat) (b : B8) : (m.put a b).wf := by
  induction m with
  | nil => simp only [Memory.put]; split <;> simp_all [Memory.wf]
  | cons x r ih =>
    obtain ⟨i, w⟩ := x
    have hr := Memory.wf_tail h
    have hx := List.pairwise_cons.mp h.1
    have hw : w ≠ 0 := h.2 (i, w) (by simp)
    simp only [Memory.put]
    repeat' split
    · exact h
    · refine ⟨List.pairwise_cons.mpr ⟨?_, h.1⟩, ?_⟩
      · intro y hy
        rcases List.mem_cons.mp hy with rfl | hy
        · assumption
        · have := hx.1 y hy; simp at this; simp; omega
      · intro c hc
        rcases List.mem_cons.mp hc with rfl | hc
        · assumption
        · exact h.2 c hc
    · exact hr
    · subst_vars
      refine ⟨List.pairwise_cons.mpr ⟨hx.1, hr.1⟩, ?_⟩
      intro c hc
      rcases List.mem_cons.mp hc with rfl | hc
      · assumption
      · exact hr.2 c hc
    · refine ⟨List.pairwise_cons.mpr ⟨?_, (ih hr).1⟩, ?_⟩
      · intro y hy
        rcases Memory.put_mem hy with hy | ⟨rfl, _⟩
        · exact hx.1 y hy
        · simp; omega
      · intro c hc
        rcases List.mem_cons.mp hc with rfl | hc
        · exact hw
        · exact (ih hr).2 c hc

theorem Memory.get_put {m : Memory} (h : m.wf) (a : Nat) (b : B8) (x : Nat) : (m.put a b).get x = if x = a then b else m.get x := by
  induction m with
  | nil => grind [Memory.put, Memory.get]
  | cons y r ih =>
    obtain ⟨i, w⟩ := y
    have hr := Memory.wf_tail h
    have hx := List.pairwise_cons.mp h.1
    have abv : ∀ z, z ≤ i → Memory.get r z = 0 := fun z hz =>
      Memory.get_above (fun c hc => by have := hx.1 c hc; simp at this; omega)
    grind [Memory.put, Memory.get]

theorem Memory.write_wf {m : Memory} (h : m.wf) (a : Nat) (l : List B8) : (m.write a l).wf := by
  induction l generalizing m a with
  | nil => exact h
  | cons b r ih => exact ih (Memory.put_wf h a b) (a + 1)

/-- A byte after a write: the stored byte inside it, the old one outside. -/
theorem Memory.get_write {m : Memory} (h : m.wf) (a : Nat) (l : List B8) (x : Nat) :
    (m.write a l).get x = if a ≤ x ∧ x < a + l.length then l.getD (x - a) 0 else m.get x := by
  induction l generalizing m a with
  | nil => simp [Memory.write]
  | cons b r ih =>
    simp only [Memory.write, ih (Memory.put_wf h a b), Memory.get_put h, List.length_cons]
    by_cases h1 : x = a
    · subst h1; simp
    · by_cases h2 : a + 1 ≤ x ∧ x < a + 1 + r.length
      · rw [if_pos h2, if_pos (by omega)]
        obtain ⟨k, hk⟩ : ∃ k, x - a = k + 1 := ⟨x - a - 1, by omega⟩
        rw [hk, show x - (a + 1) = k by omega]; simp
      · rw [if_neg h2, if_neg h1, if_neg (by omega)]

theorem Memory.read_length (m : Memory) (a n : Nat) : (m.read a n).length = n := by simp [Memory.read]

theorem Memory.clear_wf {m : Memory} (h : m.wf) (a n : Nat) : (m.clear a n).wf :=
  ⟨h.1.filter _, fun c hc => h.2 c (List.mem_filter.mp hc).1⟩

theorem Memory.get_clear (m : Memory) (a n x : Nat) : (m.clear a n).get x = if a ≤ x ∧ x < a + n then 0 else m.get x := by
  induction m with
  | nil => simp [Memory.clear, Memory.get]
  | cons y r ih =>
    obtain ⟨i, w⟩ := y
    simp only [Memory.clear, List.filter_cons] at ih ⊢
    by_cases hk : i < a ∨ a + n ≤ i
    · rw [if_pos (by simpa using hk)]; grind [Memory.get]
    · rw [if_neg (by simpa using hk)]; grind [Memory.get]

theorem Memory.overlay_wf {m : Memory} (h : m.wf) (l : List Host.Cell) : (m.overlay l).wf := by
  unfold Memory.overlay
  induction l generalizing m with
  | nil => exact h
  | cons c r ih => exact ih (Memory.put_wf h c.1 c.2)

/-- `intRoot` rounds a square root down. -/
theorem rootFrom_spec (x k r : Nat) (h : r * r ≤ x) (h2 : x < (r + 2 ^ k) * (r + 2 ^ k)) :
    rootFrom x k r * rootFrom x k r ≤ x ∧ x < (rootFrom x k r + 1) * (rootFrom x k r + 1) := by
  induction k generalizing r with
  | zero => simpa [rootFrom] using And.intro h h2
  | succ k ih =>
    have e : r + 2 ^ (k + 1) = r + 2 ^ k + 2 ^ k := by omega
    unfold rootFrom
    split
    · next c => exact ih _ c (e ▸ h2)
    · next c => exact ih _ h (Nat.lt_of_not_le c)

theorem intRoot_spec (bits x : Nat) (h : x < 4 ^ bits) : intRoot bits x * intRoot bits x ≤ x ∧ x < (intRoot bits x + 1) * (intRoot bits x + 1) :=
  rootFrom_spec x bits 0 (Nat.zero_le _) (by
    have : (4 : Nat) ^ bits = 2 ^ bits * 2 ^ bits := by rw [← Nat.mul_pow]
    simpa [this] using h)

end Sys2Proof
end

