-- ==== Sys2Proof/Laws/State.lean ====
section
/-! SUPPORT. One lemma for each update of an entry and each part of the device: what it leaves and what it sets. -/
namespace Sys2Proof.Machine
open Sys2Proof

/-! ## modTen -/

@[simp] theorem Dev.modTen_time (d : Dev) (n : Nat) (f : Tenant → Tenant) : (d.modTen n f).time = d.time := rfl
@[simp] theorem Dev.modTen_cfg (d : Dev) (n : Nat) (f : Tenant → Tenant) : (d.modTen n f).cfg = d.cfg := rfl
@[simp] theorem Dev.modTen_mgmt (d : Dev) (n : Nat) (f : Tenant → Tenant) : (d.modTen n f).mgmt = d.mgmt := rfl
@[simp] theorem Dev.modTen_queues (d : Dev) (n : Nat) (f : Tenant → Tenant) : (d.modTen n f).queues = d.queues := rfl
@[simp] theorem Dev.modTen_parts (d : Dev) (n : Nat) (f : Tenant → Tenant) : (d.modTen n f).parts = d.parts := rfl
@[simp] theorem Dev.modTen_mem (d : Dev) (n : Nat) (f : Tenant → Tenant) : (d.modTen n f).mem = d.mem := rfl
@[simp] theorem Dev.modTen_mdl (d : Dev) (n : Nat) (f : Tenant → Tenant) : (d.modTen n f).mdl = d.mdl := rfl
@[simp] theorem Dev.modTen_tok (d : Dev) (n : Nat) (f : Tenant → Tenant) : (d.modTen n f).tok = d.tok := rfl
@[simp] theorem Dev.modTen_hostMem (d : Dev) (n : Nat) (f : Tenant → Tenant) : (d.modTen n f).hostMem = d.hostMem := rfl
@[simp] theorem Dev.modTen_produced (d : Dev) (n : Nat) (f : Tenant → Tenant) : (d.modTen n f).produced = d.produced := rfl
@[simp] theorem Dev.modTen_ten (d : Dev) (n : Nat) (f : Tenant → Tenant) : (d.modTen n f).ten n = f (d.ten n) := Tbl.get_set_same _ _ _ _
theorem Dev.modTen_ten_other (d : Dev) {n k : Nat} (h : n ≠ k) (f : Tenant → Tenant) : (d.modTen n f).ten k = d.ten k := Tbl.get_set_other _ h _ _
theorem Dev.modTen_modTen (d : Dev) (n : Nat) (f g : Tenant → Tenant) : (d.modTen n f).modTen n g = d.modTen n (fun v => g (f v)) := by
  simp [Dev.modTen, Dev.ten, Dev.putTen]

/-! ## modTrk -/

@[simp] theorem Dev.modTrk_time (d : Dev) (n : Nat) (f : Track → Track) : (d.modTrk n f).time = d.time := rfl
@[simp] theorem Dev.modTrk_cfg (d : Dev) (n : Nat) (f : Track → Track) : (d.modTrk n f).cfg = d.cfg := rfl
@[simp] theorem Dev.modTrk_tenants (d : Dev) (n : Nat) (f : Track → Track) : (d.modTrk n f).tenants = d.tenants := rfl
@[simp] theorem Dev.modTrk_mgmt (d : Dev) (n : Nat) (f : Track → Track) : (d.modTrk n f).mgmt = d.mgmt := rfl
@[simp] theorem Dev.modTrk_queues (d : Dev) (n : Nat) (f : Track → Track) : (d.modTrk n f).queues = d.queues := rfl
@[simp] theorem Dev.modTrk_parts (d : Dev) (n : Nat) (f : Track → Track) : (d.modTrk n f).parts = d.parts := rfl
@[simp] theorem Dev.modTrk_mem (d : Dev) (n : Nat) (f : Track → Track) : (d.modTrk n f).mem = d.mem := rfl
@[simp] theorem Dev.modTrk_mdl (d : Dev) (n : Nat) (f : Track → Track) : (d.modTrk n f).mdl = d.mdl := rfl
@[simp] theorem Dev.modTrk_tok (d : Dev) (n : Nat) (f : Track → Track) : (d.modTrk n f).tok = d.tok := rfl
@[simp] theorem Dev.modTrk_hostMem (d : Dev) (n : Nat) (f : Track → Track) : (d.modTrk n f).hostMem = d.hostMem := rfl
@[simp] theorem Dev.modTrk_produced (d : Dev) (n : Nat) (f : Track → Track) : (d.modTrk n f).produced = d.produced := rfl
@[simp] theorem Dev.modTrk_trk (d : Dev) (n : Nat) (f : Track → Track) : (d.modTrk n f).trk n = f (d.trk n) := Tbl.get_set_same _ _ _ _
theorem Dev.modTrk_trk_other (d : Dev) {n k : Nat} (h : n ≠ k) (f : Track → Track) : (d.modTrk n f).trk k = d.trk k := Tbl.get_set_other _ h _ _
theorem Dev.modTrk_modTrk (d : Dev) (n : Nat) (f g : Track → Track) : (d.modTrk n f).modTrk n g = d.modTrk n (fun v => g (f v)) := by
  simp [Dev.modTrk, Dev.trk]

/-! ## modTrg -/

@[simp] theorem Dev.modTrg_time (d : Dev) (n : Nat) (f : Trigger → Trigger) : (d.modTrg n f).time = d.time := rfl
@[simp] theorem Dev.modTrg_cfg (d : Dev) (n : Nat) (f : Trigger → Trigger) : (d.modTrg n f).cfg = d.cfg := rfl
@[simp] theorem Dev.modTrg_tenants (d : Dev) (n : Nat) (f : Trigger → Trigger) : (d.modTrg n f).tenants = d.tenants := rfl
@[simp] theorem Dev.modTrg_mgmt (d : Dev) (n : Nat) (f : Trigger → Trigger) : (d.modTrg n f).mgmt = d.mgmt := rfl
@[simp] theorem Dev.modTrg_queues (d : Dev) (n : Nat) (f : Trigger → Trigger) : (d.modTrg n f).queues = d.queues := rfl
@[simp] theorem Dev.modTrg_parts (d : Dev) (n : Nat) (f : Trigger → Trigger) : (d.modTrg n f).parts = d.parts := rfl
@[simp] theorem Dev.modTrg_mem (d : Dev) (n : Nat) (f : Trigger → Trigger) : (d.modTrg n f).mem = d.mem := rfl
@[simp] theorem Dev.modTrg_mdl (d : Dev) (n : Nat) (f : Trigger → Trigger) : (d.modTrg n f).mdl = d.mdl := rfl
@[simp] theorem Dev.modTrg_tok (d : Dev) (n : Nat) (f : Trigger → Trigger) : (d.modTrg n f).tok = d.tok := rfl
@[simp] theorem Dev.modTrg_hostMem (d : Dev) (n : Nat) (f : Trigger → Trigger) : (d.modTrg n f).hostMem = d.hostMem := rfl
@[simp] theorem Dev.modTrg_produced (d : Dev) (n : Nat) (f : Trigger → Trigger) : (d.modTrg n f).produced = d.produced := rfl
@[simp] theorem Dev.modTrg_trg (d : Dev) (n : Nat) (f : Trigger → Trigger) : (d.modTrg n f).trg n = f (d.trg n) := Tbl.get_set_same _ _ _ _
theorem Dev.modTrg_trg_other (d : Dev) {n k : Nat} (h : n ≠ k) (f : Trigger → Trigger) : (d.modTrg n f).trg k = d.trg k := Tbl.get_set_other _ h _ _
theorem Dev.modTrg_modTrg (d : Dev) (n : Nat) (f g : Trigger → Trigger) : (d.modTrg n f).modTrg n g = d.modTrg n (fun v => g (f v)) := by
  simp [Dev.modTrg, Dev.trg]

/-! ## modQue -/

@[simp] theorem Dev.modQue_time (d : Dev) (n : Nat) (f : Queue → Queue) : (d.modQue n f).time = d.time := rfl
@[simp] theorem Dev.modQue_cfg (d : Dev) (n : Nat) (f : Queue → Queue) : (d.modQue n f).cfg = d.cfg := rfl
@[simp] theorem Dev.modQue_tenants (d : Dev) (n : Nat) (f : Queue → Queue) : (d.modQue n f).tenants = d.tenants := rfl
@[simp] theorem Dev.modQue_mgmt (d : Dev) (n : Nat) (f : Queue → Queue) : (d.modQue n f).mgmt = d.mgmt := rfl
@[simp] theorem Dev.modQue_parts (d : Dev) (n : Nat) (f : Queue → Queue) : (d.modQue n f).parts = d.parts := rfl
@[simp] theorem Dev.modQue_mem (d : Dev) (n : Nat) (f : Queue → Queue) : (d.modQue n f).mem = d.mem := rfl
@[simp] theorem Dev.modQue_mdl (d : Dev) (n : Nat) (f : Queue → Queue) : (d.modQue n f).mdl = d.mdl := rfl
@[simp] theorem Dev.modQue_tok (d : Dev) (n : Nat) (f : Queue → Queue) : (d.modQue n f).tok = d.tok := rfl
@[simp] theorem Dev.modQue_hostMem (d : Dev) (n : Nat) (f : Queue → Queue) : (d.modQue n f).hostMem = d.hostMem := rfl
@[simp] theorem Dev.modQue_produced (d : Dev) (n : Nat) (f : Queue → Queue) : (d.modQue n f).produced = d.produced := rfl
@[simp] theorem Dev.modQue_que (d : Dev) (n : Nat) (f : Queue → Queue) : (d.modQue n f).que n = f (d.que n) := Tbl.get_set_same _ _ _ _
theorem Dev.modQue_que_other (d : Dev) {n k : Nat} (h : n ≠ k) (f : Queue → Queue) : (d.modQue n f).que k = d.que k := Tbl.get_set_other _ h _ _
theorem Dev.modQue_modQue (d : Dev) (n : Nat) (f g : Queue → Queue) : (d.modQue n f).modQue n g = d.modQue n (fun v => g (f v)) := by
  simp [Dev.modQue, Dev.que]

/-! ## modPart -/

@[simp] theorem Dev.modPart_time (d : Dev) (n : Nat) (f : PartState → PartState) : (d.modPart n f).time = d.time := rfl
@[simp] theorem Dev.modPart_cfg (d : Dev) (n : Nat) (f : PartState → PartState) : (d.modPart n f).cfg = d.cfg := rfl
@[simp] theorem Dev.modPart_tenants (d : Dev) (n : Nat) (f : PartState → PartState) : (d.modPart n f).tenants = d.tenants := rfl
@[simp] theorem Dev.modPart_mgmt (d : Dev) (n : Nat) (f : PartState → PartState) : (d.modPart n f).mgmt = d.mgmt := rfl
@[simp] theorem Dev.modPart_queues (d : Dev) (n : Nat) (f : PartState → PartState) : (d.modPart n f).queues = d.queues := rfl
@[simp] theorem Dev.modPart_mem (d : Dev) (n : Nat) (f : PartState → PartState) : (d.modPart n f).mem = d.mem := rfl
@[simp] theorem Dev.modPart_mdl (d : Dev) (n : Nat) (f : PartState → PartState) : (d.modPart n f).mdl = d.mdl := rfl
@[simp] theorem Dev.modPart_tok (d : Dev) (n : Nat) (f : PartState → PartState) : (d.modPart n f).tok = d.tok := rfl
@[simp] theorem Dev.modPart_hostMem (d : Dev) (n : Nat) (f : PartState → PartState) : (d.modPart n f).hostMem = d.hostMem := rfl
@[simp] theorem Dev.modPart_produced (d : Dev) (n : Nat) (f : PartState → PartState) : (d.modPart n f).produced = d.produced := rfl
@[simp] theorem Dev.modPart_part (d : Dev) (n : Nat) (f : PartState → PartState) : (d.modPart n f).part n = f (d.part n) := Tbl.get_set_same _ _ _ _
theorem Dev.modPart_part_other (d : Dev) {n k : Nat} (h : n ≠ k) (f : PartState → PartState) : (d.modPart n f).part k = d.part k := Tbl.get_set_other _ h _ _
theorem Dev.modPart_modPart (d : Dev) (n : Nat) (f g : PartState → PartState) : (d.modPart n f).modPart n g = d.modPart n (fun v => g (f v)) := by
  simp [Dev.modPart, Dev.part]

/-! ## modRegion -/

@[simp] theorem Dev.modRegion_time (d : Dev) (n : Nat) (f : RegionState → RegionState) : (d.modRegion n f).time = d.time := rfl
@[simp] theorem Dev.modRegion_cfg (d : Dev) (n : Nat) (f : RegionState → RegionState) : (d.modRegion n f).cfg = d.cfg := rfl
@[simp] theorem Dev.modRegion_tenants (d : Dev) (n : Nat) (f : RegionState → RegionState) : (d.modRegion n f).tenants = d.tenants := rfl
@[simp] theorem Dev.modRegion_mgmt (d : Dev) (n : Nat) (f : RegionState → RegionState) : (d.modRegion n f).mgmt = d.mgmt := rfl
@[simp] theorem Dev.modRegion_queues (d : Dev) (n : Nat) (f : RegionState → RegionState) : (d.modRegion n f).queues = d.queues := rfl
@[simp] theorem Dev.modRegion_parts (d : Dev) (n : Nat) (f : RegionState → RegionState) : (d.modRegion n f).parts = d.parts := rfl
@[simp] theorem Dev.modRegion_mem (d : Dev) (n : Nat) (f : RegionState → RegionState) : (d.modRegion n f).mem = d.mem := rfl
@[simp] theorem Dev.modRegion_mdl (d : Dev) (n : Nat) (f : RegionState → RegionState) : (d.modRegion n f).mdl = d.mdl := rfl
@[simp] theorem Dev.modRegion_tok (d : Dev) (n : Nat) (f : RegionState → RegionState) : (d.modRegion n f).tok = d.tok := rfl
@[simp] theorem Dev.modRegion_hostMem (d : Dev) (n : Nat) (f : RegionState → RegionState) : (d.modRegion n f).hostMem = d.hostMem := rfl
@[simp] theorem Dev.modRegion_produced (d : Dev) (n : Nat) (f : RegionState → RegionState) : (d.modRegion n f).produced = d.produced := rfl
@[simp] theorem Dev.modRegion_region (d : Dev) (n : Nat) (f : RegionState → RegionState) : (d.modRegion n f).region n = f (d.region n) := Tbl.get_set_same _ _ _ _
theorem Dev.modRegion_region_other (d : Dev) {n k : Nat} (h : n ≠ k) (f : RegionState → RegionState) : (d.modRegion n f).region k = d.region k := Tbl.get_set_other _ h _ _
theorem Dev.modRegion_modRegion (d : Dev) (n : Nat) (f g : RegionState → RegionState) : (d.modRegion n f).modRegion n g = d.modRegion n (fun v => g (f v)) := by
  simp [Dev.modRegion, Dev.region]

/-! ## modDie -/

@[simp] theorem Dev.modDie_time (d : Dev) (n : Nat) (f : DieState → DieState) : (d.modDie n f).time = d.time := rfl
@[simp] theorem Dev.modDie_cfg (d : Dev) (n : Nat) (f : DieState → DieState) : (d.modDie n f).cfg = d.cfg := rfl
@[simp] theorem Dev.modDie_tenants (d : Dev) (n : Nat) (f : DieState → DieState) : (d.modDie n f).tenants = d.tenants := rfl
@[simp] theorem Dev.modDie_mgmt (d : Dev) (n : Nat) (f : DieState → DieState) : (d.modDie n f).mgmt = d.mgmt := rfl
@[simp] theorem Dev.modDie_queues (d : Dev) (n : Nat) (f : DieState → DieState) : (d.modDie n f).queues = d.queues := rfl
@[simp] theorem Dev.modDie_parts (d : Dev) (n : Nat) (f : DieState → DieState) : (d.modDie n f).parts = d.parts := rfl
@[simp] theorem Dev.modDie_mem (d : Dev) (n : Nat) (f : DieState → DieState) : (d.modDie n f).mem = d.mem := rfl
@[simp] theorem Dev.modDie_mdl (d : Dev) (n : Nat) (f : DieState → DieState) : (d.modDie n f).mdl = d.mdl := rfl
@[simp] theorem Dev.modDie_tok (d : Dev) (n : Nat) (f : DieState → DieState) : (d.modDie n f).tok = d.tok := rfl
@[simp] theorem Dev.modDie_hostMem (d : Dev) (n : Nat) (f : DieState → DieState) : (d.modDie n f).hostMem = d.hostMem := rfl
@[simp] theorem Dev.modDie_produced (d : Dev) (n : Nat) (f : DieState → DieState) : (d.modDie n f).produced = d.produced := rfl
@[simp] theorem Dev.modDie_die (d : Dev) (n : Nat) (f : DieState → DieState) : (d.modDie n f).die n = f (d.die n) := Tbl.get_set_same _ _ _ _
theorem Dev.modDie_die_other (d : Dev) {n k : Nat} (h : n ≠ k) (f : DieState → DieState) : (d.modDie n f).die k = d.die k := Tbl.get_set_other _ h _ _
theorem Dev.modDie_modDie (d : Dev) (n : Nat) (f g : DieState → DieState) : (d.modDie n f).modDie n g = d.modDie n (fun v => g (f v)) := by
  simp [Dev.modDie, Dev.die]

/-! ## modStop -/

@[simp] theorem Dev.modStop_time (d : Dev) (n : Nat) (f : HaloStop → HaloStop) : (d.modStop n f).time = d.time := rfl
@[simp] theorem Dev.modStop_cfg (d : Dev) (n : Nat) (f : HaloStop → HaloStop) : (d.modStop n f).cfg = d.cfg := rfl
@[simp] theorem Dev.modStop_tenants (d : Dev) (n : Nat) (f : HaloStop → HaloStop) : (d.modStop n f).tenants = d.tenants := rfl
@[simp] theorem Dev.modStop_mgmt (d : Dev) (n : Nat) (f : HaloStop → HaloStop) : (d.modStop n f).mgmt = d.mgmt := rfl
@[simp] theorem Dev.modStop_queues (d : Dev) (n : Nat) (f : HaloStop → HaloStop) : (d.modStop n f).queues = d.queues := rfl
@[simp] theorem Dev.modStop_parts (d : Dev) (n : Nat) (f : HaloStop → HaloStop) : (d.modStop n f).parts = d.parts := rfl
@[simp] theorem Dev.modStop_mem (d : Dev) (n : Nat) (f : HaloStop → HaloStop) : (d.modStop n f).mem = d.mem := rfl
@[simp] theorem Dev.modStop_mdl (d : Dev) (n : Nat) (f : HaloStop → HaloStop) : (d.modStop n f).mdl = d.mdl := rfl
@[simp] theorem Dev.modStop_tok (d : Dev) (n : Nat) (f : HaloStop → HaloStop) : (d.modStop n f).tok = d.tok := rfl
@[simp] theorem Dev.modStop_hostMem (d : Dev) (n : Nat) (f : HaloStop → HaloStop) : (d.modStop n f).hostMem = d.hostMem := rfl
@[simp] theorem Dev.modStop_produced (d : Dev) (n : Nat) (f : HaloStop → HaloStop) : (d.modStop n f).produced = d.produced := rfl
@[simp] theorem Dev.modStop_stop (d : Dev) (n : Nat) (f : HaloStop → HaloStop) : (d.modStop n f).stop n = f (d.stop n) := Tbl.get_set_same _ _ _ _
theorem Dev.modStop_stop_other (d : Dev) {n k : Nat} (h : n ≠ k) (f : HaloStop → HaloStop) : (d.modStop n f).stop k = d.stop k := Tbl.get_set_other _ h _ _
theorem Dev.modStop_modStop (d : Dev) (n : Nat) (f g : HaloStop → HaloStop) : (d.modStop n f).modStop n g = d.modStop n (fun v => g (f v)) := by
  simp [Dev.modStop, Dev.stop]

/-! ## modCluster -/

@[simp] theorem Dev.modCluster_time (d : Dev) (n : Nat) (f : Cluster → Cluster) : (d.modCluster n f).time = d.time := rfl
@[simp] theorem Dev.modCluster_cfg (d : Dev) (n : Nat) (f : Cluster → Cluster) : (d.modCluster n f).cfg = d.cfg := rfl
@[simp] theorem Dev.modCluster_tenants (d : Dev) (n : Nat) (f : Cluster → Cluster) : (d.modCluster n f).tenants = d.tenants := rfl
@[simp] theorem Dev.modCluster_mgmt (d : Dev) (n : Nat) (f : Cluster → Cluster) : (d.modCluster n f).mgmt = d.mgmt := rfl
@[simp] theorem Dev.modCluster_queues (d : Dev) (n : Nat) (f : Cluster → Cluster) : (d.modCluster n f).queues = d.queues := rfl
@[simp] theorem Dev.modCluster_parts (d : Dev) (n : Nat) (f : Cluster → Cluster) : (d.modCluster n f).parts = d.parts := rfl
@[simp] theorem Dev.modCluster_mem (d : Dev) (n : Nat) (f : Cluster → Cluster) : (d.modCluster n f).mem = d.mem := rfl
@[simp] theorem Dev.modCluster_mdl (d : Dev) (n : Nat) (f : Cluster → Cluster) : (d.modCluster n f).mdl = d.mdl := rfl
@[simp] theorem Dev.modCluster_tok (d : Dev) (n : Nat) (f : Cluster → Cluster) : (d.modCluster n f).tok = d.tok := rfl
@[simp] theorem Dev.modCluster_hostMem (d : Dev) (n : Nat) (f : Cluster → Cluster) : (d.modCluster n f).hostMem = d.hostMem := rfl
@[simp] theorem Dev.modCluster_produced (d : Dev) (n : Nat) (f : Cluster → Cluster) : (d.modCluster n f).produced = d.produced := rfl
@[simp] theorem Dev.modCluster_cluster (d : Dev) (n : Nat) (f : Cluster → Cluster) : (d.modCluster n f).cluster n = f (d.cluster n) := Tbl.get_set_same _ _ _ _
theorem Dev.modCluster_cluster_other (d : Dev) {n k : Nat} (h : n ≠ k) (f : Cluster → Cluster) : (d.modCluster n f).cluster k = d.cluster k := Tbl.get_set_other _ h _ _
theorem Dev.modCluster_modCluster (d : Dev) (n : Nat) (f g : Cluster → Cluster) : (d.modCluster n f).modCluster n g = d.modCluster n (fun v => g (f v)) := by
  simp [Dev.modCluster, Dev.cluster]

/-! ## modPort -/

@[simp] theorem Dev.modPort_time (d : Dev) (n : Nat) (f : Port → Port) : (d.modPort n f).time = d.time := rfl
@[simp] theorem Dev.modPort_cfg (d : Dev) (n : Nat) (f : Port → Port) : (d.modPort n f).cfg = d.cfg := rfl
@[simp] theorem Dev.modPort_tenants (d : Dev) (n : Nat) (f : Port → Port) : (d.modPort n f).tenants = d.tenants := rfl
@[simp] theorem Dev.modPort_mgmt (d : Dev) (n : Nat) (f : Port → Port) : (d.modPort n f).mgmt = d.mgmt := rfl
@[simp] theorem Dev.modPort_queues (d : Dev) (n : Nat) (f : Port → Port) : (d.modPort n f).queues = d.queues := rfl
@[simp] theorem Dev.modPort_parts (d : Dev) (n : Nat) (f : Port → Port) : (d.modPort n f).parts = d.parts := rfl
@[simp] theorem Dev.modPort_mem (d : Dev) (n : Nat) (f : Port → Port) : (d.modPort n f).mem = d.mem := rfl
@[simp] theorem Dev.modPort_mdl (d : Dev) (n : Nat) (f : Port → Port) : (d.modPort n f).mdl = d.mdl := rfl
@[simp] theorem Dev.modPort_tok (d : Dev) (n : Nat) (f : Port → Port) : (d.modPort n f).tok = d.tok := rfl
@[simp] theorem Dev.modPort_hostMem (d : Dev) (n : Nat) (f : Port → Port) : (d.modPort n f).hostMem = d.hostMem := rfl
@[simp] theorem Dev.modPort_produced (d : Dev) (n : Nat) (f : Port → Port) : (d.modPort n f).produced = d.produced := rfl
@[simp] theorem Dev.modPort_port (d : Dev) (n : Nat) (f : Port → Port) : (d.modPort n f).port n = f (d.port n) := Tbl.get_set_same _ _ _ _
theorem Dev.modPort_port_other (d : Dev) {n k : Nat} (h : n ≠ k) (f : Port → Port) : (d.modPort n f).port k = d.port k := Tbl.get_set_other _ h _ _
theorem Dev.modPort_modPort (d : Dev) (n : Nat) (f g : Port → Port) : (d.modPort n f).modPort n g = d.modPort n (fun v => g (f v)) := by
  simp [Dev.modPort, Dev.port]

/-! ## modEth -/

@[simp] theorem Dev.modEth_time (d : Dev) (n : Nat) (f : EthPort → EthPort) : (d.modEth n f).time = d.time := rfl
@[simp] theorem Dev.modEth_cfg (d : Dev) (n : Nat) (f : EthPort → EthPort) : (d.modEth n f).cfg = d.cfg := rfl
@[simp] theorem Dev.modEth_tenants (d : Dev) (n : Nat) (f : EthPort → EthPort) : (d.modEth n f).tenants = d.tenants := rfl
@[simp] theorem Dev.modEth_mgmt (d : Dev) (n : Nat) (f : EthPort → EthPort) : (d.modEth n f).mgmt = d.mgmt := rfl
@[simp] theorem Dev.modEth_queues (d : Dev) (n : Nat) (f : EthPort → EthPort) : (d.modEth n f).queues = d.queues := rfl
@[simp] theorem Dev.modEth_parts (d : Dev) (n : Nat) (f : EthPort → EthPort) : (d.modEth n f).parts = d.parts := rfl
@[simp] theorem Dev.modEth_mem (d : Dev) (n : Nat) (f : EthPort → EthPort) : (d.modEth n f).mem = d.mem := rfl
@[simp] theorem Dev.modEth_mdl (d : Dev) (n : Nat) (f : EthPort → EthPort) : (d.modEth n f).mdl = d.mdl := rfl
@[simp] theorem Dev.modEth_tok (d : Dev) (n : Nat) (f : EthPort → EthPort) : (d.modEth n f).tok = d.tok := rfl
@[simp] theorem Dev.modEth_hostMem (d : Dev) (n : Nat) (f : EthPort → EthPort) : (d.modEth n f).hostMem = d.hostMem := rfl
@[simp] theorem Dev.modEth_produced (d : Dev) (n : Nat) (f : EthPort → EthPort) : (d.modEth n f).produced = d.produced := rfl
@[simp] theorem Dev.modEth_ethPort (d : Dev) (n : Nat) (f : EthPort → EthPort) : (d.modEth n f).ethPort n = f (d.ethPort n) := Tbl.get_set_same _ _ _ _
theorem Dev.modEth_ethPort_other (d : Dev) {n k : Nat} (h : n ≠ k) (f : EthPort → EthPort) : (d.modEth n f).ethPort k = d.ethPort k := Tbl.get_set_other _ h _ _
theorem Dev.modEth_modEth (d : Dev) (n : Nat) (f g : EthPort → EthPort) : (d.modEth n f).modEth n g = d.modEth n (fun v => g (f v)) := by
  simp [Dev.modEth, Dev.ethPort]

/-! ## modRtp -/

@[simp] theorem Dev.modRtp_time (d : Dev) (n : Nat) (f : RtpSt → RtpSt) : (d.modRtp n f).time = d.time := rfl
@[simp] theorem Dev.modRtp_cfg (d : Dev) (n : Nat) (f : RtpSt → RtpSt) : (d.modRtp n f).cfg = d.cfg := rfl
@[simp] theorem Dev.modRtp_tenants (d : Dev) (n : Nat) (f : RtpSt → RtpSt) : (d.modRtp n f).tenants = d.tenants := rfl
@[simp] theorem Dev.modRtp_mgmt (d : Dev) (n : Nat) (f : RtpSt → RtpSt) : (d.modRtp n f).mgmt = d.mgmt := rfl
@[simp] theorem Dev.modRtp_queues (d : Dev) (n : Nat) (f : RtpSt → RtpSt) : (d.modRtp n f).queues = d.queues := rfl
@[simp] theorem Dev.modRtp_parts (d : Dev) (n : Nat) (f : RtpSt → RtpSt) : (d.modRtp n f).parts = d.parts := rfl
@[simp] theorem Dev.modRtp_mem (d : Dev) (n : Nat) (f : RtpSt → RtpSt) : (d.modRtp n f).mem = d.mem := rfl
@[simp] theorem Dev.modRtp_mdl (d : Dev) (n : Nat) (f : RtpSt → RtpSt) : (d.modRtp n f).mdl = d.mdl := rfl
@[simp] theorem Dev.modRtp_tok (d : Dev) (n : Nat) (f : RtpSt → RtpSt) : (d.modRtp n f).tok = d.tok := rfl
@[simp] theorem Dev.modRtp_hostMem (d : Dev) (n : Nat) (f : RtpSt → RtpSt) : (d.modRtp n f).hostMem = d.hostMem := rfl
@[simp] theorem Dev.modRtp_produced (d : Dev) (n : Nat) (f : RtpSt → RtpSt) : (d.modRtp n f).produced = d.produced := rfl
@[simp] theorem Dev.modRtp_rtpSt (d : Dev) (n : Nat) (f : RtpSt → RtpSt) : (d.modRtp n f).rtpSt n = f (d.rtpSt n) := Tbl.get_set_same _ _ _ _
theorem Dev.modRtp_rtpSt_other (d : Dev) {n k : Nat} (h : n ≠ k) (f : RtpSt → RtpSt) : (d.modRtp n f).rtpSt k = d.rtpSt k := Tbl.get_set_other _ h _ _
theorem Dev.modRtp_modRtp (d : Dev) (n : Nat) (f g : RtpSt → RtpSt) : (d.modRtp n f).modRtp n g = d.modRtp n (fun v => g (f v)) := by
  simp [Dev.modRtp, Dev.rtpSt]

/-! ## modSlot -/

@[simp] theorem Dev.modSlot_time (d : Dev) (n : Nat) (f : Slot → Slot) : (d.modSlot n f).time = d.time := rfl
@[simp] theorem Dev.modSlot_cfg (d : Dev) (n : Nat) (f : Slot → Slot) : (d.modSlot n f).cfg = d.cfg := rfl
@[simp] theorem Dev.modSlot_tenants (d : Dev) (n : Nat) (f : Slot → Slot) : (d.modSlot n f).tenants = d.tenants := rfl
@[simp] theorem Dev.modSlot_mgmt (d : Dev) (n : Nat) (f : Slot → Slot) : (d.modSlot n f).mgmt = d.mgmt := rfl
@[simp] theorem Dev.modSlot_queues (d : Dev) (n : Nat) (f : Slot → Slot) : (d.modSlot n f).queues = d.queues := rfl
@[simp] theorem Dev.modSlot_parts (d : Dev) (n : Nat) (f : Slot → Slot) : (d.modSlot n f).parts = d.parts := rfl
@[simp] theorem Dev.modSlot_mem (d : Dev) (n : Nat) (f : Slot → Slot) : (d.modSlot n f).mem = d.mem := rfl
@[simp] theorem Dev.modSlot_tok (d : Dev) (n : Nat) (f : Slot → Slot) : (d.modSlot n f).tok = d.tok := rfl
@[simp] theorem Dev.modSlot_hostMem (d : Dev) (n : Nat) (f : Slot → Slot) : (d.modSlot n f).hostMem = d.hostMem := rfl
@[simp] theorem Dev.modSlot_produced (d : Dev) (n : Nat) (f : Slot → Slot) : (d.modSlot n f).produced = d.produced := rfl
@[simp] theorem Dev.modSlot_slot (d : Dev) (n : Nat) (f : Slot → Slot) : (d.modSlot n f).slot n = f (d.slot n) := Tbl.get_set_same _ _ _ _
theorem Dev.modSlot_slot_other (d : Dev) {n k : Nat} (h : n ≠ k) (f : Slot → Slot) : (d.modSlot n f).slot k = d.slot k := Tbl.get_set_other _ h _ _
theorem Dev.modSlot_modSlot (d : Dev) (n : Nat) (f g : Slot → Slot) : (d.modSlot n f).modSlot n g = d.modSlot n (fun v => g (f v)) := by
  simp [Dev.modSlot, Dev.slot]

/-! ## modCtx -/

@[simp] theorem Dev.modCtx_time (d : Dev) (n : Nat) (f : CamCtx → CamCtx) : (d.modCtx n f).time = d.time := rfl
@[simp] theorem Dev.modCtx_cfg (d : Dev) (n : Nat) (f : CamCtx → CamCtx) : (d.modCtx n f).cfg = d.cfg := rfl
@[simp] theorem Dev.modCtx_tenants (d : Dev) (n : Nat) (f : CamCtx → CamCtx) : (d.modCtx n f).tenants = d.tenants := rfl
@[simp] theorem Dev.modCtx_mgmt (d : Dev) (n : Nat) (f : CamCtx → CamCtx) : (d.modCtx n f).mgmt = d.mgmt := rfl
@[simp] theorem Dev.modCtx_queues (d : Dev) (n : Nat) (f : CamCtx → CamCtx) : (d.modCtx n f).queues = d.queues := rfl
@[simp] theorem Dev.modCtx_parts (d : Dev) (n : Nat) (f : CamCtx → CamCtx) : (d.modCtx n f).parts = d.parts := rfl
@[simp] theorem Dev.modCtx_mem (d : Dev) (n : Nat) (f : CamCtx → CamCtx) : (d.modCtx n f).mem = d.mem := rfl
@[simp] theorem Dev.modCtx_mdl (d : Dev) (n : Nat) (f : CamCtx → CamCtx) : (d.modCtx n f).mdl = d.mdl := rfl
@[simp] theorem Dev.modCtx_tok (d : Dev) (n : Nat) (f : CamCtx → CamCtx) : (d.modCtx n f).tok = d.tok := rfl
@[simp] theorem Dev.modCtx_hostMem (d : Dev) (n : Nat) (f : CamCtx → CamCtx) : (d.modCtx n f).hostMem = d.hostMem := rfl
@[simp] theorem Dev.modCtx_produced (d : Dev) (n : Nat) (f : CamCtx → CamCtx) : (d.modCtx n f).produced = d.produced := rfl
@[simp] theorem Dev.modCtx_camCtx (d : Dev) (n : Nat) (f : CamCtx → CamCtx) : (d.modCtx n f).camCtx n = f (d.camCtx n) := Tbl.get_set_same _ _ _ _
theorem Dev.modCtx_camCtx_other (d : Dev) {n k : Nat} (h : n ≠ k) (f : CamCtx → CamCtx) : (d.modCtx n f).camCtx k = d.camCtx k := Tbl.get_set_other _ h _ _
theorem Dev.modCtx_modCtx (d : Dev) (n : Nat) (f g : CamCtx → CamCtx) : (d.modCtx n f).modCtx n g = d.modCtx n (fun v => g (f v)) := by
  simp [Dev.modCtx, Dev.camCtx]

/-! ## modSensor -/

@[simp] theorem Dev.modSensor_time (d : Dev) (n : Nat) (f : Sensor → Sensor) : (d.modSensor n f).time = d.time := rfl
@[simp] theorem Dev.modSensor_cfg (d : Dev) (n : Nat) (f : Sensor → Sensor) : (d.modSensor n f).cfg = d.cfg := rfl
@[simp] theorem Dev.modSensor_tenants (d : Dev) (n : Nat) (f : Sensor → Sensor) : (d.modSensor n f).tenants = d.tenants := rfl
@[simp] theorem Dev.modSensor_mgmt (d : Dev) (n : Nat) (f : Sensor → Sensor) : (d.modSensor n f).mgmt = d.mgmt := rfl
@[simp] theorem Dev.modSensor_queues (d : Dev) (n : Nat) (f : Sensor → Sensor) : (d.modSensor n f).queues = d.queues := rfl
@[simp] theorem Dev.modSensor_parts (d : Dev) (n : Nat) (f : Sensor → Sensor) : (d.modSensor n f).parts = d.parts := rfl
@[simp] theorem Dev.modSensor_mem (d : Dev) (n : Nat) (f : Sensor → Sensor) : (d.modSensor n f).mem = d.mem := rfl
@[simp] theorem Dev.modSensor_mdl (d : Dev) (n : Nat) (f : Sensor → Sensor) : (d.modSensor n f).mdl = d.mdl := rfl
@[simp] theorem Dev.modSensor_tok (d : Dev) (n : Nat) (f : Sensor → Sensor) : (d.modSensor n f).tok = d.tok := rfl
@[simp] theorem Dev.modSensor_hostMem (d : Dev) (n : Nat) (f : Sensor → Sensor) : (d.modSensor n f).hostMem = d.hostMem := rfl
@[simp] theorem Dev.modSensor_produced (d : Dev) (n : Nat) (f : Sensor → Sensor) : (d.modSensor n f).produced = d.produced := rfl
@[simp] theorem Dev.modSensor_sensor (d : Dev) (n : Nat) (f : Sensor → Sensor) : (d.modSensor n f).sensor n = f (d.sensor n) := Tbl.get_set_same _ _ _ _
theorem Dev.modSensor_sensor_other (d : Dev) {n k : Nat} (h : n ≠ k) (f : Sensor → Sensor) : (d.modSensor n f).sensor k = d.sensor k := Tbl.get_set_other _ h _ _
theorem Dev.modSensor_modSensor (d : Dev) (n : Nat) (f g : Sensor → Sensor) : (d.modSensor n f).modSensor n g = d.modSensor n (fun v => g (f v)) := by
  simp [Dev.modSensor, Dev.sensor]

/-! ## modI3c -/

@[simp] theorem Dev.modI3c_time (d : Dev) (n : Nat) (f : I3c → I3c) : (d.modI3c n f).time = d.time := rfl
@[simp] theorem Dev.modI3c_cfg (d : Dev) (n : Nat) (f : I3c → I3c) : (d.modI3c n f).cfg = d.cfg := rfl
@[simp] theorem Dev.modI3c_tenants (d : Dev) (n : Nat) (f : I3c → I3c) : (d.modI3c n f).tenants = d.tenants := rfl
@[simp] theorem Dev.modI3c_mgmt (d : Dev) (n : Nat) (f : I3c → I3c) : (d.modI3c n f).mgmt = d.mgmt := rfl
@[simp] theorem Dev.modI3c_queues (d : Dev) (n : Nat) (f : I3c → I3c) : (d.modI3c n f).queues = d.queues := rfl
@[simp] theorem Dev.modI3c_parts (d : Dev) (n : Nat) (f : I3c → I3c) : (d.modI3c n f).parts = d.parts := rfl
@[simp] theorem Dev.modI3c_mem (d : Dev) (n : Nat) (f : I3c → I3c) : (d.modI3c n f).mem = d.mem := rfl
@[simp] theorem Dev.modI3c_mdl (d : Dev) (n : Nat) (f : I3c → I3c) : (d.modI3c n f).mdl = d.mdl := rfl
@[simp] theorem Dev.modI3c_tok (d : Dev) (n : Nat) (f : I3c → I3c) : (d.modI3c n f).tok = d.tok := rfl
@[simp] theorem Dev.modI3c_hostMem (d : Dev) (n : Nat) (f : I3c → I3c) : (d.modI3c n f).hostMem = d.hostMem := rfl
@[simp] theorem Dev.modI3c_produced (d : Dev) (n : Nat) (f : I3c → I3c) : (d.modI3c n f).produced = d.produced := rfl
@[simp] theorem Dev.modI3c_i3c (d : Dev) (n : Nat) (f : I3c → I3c) : (d.modI3c n f).i3c n = f (d.i3c n) := Tbl.get_set_same _ _ _ _
theorem Dev.modI3c_i3c_other (d : Dev) {n k : Nat} (h : n ≠ k) (f : I3c → I3c) : (d.modI3c n f).i3c k = d.i3c k := Tbl.get_set_other _ h _ _
theorem Dev.modI3c_modI3c (d : Dev) (n : Nat) (f g : I3c → I3c) : (d.modI3c n f).modI3c n g = d.modI3c n (fun v => g (f v)) := by
  simp [Dev.modI3c, Dev.i3c]

/-! ## modArray -/

@[simp] theorem Dev.modArray_time (d : Dev) (n : Nat) (f : ArrayState → ArrayState) : (d.modArray n f).time = d.time := rfl
@[simp] theorem Dev.modArray_cfg (d : Dev) (n : Nat) (f : ArrayState → ArrayState) : (d.modArray n f).cfg = d.cfg := rfl
@[simp] theorem Dev.modArray_tenants (d : Dev) (n : Nat) (f : ArrayState → ArrayState) : (d.modArray n f).tenants = d.tenants := rfl
@[simp] theorem Dev.modArray_mgmt (d : Dev) (n : Nat) (f : ArrayState → ArrayState) : (d.modArray n f).mgmt = d.mgmt := rfl
@[simp] theorem Dev.modArray_queues (d : Dev) (n : Nat) (f : ArrayState → ArrayState) : (d.modArray n f).queues = d.queues := rfl
@[simp] theorem Dev.modArray_parts (d : Dev) (n : Nat) (f : ArrayState → ArrayState) : (d.modArray n f).parts = d.parts := rfl
@[simp] theorem Dev.modArray_mem (d : Dev) (n : Nat) (f : ArrayState → ArrayState) : (d.modArray n f).mem = d.mem := rfl
@[simp] theorem Dev.modArray_mdl (d : Dev) (n : Nat) (f : ArrayState → ArrayState) : (d.modArray n f).mdl = d.mdl := rfl
@[simp] theorem Dev.modArray_tok (d : Dev) (n : Nat) (f : ArrayState → ArrayState) : (d.modArray n f).tok = d.tok := rfl
@[simp] theorem Dev.modArray_hostMem (d : Dev) (n : Nat) (f : ArrayState → ArrayState) : (d.modArray n f).hostMem = d.hostMem := rfl
@[simp] theorem Dev.modArray_produced (d : Dev) (n : Nat) (f : ArrayState → ArrayState) : (d.modArray n f).produced = d.produced := rfl
@[simp] theorem Dev.modArray_array (d : Dev) (n : Nat) (f : ArrayState → ArrayState) : (d.modArray n f).array n = f (d.array n) := Tbl.get_set_same _ _ _ _
theorem Dev.modArray_array_other (d : Dev) {n k : Nat} (h : n ≠ k) (f : ArrayState → ArrayState) : (d.modArray n f).array k = d.array k := Tbl.get_set_other _ h _ _
theorem Dev.modArray_modArray (d : Dev) (n : Nat) (f g : ArrayState → ArrayState) : (d.modArray n f).modArray n g = d.modArray n (fun v => g (f v)) := by
  simp [Dev.modArray, Dev.array]

/-! ## modPulse -/

@[simp] theorem Dev.modPulse_time (d : Dev) (n : Nat) (f : Pulse → Pulse) : (d.modPulse n f).time = d.time := rfl
@[simp] theorem Dev.modPulse_cfg (d : Dev) (n : Nat) (f : Pulse → Pulse) : (d.modPulse n f).cfg = d.cfg := rfl
@[simp] theorem Dev.modPulse_tenants (d : Dev) (n : Nat) (f : Pulse → Pulse) : (d.modPulse n f).tenants = d.tenants := rfl
@[simp] theorem Dev.modPulse_mgmt (d : Dev) (n : Nat) (f : Pulse → Pulse) : (d.modPulse n f).mgmt = d.mgmt := rfl
@[simp] theorem Dev.modPulse_queues (d : Dev) (n : Nat) (f : Pulse → Pulse) : (d.modPulse n f).queues = d.queues := rfl
@[simp] theorem Dev.modPulse_parts (d : Dev) (n : Nat) (f : Pulse → Pulse) : (d.modPulse n f).parts = d.parts := rfl
@[simp] theorem Dev.modPulse_mem (d : Dev) (n : Nat) (f : Pulse → Pulse) : (d.modPulse n f).mem = d.mem := rfl
@[simp] theorem Dev.modPulse_mdl (d : Dev) (n : Nat) (f : Pulse → Pulse) : (d.modPulse n f).mdl = d.mdl := rfl
@[simp] theorem Dev.modPulse_tok (d : Dev) (n : Nat) (f : Pulse → Pulse) : (d.modPulse n f).tok = d.tok := rfl
@[simp] theorem Dev.modPulse_hostMem (d : Dev) (n : Nat) (f : Pulse → Pulse) : (d.modPulse n f).hostMem = d.hostMem := rfl
@[simp] theorem Dev.modPulse_produced (d : Dev) (n : Nat) (f : Pulse → Pulse) : (d.modPulse n f).produced = d.produced := rfl
@[simp] theorem Dev.modPulse_pulse (d : Dev) (n : Nat) (f : Pulse → Pulse) : (d.modPulse n f).pulse n = f (d.pulse n) := Tbl.get_set_same _ _ _ _
theorem Dev.modPulse_pulse_other (d : Dev) {n k : Nat} (h : n ≠ k) (f : Pulse → Pulse) : (d.modPulse n f).pulse k = d.pulse k := Tbl.get_set_other _ h _ _
theorem Dev.modPulse_modPulse (d : Dev) (n : Nat) (f g : Pulse → Pulse) : (d.modPulse n f).modPulse n g = d.modPulse n (fun v => g (f v)) := by
  simp [Dev.modPulse, Dev.pulse]

/-! ## modUart -/

@[simp] theorem Dev.modUart_time (d : Dev) (n : Nat) (f : Uart → Uart) : (d.modUart n f).time = d.time := rfl
@[simp] theorem Dev.modUart_cfg (d : Dev) (n : Nat) (f : Uart → Uart) : (d.modUart n f).cfg = d.cfg := rfl
@[simp] theorem Dev.modUart_tenants (d : Dev) (n : Nat) (f : Uart → Uart) : (d.modUart n f).tenants = d.tenants := rfl
@[simp] theorem Dev.modUart_mgmt (d : Dev) (n : Nat) (f : Uart → Uart) : (d.modUart n f).mgmt = d.mgmt := rfl
@[simp] theorem Dev.modUart_queues (d : Dev) (n : Nat) (f : Uart → Uart) : (d.modUart n f).queues = d.queues := rfl
@[simp] theorem Dev.modUart_parts (d : Dev) (n : Nat) (f : Uart → Uart) : (d.modUart n f).parts = d.parts := rfl
@[simp] theorem Dev.modUart_mem (d : Dev) (n : Nat) (f : Uart → Uart) : (d.modUart n f).mem = d.mem := rfl
@[simp] theorem Dev.modUart_mdl (d : Dev) (n : Nat) (f : Uart → Uart) : (d.modUart n f).mdl = d.mdl := rfl
@[simp] theorem Dev.modUart_tok (d : Dev) (n : Nat) (f : Uart → Uart) : (d.modUart n f).tok = d.tok := rfl
@[simp] theorem Dev.modUart_hostMem (d : Dev) (n : Nat) (f : Uart → Uart) : (d.modUart n f).hostMem = d.hostMem := rfl
@[simp] theorem Dev.modUart_produced (d : Dev) (n : Nat) (f : Uart → Uart) : (d.modUart n f).produced = d.produced := rfl
@[simp] theorem Dev.modUart_uart (d : Dev) (n : Nat) (f : Uart → Uart) : (d.modUart n f).uart n = f (d.uart n) := Tbl.get_set_same _ _ _ _
theorem Dev.modUart_uart_other (d : Dev) {n k : Nat} (h : n ≠ k) (f : Uart → Uart) : (d.modUart n f).uart k = d.uart k := Tbl.get_set_other _ h _ _
theorem Dev.modUart_modUart (d : Dev) (n : Nat) (f g : Uart → Uart) : (d.modUart n f).modUart n g = d.modUart n (fun v => g (f v)) := by
  simp [Dev.modUart, Dev.uart]

/-! ## modCore -/

@[simp] theorem Dev.modCore_time (d : Dev) (n : Nat) (f : Core → Core) : (d.modCore n f).time = d.time := rfl
@[simp] theorem Dev.modCore_cfg (d : Dev) (n : Nat) (f : Core → Core) : (d.modCore n f).cfg = d.cfg := rfl
@[simp] theorem Dev.modCore_tenants (d : Dev) (n : Nat) (f : Core → Core) : (d.modCore n f).tenants = d.tenants := rfl
@[simp] theorem Dev.modCore_mgmt (d : Dev) (n : Nat) (f : Core → Core) : (d.modCore n f).mgmt = d.mgmt := rfl
@[simp] theorem Dev.modCore_queues (d : Dev) (n : Nat) (f : Core → Core) : (d.modCore n f).queues = d.queues := rfl
@[simp] theorem Dev.modCore_parts (d : Dev) (n : Nat) (f : Core → Core) : (d.modCore n f).parts = d.parts := rfl
@[simp] theorem Dev.modCore_mem (d : Dev) (n : Nat) (f : Core → Core) : (d.modCore n f).mem = d.mem := rfl
@[simp] theorem Dev.modCore_mdl (d : Dev) (n : Nat) (f : Core → Core) : (d.modCore n f).mdl = d.mdl := rfl
@[simp] theorem Dev.modCore_tok (d : Dev) (n : Nat) (f : Core → Core) : (d.modCore n f).tok = d.tok := rfl
@[simp] theorem Dev.modCore_hostMem (d : Dev) (n : Nat) (f : Core → Core) : (d.modCore n f).hostMem = d.hostMem := rfl
@[simp] theorem Dev.modCore_produced (d : Dev) (n : Nat) (f : Core → Core) : (d.modCore n f).produced = d.produced := rfl
@[simp] theorem Dev.modCore_core (d : Dev) (n : Nat) (f : Core → Core) : (d.modCore n f).core n = f (d.core n) := Tbl.get_set_same _ _ _ _
theorem Dev.modCore_core_other (d : Dev) {n k : Nat} (h : n ≠ k) (f : Core → Core) : (d.modCore n f).core k = d.core k := Tbl.get_set_other _ h _ _
theorem Dev.modCore_modCore (d : Dev) (n : Nat) (f g : Core → Core) : (d.modCore n f).modCore n g = d.modCore n (fun v => g (f v)) := by
  simp [Dev.modCore, Dev.core]

end Sys2Proof.Machine
end

