-- ==== Sys2Proof/Laws/Ops.lean ====
section
/-! SUPPORT. What each memory operation can do, said once: it changes the memory system and the count of version-tree failures only,
and it keeps the canonical form of the physical memory. -/
namespace Sys2Proof.Machine
open Sys2Proof

/-- `e` differs from `d` in the memory system and the version-tree failure count only, and its memory is canonical where `d`'s is. -/
def Dev.memOnly (d e : Dev) : Prop :=
  ∃ m b n, (d.mem.phys.wf → m.phys.wf) ∧ e = { d with mem := m, sec := { d.sec with treeFail := b, treeFailCnt := n } }

theorem memOnly_refl (d : Dev) : d.memOnly d := ⟨d.mem, d.sec.treeFail, d.sec.treeFailCnt, id, rfl⟩
theorem memOnly_trans {a b c : Dev} (h : a.memOnly b) (k : b.memOnly c) : a.memOnly c := by
  obtain ⟨m, x, n, p, rfl⟩ := h; obtain ⟨m', x', n', p', rfl⟩ := k; exact ⟨m', x', n', p' ∘ p, rfl⟩
theorem memOnly_same {d : Dev} {m : Mem} (h : d.mem.phys.wf → m.phys.wf) : d.memOnly { d with mem := m } := ⟨m, _, _, h, rfl⟩

theorem memOnly_after {a b : Dev} (h : a.memOnly b) {m : Mem} (k : b.mem.phys.wf → m.phys.wf) : a.memOnly { b with mem := m } :=
  memOnly_trans h (memOnly_same k)

theorem foldl_keeps {α β : Type} {P : α → Prop} {f : α → β → α} (hf : ∀ a b, P a → P (f a b)) (l : List β) {a : α} (h : P a) :
    P (l.foldl f a) := by
  induction l generalizing a with
  | nil => exact h
  | cons x r ih => exact ih (hf a x h)

/-- A fold of memory operations is a memory operation. -/
theorem memOnly_foldl {β : Type} {f : Dev → β → Dev} (hf : ∀ (a : Dev) (b : β), a.memOnly (f a b)) (l : List β) (d : Dev) : d.memOnly (l.foldl f d) :=
  foldl_keeps (P := d.memOnly) (fun a b h => memOnly_trans h (hf a b)) l (memOnly_refl d)

theorem Dev.driveUse_only (d : Dev) (drv : Nat) : d.memOnly (d.driveUse drv).1 := by
  simp only [Dev.driveUse]
  repeat' split
  all_goals first | exact memOnly_refl d | exact memOnly_same id

theorem Dev.driveCheck_only (d : Dev) (f : Nat) : d.memOnly (d.driveCheck f).1 := by
  have h := d.driveUse_only (driveOf f)
  simp only [Dev.driveCheck]
  split <;> rename_i hk <;> rw [hk] at h <;> exact h

theorem Dev.countUe_only (d : Dev) (n : Nat) : d.memOnly (d.countUe n) := memOnly_same id
theorem Dev.countLinkUe_only (d : Dev) : d.memOnly d.countLinkUe := memOnly_same id
theorem Dev.countMac_only (d : Dev) : d.memOnly d.countMac := memOnly_same id
theorem Dev.countTree_only (d : Dev) : d.memOnly d.countTree := ⟨_, _, _, id, rfl⟩

theorem Dev.countLinkCe_only (d : Dev) (a n : Nat) : d.memOnly (d.countLinkCe a n) := by
  simp only [Dev.countLinkCe]; split
  · exact memOnly_refl d
  · exact memOnly_same id

theorem Dev.readSram_only (d : Dev) (live : Nat → Bool) (a n : Nat) : d.memOnly (d.readSram live a n).1 := by
  simp only [Dev.readSram]
  repeat' split
  all_goals first
    | exact memOnly_refl d | exact memOnly_same id

theorem Dev.readPhys_only (d : Dev) (a n : Nat) : d.memOnly (d.readPhys a n).1 := by
  have h := d.countLinkCe_only a n
  simp only [Dev.readPhys]
  repeat' split
  all_goals first
    | exact d.readSram_only _ a n | exact memOnly_refl d | exact h
    | exact memOnly_trans h (Dev.countLinkUe_only _) | exact memOnly_trans h (Dev.countMac_only _) | exact memOnly_trans h (Dev.countTree_only _)

theorem Dev.writePhys_only (d : Dev) (a : Nat) (l : List B8) : d.memOnly (d.writePhys a l) := memOnly_same (fun h => Memory.write_wf h a l)
theorem Dev.copyPlace_only (d : Dev) (src dst : Nat) : d.memOnly (d.copyPlace src dst) :=
  memOnly_same (fun h => Memory.overlay_wf (Memory.clear_wf h _ _) _)
theorem Dev.clearPlace_only (d : Dev) (dst : Nat) : d.memOnly (d.clearPlace dst) := memOnly_same (fun h => Memory.clear_wf h _ _)
theorem Dev.sealBlocks_only (d : Dev) (dst : Nat) (ps : List (Nat × Nat)) : d.memOnly (d.sealBlocks dst ps) := by
  simp only [Dev.sealBlocks]; split
  · exact memOnly_refl d
  · exact memOnly_same id
theorem Dev.copyPieces_only (d : Dev) (src dst : Nat) (ps : List (Nat × Nat)) : d.memOnly (d.copyPieces src dst ps) := by
  simp only [Dev.copyPieces]; split
  · exact d.copyPlace_only src dst
  · exact memOnly_trans (memOnly_foldl (fun a b => a.writePhys_only _ _) ps d) (Dev.sealBlocks_only _ _ _)

theorem Dev.writeBack_only (d : Dev) (key : Nat) (v : Tile) : d.memOnly (d.writeBack key v) := by
  simp only [Dev.writeBack]
  refine memOnly_after (memOnly_foldl (fun a b => ?_) _ d) id
  have h := a.readPhys_only (slotDpa v.slot + 64 * b) 64
  split <;> rename_i hk <;> rw [hk] at h
  · exact memOnly_trans h (Dev.writePhys_only _ _ _)
  · exact h

theorem Dev.readPieces_only (d : Dev) (src : Nat) (ps : List (Nat × Nat)) : d.memOnly (d.readPieces src ps).1 := by
  simp only [Dev.readPieces]
  refine foldl_keeps (P := fun (s : Dev × Option Fail) => d.memOnly s.1) ?_ _ (memOnly_refl d)
  rintro ⟨e, r⟩ x h
  cases r with
  | some _ => exact h
  | none =>
    have h1 := e.readPhys_only (src + x.1) x.2
    simp only
    split <;> rename_i hk <;> rw [hk] at h1 <;> exact memOnly_trans h h1

theorem Dev.bringUp_only (d : Dev) (key : Nat) (v : Tile) (ps : List (Nat × Nat)) : d.memOnly (d.bringUp key v ps).1 := by
  simp only [Dev.bringUp]
  split
  · exact memOnly_refl d
  · split
    · exact memOnly_refl d
    · split
      · exact memOnly_refl d
      · rename_i f _
        have h1 := d.driveCheck_only v.frame
        split
        · rename_i h; rw [h] at h1; exact h1
        · rename_i d1 h; rw [h] at h1
          have h2 := d1.readPieces_only (v.frame * tileSize) ps
          split
          · rename_i h'; rw [h'] at h2; exact memOnly_trans h1 h2
          · rename_i d2 h'; rw [h'] at h2
            exact memOnly_trans (memOnly_trans (memOnly_trans h1 h2) (d2.copyPieces_only _ _ ps)) (memOnly_same id)

theorem Dev.readIn_only (d : Dev) (v : View) (a n : Nat) : d.memOnly (d.readIn v a n).1 := by
  simp only [Dev.readIn]
  split
  · exact memOnly_refl d
  · split
    · exact memOnly_refl d
    · rename_i t _
      split
      · exact memOnly_refl d
      · have h1 := d.bringUp_only (d.keyAt v a) t [(0, tileSize)]
        split
        · rename_i h; rw [h] at h1; exact h1
        · rename_i d1 h; rw [h] at h1
          split
          · exact h1
          · exact memOnly_trans h1 (d1.readPhys_only _ _)

theorem Dev.mapTile_only (d : Dev) (party k : Nat) : d.memOnly (d.mapTile party k).1 := by
  simp only [Dev.mapTile]
  repeat' split
  all_goals first
    | exact memOnly_refl d
    | exact memOnly_trans (d.clearPlace_only _) (memOnly_same id)

theorem Dev.storeTile_only (d : Dev) (k a : Nat) (l : List B8) (w : Tile) : d.memOnly (d.storeTile k a l w) := by
  simp only [Dev.storeTile]
  have h := d.writePhys_only (tileDpa w + a % tileSize) l
  repeat' split
  all_goals first | exact h | exact memOnly_trans h (memOnly_same id)

theorem Dev.writeIn_only (d : Dev) (v : View) (a : Nat) (l : List B8) : d.memOnly (d.writeIn v a l).1 := by
  simp only [Dev.writeIn]
  split
  · exact memOnly_refl d
  · split
    · exact memOnly_refl d
    · split
      · rename_i h
        split at h
        · simp at h
        · have h0 := d.mapTile_only v.party (d.keyAt v a); rw [h] at h0; exact h0
      · rename_i d1 h
        have h0 : d.memOnly d1 := by
          split at h
          · simp only [Prod.mk.injEq, and_true] at h; exact h ▸ memOnly_refl d
          · have h0 := d.mapTile_only v.party (d.keyAt v a); rw [h] at h0; exact h0
        split
        · exact h0
        · rename_i t _
          split
          · exact h0
          · split
            · exact h0
            · split
              · exact h0
              · have h1 := d1.bringUp_only (d.keyAt v a) t [(0, tileSize)]
                split
                · rename_i h; rw [h] at h1; exact memOnly_trans h0 h1
                · rename_i d2 h; rw [h] at h1
                  split
                  · exact memOnly_trans h0 h1
                  · exact memOnly_trans (memOnly_trans h0 h1) (d2.storeTile_only _ _ _ _)

theorem Dev.readMem_only (d : Dev) (v : View) (a n : Nat) : d.memOnly (d.readMem v a n).1 := by
  simp only [Dev.readMem]
  refine foldl_keeps (P := fun (s : Dev × Except Fail (List B8)) => d.memOnly s.1) ?_ _ (memOnly_refl d)
  rintro ⟨e, r⟩ x h
  cases r with
  | error _ => exact h
  | ok l =>
    have h1 := e.readIn_only v x.1 x.2
    simp only
    split <;> rename_i hk <;> rw [hk] at h1 <;> exact memOnly_trans h h1

theorem Dev.writeMem_only (d : Dev) (v : View) (a : Nat) (l : List B8) : d.memOnly (d.writeMem v a l).1 := by
  simp only [Dev.writeMem]
  refine foldl_keeps (P := fun (s : Dev × Option Fail) => d.memOnly s.1) ?_ _ (memOnly_refl d)
  rintro ⟨e, r⟩ x h
  cases r with
  | some _ => exact h
  | none => exact memOnly_trans h (e.writeIn_only v x.1 _)

theorem Dev.deviceWrite_only (d : Dev) (party p a : Nat) (l : List B8) : d.memOnly (d.deviceWrite party p a l) := d.writeMem_only _ _ _

theorem Dev.bufWrite_only (d : Dev) (party dpa : Nat) (l : List B8) : d.memOnly (d.bufWrite party dpa l) := by
  unfold Dev.bufWrite
  refine memOnly_foldl (fun e x => ?_) _ d
  exact memOnly_after (memOnly_trans (memOnly_foldl (fun e i => memOnly_same (fun h => Memory.clear_wf h _ _)) _ e) (Dev.writePhys_only _ _ _)) id

end Sys2Proof.Machine
end

