-- ==== Sys2Proof/Laws/Queue.lean ====
section
/-! SUPPORT. What records, completion entries, flags and progress registers of a party can change, said once. -/
namespace Sys2Proof.Machine
open Sys2Proof

/-- `e` differs from `d` in the window of party `p`, the management path, the memory system, the version-tree failure count, host
memory and the counters only. -/
def Dev.ringOnly (p : Nat) (d e : Dev) : Prop :=
  ∃ ten mg m b n hm pm, (∀ t, t ≠ p → Tbl.get ten t {} = d.ten t) ∧ (d.mem.phys.wf → m.phys.wf) ∧
    e = { d with tenants := ten, mgmt := mg, mem := m, sec := { d.sec with treeFail := b, treeFailCnt := n }, hostMem := hm, pmc := pm }

theorem ringOnly_refl (p : Nat) (d : Dev) : d.ringOnly p d := ⟨_, _, _, _, _, _, _, fun _ _ => rfl, id, rfl⟩
theorem ringOnly_trans {p : Nat} {a b c : Dev} (h : a.ringOnly p b) (k : b.ringOnly p c) : a.ringOnly p c := by
  obtain ⟨t, g, m, x, n, hm, pm, ht, hw, rfl⟩ := h
  obtain ⟨t', g', m', x', n', hm', pm', ht', hw', rfl⟩ := k
  exact ⟨t', g', m', x', n', hm', pm', fun u hu => (ht' u hu).trans (ht u hu), hw' ∘ hw, rfl⟩
theorem ringOnly_of_mem (p : Nat) {a b : Dev} (h : a.memOnly b) : a.ringOnly p b := by
  obtain ⟨m, x, n, hw, rfl⟩ := h; exact ⟨_, _, _, _, _, _, _, fun _ _ => rfl, hw, rfl⟩

theorem modTen_ring (d : Dev) (p : Nat) (f : Tenant → Tenant) : d.ringOnly p (d.modTen p f) :=
  ⟨_, _, _, _, _, _, _, fun _ ht => d.modTen_ten_other (Ne.symm ht) f, id, rfl⟩
theorem event_ring (d : Dev) (p k : Nat) : d.ringOnly p (d.event p k) := modTen_ring d p _
theorem hostWrite_ring (d : Dev) (p port a : Nat) (l : List B8) : d.ringOnly p (d.hostWrite port a l) :=
  ⟨_, _, _, _, _, _, _, fun _ _ => rfl, id, rfl⟩
theorem mgmt_ring (d : Dev) (p : Nat) (g : MgmtPath) : d.ringOnly p { d with mgmt := g } :=
  ⟨_, _, _, _, _, _, _, fun _ _ => rfl, id, rfl⟩
theorem pmc_ring (d : Dev) (p : Nat) (c : Pmc) : d.ringOnly p { d with pmc := c } :=
  ⟨_, _, _, _, _, _, _, fun _ _ => rfl, id, rfl⟩

theorem putProg_ring (d : Dev) (p slot : Nat) (v : Progress) : d.ringOnly p (d.putProg p slot v) := by
  unfold Dev.putProg
  split
  · exact modTen_ring d p _
  · exact mgmt_ring d p _

theorem showProgress_ring (d : Dev) (p slot kind value : Nat) : d.ringOnly p (d.showProgress p slot kind value) := by
  unfold Dev.showProgress
  dsimp only
  split
  · exact ringOnly_trans (putProg_ring d p _ _) (event_ring _ p 3)
  · exact putProg_ring d p _ _

theorem setProgress_ring (d : Dev) (p slot kind value : Nat) : d.ringOnly p (d.setProgress p slot kind value) := by
  unfold Dev.setProgress
  split
  · exact putProg_ring d p _ _
  · exact showProgress_ring d p _ _ _

theorem setBusy_ring (d : Dev) (p slot : Nat) (b : Bool) : d.ringOnly p (d.setBusy p slot b) := putProg_ring d p _ _

theorem globalRec_ring (d : Dev) (p : Nat) (r : ErrRec) : d.ringOnly p (d.globalRec r) := by
  unfold Dev.globalRec
  dsimp only
  split
  · exact mgmt_ring d p _
  · split
    · exact ringOnly_trans (hostWrite_ring d p _ _ _) (mgmt_ring _ p _)
    · exact mgmt_ring d p _

theorem tenantRec_ring (d : Dev) (p : Nat) (r : ErrRec) : d.ringOnly p (d.tenantRec p r) := by
  unfold Dev.tenantRec
  dsimp only
  split
  · exact ringOnly_refl p d
  · split
    · exact modTen_ring d p _
    · split
      · exact ringOnly_trans (ringOnly_trans (ringOnly_trans (ringOnly_of_mem p (d.deviceWrite_only _ _ _ _)) (hostWrite_ring _ p _ _ _)) (modTen_ring _ p _))
          (event_ring _ p 1)
      · exact ringOnly_trans (ringOnly_trans (ringOnly_of_mem p (d.deviceWrite_only _ _ _ _)) (modTen_ring _ p _)) (event_ring _ p 1)

theorem countUnit_ring (d : Dev) (p unit who : Nat) : d.ringOnly p (d.countUnit unit who) := by
  unfold Dev.countUnit; split
  · exact pmc_ring d p _
  · exact ringOnly_refl p d

/-- A record for party `r.tenant` (R129, R130). -/
theorem record_ring (d : Dev) (r : ErrRec) : d.ringOnly r.tenant (d.record r) := by
  unfold Dev.record
  refine ringOnly_trans (ringOnly_trans ?_ (globalRec_ring _ _ r)) (countUnit_ring _ _ _ _)
  split
  · exact tenantRec_ring d r.tenant r
  · exact ringOnly_refl _ d

theorem setCompl_ring (d : Dev) (p : Nat) (r : Ring) : d.ringOnly p (d.setCompl p r) := by
  unfold Dev.setCompl; split
  · exact modTen_ring d p _
  · exact mgmt_ring d p _

theorem putEntry_ring (d : Dev) (p : Nat) (e : Entry) : d.ringOnly p (d.putEntry p e) := by
  unfold Dev.putEntry
  dsimp only
  split
  · split
    · exact ringOnly_trans (ringOnly_trans (ringOnly_trans (ringOnly_of_mem p (d.deviceWrite_only _ _ _ _)) (hostWrite_ring _ p _ _ _)) (setCompl_ring _ p _))
        (event_ring _ p 0)
    · exact ringOnly_trans (ringOnly_trans (ringOnly_of_mem p (d.deviceWrite_only _ _ _ _)) (setCompl_ring _ p _)) (event_ring _ p 0)
  · exact ringOnly_trans (hostWrite_ring d p _ _ _) (setCompl_ring _ p _)

/-- A completion entry of queue `q` (R126): beside its party's ring it changes the count of entries produced, and queue `q`'s FIFO, or
what waits at its source, where the ring takes no entry. -/
theorem emit_cases (d : Dev) (q : Nat) (e : Entry) :
    ({ d with produced := d.produced + 1 } : Dev).ringOnly (qParty q) (d.emit q e) ∨
      ({ d with produced := d.produced + 1, queues := d.queues.set q ((d.que q).hold
          { e with time := d.time, engine := qEngine q, queue := qIndex q, order := d.produced, partition := if qIsMgmt q then d.qPart q else 0 }) } : Dev).ringOnly
        (qParty q) (d.emit q e) := by
  unfold Dev.emit
  dsimp only [Dev.qPart]
  generalize ({ e with time := d.time, engine := qEngine q, queue := qIndex q, order := d.produced, partition := if qIsMgmt q then (if qIsMgmt q then q / 32 - 64 else d.cfg.tenPart (q / 32)) else 0 } : Entry) = x
  split
  · exact .inl (putEntry_ring _ _ _)
  · refine .inr ?_
    split
    · exact event_ring _ (qParty q) 3
    · exact ringOnly_refl _ _

end Sys2Proof.Machine
end

