-- ==== Sys2Proof/Machine/Package.lean ====
section
/-! DEFINITION. Clocks, supply rails, pads, pin levels and balls (R538, 19_electrical_and_package.md), and the windows in the device
physical map (R542). Voltages are in mV, currents in mA, times in ns unless a name says otherwise. -/
namespace Sys2Proof.Machine
open Sys2Proof

/-! ## The windows in the device physical map (R542) -/

/-- Base of MMIO block group `g`. -/
def mmioBase (g : Nat) : Nat := 0x20000000000 + g * 0x4000000
/-- Device physical address of byte `off` of a party's window: group 0 holds the management window, group 1 the tenants' windows. -/
def windowDpa (party off : Nat) : Nat := if party < 64 then mmioBase 1 + party * 0x10000 + off else mmioBase 0 + off

/-! ## Clocks (R538, R560) -/

inductive Clock where
  | system | pcieEndpoint (n : Fin 4) | pcieRoot (n : Fin 2) | ethernet | rtc | fast
deriving DecidableEq, Repr
/-- Frequency in Hz and tolerance in ppm; the PCIe references have the tolerance of PCIe 5.0. -/
def Clock.hz : Clock → Nat
  | .system => 25000000 | .pcieEndpoint _ | .pcieRoot _ => 100000000 | .ethernet => 156250000 | .rtc => 32768 | .fast => 400000000
def Clock.ppm : Clock → Option Nat
  | .system => some 50 | .pcieEndpoint _ | .pcieRoot _ => none | .ethernet => some 100 | .rtc => some 100 | .fast => some 50000
/-- Whether a frequency of `mhz` thousandths of a Hz meets a clock's tolerance. -/
def Clock.within (c : Clock) (mhz : Nat) : Bool :=
  match c.ppm with
  | some p => decide (c.hz * (1000000 - p) ≤ mhz * 1000) && decide (mhz * 1000 ≤ c.hz * (1000000 + p))
  | none => true
/-- The device drives the root port references and its own fast oscillator; the others come from outside. -/
def Clock.driven : Clock → Bool
  | .pcieRoot _ | .fast => true
  | .system | .pcieEndpoint _ | .ethernet | .rtc => false
/-- Largest RMS jitter in fs, where R560 gives one. -/
def Clock.jitterFs : Clock → Option Nat
  | .system => some 1000 | .ethernet => some 300
  | .pcieEndpoint _ | .pcieRoot _ | .rtc | .fast => none

/-! ## Rails (R548-R554) -/

inductive Rail where
  | cd (d : Fin 4) | hub | vdd2Lp | vddqLp | sd | sdHigh | csi | aon | ioAon | io18 | ioGpio
deriving DecidableEq, Repr
def Rail.all : List Rail := [.cd 0, .cd 1, .cd 2, .cd 3, .hub, .vdd2Lp, .vddqLp, .sd, .sdHigh, .csi, .aon, .ioAon, .io18, .ioGpio]
/-- Nominal voltages (R549); a compute die's rail has none of its own: the device sets it. -/
def Rail.nominal : Rail → List Nat
  | .cd _ => [] | .hub | .sd => [800] | .vdd2Lp => [1050] | .vddqLp => [500] | .sdHigh | .csi => [1200] | .aon => [750]
  | .ioAon | .ioGpio => [1800, 3300] | .io18 => [1800]
/-- Tolerance in percent. -/
def Rail.percent : Rail → Nat
  | .cd _ | .hub | .vdd2Lp | .vddqLp | .sd | .sdHigh | .csi | .aon => 3
  | .ioAon | .io18 | .ioGpio => 5
/-- Typical current at TDP, and the largest. -/
def Rail.typical : Rail → Nat
  | .cd _ => 50000 | .hub => 36000 | .vdd2Lp => 8000 | .vddqLp => 10000 | .sd => 10000 | .sdHigh => 3000 | .csi => 1000 | .aon => 10
  | .ioAon => 5 | .io18 => 150 | .ioGpio => 50
def Rail.largest : Rail → Nat
  | .cd _ => 75000 | .hub => 50000 | .vdd2Lp => 12000 | .vddqLp => 16000 | .sd => 13000 | .sdHigh => 4000 | .csi => 1600 | .aon => 50
  | .ioAon => 20 | .io18 => 400 | .ioGpio => 500
/-- Largest voltage that does not stress the device; the least is -300 mV for each (R548). -/
def Rail.absMax : Rail → Nat
  | .cd _ => 1100 | .hub | .sd | .aon => 950 | .vddqLp => 650 | .vdd2Lp => 1200 | .sdHigh | .csi => 1350 | .io18 => 2000 | .ioGpio | .ioAon => 3630
/-- Whether the monitor of R553 takes a rail at `mv` as failed, its setpoint or chosen nominal voltage being `set`: 0.68 V for VDD_AON,
35 mV below the setpoint for a compute die, the lower tolerance limit for the others. -/
def Rail.trips (r : Rail) (set mv : Nat) : Bool :=
  match r with
  | .aon => decide (mv < 680)
  | .cd _ => decide (mv + 35 < set)
  | .hub | .vdd2Lp | .vddqLp | .sd | .sdHigh | .csi | .ioAon | .io18 | .ioGpio => decide (mv * 100 < set * (100 - r.percent))
/-- How long a rail must stay below its limit (R553), the drop that R550 allows, and for how long. -/
def railFilterNs : Nat := 2000
def loadStepMv : Nat := 30
def loadStepMa : Nat := 45000
/-- The order of power-up: a step starts when every rail of the step before has passed 90 % (R552); within step 5 VDDQ_LP follows
VDD2_LP. RESET_L is low until step 6, at least 1 ms later. -/
def powerUpSteps : List (List Rail) :=
  [[.aon, .ioAon], [.io18, .ioGpio], [.hub], [.cd 0, .cd 1, .cd 2, .cd 3], [.vdd2Lp, .vddqLp, .sd, .sdHigh, .csi]]
def resetHoldNs : Nat := 1000000
/-- Rails stay below 10 % this long before the next power-up (R554). -/
def powerOffNs : Nat := 10000000

/-- AVSBus limits of a regulator: clock in Hz, least and largest setpoint, slew in mV/us, time to report (R551). -/
def avsHz : Nat := 20000000
def avsRange : Nat × Nat := (500, 1000)
def avsSlew : Nat := 10
def avsReportNs : Nat := 80000
/-- Setpoint of VDD_CDk: 0.80 V until boot lock, 0.55 V in Dusk and Night, else that of R495 (R551, R559). -/
def Dev.cdSetpoint (d : Dev) (k : Nat) : Nat :=
  if d.boot.stage ≠ 6 then 800 else if 1 < d.pwr.state then 550 else 500 + 5 * (d.die k).vcode.toNat

/-! ## Pins (R556-R559) -/

/-- The least low pulse that a reset pin takes; WAKE_L has to be low at two AON edges (R556). -/
def resetFilterNs : Nat := 10000
def perstFilterNs : Nat := 1000
def wakeEdges : Nat := 2

/-- Largest low and least high input of a bank, in mV, at a rail voltage (R558); the standards of the other banks are outside the spec. -/
def PinBank.inLevels (b : PinBank) (vio : Nat) : Option (Nat × Nat) :=
  match b with
  | .xspi | .jtag | .avs => some (vio * 35 / 100, vio * 65 / 100)
  | .gpio | .pulse | .uart | .tdm => some (if vio = 3300 then (800, 2000) else (vio * 35 / 100, vio * 65 / 100))
  | .reset | .wake | .smbAddr => some (vio * 30 / 100, vio * 70 / 100)
  | .perst => some (600, 1200)
  | .i3c | .thermtrip | .smbus | .pcie | .ethernet | .csi | .lp5x => none
/-- Largest low and least high output at the bank's load; an open-drain bank drives low only. -/
def PinBank.outLevels (b : PinBank) (vio : Nat) : Option (Nat × Option Nat) :=
  match b with
  | .xspi | .jtag | .avs => some (450, some (vio - 450))
  | .gpio | .pulse | .uart | .tdm => some (if vio = 3300 then (400, some 2400) else (450, some (vio - 450)))
  | .thermtrip | .smbus => some (400, none)
  | .reset | .wake | .smbAddr | .perst | .i3c | .pcie | .ethernet | .csi | .lp5x => none
/-- Inputs that tolerate 3.63 V while their rail is off. -/
def PinBank.failSafe : PinBank → Bool
  | .reset | .wake | .smbAddr | .thermtrip | .smbus | .perst => true
  | .xspi | .jtag | .avs | .i3c | .gpio | .pulse | .uart | .tdm | .pcie | .ethernet | .csi | .lp5x => false

/-- THERMTRIP_L is asserted from the trip until power-on (R505, R557). -/
def Dev.thermtripLow (d : Dev) : Bool := d.boot.thermtrip
/-- What a pad shows. -/
inductive PadLevel where
  | low | high | floating | pulledDown | noPull
deriving DecidableEq, Repr
inductive Pad where
  | step | de | dir | uartTx | gpio | tdm | xspiReset | xspiCs | i3c | avs | thermtrip | smbAlert | resetIn | wakeIn | perstIn
deriving DecidableEq, Repr
/-- Pads while RESET_L is low and until boot lock (R559). -/
def Dev.padInBoot (d : Dev) (resetLow : Bool) : Pad → PadLevel
  | .step | .de | .avs => .low
  | .dir | .uartTx | .gpio | .tdm => .pulledDown
  | .xspiReset => if resetLow || decide (d.boot.stage < 2) then .low else .high
  | .xspiCs => .high
  | .i3c => .floating
  | .thermtrip => if d.boot.thermtrip then .low else .floating
  | .smbAlert => if d.pwr.alert then .low else .floating
  | .resetIn | .wakeIn | .perstIn => .noPull

/-! ## Balls (R561-R566) -/

/-- The 49 signals of an LP5X channel's block (R562). -/
def lpBlock : List (List String) :=
  [["DQ0", "DQ1", "VSS", "DQ2", "DQ3", "DMI0", "VDDQ"], ["DQ4", "DQ5", "RDQS0_T", "RDQS0_C", "DQ6", "DQ7", "VSS"],
   ["WCK0_T", "WCK0_C", "VSS", "CK_T", "CK_C", "VSS", "VDDQ"], ["CA0", "CA1", "CA2", "CA3", "CA4", "CA5", "CA6"],
   ["CS0", "CS1", "RESET_L", "VSS", "WCK1_T", "WCK1_C", "VDD2"], ["DQ8", "DQ9", "RDQS1_T", "RDQS1_C", "DQ10", "DQ11", "VSS"],
   ["DQ12", "DQ13", "VSS", "DQ14", "DQ15", "DMI1", "VDDQ"]]
def numbered (a : String) (n : Nat) (b : String) : String := a ++ toString n ++ b
def lpBall (c i j : Nat) : String :=
  match (lpBlock.getD i []).getD j "VSS" with
  | "VSS" => "VSS"
  | "VDDQ" => "VDDQ_LP"
  | "VDD2" => "VDD2_LP"
  | x => numbered "LP_" c "_" ++ x
/-- Port and lane of SerDes slot `k` of tier `t` (R563). -/
def serdesLane (t k dir : Nat) : String :=
  let d := if dir = 0 then "_TX_L" else "_RX_L"
  if 12 ≤ k then numbered "ETH_" t d ++ toString (k - 12)
  else if t = 0 then numbered "PCIE_" (k / 4) d ++ toString (k % 4)
  else if k < 4 then numbered "PCIE_" 3 d ++ toString k
  else numbered "PCIE_RP_" (k / 4 - 1) d ++ toString (k % 4)
def polarity (n : Nat) : String := if n = 0 then "_P" else "_N"
/-- The top region, rows 1 to 14; `x` counts its columns from 0. -/
def topBall (r x : Nat) : String :=
  if (r = 1 ∨ r = 3 ∨ r = 5 ∨ r = 7) ∧ x < 28 then serdesLane ((r - 1) / 4) (x / 2) ((r - 1) % 4 / 2) ++ polarity (x % 2)
  else if r = 9 ∧ x % 4 < 2 ∧ x < 16 then numbered "PCIE_" (x / 4) "_REFCLK" ++ polarity (x % 4)
  else if r = 9 ∧ x % 4 < 2 ∧ x < 24 then numbered "PCIE_RP_" ((x - 16) / 4) "_REFCLK" ++ polarity (x % 4)
  else if r = 9 ∧ (x = 24 ∨ x = 25) then "ETH_REFCLK" ++ polarity (x - 24)
  else if r = 10 ∧ x < 4 then numbered "PCIE_PERST_" x "_L"
  else if r = 11 ∧ x < 12 then numbered "AVS_" (x / 3) (["_CLK", "_MDATA", "_SDATA"].getD (x % 3) "")
  else if r = 12 then "VDD_SD"
  else if r = 14 then "VDDH_SD"
  else "VSS"
/-- The centre (R566): VDD_HUB on its cross, a compute die's rail on the even balls of its quadrant. -/
def centreBall (r c : Nat) : String :=
  if r = 29 ∨ c = 29 then "VDD_HUB"
  else if (r + c) % 2 = 1 then "VSS"
  else numbered "VDD_CD" (if r < 29 then (if c < 29 then 0 else 1) else if c < 29 then 3 else 2) ""
/-- The bottom region, rows 44 to 57 (R564, R565). -/
def bottomBall (r c : Nat) : String :=
  let x := c - 15
  if 53 ≤ r then
    if 39 ≤ c then (if (r + c) % 2 = 0 then "VDD_CSI" else "VSS")
    else if x % 3 = 2 then "VSS" else numbered "CSI_" (x / 3) ("_" ++ ["D0", "D1", "CLK", "D2", "D3"].getD (r - 53) "") ++ polarity (x % 3)
  else if c = 43 then "VDDIO_GPIO"
  else if c = 42 then "VDDIO_18"
  else if c = 41 then (if r < 48 then "VDD_AON" else "VDDIO_AON")
  else if r < 48 then (if x < 16 then numbered "PLS_" (16 * ((r - 44) / 2) + x) (if r % 2 = 0 then "_STEP" else "_DIR") else "VSS")
  else if r < 50 then (if x < 24 then numbered "GPIO_" (24 * (r - 48) + x) "" else "VSS")
  else if r = 50 then
    (if x < 12 then numbered "UART_" (x / 3) (["_TX", "_RX", "_DE"].getD (x % 3) "")
     else if x < 24 then numbered "TDM_" ((x - 12) / 3) (["_BCLK", "_FS", "_DIN"].getD (x % 3) "") else "VSS")
  else if r = 51 then
    (if x < 16 then numbered "I3C_" (x / 2) (if x % 2 = 0 then "_SCL" else "_SDA")
     else ["TCK", "TMS", "TDI", "TDO", "TRST_L", "SMB_SCL", "SMB_SDA", "SMB_ALERT_L", "SMB_ADDR"].getD (x - 16) "VSS")
  else
    ["XSPI_CLK", "XSPI_CS_L", "XSPI_DQS", "XSPI_IO0", "XSPI_IO1", "XSPI_IO2", "XSPI_IO3", "XSPI_IO4", "XSPI_IO5", "XSPI_IO6", "XSPI_IO7", "XSPI_RESET_L",
     "RESET_L", "WAKE_L", "THERMTRIP_L", "SYS_REFCLK_P", "SYS_REFCLK_N", "RTC_XIN", "RTC_XOUT"].getD x "VSS"
/-- The ball at a row and a column, both from 1 to 57 (R561). -/
def ball (r c : Nat) : String :=
  if c ≤ 14 then (if 57 ≤ r then "VSS" else lpBall (2 * ((r - 1) / 7) + (c - 1) / 7) ((r - 1) % 7) ((c - 1) % 7))
  else if 44 ≤ c then (if 57 ≤ r then "VSS" else lpBall (16 + 2 * ((r - 1) / 7) + (57 - c) / 7) ((r - 1) % 7) ((57 - c) % 7))
  else if r ≤ 14 then topBall r (c - 15)
  else if r ≤ 43 then centreBall r c
  else bottomBall r c
/-- Row of the ball names: nineteen letters, alone, behind A, behind B. -/
def rowName (r : Nat) : String :=
  ["", "A", "B"].getD ((r - 1) / 19) "" ++ ["A", "B", "C", "D", "E", "F", "G", "H", "J", "K", "L", "M", "N", "P", "T", "U", "V", "W", "Y"].getD ((r - 1) % 19) ""
/-- The C-PHY wires A, B and C of a trio of a CSI-2 port (R564). -/
def cphyTrio : List (List String) := [["D0_P", "D0_N", "CLK_P"], ["D1_P", "D1_N", "CLK_N"], ["D2_P", "D2_N", "D3_P"]]

/-! ## Thermal and package data (R567, R568) -/

/-- Junction temperature, in thousandths of a degree, over a lid at `lid` thousandths with `mw` of power: 0.065 degrees per watt. -/
def junction (lid : Int) (mw : Nat) : Int := lid + 65 * (mw : Int) / 1000
/-- Body edge and its tolerance, height and its tolerance, ball pitch, ball diameter, standoff, in micrometres; mass in g. -/
structure PackageData where
  edge : Nat × Nat := (60000, 150)
  height : Nat × Nat := (4200, 250)
  pitch : Nat := 1000
  ballSize : Nat := 600
  standoff : Nat := 400
  coplanarity : Nat := 200
  lid : Nat := 54000
  flatness : Nat := 50
  loadN : Nat := 450
  mass : Nat := 48
  msl : Nat := 4
  reflowPeak : Nat := 245
deriving DecidableEq, Repr

end Sys2Proof.Machine
end

