-- ==== Sys2Proof/WellFormed.lean ====
section
/-! DEFINITION. Which commands are well formed: every operand names a thing the device has. -/
namespace Sys2Proof

/-- A queue key: tenants 0 to 63 have 8 queues on each of 4 work engines (R91, R92); keys from 64 × 32 name the management queues of the
16 partitions, one on each engine (R107). -/
def queueOk (q : Nat) : Bool := decide (q < 80 * 32) && (decide (q < 64 * 32) || decide (q % 8 = 0))

/-- What runs a step program: a queue, or the batch of one of 16 partitions. -/
def RunRef.ok : RunRef → Bool
  | .queue q => queueOk q
  | .batch p => decide (p < 16)

/-- Bytes of a window (R541): 2 MiB for the management function, 64 KiB for a tenant. -/
def windowSize (party : Nat) : Nat := if party < 64 then 0x10000 else 0x200000

/-- A counter of set 0 (8 for each of 256 clusters), 1 (4 for each of 16 regions) or 2 (4 for each of 32 instances of a hub block)
(R510, R512). -/
def counterOk (set n : Nat) : Bool :=
  match set with
  | 0 => decide (n < 2048)
  | 1 => decide (n < 64)
  | 2 => decide (n < 0x2000)
  | _ => false

/-- A failing channel is one of the LP5X channels (R205). -/
def failOk : Option (Nat × Bool) → Bool
  | none => true
  | some x => decide (x.1 < 32)

/-- Cells of the flash lie below `n` and are in canonical form (R41). -/
def cellsOk (l : List Host.Cell) (n : Nat) : Bool := l.all (fun c => decide (c.1 < n)) && decide (Memory.wf l)

/-- Every operand is in its range. -/
def Instr.wf (i : Instr) : Bool :=
  match i with
  | .powerOn flash _ _ _ _ _ => cellsOk flash 0x600000
  | .resetL _ => true
  | .memoryTrainingComplete capGib rate _ _ fail => decide (capGib < 65536) && decide (rate < 65536) && failOk fail
  | .integrityInitComplete => true
  | .bootLock => true
  | .railFault _ => true
  | .avsSetpointTimeout die => decide (die < 4)
  | .thermtrip => true
  | .pciePerst port _ => decide (port < 6)
  | .vfFlr port vf => decide (port < 4) && decide (vf < 64)
  | .vfEnable port n => decide (port < 4) && decide (n ≤ 64)
  | .busMasterDisable port vf => decide (port < 4) && decide (vf < 64)
  | .hostDmaTimeout q _ => queueOk q
  | .hostDmaCompletionError q _ => queueOk q
  | .managementTick env => decide (env.temps.length ≤ 5)
  | .opChangeComplete die => decide (die < 4)
  | .triggerFire n => decide (n < 1024)
  | .trackJump n => decide (n < 256)
  | .cameraTrackStall n => decide (n < 256)
  | .triggerArm party k _ _ => decide (party ≤ 64) && decide (k < 1024)
  | .triggerDisarm party k _ _ => decide (party ≤ 64) && decide (k < 1024)
  | .triggerCountClear party k => decide (party ≤ 64) && decide (k < 1024)
  | .trackPreset party n _ => decide (party ≤ 64) && decide (n < 256)
  | .ptpSync port _ => decide (port < 2)
  | .ptpHoldover => true
  | .ptpAnnounce port _ => decide (port < 2)
  | .ethFrameReceive port _ => decide (port < 2)
  | .ethLinkDown port => decide (port < 2)
  | .igmpQuery port => decide (port < 2)
  | .smbReadBootStatus => true
  | .smbReadState => true
  | .smbReadTemperatures => true
  | .smbReadPower => true
  | .smbReadWake => true
  | .smbReadSecStatus => true
  | .smbWake _ => true
  | .smbAlertResponse => true
  | .registerWrite party off _ width _ => decide (party ≤ 64) && decide (width = 32 ∨ width = 64) && decide (off % (width / 8) = 0) && decide (off < windowSize party)
  | .twSubmitCtl tenant _ _ => decide (tenant < 64)
  | .mgSubmitCtl _ _ => true
  | .eventCntClear tenant _ => decide (tenant < 64)
  | .eventFlagClear tenant _ _ => decide (tenant < 64)
  | .complRingEnable party _ => decide (party ≤ 64)
  | .complHeadWrite party _ => decide (party ≤ 64)
  | .errRingEnable tenant _ => decide (tenant < 64)
  | .complEntryDrain q => queueOk q
  | .nop q => queueOk q
  | .marker q => queueOk q
  | .signalWrite q => queueOk q
  | .signalAdd q => queueOk q
  | .waitValue q => queueOk q
  | .waitValueMet q => queueOk q
  | .waitRelease q => queueOk q
  | .waitPosition q => queueOk q
  | .armTrigger q => queueOk q
  | .barrier q => queueOk q
  | .barrierRelease tenant b => decide (tenant < 64) && decide (b < 16)
  | .commandTimeout q => queueOk q
  | .regionReservation q => queueOk q
  | .stepProgram q => queueOk q
  | .tune q => queueOk q
  | .tuneIteration q => queueOk q
  | .copy m _ => queueOk m.q
  | .scatter m => queueOk m.q
  | .gather m => queueOk m.q
  | .migrate m => queueOk m.q
  | .modelLoad q => queueOk q
  | .shardArrival slot shard _ => decide (slot < 128) && decide (shard < 65536)
  | .shardTimeout slot shard => decide (slot < 128) && decide (shard < 65536)
  | .loadCommit slot => decide (slot < 128)
  | .weightCacheFill => true
  | .modelCtlUnload q => queueOk q
  | .modelCtlSwitch q => queueOk q
  | .generationFree slot _ => decide (slot < 128)
  | .digestSweep slot _ => decide (slot < 128)
  | .bind q => queueOk q
  | .unbind q => queueOk q
  | .paramCommit q => queueOk q
  | .request q => queueOk q
  | .seqCtlCancel q => queueOk q
  | .seqCtlPause q => queueOk q
  | .seqCtlResume q => queueOk q
  | .pauseImageWritten r => decide (r < 4096)
  | .resumeRestored r => decide (r < 4096)
  | .pauseExpiry r => decide (r < 4096)
  | .batchStart p => decide (p < 16)
  | .batchEnd p => decide (p < 16)
  | .pageWaitRetry p => decide (p < 16)
  | .pageWaitTimeout r => decide (r < 4096)
  | .kvIndexRebuild p => decide (p < 16)
  | .kvCompaction p => decide (p < 16)
  | .stepIssue r => decide (r.run.ok) && decide (r.region < 16)
  | .stepNop r => decide (r.run.ok) && decide (r.region < 16)
  | .matmul r cluster => r.ok && decide (cluster < 256)
  | .engineStart region => decide (region < 16)
  | .add r cluster => r.ok && decide (cluster < 256)
  | .mul r cluster => r.ok && decide (cluster < 256)
  | .axpby r cluster => r.ok && decide (cluster < 256)
  | .max r cluster => r.ok && decide (cluster < 256)
  | .convert r cluster => r.ok && decide (cluster < 256)
  | .exp r cluster => r.ok && decide (cluster < 256)
  | .recip r cluster => r.ok && decide (cluster < 256)
  | .rsqrt r cluster => r.ok && decide (cluster < 256)
  | .tanh r cluster => r.ok && decide (cluster < 256)
  | .sigmoid r cluster => r.ok && decide (cluster < 256)
  | .gelu r cluster => r.ok && decide (cluster < 256)
  | .silu r cluster => r.ok && decide (cluster < 256)
  | .rowSum r cluster => r.ok && decide (cluster < 256)
  | .rowMax r cluster => r.ok && decide (cluster < 256)
  | .softmax r cluster => r.ok && decide (cluster < 256)
  | .rmsnorm r cluster => r.ok && decide (cluster < 256)
  | .layernorm r cluster => r.ok && decide (cluster < 256)
  | .quantRow r cluster => r.ok && decide (cluster < 256)
  | .topkRow r cluster => r.ok && decide (cluster < 256)
  | .gatherRows r cluster => r.ok && decide (cluster < 256)
  | .scatterRows r cluster => r.ok && decide (cluster < 256)
  | .dma r cluster => r.ok && decide (cluster < 256)
  | .loadScales r cluster => r.ok && decide (cluster < 256)
  | .sync r => decide (r.run.ok) && decide (r.region < 16)
  | .syncRelease r => r.ok
  | .attend r region => r.ok && decide (region < 16)
  | .append r region => r.ok && decide (region < 16)
  | .ringXfer r region => r.ok && decide (region < 16)
  | .nvmeCommandTimeout drive => decide (drive < 2)
  | .nvmeSmartRead drive => decide (drive < 2)
  | .resetDevice _ => true
  | .resetPartition _ => true
  | .resetTenant _ => true
  | .resetControlCore _ => true
  | .scrubComplete tenant => decide (tenant < 64)
  | .tenantEnable tenant => decide (tenant < 64)
  | .stageImage _ _ => true
  | .attReport party _ => decide (party ≤ 64)
  | .sessionOpen tenant => decide (tenant < 64)
  | .sessionClose tenant => decide (tenant < 64)
  | .attCertificates party => decide (party ≤ 64)
  | .debugUnlock _ => true
  | .debugCancel => true
  | .mrExtend _ _ => true
  | .rngHealthFail => true
  | .watchdogExpiry core => decide (core < 8)
  | .ccRestartComplete core => decide (core < 8)
  | .islandWatchdog => true
  | .fwUpdateGo _ _ => true
  | .fwUpdateAbort => true
  | .fwImageReady => true
  | .fwHandoff => true
  | .handoffAck => true
  | .handoffRollback => true
  | .traceHit point _ => decide (point < 256)
  | .counterEventSelect set n _ => counterOk set n
  | .counterClear set n => counterOk set n
  | .twPmcSelect tenant off _ => decide (tenant < 64) && decide (0x1000 ≤ off) && decide (off < 0x10C0) && decide (off % 8 = 0)
  | .periodicSnapshot party => decide (party ≤ 64)
  | .csiFrameStart port vc => decide (port < 8) && decide (vc < 16)
  | .csiLongPacket port vc dt _ _ _ => decide (port < 8) && decide (vc < 16) && decide (dt < 64)
  | .csiFrameEnd port vc => decide (port < 8) && decide (vc < 16)
  | .pipelineBatch ctx => decide (ctx < 128)
  | .i3cListRun c => decide (c < 8)
  | .i3cListComplete c _ => decide (c < 8)
  | .i3cNack c _ _ => decide (c < 8)
  | .aes67Packet stream _ _ _ => decide (stream < 1024)
  | .tdmFrameSync port samples _ => decide (port < 4) && decide (samples.length = 16)
  | .audioFrame array => decide (array < 64)
  | .pulseProgramDone ch => decide (ch < 32)
  | .limitInput pin => decide (pin < 48)
  | .uartProgramRun u => decide (u < 4)
  | .uartCaptureEnd u => decide (u < 4)
  | .uartCaptureTimeout u => decide (u < 4)
  | .uartRxByte u _ _ => decide (u < 4)
  | .enterDusk _ => true
  | .enterNight _ => true
  | .entryDrainTimeout => true
  | .duskWatch _ _ => true
  | .duskWatchTimeout => true
  | .rtcAlarm => true
  | .wakeL => true
  | .dawn _ => true
  | .ageingRead region slacks => decide (region < 16) && decide (slacks.length ≤ 4096)
  | .powerRemoval => true
  | .pcieLinkUp port speed width _ => decide (port < 6) && decide (speed ≤ 5) && decide (width ≤ 16)
  | .ethLinkUp port => decide (port < 2)
  | .csiPortLock port _ => decide (port < 8)
  | .announceReceiptTimeout port => decide (port < 2)
  | .nvmeCommandError drive => decide (drive < 2)
  | .nvmeTrainingTimeout drive => decide (drive < 2)
  | .waitPositionMet q => queueOk q
  | .ccCodeEccError core => decide (core < 8)
  | .partitionResetComplete p => decide (p < 16)
  | .preemptImageWritten r => decide (r < 4096)
  | .i3cIbiAttempt c => decide (c < 8)

end Sys2Proof
end

