-- ==== Sys2Proof/Tests/Slice0.lean ====
section
/-! SUPPORT. Tests of the model: ill-formed operands are refused, examples of the spec come out, and the hypotheses of every statement
are met by concrete states (one theorem per statement, named `witness_` and the statement). -/
namespace Sys2Proof.Tests
open Sys2Proof Sys2Proof.Machine
set_option Elab.async false

/-! ## A small device -/

/-- A configuration from triples of section, offset and byte; the sections named in `on` are present. -/
def cfgOf (on : List Nat) (l : List (Nat × Nat × Nat)) : Cfg :=
  { lens := on.map (fun n => (n, 1)), secs := l.foldl (fun t x => t.set x.1 ((t.get x.1 []).put x.2.1 (BitVec.ofNat 8 x.2.2))) [] }

/-- Two partitions of one region each (dies 0 and 1); tenant 0 (counters, snapshots, 16 MiB) in partition 0 and tenant 1 in partition 1,
both on port 0, which carries the management window. -/
def cfg0 : Cfg := cfgOf [1, 2, 3, 4, 5, 6, 7, 8, 9, 10, 11, 12]
  [(1, 0, 16), (1, 2, 0x80), (1, 3, 0x25),
   (2, 0, 1), (2, 3, 4), (2, 4, 64), (2, 16, 0x10), (2, 19, 4),
   (3, 0, 7), (3, 4, 8), (3, 5, 8), (3, 6, 8), (3, 7, 8), (3, 8, 16), (3, 12, 64), (3, 16, 8), (3, 18, 4),
   (3, 32, 1), (3, 33, 1), (3, 35, 1), (3, 40, 1),
   (4, 0, 3), (4, 2, 4),
   (5, 0, 1), (5, 0x80, 1), (5, 0x84, 0x2A), (5, 0x88, 4), (5, 0x8A, 1), (5, 0xA0, 1), (5, 0xA3, 1), (5, 0xA4, 0x2A), (5, 0xA8, 16), (5, 0xAA, 16), (5, 0x1080, 1), (5, 0x1087, 1),
   (6, 0, 1), (6, 2, 1), (6, 0x8000, 1), (6, 0x8002, 16), (6, arrayOff 0, 1), (6, arrayOff 0 + 2, 1), (6, arrayOff 0 + 3, 1), (6, arrayOff 0 + 4, 1),
   (7, 0, 1), (7, 4, 2), (7, 9, 1), (7, 12, 10), (7, 15, 1), (7, 0x80, 1),
   (8, 4, 2), (8, 8, 3), (8, 12, 6), (8, 16, 6), (8, 18, 2), (8, 1026, 4),
   (9, 0, 20), (9, 2, 60), (9, 4, 45), (9, 6, 8),
   (11, 0x10, 1), (11, 0x20, 0xFF), (11, 0x280, 2), (12, 0, 8)]

/-- The device after boot lock, with its endpoint link up. -/
def dev0 : Dev :=
  { State.reset.dev with boot := { powered := true, stage := 6, locked := true }, cfg := cfg0, mem := { usableMib := 1024 }, ports := [(0, { up := true })],
                         tenants := [(0, { serving := true, keyed := true, vfEnabled := true }), (1, { serving := true, keyed := true, vfEnabled := true })],
                         tracks := [(1, { source := 2 }), (2, { source := 3 }), (3, { source := 6 }), (4, { source := 6, sourceIndex := 2 })] }

/-- A state with that device. -/
def st0 : State := { State.reset with dev := dev0 }

/-- A 64-byte record from pairs of byte offset and little-endian number. -/
def rec512 (l : List (Nat × Nat)) : W512 := BitVec.ofNat 512 ((l.map (fun x => x.2 * 2 ^ (8 * x.1))).foldl (· + ·) 0)

/-- A device whose queue `q` has the list of commands `cs` at its head. -/
def devList (q : Nat) (cs : List W512) : Dev := { dev0 with queues := [(q, { lists := [{ cmds := cs }] })] }

/-- The same, the first command having started. -/
def devRun (q : Nat) (c : W512) (r : Running) : Dev := { dev0 with queues := [(q, { lists := [{ cmds := [c] }], running := some { r with cmd := c } })] }

/-- Queues of tenant 0 on the engines, and the management queue of partition 0 on Compute. -/
def qCompute : Nat := qkey 0 0 0
def qData : Nat := qkey 0 1 0
def qMedia : Nat := qkey 0 2 0
def qToken : Nat := qkey 0 3 0

/-- Whether a result is a success. -/
def okay {α ε : Type} (x : Dev × Except ε α) : Bool := match x.2 with | .ok _ => true | .error _ => false
/-- The value of a success. -/
def result {α ε : Type} (x : Dev × Except ε α) : Option α := match x.2 with | .ok a => some a | .error _ => none

/-! ## Hypotheses of the statements are met -/

theorem witness_StepRunsTheFrontCommand : ({ st0 with pending := [.bootLock] } : State).pending = .bootLock :: [] := by decide +kernel

theorem witness_EmptyQueueIdles :
    (st0.pending = [] ∧ st0.dev.boot.powered = true ∧ st0.dev.boot.thermtrip = false ∧ st0.dev.pwr.state ≤ 1) ∧
    ({ dev0 with boot := { powered := false } } : Dev).boot.powered = false := by decide +kernel

theorem witness_EndOfACommand : (devRun qCompute (rec512 []) {}).Runs qCompute { cmd := rec512 [] } { cmds := [rec512 []] } [] ∧
    dev0.mgmt.gerr.full = false := by unfold Dev.Runs; decide +kernel

/-- Ring on with room, ring off, and an entry that waits. -/
def devRing : Dev := { dev0 with tenants := [(0, { serving := true, vfEnabled := true, compl := { enable := true } })] }
theorem witness_CompletionEntriesGoToTheRingOrWait :
    ((devRing.complRing 0).enable = true ∧ (devRing.complRing 0).full = false ∧ devRing.stalled 0 = false) ∧ (dev0.complRing 0).enable = false := by decide +kernel

theorem witness_NopMarkerAndSignalComplete :
    (devList qCompute [rec512 []]).Starts qCompute 0 (rec512 []) ∧ (devList qCompute [rec512 [(0, 1)]]).Starts qCompute 1 (rec512 [(0, 1)]) ∧
    (let c := rec512 [(0, 2)]; let d := devList qCompute [c]; d.Starts qCompute 2 c ∧ cmdArg c % 4 = 0 ∧
      ((d.startCmd qCompute c).writeMem (d.qView qCompute) (bytesAt c 8 8) (leBytes 8 0)).2 = none) ∧
    (let c := rec512 [(0, 2), (8, 0x800000000000)]; let d := devList qCompute [c]; d.Starts qCompute 2 c ∧ cmdArg c % 4 = 0 ∧
      ((d.startCmd qCompute c).writeMem (d.qView qCompute) (bytesAt c 8 8) (leBytes 8 0)).2 ≠ none) ∧
    (let c := rec512 [(0, 2), (2, 1), (16, 5)]; let d := devList qCompute [c]; let r := (d.startCmd qCompute c).readMem (d.qView qCompute) (bytesAt c 8 8) 8
      d.Starts qCompute 2 c ∧ cmdArg c % 4 = 1 ∧ okay r = true ∧ (r.1.writeMem (d.qView qCompute) (bytesAt c 8 8) (leBytes 8 5)).2 = none) ∧
    (let c := rec512 [(0, 2), (2, 1), (8, 0x800000000000)]; let d := devList qCompute [c]
      d.Starts qCompute 2 c ∧ okay ((d.startCmd qCompute c).readMem (d.qView qCompute) (bytesAt c 8 8) 8) = false) := by
  unfold Dev.Starts; decide +kernel

theorem witness_WaitsCompleteWhenTheirConditionHolds :
    (∀ x ∈ [0, 5], let c := rec512 [(0, 3), (16, x)]; let d := devList qCompute [c]; let r := (d.startCmd qCompute c).readMem (d.qView qCompute) (bytesAt c 8 8) 8
      d.Starts qCompute 3 c ∧ okay r = true ∧ waitHolds c 0 = decide (x = 0)) ∧
    (∀ x ∈ [0, 5], let c := rec512 [(0, 3), (16, x)]; let d := devRun qCompute c {}; d.running qCompute = some { cmd := c } ∧ cmdOp c = 3 ∧
      okay (d.readMem (d.qView qCompute) (bytesAt c 8 8) 8) = true ∧ waitHolds c 0 = decide (x = 0)) ∧
    (∀ b ∈ [false, true], let v : View := { party := 0, part := 0 }; let d : Dev := { dev0 with mem := { tiles := [(dev0.keyAt v 0, some { busy := b })] } }; d.busyIn v 0 8 = b) ∧
    (let c := rec512 [(0, 4)]; (devList qCompute [c]).Starts qCompute 4 c ∧ ((devList qCompute [c]).que qCompute).release = 0 ∧
      let d := (devList qCompute [c]).modQue qCompute (fun v => { v with release := 1 }); d.Starts qCompute 4 c ∧ (d.que qCompute).release ≠ 0) ∧
    (∀ x ∈ [0, 5], let c := rec512 [(0, 5), (8, x)]; let d := devList qCompute [c]
      d.Starts qCompute 5 c ∧ d.trkValid (cmdArg c % 256) = true ∧ d.positionMet c = decide (x = 0)) ∧
    (∀ x ∈ [0, 5], let c := rec512 [(0, 5), (8, x)]; let d := devRun qCompute c {}
      d.running qCompute = some { cmd := c } ∧ cmdOp c = 5 ∧ d.positionMet c = decide (x = 0)) := by
  unfold Dev.Starts; decide +kernel

/-- A barrier of two participants that one queue waits on. -/
def devBarrier (q : Nat) (c : W512) : Dev :=
  { devList q [c] with tenants := [(0, { serving := true, vfEnabled := true, barriers := [(0, { count := 1, participants := 2, waiting := [q + 1] })] })] }

theorem witness_BarriersTimeoutsAndReservations :
    (let c := rec512 [(0, 7), (2, 0x20)]; (devList qCompute [c]).Starts qCompute 7 c ∧ ((devList qCompute [c]).ten 0).barriers.get 0 {} = {} ∧
      (devBarrier qCompute c).Starts qCompute 7 c ∧ (((devBarrier qCompute c).ten 0).barriers.get 0 {}).participants = nfld (cmdArg c) 4 6) ∧
    (let c := rec512 [(0, 7), (2, 0x30)]; let g := ((devBarrier qCompute c).ten 0).barriers.get 0 {}
      (devBarrier qCompute c).Starts qCompute 7 c ∧ g.count ≠ 0 ∧ g.participants ≠ nfld (cmdArg c) 4 6 ∧ g.waiting.contains qCompute = false) ∧
    (let g : Barrier := { count := 2, participants := 2, waiting := [0, 1] }; g.count ≠ 0 ∧ g.participants ≤ g.count ∧ 1 ∈ g.waiting) ∧
    (let c := rec512 [(0, 7), (2, 0x20), (8, 1)]; let d := { devRun qCompute c {} with time := 1000 }; d.Runs qCompute { cmd := c } { cmds := [c] } [] ∧ cmdOp c = 7 ∧ cmdTimeout c = 1 ∧ (0 : W64).toNat + 1000 * cmdTimeout c ≤ d.time.toNat) ∧
    (∀ x ∈ [999, 1000], let c := rec512 [(0, 3), (24, 1)]; let d := { devRun qCompute c { started := 5 } with time := BitVec.ofNat 64 (5 + x) }
      d.Runs qCompute { cmd := c, started := 5 } { cmds := [c] } [] ∧ cmdTimeout c = 1 ∧ decide (5 + 1000 * cmdTimeout c ≤ d.time.toNat) = decide (x = 1000)) ∧
    (let c := rec512 [(0, 3)]; (devRun qCompute c {}).Runs qCompute { cmd := c } { cmds := [c] } [] ∧ cmdTimeout c = 0) ∧
    (let c := rec512 [(0, 0x10), (2, 1)]; let q := qkey 0 0 1
      let d : Dev := { dev0 with time := 2000000, queues := [(qCompute, { lists := [{ cmds := [c] }], running := some { cmd := c, prog := some { mask := 1 } } }), (q, { lists := [{ cmds := [c] }] })] }
      d.headCmd q = some ({ cmds := [c] }, c) ∧ qEngine q = 0 ∧ d.mayStart q = true ∧ cmdMask c &&& d.busyMask (d.qPart q) ≠ 0 ∧ (d.que q).readySince.toNat + 2000000 ≤ d.time.toNat) := by
  unfold Dev.Starts Dev.Runs; decide +kernel

theorem witness_FusesOnlyRise : ∃ t, step State.reset = .next t := ⟨_, rfl⟩
theorem witness_NonVolatileInvariantKept : State.reset.nv.Inv ∧ ∃ t, step State.reset = .next t := ⟨by unfold NonVol.Inv; decide +kernel, _, rfl⟩

theorem witness_ResetLRestartsTheBoot : st0.dev.boot.powered = true ∧ st0.dev.boot.thermtrip = false ∧
    ({ dev0 with boot := { powered := false } } : Dev).boot.powered = false ∧ ({ dev0 with boot := { thermtrip := true } } : Dev).boot.thermtrip = true := by decide +kernel

theorem witness_ResetEventsPowerRemovalAndTrip :
    ({ dev0 with dies := [(0, { avsWait := true })] } : Dev).die 0 = { avsWait := true } ∧ (dev0.die 0).avsWait = false ∧
    dev0.boot.powered = true ∧ ({ dev0 with boot := { powered := false } } : Dev).boot.powered = false ∧ dev0.Serves mgmtParty 0x2010 := by
  unfold Dev.Serves; decide +kernel

/-- The device while memory trains. -/
def devTrain (stage : Nat) : Dev := { dev0 with boot := { powered := true, stage := stage } }

theorem witness_MemoryTrainingInitialisationAndBootLock :
    ((devTrain 3).boot.stage = 3 ∧ (devTrain 3).boot.powered = true ∧ (16, 1, 0) ∉ memConfigs) ∧
    (let c := cfgOf [1] [(1, 0, 64)]; c.capacityGib = 64 ∧ (64, 2, 0) ∈ memConfigs ∧ c.useCache = false ∧ c.memoryAsked ≤ usableOf 64 c.protection) ∧
    (let c := cfgOf [1, 3] [(1, 0, 32), (3, 0, 1), (3, 11, 255)]; c.capacityGib = 32 ∧ (32, 1, 0) ∈ memConfigs ∧ usableOf 32 c.protection < c.memoryAsked) ∧
    ((devTrain 4).boot.stage = 4 ∧ (devTrain 4).cfg.memoryAsked ≤ (devTrain 4).mem.usableMib ∧ (devTrain 5).boot.stage = 5 ∧ (devTrain 5).boot.powered = true) ∧
    cfg0.tenOn 0 = true ∧ cfg0.tenOn 2 = false := by decide +kernel

theorem witness_LinkResetOfAPort : 0 < 4 ∧ dev0.boot.powered = true ∧ dev0.boot.thermtrip = false ∧ 3 ≤ dev0.boot.stage ∧ dev0.pwr.state ≤ 1 ∧
    0 ∈ dev0.cfg.portTenants 0 ∧ 2 ∉ dev0.cfg.portTenants 0 := by decide +kernel

theorem witness_TheHostEnablesFunctions :
    (dev0.awake = true ∧ dev0.cfg.portOn 0 = true ∧ dev0.cfg.portOn 4 = false) ∧ ((dev0.port 0).up = true ∧ 1 ≤ dev0.cfg.portVfs 0 ∧ dev0.cfg.tenVf 0 < 1) ∧
    (let d : Dev := { dev0 with tenants := [(1, { vfEnabled := true })] }; (d.port 0).up = true ∧ 1 ∈ d.cfg.portTenants 0 ∧ 1 ≤ d.cfg.tenVf 1 ∧ (d.ten 1).vfEnabled = true) ∧
    dev0.cfg.vfTenant 0 1 = some 1 ∧ dev0.cfg.vfTenant 0 2 = none := by decide +kernel

/-- Tenant 0 in reset, its scrub over or not. -/
def devScrub (done : Bool) : Dev := { dev0 with tenants := [(0, { vfEnabled := true, scrub := true, scrubDone := done })] }

theorem witness_TenantResetStarts :
    (dev0.cfg.vfTenant 0 0 = some 0 ∧ dev0.awake = true ∧ dev0.sec.rngFail = false ∧ (dev0.ten 0).scrub = false ∧ ((devScrub false).ten 0).scrub = true) ∧
    (dev0.Serves mgmtParty 0x2010 ∧ (devScrub false).Serves mgmtParty 0x2010 ∧ dev0.cfg.safe = false ∧ fld (0x3#64) 8 8 = 0 ∧ dev0.cfg.tenOn 0 = true) := by
  unfold Dev.Serves; decide +kernel

theorem witness_PartitionResetStarts :
    dev0.Serves mgmtParty 0x2010 ∧ dev0.cfg.safe = false ∧ fld (0x102#64) 8 8 = 1 ∧ dev0.cfg.partOn 1 = true ∧ (dev0.part 1).resetting = false ∧ dev0.cfg.partOn 2 = false ∧
    (let d : Dev := { dev0 with parts := [(1, { resetting := true })] }; d.Serves mgmtParty 0x2010 ∧ d.cfg.partOn 1 = true ∧ (d.part 1).resetting = true) := by
  unfold Dev.Serves; decide +kernel

theorem witness_ResetsComplete :
    (({ dev0 with parts := [(1, { resetting := true })] } : Dev).part 1).resetting = true ∧ ((devScrub false).ten 0).scrubDone = false ∧
    (let d := devScrub true; (d.ten 0).scrub = true ∧ (d.ten 0).scrubDone = true ∧ d.atTick = true ∧ (d.ten 0).scrubDue ≤ d.tick ∧ ((d.ten 0).progress.get 7 {}).upd ≠ some d.tick ∧ d.coreOut 4 = false ∧ d.coreOut (coreOf 0) = false ∧ d.sec.rngFail = false) := by decide +kernel

/-- A mailbox operation of a party. -/
def devMail (p op : Nat) : Dev := { dev0 with sec := { mailbox := [{ party := p, op := op, units := 4, addr := 0 }] } }

theorem witness_AttestationReportsAndCertificates :
    (∀ p ∈ [0, 64], ∃ r, (devMail p 1).attHead p 1 = some r ∧ okay ((devMail p 1).attRead r [] 0 32) = true) ∧
    (let d : Dev := { dev0 with sec := { mailbox := [{ op := 1, addr := 0x1000000000000 }] } }; ∃ r, d.attHead 0 1 = some r ∧ okay (d.attRead r [] 0 32) = false) ∧
    (∃ r, (devMail 0 4).attHead 0 4 = some r) := by
  refine ⟨?_, ⟨_, rfl, by decide +kernel⟩, ⟨_, rfl⟩⟩
  intro p hp
  rcases List.mem_cons.1 hp with rfl | hp
  · exact ⟨_, rfl, by decide +kernel⟩
  · rcases List.mem_cons.1 hp with rfl | hp
    · exact ⟨_, rfl, by decide +kernel⟩
    · cases hp

/-- The curve check is a free function: the two cases of an open. -/
theorem witness_SessionsOpenAndClose :
    (∃ r, (devMail 0 2).attHead 0 2 = some r ∧ okay ((devMail 0 2).attRead r [] 0 224) = true) ∧
    (cfgOf [10] [(10, 0x42, 0xFF)]).authKeySlot 0 = 0xFF ∧ (devMail 0 2).sec.rngFail = false ∧ (∃ r, (devMail 0 3).attHead 0 3 = some r) ∧
    (∀ b, Config.onCurve b = true ∨ Config.onCurve b = false) :=
  ⟨⟨_, rfl, by decide +kernel⟩, by decide +kernel, by decide +kernel, ⟨_, rfl⟩, fun b => by cases Config.onCurve b <;> simp⟩

/-- A configuration that allows debug, with the public key of slot 0 empty, and a token for it. -/
def devDebug : Dev := { dev0 with cfg := cfgOf [10] [(10, 0, 1)] }
def debugToken : List B8 := leBytes 4 0x4B4C4451 ++ List.replicate 188 0

/-- Where the free functions answer so, the token is taken: an identity digest of 0 and a signature that verifies. -/
theorem witness_DebugMeasurementAndEntropy_unlocks (hs : Config.sha384 st0.nv.fuses.identityPub = 0)
    (hv : Config.ecdsaVerify (devDebug.cfg.key devDebug.cfg.debugSlot) (debugToken.take 96) ((debugToken.drop 96).take 96) = true) :
    devDebug.Serves mgmtParty secDbgCtl ∧ devDebug.hostUp = true ∧
      devDebug.hostRead devDebug.cfg.port (debugToken.mapIdx (fun i b => (i, b))) devDebug.sec.dbgAddr.toNat 192 = debugToken ∧
      ({ st0 with dev := devDebug } : State).tokenRefused debugToken = false := by
  refine ⟨by unfold Dev.Serves; decide +kernel, by decide +kernel, by decide +kernel, ?_⟩
  unfold State.tokenRefused
  dsimp only
  rw [hs, hv]
  decide +kernel

theorem witness_DebugMeasurementAndEntropy :
    dev0.Serves mgmtParty secDbgCtl ∧ dev0.hostUp = true ∧ ({ st0 with nv := { fuses := { debugClosed := true } } } : State).tokenRefused [] = true ∧
    dev0.Serves mgmtParty secMrExt ∧ 8 ≤ fld (8#64) 0 4 ∧ fld (7#64) 0 4 < 8 ∧ dev0.boot.stage ≠ 0 := by
  unfold Dev.Serves; decide +kernel

/-- A firmware image of 176 bytes with the update generation `g`. -/
def fwImage (g : Nat) : List B8 := leBytes 4 0x57465551 ++ leBytes 4 1 ++ leBytes 4 176 ++ leBytes 4 g ++ [0, 1, 0, 1] ++ List.replicate 156 0

/-- Where the signature of an image verifies, an update starts. -/
theorem witness_FirmwareUpdate_starts (h : Config.imageVerify st0.nv.fuses.fwKeyHash (fwImage 1) = true) :
    dev0.Serves mgmtParty fwUpdCtl ∧ st0.dev.fw.updState = 0 ∧ dev0.hostUp = true ∧
    let host := (fwImage 1).mapIdx (fun i b => (i, b)); let b := dev0.hostRead 0 host 0 176
    b = fwImage 1 ∧ ({ st0 with dev := { dev0 with fw := { handoffVersion := 1 } } } : State).updFault (Memory.write [] 0 b) 176 = none := by
  refine ⟨by unfold Dev.Serves; decide +kernel, by decide +kernel, by decide +kernel, by decide +kernel, ?_⟩
  rw [show dev0.hostRead 0 ((fwImage 1).mapIdx (fun i b => (i, b))) 0 176 = fwImage 1 from by decide +kernel]
  unfold State.updFault fwSigned
  rw [show (Memory.write [] 0 (fwImage 1)).read 0 (fwLength (Memory.write [] 0 (fwImage 1))) = fwImage 1 from by decide +kernel]
  rw [show Config.imageVerify _ (fwImage 1) = true from h]; decide +kernel

theorem witness_FirmwareUpdate :
    st0.updFault (Memory.write [] 0 []) 0 ≠ none ∧ ({ updState := 1 } : Fw).updState ≠ 0 ∧
    (let d : Dev := { dev0 with fw := { updState := 1 } }; d.fw.updState = 1 ∧ d.coreOut 0 = false ∧ d.coresOn = true ∧ d.Serves mgmtParty fwUpdCtl) := by
  refine ⟨by decide +kernel, by decide +kernel, ?_⟩
  unfold Dev.Serves; decide +kernel

theorem witness_FirmwareHandoff :
    (let d : Dev := { dev0 with fw := { updState := 2 } }; d.fw.updState = 2 ∧ d.coresOn = true ∧ d.atTick = true ∧ d.pwr.entering = false ∧ d.fw.readyTick + d.fw.deferTicks ≤ d.tick ∧
      (∀ k, k < 8 → (d.core k).restarting = false) ∧ d.cfg.tenOn 0 = true) ∧
    (let d : Dev := { dev0 with fw := { updState := 3, newImage := fwImage 1 } }; d.fw.updState = 3 ∧ d.coresOn = true ∧ (∀ p ∈ d.cfg.parties, d.heldWrites p = []) ∧
      d.time.toNat < d.fw.holdSince.toNat + 100000000 ∧ ({ d with time := 100000000 } : Dev).fw.holdSince.toNat + 100000000 ≤ ({ d with time := 100000000 } : Dev).time.toNat ∧
      ({ d with time := 100000000 } : Dev).coresOn = true) := by decide +kernel

theorem witness_ControlCoresRestart :
    (dev0.coresOn = true ∧ dev0.fw.updState ≠ 3 ∧ (dev0.core 7).restarting = false ∧ fld (0x704#64) 8 8 = 7 ∧ dev0.Serves mgmtParty 0x2010 ∧ dev0.cfg.safe = false ∧ 8 ≤ fld (0x804#64) 8 8) ∧
    (let d : Dev := { dev0 with fw := { cores := [(7, { restarting := true })] } }; (d.core 7).restarting = true ∧ d.coresOn = true ∧ d.Serves mgmtParty 0x2010 ∧
      (∀ p ∈ d.cfg.coreParties 7, d.heldWrites p = [])) := by
  unfold Dev.Serves; decide +kernel

/-- The device in Dusk or Night. -/
def devAsleep (p : Pwr) (k : Nat) : Dev := { dev0 with pwr := { p with state := k } }

theorem witness_BoardManagementOverSmbus :
    (dev0.boot.powered = true ∧ dev0.boot.thermtrip = false ∧ dev0.pwr.state ≤ 1 ∧ dev0.pwr.alert = false ∧ dev0.pwr.entering = false) ∧
    ((devAsleep {} 2).pwr.state = 2 ∧ (devAsleep {} 2).pwr.dawn = false ∧ (devAsleep {} 2).pwr.entering = false) ∧
    (devAsleep { alert := true, entering := true } 1).pwr.entering = true := by decide +kernel

theorem witness_TheManagementTick :
    (dev0.boot.powered = true ∧ dev0.boot.thermtrip = false ∧ (dev0.tick + 1) * 1000000 < 2 ^ 64 ∧ dev0.pwr.state ≤ 1 ∧ dev0.boot.stage = 6 ∧ dev0.pwr.entering = false ∧
      dev0.coreOut 0 = false ∧ dev0.coreOut 7 = false) ∧
    1 < (devAsleep {} 2).pwr.state ∧ ({ dev0 with fw := { cores := [(0, { restarting := true })] } } : Dev).coreOut 0 = true := by decide +kernel

/-- Partition 0 at operating point 3 under a cap of 45 W. -/
def devCap (op duty : Nat) : Dev := { dev0 with pwr := { capW := 45, duty := duty, raiseW := 8 }, parts := [(0, { loopOp := op })] }

theorem witness_ThePowerCapLoop :
    (1000 * (devCap 3 8).pwr.capW < 45001 ∧ (devCap 3 8).cfg.partOn 0 = true ∧ (devCap 3 8).isSuspended 0 = false ∧ ((devCap 3 8).part 0).fixed = false ∧ 0 < ((devCap 3 8).part 0).loopOp) ∧
    (∀ p, p < 16 → ¬ (0 < ((devCap 0 8).part p).loopOp)) ∧ 1 < (devCap 0 8).pwr.duty ∧
    (37000 + 1000 * (devCap 3 7).pwr.raiseW ≤ 1000 * (devCap 3 7).pwr.capW ∧ (∀ p, p < 16 → ((devCap 3 7).part p).loopSusp = false) ∧ (devCap 3 7).pwr.duty < 8 ∧ (devCap 3 8).pwr.duty = 8) := by decide +kernel

theorem witness_OperatingPointsAndAgeing :
    (({ dev0 with dies := [(0, { avsWait := true })] } : Dev).die 0).avsWait = true ∧ (dev0.die 0).avsWait = false ∧
    (let d : Dev := { dev0 with regions := [(15, { powered := true, nextRead := 5 })], time := 5 };
      d.awake = true ∧ (d.region 15).powered = true ∧ 15 ≤ 15 ∧ (d.region 15).nextRead.toNat ≤ d.time.toNat ∧ d.coreOut 2 = false ∧ (d.region 15).fresh = false ∧
      ({ d with time := 1000000 } : Dev).atTick = true ∧ ({ d with time := 1000000 } : Dev).pwr.ageTick < ({ d with time := 1000000 } : Dev).tick ∧ d.atTick = false ∧
      (({ dev0 with regions := [(15, { fresh := true })] } : Dev).region 15).fresh = true) ∧
    (let d : Dev := { dev0 with regions := [(0, { powered := true, nextRead := 6 })], time := 5 }; d.time.toNat < (d.region 0).nextRead.toNat) ∧
    dev0.cfg.partOn 0 = true ∧ dev0.cfg.partDies 0 = [0] ∧ 0 ∈ dev0.cfg.partRegions 0 := by decide +kernel

theorem witness_SleepIsAskedForAndEntered :
    (dev0.Serves mgmtParty 0xD0008 ∧ fld (BitVec.ofNat 64 (10000 * 2 ^ 16)) 16 16 ≤ 10000 ∧ 10000 < fld (BitVec.ofNat 64 (10001 * 2 ^ 16)) 16 16) ∧
    (let d : Dev := { devRun qCompute (rec512 []) {} with pwr := { entering := true, drainMs := 1 }, time := 1000000 };
      d.pwr.entering = true ∧ d.drained = false ∧ d.pwr.entryAt.toNat + 1000000 * d.pwr.drainMs ≤ d.time.toNat) ∧
    dev0.pwr.entering = false := by unfold Dev.Serves; decide +kernel

theorem witness_WatchesAlarmsAndDawn :
    (let d := devAsleep { duskCfg := 0x80800000 } 2; d.pwr.state = 2 ∧ d.pwr.dawn = false ∧ d.boot.thermtrip = false ∧ d.boot.powered = true ∧ d.pwr.camEn = true ∧
      (List.replicate 4 (0#16)).length = d.cfg.ctxWidth d.pwr.duskCtx * d.cfg.ctxHeight d.pwr.duskCtx ∧ d.pwr.audEn = false) ∧
    (let d := devAsleep { alarmEn := true } 3; d.pwr.alarmEn = true ∧ 1 < d.pwr.state ∧ d.pwr.dawn = false ∧ d.boot.powered = true) ∧
    (let d := devAsleep { dawn := true } 2; d.pwr.dawn = true ∧ d.boot.thermtrip = false ∧ ∀ p ∈ d.cfg.parties, d.heldWrites p = []) := by decide +kernel

theorem witness_RegisterWritesActWaitOrAreIgnored :
    (dev0.Serves 0 0x20 ∧ dev0.Serves 64 0x20000 ∧ ({ dev0 with boot := { powered := true, stage := 6 } } : Dev).Serves 64 0x20000) ∧
    (dev0.windowOn 2 = false ∧ (devScrub false).windowOn 0 = true ∧ (devScrub false).boot.stage = 6 ∧ ((devScrub false).ten 0).scrub = true) ∧
    (let d := devAsleep {} 2; d.windowOn 0 = true ∧ d.boot.stage = 6 ∧ (d.ten 0).scrub = false ∧ 1 < d.pwr.state ∧ (d.ten 0).held.length < 256) ∧
    (let d : Dev := { dev0 with fw := { updState := 3 } }; d.windowOn 0 = true ∧ d.pwr.state ≤ 1 ∧ emulated 0 0x50 = true ∧ d.holding 0 = true) ∧
    4 ≤ fld (4#64) 0 5 ∧ fld (16#64) 0 5 ≤ 16 ∧ (0x22 % (32 / 8) ≠ 0) := by unfold Dev.Serves; decide +kernel

/-- Tenant 0 with its completion ring on and a list pointer of 64 × n. -/
def devSubmit (n : Nat) : Dev :=
  { dev0 with tenants := [(0, { serving := true, vfEnabled := true, busMaster := true, compl := { enable := true }, submitLo := BitVec.ofNat 32 (64 * n) })] }
/-- A submission of one command to queue 0 of Compute from host memory. -/
def submitOne : W64 := 0x120

theorem witness_SubmissionsJoinTheirQueue :
    (dev0.Serves 0 0x50 ∧ (dev0.complRing 0).enable = false) ∧
    (let d := devSubmit 0; let x := d.submission 0 submitOne; let f := d.fetchList x []
      d.Serves 0 0x50 ∧ (d.complRing 0).enable = true ∧ d.listFaultOf x = none ∧ okay f = true ∧ okay (f.1.checkList (qEngine x.key) x.view [0#512]) = true) ∧
    (let d := devSubmit 0; let x := d.submission 0 0x20; x.length = 0) ∧
    (let d := devSubmit 0; let x := d.submission 0 submitOne; let f := d.fetchList x [(0, 0xFF)]; okay (f.1.checkList (qEngine x.key) x.view [0xFF#512]) = false) ∧
    (dev0.Serves 64 0x50) := by unfold Dev.Serves; decide +kernel

theorem witness_EventFlagsAndCountersClear : 0 < 64 ∧ dev0.Serves 0 0x10 := by unfold Dev.Serves; decide +kernel

theorem witness_RingsAreEnabledAndRead :
    (dev0.Serves 0 0x90 ∧ (dev0.complRing 0).enable = false ∧ dev0.stalled 0 = false ∧ (0x601#64).getLsbD 0 = true ∧ fld (0x601#64) 8 5 = 6 ∧ fld (0x1001#64) 8 5 = 16 ∧
      fld (0x501#64) 8 5 < 6 ∧ 16 < fld (0x1101#64) 8 5) ∧
    (let d : Dev := { dev0 with tenants := [(0, { serving := true, vfEnabled := true, compl := { enable := true, tail := 3, head := 1 } })] }; let r := d.complRing 0
      d.Serves 0 0x98 ∧ d.stalled 0 = false ∧ (3 < r.size ∧ (3 + r.size - r.head) % r.size ≤ r.unread) ∧ (r.unread < (4 + r.size - r.head) % r.size) ∧ r.size ≤ 64) ∧
    (dev0.Serves 0 0x210 ∧ (dev0.ten 0).err.enable = false) ∧
    (let d := { devRing with queues := [(qCompute, { fifo := [{}] })] }; (∀ x ∈ d.tok.seqs.map (fun e => e.2), ∀ y, x = some y → y.state ≠ 8) ∧ (d.que qCompute).fifo = [{}] ∧
      (d.complRing 0).enable = true ∧ (d.complRing 0).full = false) := by
  unfold Dev.Serves
  refine ⟨by decide +kernel, by decide +kernel, by decide +kernel, ?_, by decide +kernel, by decide +kernel, by decide +kernel⟩
  intro x hx; cases hx

theorem witness_StagingOfAnImage :
    dev0.Serves mgmtParty 0x2028 ∧ (0x8000000000000000#64).getLsbD 63 = true ∧ dev0.stage.active = false ∧ (dev0.port dev0.cfg.port).up = true ∧
    st0.stageFault (Memory.write [] 0 []) 0 = some 1 := by unfold Dev.Serves; decide +kernel

/-- Where the signature of a firmware image verifies, staging in recovery takes it. -/
theorem witness_StagingOfAnImage_starts (h : Config.imageVerify st0.nv.fuses.fwKeyHash (fwImage 1) = true) :
    let d : Dev := { dev0 with cfg := { cfg0 with recovery := true, safe := true } }
    d.Serves mgmtParty 0x2028 ∧ d.stage.active = false ∧ (d.port d.cfg.port).up = true ∧ ({ st0 with dev := d } : State).stageFault (Memory.write [] 0 (fwImage 1)) 176 = none := by
  refine ⟨by unfold Dev.Serves; decide +kernel, by decide +kernel, by decide +kernel, ?_⟩
  unfold State.stageFault fwVerifies fwSigned
  rw [show (Memory.write [] 0 (fwImage 1)).read 0 (fwLength (Memory.write [] 0 (fwImage 1))) = fwImage 1 from by decide +kernel]
  rw [show Config.imageVerify _ (fwImage 1) = true from h]; decide +kernel

/-- Trigger 0 of tenant 0 on track 0 (device time), armed, target `x`, action `a`. -/
def devTrg (x a : W64) : Dev := { dev0 with time := 7, triggers := [(0, { target := x, armed := true, action := a })] }

theorem witness_TriggerRegistersArmAndDisarm :
    (trgIndexOk 0 3 = true ∧ dev0.trgOf 0 3 = some 3 ∧ dev0.trgForeign 0 3 = false ∧ dev0.Serves 0 (trgTargetOff 0 3) ∧ dev0.Serves 0 (trgOff 0 3) ∧ dev0.Serves 0 (trgOff 0 3 + 8)) ∧
    (trgIndexOk 64 1023 = true ∧ dev0.trgOf 64 1023 = some 1023 ∧ dev0.trgForeign 64 1023 = false ∧ dev0.Serves 64 (trgTargetOff 64 1023) ∧ dev0.Serves 64 (trgOff 64 1023 + 8)) ∧
    (dev0.armFault 0 0 { target := 1 } = none ∧ dev0.trgHolds { target := 1 } = false ∧ dev0.trgHolds { target := 0 } = true ∧ dev0.armFault 0 0 { mode := 2 } ≠ none) := by
  unfold Dev.Serves; exact ⟨by decide +kernel, by decide +kernel, by decide +kernel⟩

theorem witness_TriggersFire :
    (∀ a ∈ [0, 1, 6], let d := devTrg 7 (BitVec.ofNat 64 a); d.dueTriggers.head? = some 0 ∧ (d.trg 0).armed = true ∧ d.trgHolds (d.trg 0) = true ∧ d.pwr.state ≤ 1 ∧ (d.trg 0).actType = a ∧ (d.trg 0).interval = 0 ∧ d.trgParty 0 = 0) ∧
    (devTrg 7 1).running (qkey 0 0 0) = none ∧ (let d := devTrg 8 0; d.trgHolds (d.trg 0) = false ∧ d.dueTriggers.head? ≠ some 0) := by decide +kernel

theorem witness_TracksJumpAndArePreset :
    (dev0.trkSource 3 = 6 ∧ dev0.trkValid 3 = true) ∧ (dev0.trkSource 1 = 2 ∧ ({ dev0 with ptp := { valid := true } } : Dev).ptp.valid = true) ∧
    (dev0.trkSource 3 = 6 ∧ dev0.Serves 0 (trkPosOff 0 3) ∧ dev0.cfg.pulseOwner (dev0.trkIndex 3) = some 0 ∧ (dev0.pulse 0).running = none) ∧
    (dev0.trkSource 4 = 6 ∧ dev0.Serves 64 (trkPosOff 64 4) ∧ dev0.cfg.pulseOwner (dev0.trkIndex 4) = none) ∧
    (let d : Dev := { dev0 with pls := { ch := [(0, { running := some {} })] } }; d.Serves 0 (trkPosOff 0 3) ∧ (d.pulse 0).running = some {}) ∧
    (dev0.Serves 64 (trkPosOff 64 3)) ∧
    (dev0.trkSource 2 = 3 ∧ dev0.camLine (dev0.trkIndex 2) < 0xFFFF ∧
      (let d : Dev := { dev0 with time := 0xFFFFFFFF, cam := { ctx := [(0, { extrapolating := true, hdrs := 2, lastLine := 1 })] } }; (d.camCtx (d.trkIndex 2)).extrapolating = true ∧ d.camLine (d.trkIndex 2) = 0xFFFF)) := by
  unfold Dev.Serves; decide +kernel

/-- Port 0 up, PTP following it. -/
def devPtp : Dev := { dev0 with eth := [(0, { up := true })], ptp := { valid := true, slavePort := some 0, master0 := some 5 } }

theorem witness_PtpSlewsStepsAndHoldsOver :
    devPtp.awake = true ∧ devPtp.cfg.ptpOn = true ∧ (devPtp.ethPort 0).up = true ∧ devPtp.ptp.slavePort = some 0 ∧ (100000 : Int).natAbs ≤ devPtp.ptp.stepNs.toNat ∧
    devPtp.ptp.stepNs.toNat < (-100001 : Int).natAbs ∧ (dev0.ptp.slavePort ≠ some 0 ∧ ({ devPtp with ptp := {} } : Dev).ptp.slavePort ≠ some 0) ∧
    devPtp.ptp.valid = true ∧ dev0.ptp.valid = false ∧ devPtp.cfg.ethOn 0 = true ∧ dev0.trkSource 1 = 2 ∧ devPtp.ptp.slewPpm ≠ 0 ∧ (100000 : Int).natAbs ≠ 0 ∧
    ({ dev0 with cfg := {} } : Dev).cfg.ptpOn = false := by decide +kernel

/-- `n` bytes from triples of offset, length and little-endian number. -/
def bytesOf (n : Nat) (l : List (Nat × Nat × Nat)) : List B8 := Memory.read (l.foldl (fun (m : Memory) x => Memory.write m x.1 (leBytes x.2.1 x.2.2)) []) 0 n

theorem witness_ArmTriggerCommand :
    (let c := rec512 [(0, 6), (2, 1023)]; (devList qCompute [c]).Starts qCompute 6 c ∧ (devList qCompute [c]).trgOf 0 (cmdArg c) = none) ∧
    (let c := rec512 [(0, 6), (2, 3), (24, 9)]; (devList qCompute [c]).Starts qCompute 6 c ∧ (devList qCompute [c]).trgOf 0 (cmdArg c) = some 3) := by
  unfold Dev.Starts; decide +kernel

theorem witness_CountersAreSelectedAndCleared_management :
    (∀ x ∈ [(0, 2047), (1, 63), (2, 0)], counterExists x.1 x.2 = true ∧ eventKnown x.1 1 = true) ∧
    dev0.Serves mgmtParty (eventOff 0 2047) ∧ dev0.Serves mgmtParty (eventOff 0 0) ∧ eventKnown 0 0xFF = false ∧ (fld (0x7F7F01#64) 8 7 = 0x7F ∧ fld (0x7F7F01#64) 16 7 = 0x7F) ∧
    (dev0.cfg.tenOn 0 = true ∧ dev0.cfg.regionPart (counterRegion 0 0) = some (dev0.cfg.tenPart 0) ∧ dev0.cfg.tenCounterRead 0 = true) ∧
    dev0.cfg.regionPart (counterRegion 0 2047) ≠ some (dev0.cfg.tenPart 0) ∧ (st0.latch = none ∧ (dev0.counter 0 0).owner = 0x7F ∧ (dev0.counter 0 0).filter = 0x7F) := by
  unfold Dev.Serves; decide +kernel

/-- Periodic snapshots of tenant 0 every 16 µs into a ring that is on, the head just behind the tail or not. -/
def devSnap (full : Bool) : Dev :=
  { dev0 with tenants := [(0, { serving := true, vfEnabled := true, snapPeriod := 4, snapSel := 1, snapRing := { enable := true, head := if full then 1 else 0 } })] }

theorem witness_CountersAreSelectedAndCleared_tenants :
    (dev0.cfg.tenCounterRead 0 = true ∧ dev0.Serves 0 0x1000 ∧ dev0.cfg.regionPart 0 = some (dev0.cfg.tenPart 0) ∧ dev0.cfg.regionPart 1 ≠ some (dev0.cfg.tenPart 0)) ∧
    (dev0.Serves 0 0x1040 ∧ 0 < setWidth (dev0.ten 0).pmcKind ∧ (dev0.counter 0 0).owner ≠ 0) ∧
    (let d : Dev := { dev0 with pmc := { cl := [(0, { owner := 0 })] } }; d.Serves 0 0x1040 ∧ (d.counter 0 0).owner = 0 ∧ eventKnown 0 1 = true ∧ eventKnown 0 0xF = false) ∧
    ((dev0.periodOf 0).1 < 4 ∧ 4 ≤ ((devSnap true).periodOf 0).1 ∧ (devSnap true).time.toNat % (2 ^ 4 * 1000) = 0 ∧ ((devSnap true).ten 0).snapAt = none ∧ (devSnap true).pwr.state ≤ 1 ∧ ((devSnap true).periodOf 0).2 ≠ 0 ∧ ((devSnap true).snapRing 0).enable = true ∧
      ((devSnap true).snapRing 0).full = true ∧ ((devSnap false).snapRing 0).full = false) ∧
    (let d : Dev := { dev0 with fw := { trace := [(173, { enable := true })] } }; 173 < 174 ∧ (d.fw.trace.get 173 {}).enable = true ∧ d.coresOn = true ∧ d.coreOut (traceCore 173) = false ∧
      (d.fw.trace.get 173 {}).log = false) := by
  unfold Dev.Serves; decide +kernel

/-- An Ethernet frame to the MAC address of port 0 of an EtherType, with a payload. -/
def ethFrame (ty : Nat) (b : List B8) : List B8 := [2, 0, 0, 0, 0, 1] ++ [2, 0, 0, 0, 0, 9] ++ beBytes 2 ty ++ b

theorem witness_EthernetLinksAndFrames :
    (dev0.awake = true ∧ dev0.cfg.ethOn 0 = true ∧ dev0.cfg.ethOn 1 = false ∧ (dev0.ethPort 0).up = false ∧ (devPtp.ethPort 0).up = true ∧ devPtp.cfg.ethVlanOn 0 = false ∧
      devPtp.mdl.slots = []) ∧
    (let f := ethFrame 0x9000 []; (leAt (4#8 :: f) 0 1).testBit 0 = false ∧ (4#8 :: f).take 6 ≠ cfg0.ethMac 0 ∧ f.take 6 = cfg0.ethMac 0 ∧ beNat ((f.drop 12).take 2) = 0x9000) ∧
    (∀ op ∈ [1, 2], let f := ethFrame 0x0806 (List.replicate 6 0 ++ beBytes 2 op ++ List.replicate 16 0 ++ cfg0.ethIp 0)
      f.take 6 = cfg0.ethMac 0 ∧ beNat ((f.drop 12).take 2) = 0x0806 ∧ ((f.drop 14).drop 24).take 4 = cfg0.ethIp 0 ∧ beNat (((f.drop 14).drop 6).take 2) = op) ∧
    (let f := ethFrame 0x0800 ([0x45, 0, 0, 28] ++ List.replicate 5 0 ++ [1] ++ List.replicate 6 0 ++ cfg0.ethIp 0 ++ [8, 0, 0, 0, 0, 0, 0, 0]); let b := f.drop 14
      f.take 6 = cfg0.ethMac 0 ∧ beNat ((f.drop 12).take 2) = 0x0800 ∧ leAt b 9 1 = 1 ∧ (b.drop 16).take 4 = cfg0.ethIp 0 ∧
      leAt ((b.take (beNat ((b.drop 2).take 2))).drop (4 * (leAt b 0 1 % 16))) 0 1 = 8) ∧
    (beNat ((ethFrame 0x8808 []).drop 12 |>.take 2) = 0x8808 ∧ beNat (cfg0.ethIp 0) / 268435456 ≠ 14 ∧ dev0.hopFor 0 (cfg0.ethIp 0) ≠ 0 ∧ (dev0.ethPort 0).arp.get (dev0.hopFor 0 (cfg0.ethIp 0)) 0 = 0 ∧
      (dev0.ethPort 0).waiting = [] ∧ (({ arp := [(5, 1)] } : EthPort).arp.get 5 0 ≠ 0)) := by decide +kernel

theorem witness_DrivesRetryFailAndAreRead :
    (∀ r ∈ [false, true], let d : Dev := { dev0 with mem := { nvmePresent := 2, nvmeRetry := [(1, r)] } }
      d.mem.nvmePresent.getLsbD 1 = true ∧ d.mem.nvmeRetry.get 1 false = r ∧ d.mem.nvmePresent.getLsbD 0 = false ∧ d.awake = true) ∧
    (dev0.mem.smartAt.get 1 none = none ∧ ¬ ((1#64).toNat + 3600000000000 ≤ dev0.time.toNat)) ∧ (dev0.port 5).up = false ∧ (({ dev0 with ports := [(5, { up := true })] } : Dev).port 5).up = true := by decide +kernel

/-- A STEP_PROGRAM or TUNE command on region 0 with the model slot `s`, and a device whose queue has it with the steps `ks`. -/
def stepCmd (op s : Nat) : W512 := rec512 [(0, op), (2, 1), (28, s), (36, 1), (40, 0x10000), (48, 2)]
def devSteps (op s : Nat) (ks : List W512) : Dev :=
  { dev0 with queues := [(qCompute, { lists := [{ cmds := [stepCmd op s], progs := [(0, 0 :: ks)] }] })], mdl := { slots := [(0, { gens := [{ number := 1 }] })] } }
/-- A header of an adapter of rank 1 with no tensors, one tile long, whose read_only bit is `b`, at 0x10000. -/
def adapterHead (b slot : Nat) : List B8 := bytesOf 64 [(0, 4, 0x50444151), (4, 2, 1), (6, 2, b), (8, 1, slot), (9, 1, 1), (0x20, 8, 0x4000)]
def devTune (b : Nat) (held : Bool) : Dev :=
  let d := devSteps 0x11 0 [rec512 [(0, 1)]]
  ({ d with tenants := [(0, { serving := true, vfEnabled := true, adapters := [(1, { heldByTune := held })] })] }.deviceWrite 0 0 0x10000 (adapterHead b 0))

theorem witness_StepProgramsStartAndTuneIterates_programs :
    (let c := stepCmd 0x10 3; let d := devSteps 0x10 3 [0]; d.Starts qCompute 0x10 c ∧ d.computeTurn qCompute (cmdMask c) = true ∧
      ((workSlot c).bind ((d.startCmd qCompute c).modelGone 0)).isSome = true) ∧
    (let c := stepCmd 0x10 0; let d := devSteps 0x10 0 [rec512 [(0, 1)]]; let d0 := d.startCmd qCompute c
      d.Starts qCompute 0x10 c ∧ d.computeTurn qCompute (cmdMask c) = true ∧ (workSlot c).bind (d0.modelGone 0) = none ∧ (d0.progOf qCompute c).steps ≠ [] ∧ (d0.progOf qCompute c).regions ≠ [] ∧ (d0.progOf qCompute c).slot < 8) ∧
    (let c := stepCmd 0x11 0; ∀ g ∈ [({ mask := 1, steps := [0] } : Prog), { iters := 1, adapter := 1, stateAddr := 0x10000 }, { iters := 2, adapter := 1, stateAddr := 0x10000 }],
      let d := devRun qCompute c { prog := some g }; d.Runs qCompute { cmd := c, prog := some g } { cmds := [c] } [] ∧ cmdOp c = 0x11 ∧ g.over = decide (g.steps = []) ∧
        (d.writeMem (d.qView qCompute) (g.stateAddr + 0x10) (leBytes 8 (g.itersDone + 1))).2 = none) := by
  unfold Dev.Starts Dev.Runs; decide +kernel

theorem witness_StepProgramsStartAndTuneIterates_tune :
    (let c := stepCmd 0x11 0; let d := devTune 0 false; let d0 := d.startCmd qCompute c; let r := d0.readMem (d.qView qCompute) 0x10000 64
      d.Starts qCompute 0x11 c ∧ d.computeTurn qCompute (cmdMask c) = true ∧ (workSlot c).bind (d0.modelGone 0) = none ∧ okay r = true ∧
      r.1.adapterBad (d.qView qCompute) c (adapterHead 0 0) = false ∧ ((d0.ten 0).adapters.get 1 {}).heldByTune = false ∧ r.1.live = [] ∧
      okay (r.1.readMem (d.qView qCompute) (0x10000 + leAt (adapterHead 0 0) 0x28 4) 0) = true ∧ r.1.tuneSeqsOf 0 0 [] = some [] ∧ r.1.tuneSeqsOf 0 0 [5] = none ∧ okay (r.1.tuneSpace (r.1.progOf qCompute c)) = true ∧
      r.1.adapterBad (d.qView qCompute) c (adapterHead 0 1) = true) ∧
    ((adapterHead 1 0).length = 64 ∧ (leAt (adapterHead 1 0) 6 2).testBit 0 = true) ∧
    ((((devTune 0 true).startCmd qCompute (stepCmd 0x11 0)).ten 0).adapters.get 1 {}).heldByTune = true := by
  unfold Dev.Starts; decide +kernel

theorem witness_SequencersIssueHoldAndRelease :
    (let g : Prog := { mask := 1, steps := [rec512 [(0, 2), (2, 1)], rec512 [(0, 0)], rec512 [(0, 5), (2, 1)], 0] }
      let d := devRun qCompute (stepCmd 0x10 0xFF) { prog := some g }; let at_ (n : Nat) : Prog := { g with pcs := [(0, n)] }
      d.prog (.queue qCompute) = some g ∧ d.clocked g.partition = true ∧ g.canIssue 0 = true ∧ (at_ 1).canIssue 0 = false ∧
      (at_ 1).next 0 (fun x => decide (stepKind x = 0)) = true ∧ ((at_ 1).advance 0).over = false ∧ (at_ 2).next 0 (fun x => decide (stepKind x = 5)) = true ∧
      ({ (at_ 2).advance 0 with holds := (at_ 2).syncHolds ((at_ 2).step 2) 0 } : Prog).over = false) ∧
    (let h : Hold := { scope := 1, region := 0, step := 1 }; let g : Prog := { mask := 1, steps := [0, 0, 0], pcs := [(0, 2)], holds := [h] }
      g.holds.find? g.holdDone = some h ∧ (g.released h).over = false ∧
      ({ g with units := [{ kind := 2, step := 0 }] } : Prog).holds.find? ({ g with units := [{ kind := 2, step := 0 }] } : Prog).holdDone = none) ∧
    (let d : Dev := { dev0 with regions := [(0, { waiting := [(1, 0), (0, 3)] })] }; d.clocked ((d.cfg.regionPart 0).getD 16) = true ∧ (d.region 0).waiting ≠ [] ∧ (d.region 1).waiting = []) ∧
    (let u : UnitRun := { kind := 2 }; let d (g : Prog) := devRun qCompute (stepCmd 0x10 0xFF) { prog := some g }
      let a : Prog := { mask := 1, steps := [0], units := [u] }; let b : Prog := { units := [u] }; let c : Prog := { units := [u, { kind := 3 }] }
      (d a).prog (.queue qCompute) = some a ∧ ({ a with units := [] } : Prog).over = false ∧ ({ b with units := [] } : Prog).over = true ∧ b.fail = none ∧ 8 ≤ b.adapter ∧
      c.units.filter (fun x => decide (x ≠ u) && !x.parked) ≠ [] ∧ b.units.filter (fun x => decide (x ≠ u) && !x.parked) = [] ∧
      (d b).running qCompute = some { cmd := stepCmd 0x10 0xFF, prog := some b }) := by decide +kernel

/-- A vector step of an operation on tensors of one row and 16 columns, in a program of region 0 whose step runs on cluster 0. -/
def vecProg (op : Nat) : Prog := { mask := 1, steps := [rec512 [(0, 2), (1, op), (2, 1), (4, 0x22), (8, 1), (10, 16), (24, 1)]], pcs := [(0, 1)], units := [{ kind := 2 }] }
def devProg (g : Prog) : Dev := devRun qCompute (stepCmd 0x10 0xFF) { prog := some g }
/-- The same with the start of cluster 0's buffer owned by tenant 5. -/
def devForeign (g : Prog) : Dev := { devProg g with mem := { tags := [(tagNo (clusterDpa 0 0), { owner := some 5 })] } }
/-- The operation codes of the vector rows. -/
def vecOps : List Nat := [1, 2, 3, 4, 5, 6, 7, 8, 9, 10, 11, 12, 16, 17, 18, 19, 20, 21, 22, 23, 24]

theorem witness_VectorStepsWriteTheirRows :
    vecOps.length = 21 ∧
    (∀ op ∈ vecOps, let g := vecProg op; let d := devProg g; let v := vecDesc (g.step 0)
      d.runProg (.queue qCompute) = some g ∧ g.findUnit 2 0 (fun w => decide (bytesAt w 1 1 = op)) = some { kind := 2 } ∧ g.findUnit 2 1 (fun w => decide (bytesAt w 1 1 = op)) = none ∧
      okay (d.readTensor g.party (clusterDpa 0 0 + v.src0) v.inF v.rows v.cols) = true ∧ okay ((devForeign g).readTensor g.party (clusterDpa 0 0 + v.src0) v.inF v.rows v.cols) = false ∧
      okay (d.readTensor g.party (clusterDpa 0 0 + v.src1) v.inF 2 v.cols) = true ∧ okay (d.bufCodes g.party (clusterDpa 0 0 + v.src1) (4 * v.rows) 32) = true ∧
      okay ((devForeign g).bufCodes g.party (clusterDpa 0 0 + v.src1) (4 * v.rows) 32) = false) ∧
    result (((devProg (vecProg 0x17)).bufWrite 0 (clusterDpa 0 0) [1]).bufCodes 0 (clusterDpa 0 0) 4 32) = some [1] := by decide +kernel

/-- A program of one step that runs as a unit of kind `k` on cluster 0 or region 0. -/
def unitProg (k : Nat) (l : List (Nat × Nat)) : Prog := { mask := 1, steps := [rec512 ((0, k) :: (2, 1) :: l)], pcs := [(0, 1)], units := [{ kind := k }] }
/-- The device with partition 0 on the first regions of dies 0 and 1, so that the ring reaches a region of it. -/
def ringTwo (d : Dev) : Dev := { d with cfg := { cfg0 with secs := cfg0.secs.set 2 [(0, 0x11), (3, 4), (4, 64)] } }
/-- A MATMUL of a 16 × 16 × 16 FP16 product on engine 0. -/
def matProg : Prog := unitProg 1 [(4, 1), (5, 0x22), (8, 1), (10, 16), (12, 16)]

theorem witness_ClusterAndRegionStepsEndTheirUnits_clusters :
    (let d := devProg matProg; d.runProg (.queue qCompute) = some matProg ∧ matProg.findUnit 1 0 (fun _ => true) = some { kind := 1 } ∧ (vecProg 1).findUnit 1 0 (fun _ => true) = none) ∧
    (∀ a ∈ [0, 0x10000000000], let g := unitProg 3 [(8, 2 * 2 ^ 0), (10, 0)]; let d := devProg g; d.runProg (.queue qCompute) = some g ∧ g.findUnit 3 0 (fun _ => true) = some { kind := 3 } ∧
      d.busyIn g.view a 64 = false ∧ decide ((d.moveBytes g.view .memory (.cluster 0) a 0 64).2.1 = none) = decide (a = 0)) ∧
    (∀ b ∈ [false, true], let g := unitProg 4 [(14, 1)]; let d := if b then devForeign g else devProg g
      d.runProg (.queue qCompute) = some g ∧ g.findUnit 4 0 (fun _ => true) = some { kind := 4 } ∧ okay (d.bufCodes g.party (clusterDpa 0 0) 4 32) = !b) ∧
    (∀ b ∈ [false, true], let g := unitProg 7 [(16, 64)]
      let d : Dev := if b then { devProg g with mem := { tags := [(tagNo (regionDpa 0 0), { owner := some 5 })] } } else devProg g
      d.runProg (.queue qCompute) = some g ∧ g.findUnit 7 0 (fun _ => true) = some { kind := 7 } ∧ 4 ∉ d.cfg.partRegions 0 ∧ (ringTwo d).runProg (.queue qCompute) = some g ∧ 4 ∈ (ringTwo d).cfg.partRegions 0 ∧
        okay ((ringTwo d).bufRead g.party (regionDpa 0 0) 64) = !b) ∧
    (let d : Dev := { dev0 with halo := [(3, { frames := [(0, [4])] })] }; (d.receive 3 [1, 2]).2.2 = some 0 ∧ (dev0.receive 3 [1, 2]).2.2 = none ∧ (dev0.stop 3).frames = []) ∧
    (let v := matDesc (matProg.step 0); v.zpMode ≠ 1 ∧ v.scaleEn = false ∧ v.accIn = false ∧ v.k = 16) := by decide +kernel

/-- A manifest with one attention head, one shard and one table tensor of 4,096 bytes, and a vocabulary of `n` tokens. -/
def manifest1 (n : Nat) : List B8 :=
  bytesOf 480 ([(0, 4, 0x424C5251), (4, 2, 1), (8, 4, 480), (0x0C, 2, 1), (0x10, 4, 1), (0x14, 2, 1), (0x18, 8, 4096), (0x20, 4, 4096), (0x62, 1, 1), (0x64, 2, 32), (0x6C, 4, 64),
    (304, 1, 1), (352, 1, 3), (352 + 24, 8, 4096)] ++ (if n = 0 then [] else [(0xA0, 4, n), (0xBC, 2, 16), (0xBE, 2, 64), (0xC0, 2, 1)]))
/-- An ATTEND (0) or APPEND (1) step of `n` items of cluster 0, on slot 0 whose current generation has that manifest. -/
def attProg (k n a : Nat) : Prog := { unitProg 6 [(1, k), (8, a), (0x10, n)] with hdr := rec512 [(12, 0x10000)], slot := 0, gen := 1 }
def devAtt (k n a : Nat) : Dev :=
  ({ devProg (attProg k n a) with mdl := { slots := [(0, { gens := [{ number := 1, manifest := manifest1 0 }] })] } }).deviceWrite 0 0 0 (bytesOf 32 [(8, 2, 1)])

theorem witness_ClusterAndRegionStepsEndTheirUnits_attention :
    ∀ k ∈ [0, 1], (∀ n ∈ [0, 1], let g := attProg k n 0; let d := devAtt k n 0; let m := d.progManifest g; let s := g.step 0; let r := d.readItems g m s
      d.runProg (.queue qCompute) = some g ∧ g.findUnit 6 0 (fun w => decide (bytesAt w 1 1 = k)) = some { kind := 6 } ∧ (result r).map (fun b => let items := r.1.itemsFor m g s b 0
        (items.length, okay (r.1.attendAll (.queue qCompute) g m s 0 0 items), okay (r.1.appendAll (.queue qCompute) g m s 0 items))) = some (n, decide (n = 0), decide (n = 0))) ∧
    (let g := attProg k 1 0x10000000000; let d := devAtt k 1 0x10000000000; d.runProg (.queue qCompute) = some g ∧ okay (d.readItems g (d.progManifest g) (g.step 0)) = false) := by decide +kernel

/-- A COPY of 64 bytes with the flags `x` from address `a`, and devices that have it: links up, sealed or not, with a session or not. -/
def copyCmd (x a : Nat) : W512 := rec512 [(0, 0x20), (2, x), (8, a), (24, 64)]
def devCopy (x a : Nat) (sealed session : Bool) : Dev :=
  let d := devList qData [copyCmd x a]
  { d with cfg := if sealed then { cfg0 with secs := cfg0.secs.set 10 [(0x40, 1)] } else cfg0
           tenants := [(0, { serving := true, vfEnabled := true, busMaster := true, session := if session then some { sid := 7 } else none })] }
/-- The record of 64 bytes behind host data that a sealed copy of them to address 0 needs, with the tag `t`. -/
def sealRec (t : Nat) : List B8 := bytesOf 64 [(0, 16, t), (16, 8, 1), (24, 8, 64), (32, 4, 7), (37, 1, 2)]

/-- The same with the COPY running, and with another queue of the Move engine that has a COPY to start and has not had its turn. -/
def devCopyRun (x a : Nat) (sealed session : Bool) : Dev :=
  { devCopy x a sealed session with queues := [(qData, { lists := [{ cmds := [copyCmd x a] }], running := some { cmd := copyCmd x a } })] }
def withRival (d : Dev) (served : List Nat) : Dev :=
  { d with queues := d.queues.set (qkey 0 1 1) { lists := [{ cmds := [copyCmd 0 0] }] }, parts := [(0, { moveServed := served })] }

theorem witness_CopiesMoveAndAreSealed :
    (∀ x ∈ [0, 1, 2, 3], (devCopy x 0 false false).Starts qData 0x20 (copyCmd x 0) ∧
      (devCopyRun x 0 false false).Runs qData { cmd := copyCmd x 0 } { cmds := [copyCmd x 0] } [] ∧ cmdOp (copyCmd x 0) = 0x20 ∧ (devCopyRun x 0 false false).hostReachable 0 = true ∧
      (devCopyRun x 0 false false).cfg.confidential 0 = false ∧ (copyOf (copyCmd x 0)).parts = [(0, 64)]) ∧
    ({ devCopyRun 1 0 false false with ports := [] } : Dev).hostReachable 0 = false ∧
    (∀ a ∈ [0, 0x10000000000], let d := devCopyRun 0 a false false; let y := Dev.eachPart (fun d i => d.copyPart qData [] (copyOf (copyCmd 0 a)) i) d ((List.range 1).take (d.turnsNow qData 0 1)) 0
      (d.takeTurn qData).isSome = true ∧ y.2.1 = (if a = 0 then 1 else 0) ∧ decide (y.2.2 = .moved) = decide (a = 0) ∧ decide (y.2.2 = .waits) = false) ∧
    ((withRival (devCopyRun 0 0 false false) [qData]).takeTurn qData).isNone = true ∧ (withRival (devCopyRun 0 0 false false) []).turnsNow qData 0 4 = 1 ∧
    (∀ x ∈ [1, 2], ∀ b ∈ [false, true], let d := devCopyRun x 0 true b; d.Runs qData { cmd := copyCmd x 0 } { cmds := [copyCmd x 0] } [] ∧ d.cfg.confidential 0 = true ∧
      d.session 0 = (if b then some { sid := 7 } else none) ∧ d.hostReachable 0 = true ∧ (d.takeTurn qData).isSome = true ∧ okay (d.readMem (d.qView qData) 0 64) = true ∧
      (d.writeMem (d.qView qData) 0 (List.replicate 64 0)).2 = none ∧ d.hostRead 0 ((sealRec 3).mapIdx (fun i b => (64 + i, b))) 64 64 = sealRec 3) ∧
    okay ((devCopyRun 2 0x10000000000 true true).readMem { party := 0, part := 0 } 0x10000000000 64) = false ∧
    (leAt (sealRec 3) 32 4 = 7 ∧ leAt (sealRec 3) 37 1 = 2 ∧ leAt (sealRec 3) 24 8 = 64 ∧ leAt (sealRec 3) 40 8 = 0 ∧ 0 < leAt (sealRec 3) 16 8) ∧
    (∀ b ∈ [false, true], let v : View := { party := 0, part := 0 }; let d : Dev := { dev0 with mem := { tiles := [(dev0.keyAt v 0, some { owner := 0, busy := b })] } }; d.busyIn v 0 64 = b) ∧
    ((cmdArg (copyCmd 1 0)).testBit 0 = true ∧ (cmdArg (copyCmd 2 0)).testBit 0 = false ∧ dev0.running qData = none ∧ dev0.startable qData 0x20 = none ∧
      (devCopy 2 0 false false).startable qData 0x20 = some (copyCmd 2 0) ∧
      (let d : Dev := { devCopyRun 1 0 false false with time := 50000000 }; d.Runs qData { cmd := copyCmd 1 0 } { cmds := [copyCmd 1 0] } [] ∧ ({ cmd := copyCmd 1 0 } : Running).started.toNat + 50000000 ≤ d.time.toNat)) := by
  unfold Dev.Starts Dev.Runs
  exact ⟨by decide +kernel, by decide +kernel, by decide +kernel, by decide +kernel, by decide +kernel, by decide +kernel, by decide +kernel, by decide +kernel, by decide +kernel, by decide +kernel⟩

/-- The two outcomes of the check of a record's tag: the tag is a free function, so both stand open. -/
theorem witness_CopiesMoveAndAreSealed_tag (k : W256) (n a c : List B8) (t : List B8) :
    leBytes 16 (Config.gcmTag k n a c).toNat = t ∨ leBytes 16 (Config.gcmTag k n a c).toNat ≠ t := Classical.em _

/-- A SCATTER or GATHER of one element of 64 bytes in the form `f`, its table at 0; with a sequence of tenant 0 in state `st` in record 0. -/
def elemCmd (op f : Nat) : W512 := rec512 [(0, op), (2, f), (16, 0x8000), (24, 0x10000), (32, 1), (36, 1)]
def devElem (op f st : Nat) : Dev := { devList qData [elemCmd op f] with tok := { seqs := [(0, some { id := 0, state := st })] } }

/-- The same with the command running, and a sequence with no page yet. -/
def devElemRun (op f st : Nat) : Dev := { devElem op f st with queues := [(qData, { lists := [{ cmds := [elemCmd op f] }], running := some { cmd := elemCmd op f } })] }
/-- A MIGRATE of one tile, running, its tile busy or not. -/
def devMigrate (b : Bool) : Dev :=
  { devRun qData (rec512 [(0, 0x23), (16, 1)]) {} with mem := { usableMib := 1024, tiles := [(dev0.keyAt { party := 0, part := 0 } 0, some { busy := b })] } }

theorem witness_ElementsAndTilesMove :
    (∀ op ∈ [0x21, 0x22], ∀ f ∈ [0, 1], let c := elemCmd op f; let d := devElemRun op f 0; (devElem op f 0).Starts qData op c ∧ d.Runs qData { cmd := c } { cmds := [c] } [] ∧ cmdOp c = op ∧
      (cmdArg c).testBit 0 = decide (f = 1) ∧ okay (d.readMem (d.qView qData) (elems c).table (32 * (elems c).count)) = true ∧ (d.takeTurn qData).isSome = true) ∧
    okay (dev0.readMem { party := 0, part := 0 } 0x10000000000 32) = false ∧
    (∀ st ∈ [0, 1, 3, 6], (devElem 0x21 1 st).elemWaits 0 (kvEntry (List.replicate 32 0) 0) = decide (st ≠ 0)) ∧ (devElem 0x21 1 0).namedSeqs (List.replicate 32 0) 1 = [0] ∧
    (let v : View := { party := 0, part := 0 }; let x := elems (elemCmd 0x21 0); dev0.busyIn v x.table 4 = false ∧ dev0.busyIn v x.dense x.size = false ∧ okay (dev0.readMem v x.table 4) = true ∧
      okay (dev0.readMem v x.dense x.size) = true) ∧
    (let c := rec512 [(0, 0x23)]; let d := devList qData [c]; d.Starts qData 0x23 c ∧ (d.startCmd qData c).slotBusy 0 0 = false) ∧
    (let c := rec512 [(0, 0x23)]; let d : Dev := { devList qData [c] with tenants := [(0, { serving := true, vfEnabled := true, progress := [(0, { busy := true })] })] }
      d.Starts qData 0x23 c ∧ (d.startCmd qData c).slotBusy 0 0 = true) ∧
    (let c := rec512 [(0, 0x23), (16, 1)]; (devMigrate false).Runs qData { cmd := c } { cmds := [c] } [] ∧ cmdOp c = 0x23 ∧ ((devMigrate false).takeTurn qData).isSome = true) ∧
    (∀ b ∈ [false, true], let v : View := { party := 0, part := 0 }; let d := devMigrate b; d.busyIn v 0 1 = b ∧ d.tile (d.keyAt v 0) = some { busy := b } ∧
      d.mem.tiles.set (d.keyAt v 0) (some { busy := b }) = d.mem.tiles ∧ (d.migrateTile v 1 0).2 = none) := by
  unfold Dev.Starts Dev.Runs
  exact ⟨by decide +kernel, by decide +kernel, by decide +kernel, by decide +kernel, by decide +kernel, by decide +kernel, by decide +kernel, by decide +kernel, by decide +kernel⟩

/-- The serving table of a TUNE's model is unmapped or not there to be read. -/
theorem witness_StepProgramsStartAndTuneIterates_space :
    let g : Prog := { slot := 0, gen := 1 }; let d : Dev := { dev0 with mem := { tiles := [(tileKey 0 (windowBase 0 / tileSize + 1) 1, some { owner := 5 })] }, mdl := { slots := [(0, { gens := [{ number := 1, manifest := manifest1 8 }] })] } }
    okay (d.tuneSpace g) = false ∧ okay (dev0.tuneSpace g) = true := by decide +kernel

/-- The queue program of the attention steps with its sequence: record 0, which holds the positions of `x`, with a page of its own. -/
def devAttSeq (k : Nat) (x : Seq) : Dev :=
  { devAtt k 1 0 with queues := (devProg { attProg k 1 0 with tuneSeqs := [0] }).queues, tok := { seqs := [(0, some x)] }
                      kv := { lists := [(0, some { refs := 1, pages := [(0, some 0)] })], pages := [(0, some {})] } }

theorem witness_ClusterAndRegionStepsEndTheirUnits_items : ∀ k ∈ [0, 1],
    let g := { attProg k 1 0 with tuneSeqs := [0] }; let d := devAttSeq k { tail := 1 - k, blocks := [(0, some 0)] }; let m := d.progManifest g; let s := g.step 0; let r := d.readItems g m s
    d.runProg (.queue qCompute) = some g ∧ (result r).map (fun b => let items := r.1.itemsFor m g s b 0
      (items.length, if k = 0 then okay (r.1.attendAll (.queue qCompute) g m s 0 0 items) else okay (r.1.appendAll (.queue qCompute) g m s 0 items))) = some (1, true) := by decide +kernel

/-- A BIND (0x30), UNBIND (0x31) or PARAM_COMMIT (0x32) of context or array 0, and a device with a state of that context and array. -/
def mediaCmd (op arg : Nat) : W512 := rec512 [(0, op), (2, arg), (8, 0x10000), (16, 0x20000), (24, 1)]
def devMedia (op arg : Nat) (c : CamCtx) (a : ArrayState) : Dev :=
  { devList qMedia [rec512 [(0, op), (2, arg), (16, 0x20000), (24, 1)]] with cam := { ctx := [(0, c)] }, aud := { arrays := [(0, a)] } }
/-- A ring that stands. -/
def liveRing : OutBind := { pending := false }
/-- A parameter block for 16 × 16 pixels whose outputs are 16 × 16, as memory, and a device that holds it at address 0x10000. -/
def paramCells : Memory :=
  ([(0, 4, 0x42504351), (4, 2, 1), (0x40, 2, 1)] ++ (List.range 12).map (fun i => (0x88 + 64 * (i / 4) + 2 * (i % 4), 2, 16)) : List (Nat × Nat × Nat)).foldl
    (fun (m : Memory) x => Memory.write m x.1 (leBytes x.2.1 x.2.2)) []
def devParam : Dev :=
  { devList qMedia [rec512 [(0, 0x32), (2, 1), (8, 0x10000)]] with mem := { usableMib := 1024, phys := paramCells, tiles := [(dev0.keyAt { party := 0, part := 0 } 0x10000, some {})] } }

theorem witness_MediaCommandsBindAndCommit_rings :
    (∀ arg ∈ [0x80, 0], let c := rec512 [(0, 0x30), (2, arg), (16, 0x20000), (24, 1)]; let d := devMedia 0x30 arg {} {}; d.Starts qMedia 0x30 c ∧ (cmdArg c).testBit 7 = decide (arg ≠ 0) ∧
      bytesAt c 8 1 = 0 ∧ bytesAt c 9 1 < 2 ∧ (d.array 0).ring = none ∧ (d.camCtx 0).out 0 = none) ∧
    (∀ arg ∈ [0x80, 0], let c := rec512 [(0, 0x31), (2, arg), (16, 0x20000), (24, 1)]; let d := devMedia 0x31 arg { outs := [(0, some liveRing)] } { ring := some liveRing }
      d.Starts qMedia 0x31 c ∧ (d.array 0).ring = some liveRing ∧ (d.camCtx 0).out 0 = some liveRing ∧ liveRing.pending = false ∧ liveRing.unbind = none ∧ liveRing.leaving = false) ∧
    (let c := rec512 [(0, 0x30), (2, 0x80), (8, 1)]; (devList qMedia [c]).Starts qMedia 0x30 c ∧ bytesAt c 8 1 ≠ 0) ∧
    ((scaler [] 0).enable = false ∧ formatTakes 4 0 = false) := by
  unfold Dev.Starts; decide +kernel

theorem witness_MediaCommandsBindAndCommit_parameters :
    (let c := rec512 [(0, 0x32), (2, 1), (8, 0x10000000000)]; let d := devList qMedia [c]; d.Starts qMedia 0x32 c ∧ okay ((d.startCmd qMedia c).readMem (d.qView qMedia) (bytesAt c 8 8) 0xA80) = false) ∧
    (let c := rec512 [(0, 0x32), (2, 1), (8, 0x10000)]; let d := devParam; let r := (d.startCmd qMedia c).readMem (d.qView qMedia) 0x10000 0xA80
      d.Starts qMedia 0x32 c ∧ (result r).map (fun b => (blockFault b (d.cfg.ctxWidth 1) (d.cfg.ctxHeight 1), d.keepsOutputs 1 b)) = some (none, true) ∧ (d.camCtx 1).setsBusy = false) ∧
    blockFault [] 16 16 ≠ none ∧
    (let d : Dev := { dev0 with cam := { ctx := [(1, { outs := [(0, some liveRing)], inFlight := [{ setNo := 1 }, { setNo := 2 }] })] } }; d.keepsOutputs 1 [] = false ∧ (d.camCtx 1).setsBusy = true) := by
  unfold Dev.Starts
  exact ⟨by decide +kernel, by decide +kernel, by decide +kernel, by decide +kernel⟩

/-- Context 0 receiving frame 0, of which `n` lines have come and stand in the line pool. -/
def devFrame (n : Nat) (fe : Bool) : Dev :=
  { dev0 with cam := { ctx := [(0, { fsCount := 1, active := true, inFlight := [{ lines := n, fe := fe }] })], pool := (List.range n).map (fun k => { num := k, samples := [1, 2, 3, 4] }) } }

theorem witness_CamerasReceiveLinesAndFrames :
    (dev0.awake = true ∧ dev0.cfg.camPortOn 0 = true ∧ 0 ∈ dev0.cfg.contextsOn 0 0 ∧ dev0.cfg.camPortOn 1 = false ∧ dev0.cfg.ctxType 0 ≠ 0x2B) ∧
    ((((devFrame 0 false).camCtx 0).active = true ∧ ((devFrame 0 false).camCtx 0).current = some {} ∧ (0 : Nat) ≠ dev0.cfg.ctxHeight 0 ∧ ((devFrame 0 false).camCtx 0).discard = false)) ∧
    (let d : Dev := { dev0 with cam := { ctx := [(0, { fsCount := 1, active := true, inFlight := [{ lines := 1, done := 1 }] })] } }; let f : Frame := { lines := 1, done := 1 }
      (d.camCtx 0).current = some f ∧ f.lines = d.cfg.ctxHeight 0 ∧ (d.camCtx 0).inFlight.find? (fun x => decide (x.no = f.no)) = some f ∧ f.done = d.cfg.ctxHeight 0) ∧
    (dev0.cfg.contextsOn 0 0).find? (fun k => decide (dev0.cfg.ctxType k = 0x2A)) = some 0 ∧
    ([1#16, 2, 3, 4].length = dev0.cfg.ctxWidth 0 ∧ 0 < dev0.cfg.ctxHeight 0 ∧ poolUse (devFrame 0 false).cam.pool + 64 ≤ poolSize) ∧
    (∀ fe ∈ [false, true], let d := devFrame 1 fe; d.awake = true ∧ d.nextBatch = some 0 ∧ d.readyBatch 0 = some ({ lines := 1, fe := fe }, 1)) ∧
    dev0.nextBatch ≠ some 0 := by decide +kernel

/-- A sensor list of sensor 0 with one value of class 0, stamped or not. -/
def sensorList (stamped : Bool) : List B8 := bytesOf 64 [(0, 1, 1), (2, 1, if stamped then 1 else 0), (4, 4, 9)]
def devI3c (x : I3c) (valid : Nat) : Dev := { dev0 with cam := { i3c := [(0, x)], ctx := [(0, { fsValid := valid })] } }

theorem witness_SensorListsRunAndSetGenerations :
    (let d := devI3c { queue := [(1, [])] } 0; d.awake = true ∧ (d.i3c 0).running = none ∧ (d.i3c 0).queue = [(1, [])]) ∧
    (∀ b ∈ [false, true], let d := devI3c { running := some (1, sensorList b) } 0; (d.i3c 0).running = some (1, sensorList b) ∧ listStamped (sensorList b) = b) ∧
    (∀ v ∈ [0, 2], let d := devI3c { running := some (1, sensorList true) } v; (d.camCtx (d.cfg.sensorRef (listSensor (sensorList true)))).fsValid = v ∧ (d.sensor 0).stopped = none) ∧
    (List.range (leAt (sensorList true) 0 1)).map (listClass (sensorList true)) = [0] := by decide +kernel

/-- Link of port 0 up, and the clock of the media domain known or not. -/
def devAudio (a : Aud) : Dev := { devPtp with aud := a, time := 20000000 }

theorem witness_AudioIsReceivedAndFramed_packets :
    (let d := devAudio {}; d.awake = true ∧ d.cfg.streamOn 0 = true ∧ (d.ethPort (d.cfg.streamEth 0)).up = true ∧ d.aud.ptpEver = false ∧ dev0.cfg.streamOn 1 = false) ∧
    (∀ x ∈ [(8 : Nat), 7], let d := devAudio { rtpSeq := [(0, some 7)] }; (match d.aud.rtpSeq.get 0 none with | some y => (BitVec.ofNat 16 x - y - 1).toNat | none => 0) = if x = 8 then 0 else 0xFFFF) ∧
    (let d := devAudio { ptpEver := true }; let ix := (nearestPos (d.streamIndex 0) 5000 + d.cfg.mediaShift 0).toNat; let old := (nearestPos (d.streamIndex 0) 0 + d.cfg.mediaShift 0).toNat
      d.mediaIndex < dueAt ix (d.cfg.playout 0) ∧ dueAt old (d.cfg.playout 0) ≤ d.mediaIndex) := by decide +kernel

theorem witness_AudioIsReceivedAndFramed_frames :
    (dev0.awake = true ∧ dev0.cfg.tdmOn 0 = true ∧ dev0.cfg.tdmMaster 0 = false ∧ dev0.cfg.tdmOn 1 = false) ∧
    (let d := devAudio {}; d.awake = true ∧ d.cfg.arrayOn 0 = true ∧ 480 * ((d.domainIndex 0 - 480 - d.cfg.arrayLink 0) / 480) + 480 + d.cfg.arrayLink 0 ≤ d.domainIndex 0 ∧
      d.frameGap (d.cfg.arrayMicRefs 0) 0 = true) ∧
    (let d : Dev := { dev0 with cfg := cfgOf [6] [(6, arrayOff 0, 1)] }; d.cfg.arrayOn 0 = true ∧ d.frameGap (d.cfg.arrayMicRefs 0) 0 = false) ∧
    dev0.domainIndex 0 < 480 := by decide +kernel

/-- A pulse program of 3 forward steps. -/
def pulseProg : HeldProg := { addr := 0x10000, bytes := bytesOf 64 [(0, 1, 1), (16, 4, 3), (20, 4, 1000), (24, 4, 1), (28, 4, 1)] }
/-- A UART program that captures one byte. -/
def uartProg : HeldProg := { addr := 0x10000, bytes := bytesOf 65 [(0, 2, 1), (2, 1, 1), (8, 4, 1000000), (16, 8, 0x20000), (64, 1, 7)] }

theorem witness_PulseAndUartProgramsEnd :
    (let d : Dev := { dev0 with pls := { ch := [(0, { running := some pulseProg })] } }; (d.pulse 0).running = some pulseProg ∧ (∀ g ∈ d.cfg.legs 0 pulseProg.bytes, g.hold = false) ∧
      d.cfg.gpioChannel 0 = 0 ∧ d.cfg.gpioFunction 0 = 2 ∧ d.cfg.has 11 = true ∧ d.cfg.pulseOwner 0 = some 0 ∧ d.cfg.pulseOwner 2 = none ∧ d.awake = true) ∧
    (∃ g : Leg, g.hold = true) ∧
    (let b : HeldProg := { pulseProg with bytes := bytesOf 64 [(0, 1, 1), (16, 4, 0xFFFFFFFD), (20, 4, 1000), (24, 4, 1), (28, 4, 1)] }
      let d (h : HeldProg) : Dev := { dev0 with pls := { ch := [(0, { running := some h })] } }
      (d b).pulseForward 0 = false ∧ (d pulseProg).pulseForward 0 = true ∧ decide (dev0.cfg.gpioFunction 0 = 3) = false) ∧
    (let v : Uart := { queue := [uartProg] }; v.running = none ∧ v.queue = [uartProg] ∧ dev0.awake = true) ∧
    (captureFull uartProg.bytes [] = false ∧ captureFull uartProg.bytes [5] = true) ∧
    (∀ t ∈ [(0 : Nat), 100], let d : Dev := { dev0 with time := BitVec.ofNat 64 (t * 1000000000), pls := { ch := [(0, { running := some pulseProg })] } }
      decide ((d.pulseTravel 0).leg < (d.pulseLegs 0 pulseProg).length) = decide (t = 0)) ∧
    (∀ t ∈ [(0 : Nat), 2000000, 4000000000], let d : Dev := { dev0 with cfg := cfgOf [11] [(11, 0x204, 0x80), (11, 0x205, 0x25)], time := BitVec.ofNat 64 t, pls := { uarts := [(0, { running := some uartProg })] } }
      decide (d.time.toNat < d.uartSent 0) = decide (t = 0) ∧ d.uartExpired 0 uartProg.bytes = decide (t = 4000000000)) := by
  refine ⟨by decide +kernel, ⟨{ steps := 0, hold := true }, rfl⟩, by decide +kernel, by decide +kernel, by decide +kernel, by decide +kernel, by decide +kernel⟩

theorem witness_MemoryReadsBackWhatWasWritten :
    (dev0.mem.phys.wf ∧ 0 % tileSize + [1#8, 2].length ≤ tileSize ∧ (dev0.writeIn { party := 0, part := 0 } 0 [1, 2]).2 = none) ∧ dev0.NoMarks ∧ dev0.PlacesApart ∧
    (dev0.writeIn { party := 0, part := 0 } 0x10000000000 [1]).2 ≠ none ∧
    (let d := (dev0.writeIn { party := 0, part := 0 } 0 [1, 2]).1; d.keyAt { party := 1, part := 1 } 0 ≠ d.keyAt { party := 0, part := 0 } 0 ∧
      (d.tile (d.keyAt { party := 0, part := 0 } 0)).map (fun t => t.tier) = some 0) := by
  refine ⟨by decide +kernel, ⟨rfl, rfl, rfl, rfl, rfl, rfl⟩, ⟨by decide +kernel, ?_, ?_⟩, by decide +kernel, by decide +kernel⟩
  · intro k v h; cases h
  · intro k k' v v' _ h; cases h

/-- A MODEL_LOAD into slot 0 with progress slot `k`, whose manifest is at address 0. -/
def loadCmd (k a : Nat) : W512 := rec512 [(0, 0x24), (2, k), (8, a)]
/-- Model slot 0 of partition 0 as `v`. -/
def withSlot (d : Dev) (v : Slot) : Dev := { d with mdl := { slots := [(0, v)] } }
/-- A load of the manifest of one shard. -/
def load1 : Load := { gen := 1, manifest := manifest1 0, queue := qData }

theorem witness_ModelsAreLoadedSwitchedAndSwept_load :
    (let c := loadCmd 0 0; let d : Dev := { devList qData [c] with tenants := [(0, { serving := true, vfEnabled := true, progress := [(0, { busy := true })] })] }; d.Starts qData 0x24 c ∧ (d.startCmd qData c).slotBusy 0 0 = true) ∧
    (∀ a ∈ [0, 0x10000000000], let c := loadCmd 0 a; let d := devList qData [c]; let d1 := ((d.startCmd qData c).setBusy 0 0 true).modQue qData (fun x => { x with running := x.running.map (fun r => { r with aux := 1 }) })
      d.Starts qData 0x24 c ∧ (d.startCmd qData c).slotBusy 0 0 = false ∧ okay (d1.fetchManifest (d.qView qData) a) = decide (a = 0)) ∧
    ((withSlot dev0 { load := some load1 }).loadFault { party := 0, part := 0 } 0 [] ≠ none) ∧
    (dev0.mapModel 0 0 1 0 0 2 (descLineOf (manifest1 0) 1 1 0)).2 = none ∧ (dev0.mapModel 0 0 1 0 0 1025 (fun _ => none)).2 ≠ none := by
  unfold Dev.Starts; decide +kernel

/-- Where signatures verify, a load of that manifest passes every check. -/
theorem witness_ModelsAreLoadedSwitchedAndSwept_passes (h : Config.ecdsaVerify = fun _ _ _ => true) : dev0.loadFault { party := 0, part := 0 } 0 (manifest1 0) = none := by
  unfold Dev.loadFault; simp only [h]; decide +kernel

theorem witness_ModelsAreLoadedSwitchedAndSwept_shards :
    (let d := withSlot dev0 { load := some load1 }; (d.slot 0).load = some load1 ∧ load1.complete = false ∧ 1 ∉ load1.inFlight ∧ 0 ∈ load1.inFlight ∧ d.cacheFind load1 0 = none ∧
      (source load1.manifest 0 0).typ = 1 ∧ d.cfg.targetOn (source load1.manifest 0 0).target = false ∧ load1.attempts.get 0 0 < 3 ∧ 0 ∉ load1.uncounted ∧
      load1.late 9999999999 0 = false ∧ load1.late 10000000000 0 = true ∧ 3 ≤ ({ load1 with attempts := [(0, 3)] } : Load).attempts.get 0 0 ∧ 0 ∈ ({ load1 with uncounted := [0] } : Load).uncounted) ∧
    (cfgOf [7] [(7, 0x100, 1)]).targetOn 0 = true ∧
    (let m := bytesOf 480 [(0x0C, 2, 2), (0x18, 8, 8192), (0x20, 4, 4096), (304, 1, 2)]; (source m 0 0).typ = 2 ∧ 0 ∈ ({ manifest := m } : Load).inFlight ∧ 0 + 1 < manShards m ∧
      okay (dev0.readMem { party := 0, part := 0 } (source m 0 0).addr (shardLen m 0)) = true) := by decide +kernel

/-- The bytes of an empty shard. -/
def emptyShard : List B8 := List.replicate 4096 0

/-- Where the bytes have the digest of the manifest, a cached copy is found and matches. -/
theorem witness_ModelsAreLoadedSwitchedAndSwept_cache (h : Config.sha384 emptyShard = 0) :
    let e : CacheEntry := { digest := 0, signer := Config.sha384 (dev0.cfg.key load1.signer), bytes := emptyShard }
    let d : Dev := { dev0 with mdl := { slots := [(0, { load := some load1 })], cache := [e] } }
    d.cacheFind load1 0 = some e ∧ shardMatches load1.manifest 0 e.bytes = true ∧ d.mem.nvmeFail.get e.drive false = false := by
  have hd : shardDigest load1.manifest 0 = 0 := by decide +kernel
  have hl : emptyShard.length = shardLen load1.manifest 0 := by decide +kernel
  refine ⟨?_, ?_, rfl⟩
  · unfold Dev.cacheFind
    rw [hd]
    exact List.find?_cons_of_pos (by rw [decide_eq_true (rfl : _ = _), decide_eq_true (rfl : _ = _)]; rfl)
  · show shardMatches load1.manifest 0 emptyShard = true
    unfold shardMatches
    rw [h, hd, hl, decide_eq_true (rfl : shardLen load1.manifest 0 = _), decide_eq_true (rfl : (0 : B384) = 0)]; rfl

/-- A cached copy that does not match is found as well. -/
theorem witness_ModelsAreLoadedSwitchedAndSwept_mismatch :
    let e : CacheEntry := { digest := 0, signer := Config.sha384 (dev0.cfg.key load1.signer), bytes := [] }
    let d : Dev := { dev0 with mdl := { slots := [(0, { load := some load1 })], cache := [e] } }
    d.cacheFind load1 0 = some e ∧ shardMatches load1.manifest 0 e.bytes = false := by
  have hd : shardDigest load1.manifest 0 = 0 := by decide +kernel
  refine ⟨?_, by decide +kernel⟩
  unfold Dev.cacheFind
  rw [hd]
  exact List.find?_cons_of_pos (by rw [decide_eq_true (rfl : _ = _), decide_eq_true (rfl : _ = _)]; rfl)

/-- The load of slot 0, complete, its command running. -/
def devLoaded (v : Slot) : Dev := withSlot (devRun qData (loadCmd 0 0) {}) { v with load := some { load1 with complete := true, due := some 0 } }

theorem witness_ModelsAreLoadedSwitchedAndSwept_commit :
    (let d := devLoaded {}; (d.slot 0).load = some { load1 with complete := true, due := some 0 } ∧ d.atTick = true ∧ ({ d with time := 1 } : Dev).atTick = false ∧ load1.due = none ∧ d.Runs qData { cmd := loadCmd 0 0 } { cmds := [loadCmd 0 0] } [] ∧ d.coreOut 0 = false) ∧
    (let g : GenState := { number := 1 }; let t : GenState := { number := 2, role := 1 }
      (∀ v ∈ [({ gens := [{ g with degraded := true }] } : Slot), { gens := [g] }, { gens := [g, t] }, { gens := [g], freeStaged := true }], let c := rec512 [(0, 0x25), (2, 1), (8, 2)]
        (withSlot (devList qData [c]) v).Starts qData 0x25 c ∧ cmdArg c % 4 = 1) ∧
      (let c := rec512 [(0, 0x25)]; let d := withSlot (devList qData [c]) { gens := [g] }; d.Starts qData 0x25 c ∧ cmdArg c % 4 = 0 ∧ (d.slot 0).degraded = false ∧ (d.slot 0).unloading = false ∧ (d.slot 0).load = none) ∧
      (({ gens := [g, t] } : Slot).staged = some t ∧ t.number = 2)) ∧
    (let g : GenState := { number := 1, role := 2, freeDue := some 0 }; let d := withSlot dev0 { gens := [g] }; (d.slot 0).gens.find? (fun x => decide (x.number = 1)) = some g ∧ (d.slot 0).freeable g = true ∧ d.atTick = true ∧ d.coreOut 0 = false) ∧
    (∀ k ∈ [0, 1], let g : GenState := { number := 1, sweepAt := some 0, manifest := if k = 0 then [] else manifest1 0 }; let d := withSlot dev0 { gens := [g] }; (d.slot 0).gens.find? (fun x => decide (x.number = 1)) = some g ∧ (d.slot 0).freeable g = false ∧
      d.coreOut 1 = false ∧ d.mdl.sweep = none ∧ d.sweepTurn 0 1 = some { slot := 0, gen := 1 } ∧ d.sweepTurn 0 2 = none ∧ d.sweepTotal 0 g.manifest = k) ∧
    (let g : GenState := { number := 1, manifest := manifest1 0 }; let d := withSlot dev0 { gens := [g] }; (d.sweepPart 0 g 0 0).2 = none ∧ 0 < d.sweepTotal 0 g.manifest - 0 ∧
      (let e : Dev := { d with mem := { tiles := [(tileKey 0 (windowBase 0 / tileSize + 1) 1, some { owner := 5 })] } }; ((e.sweepPart 0 g 0 1).2.map (fun x => (x.1, x.2.isSome))) = some (0, true))) := by
  unfold Dev.Starts Dev.Runs; exact ⟨by decide +kernel, by decide +kernel, by decide +kernel, by decide +kernel, by decide +kernel⟩

/-- Slot 0 with that manifest loaded, its 4,096 bytes mapped, the start of them `b`. -/
def devModel (d : Dev) (n : Nat) (b : List B8) : Dev :=
  withSlot { d with mem := { usableMib := 1024, phys := Memory.write [] 0 b, tiles := [(d.keyAt { party := 0, part := 0, pin := some (0, 1) } (windowBase 0 + 0x4000), some { readOnly := true })] } }
    { gens := [{ number := 1, manifest := manifest1 n }], count := 1 }

theorem witness_ModelsAreLoadedSwitchedAndSwept_fill :
    (dev0.mdl.fill = [] ∧ dev0.coreOut 1 = false) ∧
    (let d : Dev := { devModel dev0 0 [] with mem := { (devModel dev0 0 []).mem with nvmePresent := 1, nvmeCap := [(0, 100)] } };
      (d.shardBytes 0).isSome = true ∧ 100 * 1 ≤ d.mdl.cacheMaxPct * ((List.range 2).map (fun j => if d.mem.nvmePresent.getLsbD j then d.mem.nvmeCap.get j 0 else 0)).sum ∧
      1 ≤ (d.cacheMake 1 1).nvmeFree (d.cacheMake 1 1).nvmeDrive) := by decide +kernel

/-- A request descriptor for slot 0: its prompt of `n` tokens at address `a`, up to 8 new tokens. -/
def reqOf (n a : Nat) : W1024 := BitVec.ofNat 1024 (0xFF * 2 ^ 8 + 0xFF * 2 ^ 48 + a * 2 ^ 64 + n * 2 ^ 128 + 8 * 2 ^ 160)
/-- Token queue of tenant 0 with a REQUEST for it. -/
def devReq (a vocab : Nat) : Dev :=
  devModel { dev0 with queues := [(qToken, { lists := [{ cmds := [rec512 [(0, 0x40)]], reqs := [(0, reqOf 1 a)] }] })] } vocab []

theorem witness_SequencesAreAdmittedControlledAndWait_requests :
    (let c := rec512 [(0, 0x40)]; let d := devList qToken [c]; d.Starts qToken 0x40 c ∧ (d.startCmd qToken c).requestFault 0 0 0 ≠ none) ∧
    (∀ a ∈ [0, 0x10000000000], let c := rec512 [(0, 0x40)]; let d := devReq a 100; let d0 := d.startCmd qToken c
      d.Starts qToken 0x40 c ∧ d0.requestFault 0 0 (reqOf 1 a) = none ∧ okay (d0.readMem (d.qView qToken) a 4) = decide (a = 0)) ∧
    (let c := rec512 [(0, 0x40)]; let d := devReq 0 100; let r := (d.startCmd qToken c).readMem (d.qView qToken) 0 4; (result r).map codes32 = some [0] ∧ r.1.freeRecord = some 0 ∧
      (r.1.currentGen 0).map (fun g => srvVocab g.manifest) = some 100) ∧
    (let e := devReq 0 100; let d := { e with mem := { e.mem with phys := [(tileSize, 101)], tiles := (0, some { frame := 1 }) :: e.mem.tiles } }
      (result (d.readMem (d.qView qToken) 0 4)).map codes32 = some [101]) := by
  unfold Dev.Starts; exact ⟨by decide +kernel, by decide +kernel, by decide +kernel, by decide +kernel⟩

/-- SEQ_CTL with an operation, and a device with the sequence `x` in record 0. -/
def ctlCmd (op : Nat) : W512 := rec512 [(0, 0x41), (2, op)]
def devCtl (op : Nat) (x : Seq) : Dev := { devList qToken [ctlCmd op] with tok := { seqs := [(0, some x)] } }

theorem witness_SequencesAreAdmittedControlledAndWait_control :
    (∀ op ∈ [0, 1, 2], ∀ st ∈ [0, 1, 2, 3, 4, 5, 6, 7, 8], let d := devCtl op { state := st }; d.Starts qToken 0x41 (ctlCmd op) ∧ cmdArg (ctlCmd op) % 4 = op ∧ d.sec.rngFail = false ∧
      (d.startCmd qToken (ctlCmd op)).findSeq 0 = some (0, { state := st })) ∧
    (let d := devList qToken [ctlCmd 0]; d.Starts qToken 0x41 (ctlCmd 0) ∧ (d.startCmd qToken (ctlCmd 0)).findSeq 0 = none) ∧
    (let d := devCtl 0 { heldBy := some 1 }; ((d.startCmd qToken (ctlCmd 0)).findSeq 0).map (fun x => x.2.heldBy) = some (some 1)) ∧
    (({ devCtl 1 {} with sec := { rngFail := true } } : Dev).sec.rngFail = true) := by
  unfold Dev.Starts; exact ⟨by decide +kernel, by decide +kernel, by decide +kernel, by decide +kernel⟩

/-- Record 0 holds the sequence `x`. -/
def devSeq (x : Seq) : Dev := { dev0 with tok := { seqs := [(0, some x)] } }

theorem witness_SequencesAreAdmittedControlledAndWait_images :
    (let d := devSeq { state := 4 }; d.seq 0 = some { state := 4 } ∧ (d.makeImage 0 false).2 = .made ∧ ((d.makeImage 0 false).1.seq 0).isSome = true) ∧
    (let d := { devSeq { state := 4, blocks := [(0, some 0)] } with kv := { lists := [(0, some { refs := 1, pages := [(0, some 0)] })], pages := [(0, some { count := 0 })] } }; (d.makeImage 0 true).2 = .noRoom) ∧
    (let d : Dev := { devSeq { state := 4 } with mem := { nvmePresent := 1, nvmeFail := [(0, true)] } }; (d.makeImage 0 true).2 = .driveFailed) ∧
    (let d : Dev := { devSeq { image := some { writing := true } } with mem := { nvmePresent := 1 } }; d.sec.rngFail = false ∧ ((d.putSeq 0 (some {})).makeImage 0 true).2 = .made ∧ ((({ d with mem := {} } : Dev).putSeq 0 (some {})).makeImage 0 true).2 = .noRoom) ∧
    (∀ b ∈ [false, true], let d : Dev := { dev0 with mem := { nvmeFail := [(0, b)] } }; (d.driveUse 0).2 = !b) ∧
    (let d := devSeq { state := 6, image := some {} }; (match d.restoreAll 0 [] with | .ok e => ((e.dropImage 0).seq 0).isSome | _ => false) = true) ∧
    (let pg : Nat × Nat × Nat × Page × List B8 := (0, 0, 0, {}, []); let d := devSeq { state := 6, image := some { pages := [pg] } }; (match d.restoreAll 0 [pg] with | .waits _ => true | .ended _ => true | .ok _ => false) = true) ∧
    (let d := devSeq { state := 5 }; (d.coreOut 0 = false ∧ 0 + 1000 * 0 ≤ d.tick) ∧ d.tok.pageWaitS ≠ 0) ∧
    (let d : Dev := { devSeq { state := 2 } with time := 60000000000 }; ((0 : W64).toNat + d.tok.pageWaitS * 1000000000 ≤ d.time.toNat) ∧ (d.partLive 0).filter (fun e => decide (e.2.state = 2)) ≠ []) ∧
    dev0.partLive 0 = [] ∧ ((devSeq {}).que (({} : Seq).qk)).fifo.length < 1024 := by
  exact ⟨by decide +kernel, by decide +kernel, by decide +kernel, by decide +kernel, by decide +kernel, by decide +kernel, by decide +kernel, by decide +kernel, by decide +kernel, by decide +kernel, by decide +kernel⟩

/-- A program table with one entry of class 1, segment 0, of 16 rows, and one of class 0 of 16 rows. -/
def progTable : List B8 := bytesOf 48 [(0, 4, 2), (16, 1, 1), (18, 1, 0xFF), (20, 2, 16), (32, 1, 0), (34, 1, 0xFF), (36, 2, 16)]
/-- The model with that table, and one sequence whose prompt token is not prefilled. -/
def devBatch (x : Seq) : Dev := { devModel dev0 100 progTable with tok := { seqs := [(0, some { x with req := reqOf 1 0, gen := 1 })] } }

/-- The images of paused and preempted sequences, and their waits. -/
theorem witness_SequencesAreAdmittedControlledAndWait_restores :
    (({ dev0 with time := 5 } : Dev).atTick = false ∧ dev0.atTick = true ∧ 0 + 1000 * 0 ≤ dev0.tick) ∧
    (({ badTag := true } : Image).badTag = true ∧ ({} : Image).badTag = false ∧ dev0.unrestored {} [] = 0 ∧ dev0.kvHeld 0 + 0 ≤ dev0.cfg.tenKvQuota 0 ∧
      ({ state := 1 } : Seq).pausers = [] ∧ ({} : Seq).resumers = [] ∧ ({ image := some {} } : Seq).image ≠ none) ∧
    (let pg : Nat × Nat × Nat × Page × List B8 := (0, 0, 0, {}, []); let pgs := List.replicate 3 pg; dev0.unrestored {} pgs = 3 ∧ dev0.cfg.tenKvQuota 1 < dev0.kvHeld 1 + 3) ∧
    (∀ b ∈ [true, false], let e := devBatch { state := 2, tenant := if b then 0 else 1 }
      let d : Dev := if b then e else withSlot e { gens := [{ number := 1, manifest := (manifest1 100).set 0x60 1 }], count := 1 }
      ∀ x, d.seq 0 = some x → let w := d.workOf x; takeMembers (d.seqManifest x w.2) w.1 w.2 [(0, x)] = [(0, 1, 0)] ∧
        (match d.grow 0 w.2 (x.tailOf w.2) (x.tailOf w.2 + 1) d.growFuel with | .ok _ => true | .out _ => false) = b) := by
  exact ⟨by decide +kernel, by decide +kernel, by decide +kernel, by decide +kernel⟩

theorem witness_BatchesFormRunAndCommit_waits :
    (∀ w ∈ [true, false], let b : Batch := { gen := 1, members := [(0, 1, 0)], waits := w }; let d := (devBatch {}).modPart 0 (fun v => { v with batch := some b }); let m := d.manifest 0 1
      (d.part 0).batch = some b ∧ d.batchTurn 0 b = true ∧ d.clocked 0 = true ∧ (result (d.servingOf 0 0 1 m)).map (fun x => (b.entry m x.1).isSome) = some true) ∧
    (let b : Batch := { gen := 1, waits := true }; (devRun qCompute (stepCmd 0x10 1) { prog := some { mask := 1, steps := [0] } }).batchTurn 0 b = false) ∧
    (let d := devBatch {}; okay (({ d with mem := { d.mem with badLp := [0] } } : Dev).servingOf 0 0 1 (d.manifest 0 1)) = false) := by decide +kernel

theorem witness_BatchesFormRunAndCommit_start :
    (let d := devBatch {}; (d.part 0).batch = none ∧ d.clocked 0 = true ∧ d.pwr.entering = false ∧ d.pwr.state ≤ 1 ∧ d.cfg.partOn 0 = true ∧
      (d.partLive 0).filter (fun e => decide (e.2.state = 3)) = [] ∧ (d.ranked 0).length = 1) ∧
    (let d := devSeq { state := 3 }; d.ranked 0 = [] ∧ (d.partLive 0).filter (fun e => decide (e.2.state = 3)) ≠ []) ∧ dev0.ranked 0 = [] ∧
    (let d := devBatch { state := 3, lastBatch := 9 }; let e := { d with tok := { seqs := (1, some { req := reqOf 1 0, gen := 1 }) :: d.tok.seqs } }
      (e.ranked 0).length = 1 ∧ ∀ x ∈ (e.partLive 0).filter (fun y => decide (y.2.state = 3)), ∀ f ∈ e.ranked 0, x.2.before f.2 = false) := by decide +kernel

theorem witness_BatchesFormRunAndCommit_members :
    let d := ({ devBatch {} with kv := { lists := [(0, some { refs := 1, pages := [(0, some 0)] })], pages := [(0, some {})] } }).modSeq 0 (fun x => { x with blocks := [(0, some 0)] })
    let m := d.manifest 0 1; let r := d.prepare 0 false (srvVocab m) (takeMembers m 0 false (d.ranked 0))
    r.2 = [(0, 1, 0)] ∧ (result (r.1.servingOf 0 0 1 m)).map (fun x => (x.1.length, (x.1.find? (fun e => decide (e.cls = 1) && decide (e.rows = 16) && decide (e.segment = 0))).isSome)) = some (2, true) := by decide +kernel

theorem witness_BatchesFormRunAndCommit_end :
    (∀ k ∈ [0, 1], let b : Batch := { kind := k, gen := 1, members := [(0, 1, 0)], prog := some {} }; let d := (devBatch {}).modPart 0 (fun v => { v with batch := some b }); let m := d.manifest 0 1
      (d.part 0).batch = some b ∧ ({} : Prog).over = true ∧ ({} : Prog).fail = none ∧ (result (d.servingOf 0 0 1 m)).map (fun x =>
        ((x.1.find? (fun e => decide (e.cls = 1) && decide (e.rows = 16) && decide (e.segment = 0))).map (fun e => e.scatter), (x.1.find? (fun e => decide (e.cls = 1) && decide (e.rows = 16) && decide (e.segment = 1))).isNone)) = some (some 0xFF, true)) ∧
    (({ mask := 1, steps := [0] } : Prog).over = false ∧ ({ fail := some (0, 1, 0) } : Prog).over = true) ∧
    (({ dev0 with fw := { cores := [(3, { restarting := true })] } } : Dev).coreOut 3 = true ∧ dev0.coreOut 3 = false ∧ dev0.kv.compactEighths ≠ 0 ∧ ({ compactEighths := 0 } : Kv).compactEighths = 0) := by decide +kernel

/-- A page in a chunk of its own: the rest of the chunk is free, so a compaction runs. -/
def devPages : Dev := { dev0 with mem := { usableMib := 1024 }, kv := { compactEighths := 1, nextId := 1, lists := [(0, some { refs := 1, pages := [(0, some 0)], built := true })], pages := [(0, some {})], nodes := [{ list := 0 }] } }

theorem witness_BatchesFormRunAndCommit_kv :
    (dev0.coreOut 3 = false ∧ (dev0.part 0).rebuildDue = none ∧ (dev0.part 0).rebuildTick = none ∧ ({ rebuildTick := some 0 } : PartState).rebuildTick = some 0 ∧ dev0.tick < 0 + dev0.kv.rebuildTicks ∧ devPages.kv.nodes.Nodup ∧
      ({ rebuildDue := some 1, compactDue := some 1 } : PartState).rebuildDue ≠ none) ∧
    (devPages.kv.compactEighths * devPages.kvChunks 0 * 512 < 8 * devPages.partlyFree 0 ∧ (devPages.part 0).compactDue = none ∧ devPages.kv.retired = [] ∧ (devPages.kv.lists.map (fun e => e.1)).Nodup ∧
      devPages.kvList 0 = some { refs := 1, pages := [(0, some 0)], built := true } ∧ 8 * dev0.partlyFree 0 ≤ dev0.kv.compactEighths * dev0.kvChunks 0 * 512) := by decide +kernel

/-! ## Ill-formed operands are refused, one command for each check of `Instr.wf` -/

theorem test_wf_refuses_power_and_boot :
    [Instr.powerOn [(0x600000, 1)] none none true true true, .powerOn [(5, 1), (4, 2)] none none true true true,
     .memoryTrainingComplete 65536 0 0 0 none, .memoryTrainingComplete 16 65536 0 0 none, .memoryTrainingComplete 16 0 0 0 (some (32, true)),
     .avsSetpointTimeout 4, .opChangeComplete 4, .managementTick { temps := [0, 0, 0, 0, 0, 0] },
     .ageingRead 16 [], .scrubComplete 64, .tenantEnable 64].all (fun i => !i.wf) = true := by decide

theorem test_wf_refuses_links :
    [Instr.pciePerst 6 true, .pcieLinkUp 6 1 1 none, .pcieLinkUp 0 6 1 none, .pcieLinkUp 0 1 17 none, .vfFlr 4 0, .vfFlr 0 64, .vfEnable 4 0,
     .vfEnable 0 65, .busMasterDisable 4 0, .busMasterDisable 0 64, .ethLinkUp 2, .ethLinkDown 2, .igmpQuery 2, .announceReceiptTimeout 2,
     .nvmeCommandError 2, .nvmeTrainingTimeout 2, .nvmeCommandTimeout 2, .nvmeSmartRead 2].all (fun i => !i.wf) = true := by decide

theorem test_wf_refuses_timebase :
    [Instr.triggerFire 1024, .trackJump 256, .cameraTrackStall 256, .triggerArm 65 0 0 .full, .triggerArm 0 1024 0 .full, .triggerDisarm 65 0 true 0,
     .triggerDisarm 0 1024 true 0, .triggerCountClear 65 0, .triggerCountClear 0 1024, .trackPreset 65 0 0, .trackPreset 0 256 0].all
      (fun i => !i.wf) = true := by decide

theorem test_wf_refuses_registers :
    [Instr.registerWrite 65 0 0 32 [], .registerWrite 0 0 0 16 [], .registerWrite 0 2 0 32 [], .registerWrite 0 4 0 64 [], .registerWrite 0 0x10000 0 32 [],
     .registerWrite 64 0x200000 0 32 [], .twSubmitCtl 64 0 [], .eventCntClear 64 0, .eventFlagClear 64 0 0, .complRingEnable 65 0, .complHeadWrite 65 0,
     .errRingEnable 64 0, .counterEventSelect 3 0 0, .counterEventSelect 0 2048 0, .counterClear 1 64, .counterClear 2 0x2000,
     .twPmcSelect 64 0x1000 0, .twPmcSelect 0 0xFF8 0, .twPmcSelect 0 0x10C0 0, .twPmcSelect 0 0x1004 0, .periodicSnapshot 65].all
      (fun i => !i.wf) = true := by decide

theorem test_wf_refuses_queues_and_programs :
    [Instr.nop (80 * 32), .nop (64 * 32 + 1), .copy ⟨80 * 32, 0⟩ {}, .scatter ⟨80 * 32, 0⟩, .gather ⟨80 * 32, 0⟩, .migrate ⟨80 * 32, 0⟩, .barrierRelease 64 0, .barrierRelease 0 16, .shardArrival 128 0 [], .shardArrival 0 65536 [],
     .shardTimeout 128 0, .loadCommit 128, .generationFree 128 0, .digestSweep 128 ⟨0, 0⟩, .pauseImageWritten 4096, .batchStart 16, .batchEnd 16,
     .stepNop ⟨.batch 16, 0⟩, .stepNop ⟨.queue (80 * 32), 0⟩, .stepNop ⟨.batch 0, 16⟩, .stepIssue ⟨.batch 0, 16⟩, .sync ⟨.batch 0, 16⟩, .matmul (.batch 0) 256, .softmax (.batch 16) 0, .attend (.batch 0) 16, .append (.batch 0) 16,
     .ringXfer (.batch 0) 16, .engineStart 16, .watchdogExpiry 8, .ccRestartComplete 8, .ccCodeEccError 8, .traceHit 256 0].all
      (fun i => !i.wf) = true := by decide +kernel

theorem test_wf_refuses_cameras_audio_and_outputs :
    [Instr.csiFrameStart 8 0, .csiFrameStart 0 16, .csiFrameEnd 8 0, .csiPortLock 8 true, .pipelineBatch 128, .i3cListRun 8, .i3cNack 8 0 none, .i3cIbiAttempt 8,
     .tdmFrameSync 4 (List.replicate 16 0) true, .tdmFrameSync 0 [0] true, .audioFrame 64, .pulseProgramDone 32, .limitInput 48, .uartProgramRun 4,
     .uartCaptureEnd 4, .uartCaptureTimeout 4].all (fun i => !i.wf) = true := by decide

/-- The greatest operands that the device has are well formed. -/
theorem test_wf_accepts :
    [Instr.powerOn [(4, 2), (0x5FFFFF, 1)] none none true true true, .memoryTrainingComplete 65535 65535 0 0 (some (31, true)), .avsSetpointTimeout 3,
     .pciePerst 5 true, .vfFlr 3 63, .vfEnable 3 64, .registerWrite 64 0x1FFFF8 0 64 [], .registerWrite 63 0xFFFC 0 32 [], .triggerArm 64 1023 0 .high,
     .nop (80 * 32 - 8), .nop (64 * 32 - 1), .matmul (.queue 0) 255, .attend (.batch 15) 15, .counterClear 2 0x1FFF, .twPmcSelect 63 0x10B8 0,
     .tdmFrameSync 3 (List.replicate 16 0) true].all (fun i => i.wf) = true := by decide

/-! ## The operation table gives no row any bits -/

theorem test_no_word_spells_a_command (n w : Nat) : decodeTableWord n w = none ∧ st0.withFetchWord n w = st0 := ⟨rfl, rfl⟩

/-! ## Examples of the spec -/

/-- 01_device_organization.md: unit code of engine 3 in cluster 147; 15_power_thermal_ageing.md: of region 9's barrier controller. -/
theorem test_unit_codes : unitCluster 147 3 = 0x5263 ∧ unitRegion 9 19 = 0x5213 := by decide

/-- 15_power_thermal_ageing.md: log record 0x89 with a margin of 20 mV. -/
theorem test_log_detail : detailOf 0x89 20 = 0x00001489#32 := by decide

/-- A camera track at a line of frame 5,000, and trigger 5, which the management function holds on it. -/
def devCam (line : Nat) (g : Trigger) : Dev :=
  { dev0 with cam := { dev0.cam with ctx := [(0, { fsCount := 5001, fsValid := 2, hdrs := line + 1 })] }, triggers := [(5, { g with track := 2 })] }

/-- 03_position_timebase.md: trigger 0 of the example fires at line 1,082 and goes idle. -/
theorem test_trigger_fires_once :
    (match exec (.triggerFire 5) { st0 with dev := devCam 1082 { target := 0x1388043A, armed := true } } with
     | .next t => (t.dev.trg 5).statusReg | _ => 0) = 0x0000000000010002#64 := by decide +kernel

/-- 03_position_timebase.md: trigger 2 is periodic; it stays armed and its target advances by a frame. -/
theorem test_trigger_fires_periodically :
    (match exec (.triggerFire 5) { st0 with dev := devCam 1100 { target := 0x1388044C, armed := true, interval := 0x10000 } } with
     | .next t => ((t.dev.trg 5).statusReg, (t.dev.trg 5).target) | _ => (0, 0)) = (0x0000000000010003#64, 0x1389044C#64) := by decide +kernel

/-- 03_position_timebase.md: trigger 1 armed at line 1,090 with late_ok = 0. -/
theorem test_trigger_armed_late :
    (match exec (.triggerArm 64 5 0x1388043C .full) { st0 with dev := devCam 1090 {} } with
     | .next t => (t.dev.trg 5).statusReg | _ => 0) = 0x0000000100010E16#64 := by decide +kernel

/-- 05_matrix_engines_and_number_formats.md: m = 8 decode step with 6 escapes per block, and without escapes. -/
theorem test_matmul_cycles :
    (matCycles 8 8 (List.replicate 256 10) 1024).1 = 2600 ∧ (matCycles 8 8 (List.replicate 256 4) 1024).1 = 2088 := by decide +kernel

/-- 05_matrix_engines_and_number_formats.md, R155-R157: code and SAT_EVENTS. -/
theorem test_conversions :
    [convertTo 0 0x3F808000#32, convertTo 0 0x3F818000#32, convertTo 2 0x43E80000#32, convertTo 2 0x43EB0000#32, convertTo 3 0xCE6E6B28#32,
     convertTo 1 0x4788B800#32, convertTo 4 0x40200000#32, convertTo 4 0x40600000#32, convertTo 4 0xC0200000#32, convertTo 4 0x42FF0000#32,
     convertTo 4 0x7FC00000#32, convertTo 2 0x7F800000#32] =
    [(0x3F80, 0), (0x3F82, 0), (0x7E, 0), (0x7E, 1), (0xFB, 1), (0x7BFF, 1), (2, 0), (4, 0), (0xFE, 0), (0x7F, 1), (0, 1), (0x7E, 1)] := by decide +kernel

/-- 05_matrix_engines_and_number_formats.md: the Q4E block of 2, 15.5 and -9.25. -/
theorem test_q4e_block :
    q4eElems [2, 8, 8] [0x4178, 0xC114] = [(.fin false 2 0, false), (fmtBF16.dec 0x4178, true), (fmtBF16.dec 0xC114, true)] ∧
    packF32 (fmtBF16.dec 0x4178) = 0x41780000#32 ∧ packF32 (fmtBF16.dec 0xC114) = 0xC1140000#32 := by decide +kernel

/-- 06_operand_compression.md: the first six elements of the worked block; the other 250 have delta 1 and plane byte 0. -/
def ebfBlock : List B8 :=
  [0x76, 0x01, 0x40, 0x85, 0x00, 0x00, 0x2A, 0xF0] ++ List.replicate 250 0 ++ [0x3C, 0x9E, 0x92] ++
    (List.replicate 31 [0x49, 0x92, 0x24]).flatten ++ [0x7D, 0x70] ++ List.replicate 12 0

theorem test_ebf_block :
    (match ebfDecode ebfBlock 0x36 with | .ok x => (x.1.take 6, x.2) | .error _ => ([], 0)) = ([0x3CC0, 0xBE85, 0x0000, 0x3800, 0x3B2A, 0xBD70], 2) := by
  decide +kernel

/-- 12_audio_and_control_outputs.md: the pan of 84 steps. -/
theorem test_pulse_profile :
    (let g : Leg := { steps := 84, vmax := 300000, up := 1000000000, down := 1000000000 }; [g.edge 84 1, g.edge 84 83, g.length]) =
      [44721, 534934, 579655] := by decide +kernel

/-- 11_camera_pipeline.md: latch line 1,100 and delay 1, for writes that complete in time and too late. -/
theorem test_exposure_effect :
    (let c := cfgOf [5] [(5, 0x1084, 0x4C), (5, 0x1085, 4), (5, 0x1086, 1)]; (c.classEffect 0 0 5000 1082, c.classEffect 0 0 5001 1101)) =
      ((5001, false), (5003, true)) := by decide +kernel

/-- 15_power_thermal_ageing.md: the weekly read of RG9, from margin 10 with slacks of 9, 13 and 16 ps. -/
theorem test_ageing_replan :
    replan { margin := 10, maxOp := 7 } [9, 13, 16] = { margin := 20, maxOp := 7, worst := 16 } ∧
    ({ op := 7, maxOp := 7, margin := 20, worstPs := 16, reads := 5 } : RegionState).powerReg 7 = 0x0005001000140777#64 := by decide +kernel

/-- 18_register_index.md: layouts of registers with the values that the spec's examples read. -/
theorem test_boot_status : ({ stage := 7, reason := 6, detail := 5, bootTimeMs := 0x14, bciSlot := 0 } : Boot).statusReg = 0x0000001400050607#64 := by decide

theorem test_wake_register :
    ({ wakeCause := 2, dawnUs := 0x53FC, sleptS := 0x12C } : Pwr).wakeReg = 0x0000012C53FC0002#64 := by decide

theorem test_progress_bits :
    Progress.bits { kind := 0, value := 0x1A0B } = 0x1A0B ∧ Progress.bits { kind := 2, value := 0x2710 } = 0x80002710 ∧
    Progress.bits { kind := 3, value := 5 } = 0xC0000005 := by decide

/-- 07_memory_system.md: 128 GiB with the tree keep 112,064 MiB; the system area takes 576 MiB. -/
theorem test_memory_capacity : usableOf 128 3 = 112064 ∧ systemOf 128 = 576 := by decide

/-- 13_device_control.md, R61: MG_RESET_STATUS while tenant 9 is scrubbed. -/
theorem test_reset_status :
    ({ dev0 with tenants := [(9, { scrub := true })] } : Dev).resetReg = 0x0000020000000000#64 := by decide +kernel

/-- 14_firmware_debug_trace.md: FW_STATUS and FW_UPD_STATUS after the update of the example. -/
theorem test_firmware_status :
    ({ dev0 with fw := { generation := 0x2A, bank := 1, slot := 1 } } : Dev).readFw 0 = 0x000000030000002A#64 ∧
    ({ dev0 with fw := { holdUs := 0xA8C, stagedGen := 0x2A } } : Dev).readFw 0x20 = 0x0000002A0A8C0000#64 := by decide +kernel

/-- 09_token_engine.md, R326: from draft length 8, four full rejections halve it; eight at length 1 suspend speculation. -/
theorem test_speculation_adapts :
    (let q : Seq := { k := 8, req := 8 <<< 16 }
     let four (q : Seq) : Seq := (List.range 4).foldl (fun q _ => q.adapt q.k 0 1) q
     let q1 := four (four (four q))
     let q2 := (List.range 8).foldl (fun q _ => q.adapt q.k 0 1) q1
     let q3 := (q2.adapt 0 0 64)
     [(four q).k, q1.k, q1.suspended, q2.suspended, q3.suspended, (q3.adapt 1 1 2).suspended, (q3.adapt 1 1 2).k]) = [4, 1, 0, 1, 65, 0, 1] := by
  decide +kernel

/-- 19_electrical_package.md: three balls of the map and a row name. -/
theorem test_balls :
    [ball 1 1, ball 11 47, ball 7 42, rowName 11] = ["LP_0_DQ0", "LP_19_CA3", "ETH_1_RX_L1_N", "L"] := by decide +kernel

/-- 18_register_index.md, R541: the window of tenant 9, and the rail whose monitor allows 35 mV below its setpoint (R553). -/
theorem test_windows_and_rails :
    windowDpa 9 0 = 0x20004090000 ∧ Rail.trips (.cd 0) 750 715 = false ∧ Rail.trips (.cd 0) 750 714 = true ∧ Rail.trips .hub 800 775 = true ∧ Rail.trips .hub 800 776 = false := by
  decide +kernel

end Sys2Proof.Tests
end

/-! PROOFS. What every command keeps: the queue of waiting commands (log entry 17). One lemma for each operation of the model that answers a
state, in the order in which the model defines them. -/
namespace Sys2Proof.Machine
open Sys2Proof

/-- An effect under a condition, which else leaves the state alone, keeps the queue where the effect does. -/
theorem ite_pending {c : Prop} [Decidable c] {s t : State} (h : t.pending = s.pending) : (if c then t else s).pending = s.pending := by
  split
  · exact h
  · rfl

/-! ## Boot, resets and staging -/

@[simp] theorem State.powerOn_pending (s : State) (cells : List Host.Cell) (a b : Option W32) (w addr ok : Bool) :
    (s.powerOn cells a b w addr ok).pending = s.pending := rfl

@[simp] theorem State.resetL_pending (s : State) (ok : Bool) : (s.resetL ok).pending = s.pending := by
  unfold State.resetL; dsimp only; split <;> rfl

@[simp] theorem State.trained_pending (s : State) (cap rate ranks density : Nat) (fail : Option (Nat × Bool)) :
    (s.trained cap rate ranks density fail).pending = s.pending := by
  unfold State.trained; dsimp only; repeat' split
  all_goals rfl

@[simp] theorem State.bootLock_pending (s : State) : s.bootLock.pending = s.pending := by
  unfold State.bootLock; dsimp only; split <;> rfl

@[simp] theorem State.putSlot_pending (s : State) (l : List B8) : (s.putSlot l).pending = s.pending := rfl

@[simp] theorem State.stageStart_pending (s : State) (len : Nat) (host : List Host.Cell) : (s.stageStart len host).pending = s.pending := by
  unfold State.stageStart; dsimp only; repeat' split
  all_goals rfl

@[simp] theorem State.stageEnd_pending (s : State) (left : Nat) : (s.stageEnd left).pending = s.pending := by
  unfold State.stageEnd; dsimp only; repeat' split
  all_goals rfl

/-! ## Mailbox, debug and firmware update -/

@[simp] theorem State.attRequest_pending (s : State) (party : Nat) (v : W64) : (s.attRequest party v).pending = s.pending := by
  unfold State.attRequest; dsimp only; split <;> rfl

@[simp] theorem State.attCertificates_pending (s : State) (party : Nat) : (s.attCertificates party).pending = s.pending := by
  unfold State.attCertificates; dsimp only; split <;> rfl

@[simp] theorem State.debugUnlock_pending (s : State) (host : List Host.Cell) : (s.debugUnlock host).pending = s.pending := by
  unfold State.debugUnlock; dsimp only; repeat' split
  all_goals rfl

@[simp] theorem State.putSpare_pending (s : State) (l : List B8) : (s.putSpare l).pending = s.pending := rfl

@[simp] theorem State.fwGo_pending (s : State) (v : W64) (host : List Host.Cell) : (s.fwGo v host).pending = s.pending := by
  unfold State.fwGo; dsimp only; repeat' split
  all_goals rfl

@[simp] theorem State.fwReady_pending (s : State) : s.fwReady.pending = s.pending := by
  unfold State.fwReady; dsimp only; repeat' split
  all_goals rfl

@[simp] theorem State.handoffDone_pending (s : State) : s.handoffDone.pending = s.pending := rfl

/-! ## The management tick -/

@[simp] theorem State.tick_pending (s : State) (env : TickEnv) : (s.tick env).pending = s.pending := by
  unfold State.tick
  split
  · rfl
  dsimp only
  split
  · rfl
  have staged (e : Dev) : (State.stageEnd { s with dev := e } env.flashLeft).pending = s.pending := State.stageEnd_pending _ _
  split <;> exact staged _

/-! ## Register writes -/

@[simp] theorem State.writeTwEmulated_pending (s : State) (t off : Nat) (w : W64) (host : List Host.Cell) :
    (s.writeTwEmulated t off w host).pending = s.pending := by
  simp only [State.writeTwEmulated, apply_ite State.pending, State.attRequest_pending, ite_self]

@[simp] theorem State.resetRequest_pending (s : State) (a : W64) : (s.resetRequest a).pending = s.pending := by
  unfold State.resetRequest; dsimp only; split
  · rfl
  · split
    · exact State.resetL_pending _ _
    all_goals rfl

@[simp] theorem State.stageWrite_pending (s : State) (a : W64) (host : List Host.Cell) : (s.stageWrite a host).pending = s.pending := by
  unfold State.stageWrite; repeat' split
  · rfl
  · rfl
  · exact State.stageStart_pending _ _ _

@[simp] theorem State.writeMgEmulated_pending (s : State) (off : Nat) (w : W64) (host : List Host.Cell) :
    (s.writeMgEmulated off w host).pending = s.pending := by
  simp only [State.writeMgEmulated, apply_ite State.pending, State.attRequest_pending, State.resetRequest_pending, State.stageWrite_pending, ite_self]

@[simp] theorem State.writeUpd_pending (s : State) (a : W64) (host : List Host.Cell) : (s.writeUpd a host).pending = s.pending := by
  have hgo : (if a.getLsbD 63 then s.fwGo a host else s).pending = s.pending := ite_pending (State.fwGo_pending s a host)
  unfold State.writeUpd; dsimp only; split <;> exact hgo

@[simp] theorem State.writeDbg_pending (s : State) (a : W64) (host : List Host.Cell) : (s.writeDbg a host).pending = s.pending := by
  have hgo : (if a.getLsbD 0 then s.debugUnlock host else s).pending = s.pending := ite_pending (State.debugUnlock_pending s host)
  unfold State.writeDbg; dsimp only; split <;> exact hgo

@[simp] theorem State.writeSec_pending (s : State) (o : Nat) (w a : W64) (host : List Host.Cell) : (s.writeSec o w a host).1.pending = s.pending := by
  simp only [State.writeSec, apply_ite Prod.fst, apply_ite State.pending, State.writeDbg_pending, ite_self]

@[simp] theorem State.writeFw_pending (s : State) (o : Nat) (w a : W64) (host : List Host.Cell) : (s.writeFw o w a host).1.pending = s.pending := by
  unfold State.writeFw; dsimp only; split
  · split <;> rfl
  · split
    · exact State.writeUpd_pending _ _ _
    · split <;> rfl

/-- A write that is ignored is recorded, and the record touches the device alone. -/
theorem recorded_pending {s : State} {r : State × B8} {e : Dev} (h : r.1.pending = s.pending) :
    (if r.2 = 0 then r.1 else { r.1 with dev := e }).pending = s.pending := by
  split <;> exact h

@[simp] theorem State.writeMgHardware_pending (s : State) (off : Nat) (w a : W64) (host : List Host.Cell) :
    (s.writeMgHardware off w a host).pending = s.pending := by
  unfold State.writeMgHardware; dsimp only
  apply recorded_pending
  split
  case h_11 => exact State.writeSec_pending _ _ _ _ _
  case h_12 => exact State.writeFw_pending _ _ _ _ _
  case h_16 => simp only [apply_ite Prod.fst, apply_ite State.pending, ite_self]
  all_goals rfl

@[simp] theorem State.act_pending (s : State) (party off : Nat) (v : W64) (width : Nat) (host : List Host.Cell) :
    (s.act party off v width host).pending = s.pending := by
  unfold State.act; dsimp only; split
  · rfl
  split
  · rfl
  split
  · rfl
  simp only [apply_ite State.pending, State.writeTwEmulated_pending, State.writeMgEmulated_pending, State.writeMgHardware_pending, ite_self]

@[simp] theorem State.write_pending (s : State) (party off : Nat) (v : W64) (width : Nat) (host : List Host.Cell) :
    (s.write party off v width host).pending = s.pending := by
  simp only [State.write, apply_ite State.pending, State.act_pending, ite_self]

/-! ## Held writes, restarts and Dawn -/

@[simp] theorem State.replay_pending (s : State) (party fuel : Nat) : (s.replay party fuel).pending = s.pending := by
  induction fuel generalizing s with
  | zero => rfl
  | succ fuel ih =>
    unfold State.replay; split
    · rfl
    · split
      · rfl
      · rw [ih, State.act_pending]

@[simp] theorem State.replayAll_pending (s : State) (l : List Nat) : (s.replayAll l).pending = s.pending :=
  foldl_keeps (P := fun t => t.pending = s.pending) (fun t p h => (State.replay_pending t p 256).trans h) l rfl

@[simp] theorem State.restartDone_pending (s : State) (k : Nat) : (s.restartDone k).pending = s.pending := by
  unfold State.restartDone; dsimp only; split
  · rfl
  · split <;> simp

@[simp] theorem State.releaseHold_pending (s : State) : s.releaseHold.pending = s.pending := by simp [State.releaseHold]

@[simp] theorem State.rollback_pending (s : State) : s.rollback.pending = s.pending := by
  unfold State.rollback; split <;> simp

@[simp] theorem State.coreFails_pending (s : State) (k cause : Nat) : (s.coreFails k cause).pending = s.pending := by
  unfold State.coreFails; repeat' split
  · rfl
  · exact State.rollback_pending s
  · rfl
  · rfl

@[simp] theorem State.dawnRow_pending (s : State) (ok : Bool) (env : TickEnv) : (s.dawnRow ok env).pending = s.pending := by
  unfold State.dawnRow; dsimp only; repeat' split
  · rfl
  · exact State.resetL_pending s true
  · exact State.replayAll_pending _ _

/-! ## The board-management port -/

@[simp] theorem State.smbBlock_pending (s : State) (command : Nat) (data : List B8) : (s.smbBlock command data).pending = s.pending := by
  unfold State.smbBlock; dsimp only; split <;> rfl

@[simp] theorem State.smbReg_pending (s : State) (command : Nat) (v : W64) : (s.smbReg command v).pending = s.pending := State.smbBlock_pending _ _ _

/-! ## Every command -/

/-- Settles O3: no arm of `exec` answers a fault or a refusal, and each keeps the queue because the operation on the state that it runs does.
The arms not named here act on the device alone. -/
theorem everyCommandAnswersAndKeepsTheQueue : Obligations.EveryCommandAnswersAndKeepsTheQueue := by
  unfold Obligations.EveryCommandAnswersAndKeepsTheQueue
  intro i s
  cases i with
  | resetL ok => exact ⟨_, rfl, State.resetL_pending s ok⟩
  | islandWatchdog => exact ⟨_, rfl, State.resetL_pending s true⟩
  | avsSetpointTimeout die => exact ⟨_, rfl, ite_pending (State.resetL_pending s true)⟩
  | railFault aon =>
    refine ⟨_, rfl, ?_⟩
    split
    · exact State.powerOn_pending ..
    · exact State.resetL_pending s true
  | nvmeSmartRead => exact ⟨_, rfl, ite_pending rfl⟩
  | vfFlr =>
    refine ⟨_, rfl, ?_⟩
    split
    · split <;> rfl
    · rfl
  | thermtrip | rngHealthFail | nvmeTrainingTimeout =>
    refine ⟨_, rfl, ?_⟩
    split <;> rfl
  | memoryTrainingComplete cap rate ranks density fail => exact ⟨_, rfl, State.trained_pending ..⟩
  | bootLock => exact ⟨_, rfl, State.bootLock_pending s⟩
  | managementTick env => exact ⟨_, rfl, State.tick_pending s env⟩
  | attCertificates party => exact ⟨_, rfl, State.attCertificates_pending s party⟩
  | fwImageReady => exact ⟨_, rfl, State.fwReady_pending s⟩
  | handoffAck => exact ⟨_, rfl, ite_pending (State.releaseHold_pending _)⟩
  | handoffRollback => exact ⟨_, rfl, ite_pending (State.rollback_pending s)⟩
  | watchdogExpiry core | ccCodeEccError core => exact ⟨_, rfl, State.coreFails_pending s core _⟩
  | ccRestartComplete core => exact ⟨_, rfl, State.restartDone_pending s core⟩
  | dawn e => exact ⟨_, rfl, State.dawnRow_pending s e.ok e.env⟩
  | smbReadBootStatus | smbReadState | smbReadPower | smbReadWake | smbReadSecStatus => exact ⟨_, rfl, State.smbReg_pending ..⟩
  | smbReadTemperatures => exact ⟨_, rfl, State.smbBlock_pending ..⟩
  | registerWrite | mgSubmitCtl | complRingEnable | complHeadWrite | errRingEnable | stageImage | resetDevice | resetPartition | resetTenant
  | resetControlCore | debugUnlock | debugCancel | mrExtend | fwUpdateGo | fwUpdateAbort | enterDusk | enterNight =>
    exact ⟨_, rfl, State.write_pending ..⟩
  | twSubmitCtl | eventCntClear | trackPreset | counterEventSelect | counterClear | twPmcSelect =>
    exact ⟨_, rfl, ite_pending (State.write_pending ..)⟩
  | eventFlagClear tenant bits setting =>
    refine ⟨_, rfl, ite_pending ?_⟩
    dsimp only
    split <;> exact State.write_pending ..
  | triggerDisarm party k | triggerCountClear party k =>
    refine ⟨_, rfl, ?_⟩
    split
    · rfl
    · exact State.write_pending ..
  | triggerArm party k value half =>
    refine ⟨_, rfl, ?_⟩
    split
    · rfl
    · cases half <;> exact State.write_pending ..
  | _ => exact ⟨_, rfl, rfl⟩

end Sys2Proof.Machine

/-! PROOFS. Where a register write goes (R105, R439, R453, R483): nowhere, to the writes that the window holds, or to its register. -/
namespace Sys2Proof.Machine
open Sys2Proof

/-! ## Arrival -/

theorem State.write_of_no_window {s : State} {p : Nat} (h : s.dev.windowOn p = false) (off : Nat) (v : W64) (w : Nat) (host : List Host.Cell) :
    s.write p off v w host = s := by
  simp [State.write, h]

theorem State.write_of_scrub {s : State} {p : Nat} (hp : p < 64) (hst : s.dev.boot.stage = 6) (hsc : (s.dev.ten p).scrub = true) (off : Nat) (v : W64)
    (w : Nat) (host : List Host.Cell) : s.write p off v w host = s := by
  simp [State.write, hp, hst, hsc]

/-- A write that finds its window serving, and is not held, acts; the width and the low bits of the offset are judged there. -/
theorem State.write_of_serves {s : State} {p off : Nat} (h : s.dev.Serves p (off / 8 * 8)) (v : W64) (w : Nat) (host : List Host.Cell) :
    s.write p off v w host = s.act p off v w host := by
  obtain ⟨-, hwin, hawake, hfree, hten, hmg⟩ := h
  have hstage : ¬ (p < 64 ∧ s.dev.boot.stage ≠ 6) := fun h => h.2 (hten h.1).1
  have hscrub : ¬ (p < 64 ∧ (s.dev.ten p).scrub = true) := fun h => by simp [(hten h.1).2] at h
  have hanswers : ¬ (64 ≤ p ∧ (!s.dev.mgAnswers (off / 8 * 8)) = true) := fun h => by simp [hmg h.1] at h
  have hheld : ¬ (1 < s.dev.pwr.state ∨ (emulated p (off / 8 * 8) = true ∧ s.dev.holding p = true)) := by
    rintro (h | ⟨he, hh⟩)
    · omega
    · simp [hfree he] at hh
  simp only [State.write, hwin, if_neg hstage, if_neg hscrub, if_neg hanswers, if_neg hheld, Bool.not_true, Bool.false_eq_true, if_false]

/-- An aligned offset is that of its register. -/
theorem Dev.Serves.offset {d : Dev} {p off : Nat} (h : d.Serves p off) : off / 8 * 8 = off := by
  have := h.1; omega

theorem State.write_aligned {s : State} {p off : Nat} (h : s.dev.Serves p off) (v : W64) (w : Nat) (host : List Host.Cell) :
    s.write p off v w host = s.act p off v w host :=
  State.write_of_serves (by rwa [h.offset]) v w host

/-- The window of a party that it serves is in no scrub. -/
theorem Dev.Serves.no_scrub {d : Dev} {p off : Nat} (h : d.Serves p off) : ¬ (p < 64 ∧ (d.ten p).scrub = true) := fun hs => by
  obtain ⟨-, -, -, -, hten, -⟩ := h
  simp [(hten hs.1).2] at hs

theorem Dev.post_tenant {d : Dev} {p : Nat} (hp : p < 64) (hroom : (d.ten p).held.length < 256) (w : HeldWrite) :
    d.post p w = { d with tenants := d.tenants.set p { d.ten p with held := (d.ten p).held ++ [w] } } := by
  simp only [Dev.post, Dev.heldWrites, Dev.setHeld, if_pos hp, if_pos hroom]
  rfl

theorem State.write_held {s : State} {p off : Nat} (hwin : s.dev.windowOn p = true) (hp : p < 64) (hst : s.dev.boot.stage = 6)
    (hsc : (s.dev.ten p).scrub = false) (hheld : 1 < s.dev.pwr.state ∨ (emulated p (off / 8 * 8) = true ∧ s.dev.holding p = true)) (v : W64) (w : Nat)
    (host : List Host.Cell) : s.write p off v w host = s.withDev (s.dev.post p { off := off, value := v, width := w, host := host }) := by
  have hlow : ¬ 64 ≤ p := by omega
  simp only [State.write, hwin, hst, hsc, hlow, if_pos hheld, Bool.not_true, Bool.false_eq_true, ne_eq, not_true_eq_false, and_false, false_and, if_false]

/-! ## A write that acts -/

/-- The width is neither that of a register nor that of half of one, or the offset is not aligned to it (R543, log entry 20). -/
theorem State.act_narrow {s : State} {p off : Nat} (h : s.dev.Serves p (off / 8 * 8)) {w : Nat} (hw : (w ≠ 64 ∧ w ≠ 32) ∨ off % (w / 8) ≠ 0) (v : W64)
    (host : List Host.Cell) : s.act p off v w host = s.withDev (s.dev.regRec p 0x04 0 0 off) := by
  simp only [State.act, if_neg h.no_scrub, if_pos hw]

/-- A whole register that is no trigger's target takes the value written, as a register of its kind. -/
theorem State.act_whole {s : State} {p off : Nat} (h : s.dev.Serves p off) (ht : targetAt p off = none) (he : emulated p off = false) (v : W64)
    (host : List Host.Cell) :
    s.act p off v 64 host = if p < 64 then s.withDev (s.dev.writeTwHardware p off v v) else s.writeMgHardware off v v host := by
  have hwide : ¬ (((64 : Nat) ≠ 64 ∧ (64 : Nat) ≠ 32) ∨ off % (64 / 8) ≠ 0) := by have := h.1; omega
  simp only [State.act, if_neg h.no_scrub, if_neg hwide, h.offset, ht, he, if_true, Bool.false_eq_true, if_false]

/-- A hardware register of a tenant's window: neither a trigger's target nor emulated. -/
theorem State.write_twHardware {s : State} {n off : Nat} (hn : n < 64) (h : s.dev.Serves n off) (ht : targetAt n off = none) (he : emulated n off = false)
    (v : W64) (host : List Host.Cell) : s.write n off v 64 host = s.withDev (s.dev.writeTwHardware n off v v) := by
  rw [State.write_aligned h, State.act_whole h ht he, if_pos hn]

/-! ## TW_EVENT_EN and RG_GUST_CFG -/

theorem targetAt_tenant_below {n off : Nat} (hn : n < 64) (ho : off < 0x6000) : targetAt n off = none := by
  simp only [targetAt, if_pos hn, arrayAt]
  rw [if_neg]; omega

theorem emulated_tenant_below {n off : Nat} (hn : n < 64) (ho : off < 0x40) : emulated n off = false := by
  simp only [emulated, if_pos hn, twEmulated, List.contains_eq_mem, List.mem_cons, List.not_mem_nil, or_false, decide_eq_false_iff_not]
  omega

theorem State.write_eventEn {s : State} {n : Nat} (hn : n < 64) (h : s.dev.Serves n 0x20) (v : W64) (host : List Host.Cell) :
    s.write n 0x20 v 64 host = s.withDev (s.dev.modTen n (fun t => { t with eventEn := BitVec.ofNat 4 (fld v 0 4) })) := by
  rw [State.write_twHardware hn h (targetAt_tenant_below hn (by decide)) (emulated_tenant_below hn (by decide))]
  simp [Dev.writeTwHardware]

/-- A write of RG_GUST_CFG that acts: the rate it leaves, or the status of the record (R167, R569). -/
theorem State.write_gustCfg {s : State} (h : s.dev.Serves mgmtParty 0x20000) (v : W64) (host : List Host.Cell) :
    s.write mgmtParty 0x20000 v 64 host =
      if (s.dev.writeRg 0 v).2 = 0 then s.withDev (s.dev.writeRg 0 v).1
      else s.withDev ((s.dev.writeRg 0 v).1.regRec mgmtParty (s.dev.writeRg 0 v).2 0 0 0x20000) := by
  rw [State.write_aligned h, State.act_whole h (by decide) (by decide), if_neg (by decide)]
  rfl

theorem Dev.writeRg_locked {d : Dev} (h : d.boot.locked = true) (v : W64) : d.writeRg 0 v = (d, 0x03) := by
  simp [Dev.writeRg, h]

theorem Dev.writeRg_rate {d : Dev} (h : d.boot.locked = false) {v : W64} (hlo : 4 ≤ fld v 0 5) (hhi : fld v 0 5 ≤ 16) :
    d.writeRg 0 v = ({ d with gustRate := fld v 0 5 }, 0) := by
  have hrange : ¬ (fld v 0 5 < 4 ∨ 16 < fld v 0 5) := by omega
  simp [Dev.writeRg, h, hrange]

/-- Settles O33: the branches of `State.write` in turn, then the two registers that the statement names. -/
theorem registerWritesActWaitOrAreIgnored : Obligations.RegisterWritesActWaitOrAreIgnored := by
  unfold Obligations.RegisterWritesActWaitOrAreIgnored
  intro s p off v w host d base
  have runs (q o x : Nat) : exec (.registerWrite q o v x host) s = .next (s.write q o v x host) := rfl
  simp only [runs]
  refine ⟨fun h => ?_, fun h hw => ?_, fun h => ?_, fun _ hp hst hsc => ?_, fun hwin hp hst hsc hheld hroom => ?_, fun hp h => ?_, fun h hl => ?_,
    fun h hl hlo hhi => ?_⟩
  · rw [State.write_aligned h]
  · rw [State.write_of_serves h, State.act_narrow h hw]
  · rw [State.write_of_no_window h]
  · rw [State.write_of_scrub hp hst hsc]
  · rw [State.write_held hwin hp hst hsc hheld, Dev.post_tenant hp hroom]
  · rw [State.write_eventEn hp h]; rfl
  · rw [State.write_gustCfg h, Dev.writeRg_locked hl]; rfl
  · rw [State.write_gustCfg h, Dev.writeRg_rate hl hlo hhi]; rfl

end Sys2Proof.Machine

/-! PROOFS. TW_EVENT (R6, R99, R100): what clearing and setting its flags leaves of flags and counters. -/
namespace Sys2Proof.Machine
open Sys2Proof

/-! ## Clearing -/

/-- The counters of the numbers in `l` that `clear` names are 0; the rest stand. -/
theorem get_foldl_clear {w : Nat} (clear : Nat → Bool) (l : List Nat) (t : Tbl (BitVec w)) (k : Nat) :
    (l.foldl (fun t i => if clear i then t.set i 0 else t) t).get k 0 = if k ∈ l ∧ clear k then 0 else t.get k 0 := by
  induction l generalizing t with
  | nil => simp
  | cons i l ih =>
    have hhead : (if clear i then t.set i 0 else t).get k 0 = if k = i ∧ clear k then 0 else t.get k 0 := by
      by_cases hk : k = i
      · subst hk; split <;> simp_all
      · split <;> simp [hk, Tbl.get_set_other t (Ne.symm hk)]
    rw [List.foldl_cons, ih, hhead]
    by_cases hl : k ∈ l ∧ clear k = true
    · rw [if_pos hl, if_pos ⟨List.mem_cons_of_mem i hl.1, hl.2⟩]
    · rw [if_neg hl]
      refine if_congr ?_ rfl rfl
      rw [List.mem_cons]; tauto

@[simp] theorem Tenant.writeEvent_event (v : Tenant) (a : W64) : (v.writeEvent a).event = v.event &&& ~~~(BitVec.ofNat 4 (fld a 0 4)) := rfl

theorem Tenant.writeEvent_eventCnt (v : Tenant) (a : W64) {k : Nat} (hk : k < 4) :
    (v.writeEvent a).eventCnt.get k 0 = if a.getLsbD (16 + k) then 0 else v.eventCnt.get k 0 := by
  simp only [Tenant.writeEvent, get_foldl_clear (fun k => a.getLsbD (16 + k)), List.mem_range, hk, true_and]

/-- TW_EVENT is a hardware register. -/
theorem State.write_event {s : State} {n : Nat} (hn : n < 64) (h : s.dev.Serves n 0x10) (a : W64) (host : List Host.Cell) :
    s.write n 0x10 a 64 host = s.withDev (s.dev.modTen n (fun v => v.writeEvent a)) := by
  rw [State.write_twHardware hn h (targetAt_tenant_below hn (by decide)) (emulated_tenant_below hn (by decide))]
  simp [Dev.writeTwHardware]

/-! The two values that the rows write: the flags in [3:0], cnt_clr in [19:16]. -/

theorem flags_of_flags (bits : BitVec 4) : BitVec.ofNat 4 (fld (BitVec.ofNat 64 bits.toNat) 0 4) = bits := by
  revert bits; decide

theorem cntClr_of_flags (bits : BitVec 4) {k : Nat} (hk : k < 4) : (BitVec.ofNat 64 bits.toNat).getLsbD (16 + k) = false :=
  (by decide : ∀ (b : BitVec 4) (j : Fin 4), (BitVec.ofNat 64 b.toNat).getLsbD (16 + j.val) = false) bits ⟨k, hk⟩

theorem flags_of_cntClr (bits : BitVec 4) : BitVec.ofNat 4 (fld (BitVec.ofNat 64 (65536 * bits.toNat)) 0 4) = 0#4 := by
  revert bits; decide

theorem cntClr_of_cntClr (bits : BitVec 4) {k : Nat} (hk : k < 4) : (BitVec.ofNat 64 (65536 * bits.toNat)).getLsbD (16 + k) = bits.getLsbD k :=
  (by decide : ∀ (b : BitVec 4) (j : Fin 4), (BitVec.ofNat 64 (65536 * b.toNat)).getLsbD (16 + j.val) = b.getLsbD j.val) bits ⟨k, hk⟩

/-- A write of cnt_clr alone changes the counters alone. -/
theorem Tenant.writeEvent_of_cntClr (v : Tenant) (bits : BitVec 4) : let a := BitVec.ofNat 64 (65536 * bits.toNat)
    v.writeEvent a = { v with eventCnt := (v.writeEvent a).eventCnt } := by
  have hflags : v.event &&& ~~~(BitVec.ofNat 4 (fld (BitVec.ofNat 64 (65536 * bits.toNat)) 0 4)) = v.event := by
    rw [flags_of_cntClr, BitVec.not_zero, BitVec.and_allOnes]
  simp only [Tenant.writeEvent, hflags]

/-! ## Setting -/

theorem Tenant.raise_event_getLsbD (v : Tenant) (k : Nat) {j : Nat} (hj : j < 4) : (v.raise k).event.getLsbD j = (v.event.getLsbD j || decide (j = k)) := by
  rw [Tenant.raise, BitVec.getLsbD_or, ← BitVec.twoPow_eq, BitVec.getLsbD_twoPow]
  by_cases hjk : j = k
  · subst hjk; simp [hj]
  · simp [hjk, Ne.symm hjk]

theorem Tenant.raise_eventCnt_other (v : Tenant) {k j : Nat} (h : k ≠ j) : (v.raise k).eventCnt.get j 0 = v.eventCnt.get j 0 :=
  Tbl.get_set_other _ h _ _

/-- The flags of `l` that `setting` names are set, in order. -/
def Tenant.raiseAll (v : Tenant) (setting : BitVec 4) (l : List Nat) : Tenant := l.foldl (fun v k => if setting.getLsbD k then v.raise k else v) v

theorem Tenant.raiseAll_event (setting : BitVec 4) (l : List Nat) (v : Tenant) {j : Nat} (hj : j < 4) :
    (v.raiseAll setting l).event.getLsbD j = (v.event.getLsbD j || (decide (j ∈ l) && setting.getLsbD j)) := by
  induction l generalizing v with
  | nil => simp [Tenant.raiseAll]
  | cons k l ih =>
    have hhead : (if setting.getLsbD k then v.raise k else v).event.getLsbD j = (v.event.getLsbD j || (decide (j = k) && setting.getLsbD j)) := by
      split
      · next hk =>
        rw [Tenant.raise_event_getLsbD v k hj]
        by_cases hjk : j = k <;> simp [hjk, hk]
      · next hk => by_cases hjk : j = k <;> simp [hjk, hk]
    unfold Tenant.raiseAll at ih ⊢
    simp only [List.foldl_cons, ih, hhead, List.mem_cons, Bool.decide_or, Bool.or_assoc, Bool.and_or_distrib_right]

theorem Tenant.raiseAll_range_event (v : Tenant) (setting : BitVec 4) : (v.raiseAll setting (List.range 4)).event = v.event ||| setting := by
  refine BitVec.eq_of_getLsbD_eq fun j hj => ?_
  rw [Tenant.raiseAll_event setting _ v hj, BitVec.getLsbD_or, decide_eq_true (List.mem_range.mpr hj), Bool.true_and]

theorem Tenant.raiseAll_eventCnt {setting : BitVec 4} {j : Nat} (h : setting.getLsbD j = false) (l : List Nat) (v : Tenant) :
    (v.raiseAll setting l).eventCnt.get j 0 = v.eventCnt.get j 0 := by
  refine foldl_keeps (P := fun u : Tenant => u.eventCnt.get j 0 = v.eventCnt.get j 0) (fun u k hu => ?_) l rfl
  split
  · next hk => rw [Tenant.raise_eventCnt_other u (by rintro rfl; simp [h] at hk), hu]
  · exact hu

/-- From `d` to `e`, the entry of tenant `n` alone may differ. -/
def Dev.TenantOnly (n : Nat) (d e : Dev) : Prop := e = { d with tenants := e.tenants } ∧ ∀ x, x ≠ n → e.ten x = d.ten x

theorem tenantOnly_refl (n : Nat) (d : Dev) : Dev.TenantOnly n d d := ⟨rfl, fun _ _ => rfl⟩

theorem modTen_tenantOnly {d e : Dev} {n : Nat} (h : Dev.TenantOnly n d e) (f : Tenant → Tenant) : Dev.TenantOnly n d (e.modTen n f) := by
  obtain ⟨heq, hten⟩ := h
  refine ⟨?_, fun x hx => (Dev.modTen_ten_other e hx.symm f).trans (hten x hx)⟩
  rw [heq]; rfl

/-- The events of tenant `n` that `setting` names arrive. -/
def Dev.eventAll (d : Dev) (n : Nat) (setting : BitVec 4) (l : List Nat) : Dev := l.foldl (fun d k => if setting.getLsbD k then d.event n k else d) d

theorem Dev.eventAll_ten (n : Nat) (setting : BitVec 4) (l : List Nat) (d : Dev) : (d.eventAll n setting l).ten n = (d.ten n).raiseAll setting l := by
  induction l generalizing d with
  | nil => rfl
  | cons k l ih =>
    unfold Dev.eventAll Tenant.raiseAll at *
    rw [List.foldl_cons, List.foldl_cons, ih]
    split
    · rw [Dev.event, Dev.modTen_ten]
    · rfl

theorem eventAll_tenantOnly {d e : Dev} {n : Nat} (h : Dev.TenantOnly n d e) (setting : BitVec 4) (l : List Nat) :
    Dev.TenantOnly n d (e.eventAll n setting l) := by
  refine foldl_keeps (P := Dev.TenantOnly n d) (fun a k ha => ?_) l h
  split
  · exact modTen_tenantOnly ha _
  · exact ha

/-! ## The rows -/

theorem exec_eventCntClear {s : State} {n : Nat} (hn : n < 64) (h : s.dev.Serves n 0x10) (bits : BitVec 4) :
    exec (.eventCntClear n bits) s = .next (s.withDev (s.dev.modTen n (fun v => v.writeEvent (BitVec.ofNat 64 (65536 * bits.toNat))))) := by
  rw [← State.write_event hn h _ []]
  exact congrArg Host.Outcome.next (if_pos hn)

/-- Where the window serves, hardware may set flags in the cycle of the write. -/
theorem exec_eventFlagClear {s : State} {n : Nat} (hn : n < 64) (h : s.dev.Serves n 0x10) (bits setting : BitVec 4) :
    exec (.eventFlagClear n bits setting) s =
      .next (s.withDev ((s.dev.modTen n (fun v => v.writeEvent (BitVec.ofNat 64 bits.toNat))).eventAll n setting (List.range 4))) := by
  obtain ⟨-, hwin, hawake, -, hten, -⟩ := id h
  have hcycle : s.dev.windowOn n = true ∧ s.dev.awake = true ∧ s.dev.boot.stage = 6 := by
    refine ⟨hwin, ?_, (hten hn).1⟩
    simp only [Dev.windowOn, Bool.and_eq_true] at hwin
    obtain ⟨⟨hon, -⟩, -⟩ := hwin
    simp only [Dev.awake, Bool.and_eq_true, decide_eq_true_eq]
    exact ⟨hon, hawake⟩
  calc exec (.eventFlagClear n bits setting) s
    _ = execEventFlagClear n bits setting s := rfl
    _ = _ := by
      simp only [execEventFlagClear, if_pos hn, if_pos hcycle, State.write_event hn h]
      rfl

/-- Settles O35: the write clears flags and counters of its own bits, and hardware then sets the flags of the same cycle. -/
theorem eventFlagsAndCountersClear : Obligations.EventFlagsAndCountersClear := by
  unfold Obligations.EventFlagsAndCountersClear
  intro s n bits setting hn h
  have cleared (a : W64) : Dev.TenantOnly n s.dev (s.dev.modTen n (fun v => v.writeEvent a)) := modTen_tenantOnly (tenantOnly_refl n s.dev) _
  constructor
  · obtain ⟨hdev, hothers⟩ := cleared (BitVec.ofNat 64 (65536 * bits.toNat))
    refine ⟨_, exec_eventCntClear hn h bits, congrArg s.withDev hdev, hothers, ?_, fun k hk => ?_⟩
    · rw [Dev.modTen_ten]
      exact Tenant.writeEvent_of_cntClr _ bits
    · rw [Dev.modTen_ten, Tenant.writeEvent_eventCnt _ _ hk, cntClr_of_cntClr bits hk]
  · obtain ⟨hdev, hothers⟩ := eventAll_tenantOnly (cleared (BitVec.ofNat 64 bits.toNat)) setting (List.range 4)
    refine ⟨_, exec_eventFlagClear hn h bits setting, congrArg s.withDev hdev, hothers, ?_, fun k hk hset => ?_⟩
    · rw [Dev.eventAll_ten, Tenant.raiseAll_range_event, Dev.modTen_ten, Tenant.writeEvent_event, flags_of_flags]
    · rw [Dev.eventAll_ten, Tenant.raiseAll_eventCnt hset, Dev.modTen_ten, Tenant.writeEvent_eventCnt _ _ hk, cntClr_of_flags bits hk]
      rfl

end Sys2Proof.Machine

/-! PROOFS. TENANT_ENABLE and the memory system (R413, R432, R437): the tenant's new memory keys are part of it. -/
namespace Sys2Proof.Machine
open Sys2Proof

@[simp] theorem Dev.putProg_mem (d : Dev) (p slot : Nat) (v : Progress) : (d.putProg p slot v).mem = d.mem := by
  unfold Dev.putProg; split <;> rfl

@[simp] theorem Dev.showProgress_mem (d : Dev) (p slot kind value : Nat) : (d.showProgress p slot kind value).mem = d.mem := by
  simp only [Dev.showProgress, Dev.statusEvent, Dev.event, apply_ite Dev.mem, Dev.modTen_mem, Dev.putProg_mem, ite_self]

@[simp] theorem Dev.setProgress_mem (d : Dev) (p slot kind value : Nat) : (d.setProgress p slot kind value).mem = d.mem := by
  simp only [Dev.setProgress, apply_ite Dev.mem, Dev.putProg_mem, Dev.showProgress_mem, ite_self]

@[simp] theorem Dev.logRec_mem (d : Dev) (core code tenant unit a b : Nat) : (d.logRec core code tenant unit a b).mem = d.mem := by
  unfold Dev.logRec; dsimp only; split <;> rfl

@[simp] theorem Dev.deferred_mem (d : Dev) (core tenant due : Nat) : (d.deferred core tenant due).mem = d.mem := by
  simp only [Dev.deferred, apply_ite Dev.mem, Dev.logRec_mem, ite_self]

/-- New memory keys for an index take the place of none. -/
theorem Dev.keyMem_keys (d : Dev) (k : Nat) : (d.keyMem k).mem.keys.get k none ≠ none := by
  have hkey : (d.keyMem k).mem.keys.get k none = some _ := Tbl.get_set_same d.mem.keys k _ none
  rw [hkey]
  exact Option.some_ne_none _

/-- TENANT_ENABLE comes about: a scrub has ended, it is due at this tick, and CC4, the tenant's core and the entropy source are there. -/
def Dev.EnablesTenant (d : Dev) (n : Nat) : Prop :=
  (d.ten n).scrub = true ∧ (d.ten n).scrubDone = true ∧ d.atTick = true ∧ (d.ten n).scrubDue ≤ d.tick ∧ d.coreOut 4 = false ∧ d.coreOut (coreOf n) = false ∧
    d.sec.rngFail = false

/-- All that becomes of the memory system is the tenant's new keys. -/
theorem Dev.tenantEnable_mem {d : Dev} {n : Nat} (h : d.EnablesTenant n) : (d.tenantEnable n).mem = (d.keyMem n).mem := by
  obtain ⟨hscrub, hdone, htick, hdue, hcc4, hcore, hrng⟩ := h
  have hnow : ¬ d.tick < (d.ten n).scrubDue := Nat.not_lt.mpr hdue
  simp only [Dev.tenantEnable, hscrub, hdone, htick, hnow, hcc4, hcore, hrng, Bool.not_true, decide_false, Bool.or_self, Bool.false_eq_true, if_false,
    Dev.deferred_mem, Dev.logRec_mem, Dev.setProgress_mem]
  rfl

/-- Refutes O20: its last conjunct has TENANT_ENABLE leave the memory system as it was, but the tenant's new memory keys (R437) are part of
it. Tenant 0, at the end of its scrub at time 0, has none before and has some after. -/
theorem not_resetsComplete : ¬ Obligations.ResetsComplete := by
  unfold Obligations.ResetsComplete
  rintro ⟨-, -, henable⟩
  have hready : Dev.EnablesTenant { tenants := [(0, { scrub := true, scrubDone := true })] } 0 := by unfold Dev.EnablesTenant; decide
  obtain ⟨hscrub, hdone, htick, hdue, hcc4, hcore, hrng⟩ := id hready
  obtain ⟨t, hrun, -, -, -, -, -, -, hsame⟩ := henable { dev := _ } 0 (by decide) hscrub hdone htick hdue hcc4 hcore hrng
  cases hrun
  have hmem : (Dev.keyMem _ 0).mem = _ := (Dev.tenantEnable_mem hready).symm.trans hsame
  exact Dev.keyMem_keys _ 0 (by rw [hmem]; rfl)

end Sys2Proof.Machine

/-! PROOFS. Time, power and the firmware block: the operations that leave all three as they were, in the order in which the model defines them. -/
namespace Sys2Proof.Machine
open Sys2Proof

/-- Data-plane time, the power block and the firmware block. -/
def Dev.vitals (d : Dev) : W64 × Pwr × Fw := (d.time, d.pwr, d.fw)

/-- A fold of operations that keep the vitals keeps them. -/
theorem vitals_foldl {β : Type} {f : Dev → β → Dev} (hf : ∀ d b, (f d b).vitals = d.vitals) (l : List β) (d : Dev) : (l.foldl f d).vitals = d.vitals :=
  foldl_keeps (P := fun e => e.vitals = d.vitals) (fun e b h => (hf e b).trans h) l rfl

theorem vitals_of_ringOnly {p : Nat} {d e : Dev} (h : d.ringOnly p e) : e.vitals = d.vitals := by
  obtain ⟨ten, mg, m, b, n, hm, pm, -, -, rfl⟩ := h; rfl

theorem vitals_of_memOnly {d e : Dev} (h : d.memOnly e) : e.vitals = d.vitals := vitals_of_ringOnly (ringOnly_of_mem 0 h)

/-! ## Updates of one entry -/

@[simp] theorem Dev.modTen_vitals (d : Dev) (n : Nat) (f : Tenant → Tenant) : (d.modTen n f).vitals = d.vitals := rfl
@[simp] theorem Dev.modQue_vitals (d : Dev) (n : Nat) (f : Queue → Queue) : (d.modQue n f).vitals = d.vitals := rfl
@[simp] theorem Dev.modPart_vitals (d : Dev) (n : Nat) (f : PartState → PartState) : (d.modPart n f).vitals = d.vitals := rfl
@[simp] theorem Dev.modRegion_vitals (d : Dev) (n : Nat) (f : RegionState → RegionState) : (d.modRegion n f).vitals = d.vitals := rfl
@[simp] theorem Dev.modDie_vitals (d : Dev) (n : Nat) (f : DieState → DieState) : (d.modDie n f).vitals = d.vitals := rfl
@[simp] theorem Dev.modStop_vitals (d : Dev) (n : Nat) (f : HaloStop → HaloStop) : (d.modStop n f).vitals = d.vitals := rfl
@[simp] theorem Dev.modCluster_vitals (d : Dev) (n : Nat) (f : Cluster → Cluster) : (d.modCluster n f).vitals = d.vitals := rfl
@[simp] theorem Dev.modPort_vitals (d : Dev) (n : Nat) (f : Port → Port) : (d.modPort n f).vitals = d.vitals := rfl
@[simp] theorem Dev.modEth_vitals (d : Dev) (n : Nat) (f : EthPort → EthPort) : (d.modEth n f).vitals = d.vitals := rfl
@[simp] theorem Dev.modSlot_vitals (d : Dev) (n : Nat) (f : Slot → Slot) : (d.modSlot n f).vitals = d.vitals := rfl
@[simp] theorem Dev.modSeq_vitals (d : Dev) (r : Nat) (f : Seq → Seq) : (d.modSeq r f).vitals = d.vitals := by
  unfold Dev.modSeq; split <;> rfl

/-! ## Progress, records and completion entries -/

@[simp] theorem Dev.setProgress_vitals (d : Dev) (p slot kind value : Nat) : (d.setProgress p slot kind value).vitals = d.vitals :=
  vitals_of_ringOnly (setProgress_ring d p slot kind value)

@[simp] theorem Dev.setBusy_vitals (d : Dev) (p slot : Nat) (b : Bool) : (d.setBusy p slot b).vitals = d.vitals := vitals_of_ringOnly (setBusy_ring d p slot b)
@[simp] theorem Dev.record_vitals (d : Dev) (r : ErrRec) : (d.record r).vitals = d.vitals := vitals_of_ringOnly (record_ring d r)
@[simp] theorem Dev.tenantRec_vitals (d : Dev) (p : Nat) (r : ErrRec) : (d.tenantRec p r).vitals = d.vitals := vitals_of_ringOnly (tenantRec_ring d p r)
@[simp] theorem Dev.countUnit_vitals (d : Dev) (unit who : Nat) : (d.countUnit unit who).vitals = d.vitals := vitals_of_ringOnly (countUnit_ring d 0 unit who)
@[simp] theorem Dev.cmdRec_vitals (d : Dev) (q unit : Nat) (f : Fail) (index : Nat) (subTag : W16) : (d.cmdRec q unit f index subTag).vitals = d.vitals :=
  Dev.record_vitals _ _

@[simp] theorem Dev.emit_vitals (d : Dev) (q : Nat) (e : Entry) : (d.emit q e).vitals = d.vitals := by
  rcases emit_cases d q e with h | h
  · exact (vitals_of_ringOnly h :)
  · exact (vitals_of_ringOnly h :)

@[simp] theorem Dev.logRec_vitals (d : Dev) (core code tenant unit a b : Nat) : (d.logRec core code tenant unit a b).vitals = d.vitals := by
  unfold Dev.logRec; dsimp only; split <;> rfl

@[simp] theorem Dev.deferred_vitals (d : Dev) (core tenant due : Nat) : (d.deferred core tenant due).vitals = d.vitals := by
  simp only [Dev.deferred, apply_ite Dev.vitals, Dev.logRec_vitals, ite_self]

@[simp] theorem Dev.showProgress_vitals (d : Dev) (p slot kind value : Nat) : (d.showProgress p slot kind value).vitals = d.vitals :=
  vitals_of_ringOnly (showProgress_ring d p slot kind value)

@[simp] theorem Dev.flushProgress_vitals (d : Dev) (p : Nat) : (d.flushProgress p).vitals = d.vitals := by
  refine vitals_foldl (fun e k => ?_) _ d
  split
  · simp only [apply_ite Dev.vitals, Dev.showProgress_vitals, ite_self]
  · rfl

/-! ## The end of a command (R121) -/

@[simp] theorem Dev.clearRegions_vitals (d : Dev) (mask : W16) : (d.clearRegions mask).vitals = d.vitals :=
  vitals_foldl (fun e r => e.modRegion_vitals r _) _ d

@[simp] theorem Dev.adapterFree_vitals (d : Dev) (p k : Nat) (l : List Nat) : (d.adapterFree p k l).vitals = d.vitals :=
  vitals_foldl (fun e s => e.modSeq_vitals s _) l _

@[simp] theorem Dev.tuneEnd_vitals (d : Dev) (p : Nat) (g : Prog) (ok : Bool) : (d.tuneEnd p g ok).vitals = d.vitals := by
  unfold Dev.tuneEnd; dsimp only
  generalize he : d.modTen p _ = e
  have hread := vitals_of_memOnly (e.readMem_only { party := p, part := g.partition } (g.stateAddr + 6) 2)
  have hvitals : e.vitals = d.vitals := he ▸ d.modTen_vitals p _
  split <;> rename_i h <;> rw [h] at hread
  · exact hread.trans hvitals
  · exact (vitals_of_memOnly (Dev.writeMem_only _ _ _ _)).trans (hread.trans hvitals)

@[simp] theorem Dev.releaseSlot_vitals (d : Dev) (q : Nat) (r : Running) (st : B8) : (d.releaseSlot q r st).vitals = d.vitals := by
  unfold Dev.releaseSlot
  split
  · simp only [apply_ite Dev.vitals, Dev.setBusy_vitals, Dev.setProgress_vitals, ite_self]
  · rfl

@[simp] theorem Dev.releaseProg_vitals (d : Dev) (p : Nat) (g : Prog) (st : B8) : (d.releaseProg p g st).vitals = d.vitals := by
  have hpin : ((if g.slot < 8 then d.unpin (slotNo g.partition g.slot) g.gen else d).clearRegions g.mask).vitals = d.vitals := by
    rw [Dev.clearRegions_vitals]; split <;> rfl
  unfold Dev.releaseProg; dsimp only
  simp only [apply_ite Dev.vitals, Dev.tuneEnd_vitals, Dev.adapterFree_vitals, hpin, ite_self]

@[simp] theorem Dev.unmarkTile_vitals (d : Dev) (q : Nat) (r : Running) : (d.unmarkTile q r).vitals = d.vitals := by
  unfold Dev.unmarkTile; dsimp only
  split
  · split <;> rfl
  · rfl

@[simp] theorem Dev.ctlRelease_vitals (d : Dev) (q : Nat) (c : W512) : (d.ctlRelease q c).vitals = d.vitals := by
  unfold Dev.ctlRelease; split <;> rfl

@[simp] theorem Dev.mediaRelease_vitals (d : Dev) (q : Nat) : (d.mediaRelease q).vitals = d.vitals := rfl
@[simp] theorem Dev.scatterRelease_vitals (d : Dev) (q : Nat) : (d.scatterRelease q).vitals = d.vitals := rfl
@[simp] theorem Dev.seqCtlRelease_vitals (d : Dev) (q : Nat) : (d.seqCtlRelease q).vitals = d.vitals := rfl
@[simp] theorem Dev.barrierLeave_vitals (d : Dev) (q b : Nat) : (d.barrierLeave q b).vitals = d.vitals := rfl

@[simp] theorem Dev.release_vitals (d : Dev) (q : Nat) (r : Running) (st : B8) : (d.release q r st).vitals = d.vitals := by
  simp only [Dev.release, apply_ite Dev.vitals, Dev.mediaRelease_vitals, Dev.scatterRelease_vitals, Dev.unmarkTile_vitals, Dev.ctlRelease_vitals,
    Dev.seqCtlRelease_vitals, Dev.barrierLeave_vitals, ite_self]
  split
  · rw [Dev.releaseProg_vitals, Dev.releaseSlot_vitals]
  · exact d.releaseSlot_vitals q r st

@[simp] theorem Dev.endEntry_vitals (d : Dev) (q : Nat) (c : W512) (l : CmdList) (st : B8) (res : W64) : (d.endEntry q c l st res).vitals = d.vitals := by
  simp only [Dev.endEntry, apply_ite Dev.vitals, Dev.emit_vitals, ite_self]

@[simp] theorem Dev.endRecord_vitals (d : Dev) (q : Nat) (l : CmdList) (f : Option (Fail × Nat)) : (d.endRecord q l f).vitals = d.vitals := by
  unfold Dev.endRecord; split
  · exact d.cmdRec_vitals q _ _ _ _
  · rfl

@[simp] theorem Dev.endList_vitals (d : Dev) (q : Nat) (l : CmdList) (last : Nat) : (d.endList q l last).vitals = d.vitals := by
  simp only [Dev.endList, Dev.emit_vitals, Dev.modQue_vitals]

@[simp] theorem Dev.endCmd_vitals (d : Dev) (q : Nat) (st : B8) (res : W64) (f : Option (Fail × Nat)) : (d.endCmd q st res f).vitals = d.vitals := by
  unfold Dev.endCmd; split
  · simp only [apply_ite Dev.vitals, Dev.endList_vitals, Dev.modQue_vitals, Dev.endEntry_vitals, Dev.endRecord_vitals, Dev.release_vitals, ite_self]
  · rfl

@[simp] theorem Dev.finish_vitals (d : Dev) (q : Nat) (res : W64) : (d.finish q res).vitals = d.vitals := d.endCmd_vitals q _ _ _
@[simp] theorem Dev.failDisp_vitals (d : Dev) (q : Nat) (f : Fail) : (d.failDisp q f).vitals = d.vitals := d.endCmd_vitals q _ _ _

/-! ## Staging, progress, models and KV caches at a tick -/

@[simp] theorem Dev.freePage_vitals (d : Dev) (i : Nat) : (d.freePage i).vitals = d.vitals := by
  unfold Dev.freePage; split
  · rfl
  · split
    · rfl
    · dsimp only; split <;> rfl

@[simp] theorem Dev.freeRetired_vitals (d : Dev) : d.freeRetired.vitals = d.vitals :=
  vitals_foldl (fun e _ => vitals_foldl (fun e i => e.freePage_vitals i) _ e) _ _

@[simp] theorem Dev.swapIndex_vitals (d : Dev) (p : Nat) : (d.swapIndex p).vitals = d.vitals := by
  unfold Dev.swapIndex; split
  · rfl
  · rw [Dev.deferred_vitals]; rfl

@[simp] theorem Dev.flipLists_vitals (d : Dev) (p : Nat) : (d.flipLists p).vitals = d.vitals := by
  unfold Dev.flipLists; split
  · rfl
  · rw [Dev.deferred_vitals, Dev.freeRetired_vitals, Dev.modPart_vitals]
    refine (vitals_foldl (fun e i => ?_) _ _).trans (vitals_foldl (fun e x => ?_) _ d)
    · split <;> rfl
    · rfl

@[simp] theorem Dev.kvTick_vitals (d : Dev) : d.kvTick.vitals = d.vitals := by
  unfold Dev.kvTick; split
  · rfl
  · exact (vitals_foldl (fun e p => by rw [Dev.flipLists_vitals, Dev.swapIndex_vitals]) _ _).trans d.freeRetired_vitals

@[simp] theorem Dev.applySwitch_vitals (d : Dev) (n : Nat) : (d.applySwitch n).vitals = d.vitals := by
  unfold Dev.applySwitch; dsimp only
  refine (vitals_foldl (fun e w => ?_) _ _).trans ?_
  · simp only [apply_ite Dev.vitals, Dev.finish_vitals, Dev.failDisp_vitals, ite_self]
  · split
    · simp only [Dev.deferred_vitals, Dev.logRec_vitals, Dev.modSlot_vitals]
    · exact d.modSlot_vitals n _

@[simp] theorem Dev.progressTick_vitals (d : Dev) (env : TickEnv) : (d.progressTick env).vitals = d.vitals := by
  unfold Dev.progressTick; dsimp only
  refine (vitals_foldl (fun e x => ?_) _ _).trans ?_
  · simp only [apply_ite Dev.vitals, Dev.setProgress_vitals, ite_self]
  · simp only [apply_ite Dev.vitals, Dev.setProgress_vitals, ite_self]
    exact vitals_foldl (fun e p => e.flushProgress_vitals p) _ d

@[simp] theorem Dev.stageFail_vitals (d : Dev) (st : B8) (code : Nat) : (d.stageFail st code).vitals = d.vitals := by
  unfold Dev.stageFail Dev.stageRec Dev.regRec
  rw [Dev.record_vitals, Dev.setProgress_vitals]; rfl

theorem State.stageEnd_vitals (s : State) (left : Nat) : (s.stageEnd left).dev.vitals = s.dev.vitals := by
  unfold State.stageEnd; dsimp only
  repeat' split
  · rfl
  · exact Dev.setProgress_vitals _ _ _ _ _
  · rw [Dev.stageFail_vitals]; rfl
  · rw [Dev.setProgress_vitals]; rfl

theorem State.stageEnd_fuses (s : State) (left : Nat) : (s.stageEnd left).nv.fuses = s.nv.fuses := by
  unfold State.stageEnd; dsimp only
  repeat' split
  all_goals rfl

end Sys2Proof.Machine

/-! PROOFS. The management tick (R29, R30, R69): what it measures and applies, and what the rest of its work leaves of that. -/
namespace Sys2Proof.Machine
open Sys2Proof

/-! ## What a tick brings up to date -/

/-- What MANAGEMENT_TICK sets, time, measurements and the cap, and the state of the cores that decides it. -/
structure Gauges where
  time : W64
  powerMw : Nat
  maxMw : Nat
  temp : Tbl Int
  capW : Nat
  capNext : Option Nat
  cores : Tbl Core
  updState : Nat

/-- The gauges are part of the vitals. -/
def gaugesOf (v : W64 × Pwr × Fw) : Gauges :=
  { time := v.1, powerMw := v.2.1.powerMw, maxMw := v.2.1.maxMw, temp := v.2.1.temp, capW := v.2.1.capW, capNext := v.2.1.capNext,
    cores := v.2.2.cores, updState := v.2.2.updState }

def Dev.gauges (d : Dev) : Gauges := gaugesOf d.vitals

theorem gauges_of_vitals {d e : Dev} (h : e.vitals = d.vitals) : e.gauges = d.gauges := congrArg gaugesOf h

theorem gauges_foldl {β : Type} {f : Dev → β → Dev} (hf : ∀ d b, (f d b).gauges = d.gauges) (l : List β) (d : Dev) : (l.foldl f d).gauges = d.gauges :=
  foldl_keeps (P := fun e => e.gauges = d.gauges) (fun e b h => (hf e b).trans h) l rfl

def Gauges.coreOut (g : Gauges) (k : Nat) : Bool := (g.cores.get k {}).restarting || decide (g.updState = 3)

theorem coreOut_of_gauges {d : Dev} {g : Gauges} (h : d.gauges = g) (k : Nat) : d.coreOut k = g.coreOut k := congrArg (fun g => g.coreOut k) h

/-- The temperatures after a tick's measurement. -/
def readTemps (env : TickEnv) (t : Tbl Int) : Tbl Int := (({ pwr := { temp := t } } : Dev).measure env).pwr.temp

/-- R503: the tick's power and temperatures are taken over. -/
def Gauges.measured (g : Gauges) (env : TickEnv) : Gauges :=
  { g with powerMw := min 0xFFFFF env.powerMw, maxMw := max g.maxMw (min 0xFFFFF env.powerMw), temp := readTemps env g.temp }

/-- R502: a requested cap is applied while CC0 runs. -/
def Gauges.capApplied (g : Gauges) : Gauges :=
  { g with capW := if g.coreOut 0 then g.capW else g.capNext.getD g.capW, capNext := if g.coreOut 0 then g.capNext else none }

/-! ## Counters, ceilings, points and errors at a tick -/

@[simp] theorem Dev.countRg_vitals (d : Dev) (r ev who n : Nat) : (d.countRg r ev who n).vitals = d.vitals := rfl

@[simp] theorem Dev.countTick_vitals (d : Dev) : d.countTick.vitals = d.vitals := by
  unfold Dev.countTick
  refine vitals_foldl (fun e x => ?_) _ d
  rw [Dev.countRg_vitals]
  exact vitals_foldl (fun e c => e.modCluster_vitals _ _) _ e

@[simp] theorem Dev.noteSaved_vitals (d : Dev) (mw : Nat) : (d.noteSaved mw).vitals = d.vitals := vitals_foldl (fun e p => e.modPart_vitals p _) _ d

@[simp] theorem Dev.newCeilings_vitals (d : Dev) (f : Fuses) : (d.newCeilings f).vitals = d.vitals := by
  refine (vitals_foldl (fun e p => e.modPart_vitals p _) _ _).trans (vitals_foldl (fun e r => ?_) _ d)
  split <;> rfl

@[simp] theorem Dev.allVolts_vitals (d : Dev) (f : Fuses) : (d.allVolts f).vitals = d.vitals := by
  unfold Dev.allVolts
  refine vitals_foldl (fun e k => ?_) _ d
  rfl

@[simp] theorem Dev.lowerPart_vitals (d : Dev) (p : Nat) : (d.lowerPart p).vitals = d.vitals := rfl
@[simp] theorem Dev.raisePart_vitals (d : Dev) (p : Nat) : (d.raisePart p).vitals = d.vitals := by
  simp only [Dev.raisePart, apply_ite Dev.vitals, Dev.modPart_vitals, ite_self]

@[simp] theorem Dev.setPoints_vitals (d : Dev) (p : Nat) : (d.setPoints p).vitals = d.vitals := by
  simp only [Dev.setPoints, Dev.modPart_vitals]
  exact (vitals_foldl (fun e r => e.modDie_vitals (r / 4) _) _ _).trans (vitals_foldl (fun e r => e.modRegion_vitals r _) _ d)

@[simp] theorem Dev.driftCheck_vitals (d : Dev) (env : TickEnv) : (d.driftCheck env).vitals = d.vitals := by
  unfold Dev.driftCheck; split <;> rfl

@[simp] theorem Dev.arrayError_vitals (d : Dev) (line : Nat) : (d.arrayError line).vitals = d.vitals := by
  unfold Dev.arrayError; split
  · rfl
  · simp only [Dev.vitals, Dev.drawn]

@[simp] theorem Dev.errorsArise_vitals (d : Dev) (env : TickEnv) : (d.errorsArise env).vitals = d.vitals := by
  unfold Dev.errorsArise; dsimp only
  refine (vitals_foldl (fun e x => e.modEth_vitals _ _) _ _).trans ?_
  refine (vitals_foldl (fun e x => e.arrayError_vitals x) _ _).trans ?_
  refine (vitals_foldl (fun e x => e.modEth_vitals _ _) _ _).trans ?_
  refine (vitals_foldl (fun e x => e.modPort_vitals _ _) _ _).trans ?_
  refine (vitals_foldl (fun e r => e.modSeq_vitals r _) _ _).trans ?_
  exact vitals_foldl (fun e x => e.modStop_vitals _ _) _ _

@[simp] theorem Dev.applyMr_vitals (d : Dev) : d.applyMr.vitals = d.vitals := by
  have hextend (l : List (Nat × B384)) : (l.foldl (fun d x => d.extend x.1 x.2) d).vitals = d.vitals := by
    refine vitals_foldl (fun e x => ?_) l d
    rfl
  exact hextend _

/-! ## Limits, the loop and the cap (R500-R505) -/

@[simp] theorem Dev.thermal_gauges (d : Dev) : d.thermal.gauges = d.gauges := by
  have hlimits : ((List.range 4).foldl (fun e k => e.modDie k (fun _ => d.dieLimit k)) d).gauges = d.gauges :=
    gauges_of_vitals (vitals_foldl (fun e k => e.modDie_vitals k _) _ d)
  have hparts (b : Bool) (l : List Nat) (e : Dev) : (l.foldl (fun d p => d.modPart p (fun v => { v with thermSusp := b })) e).gauges = e.gauges :=
    gauges_of_vitals (vitals_foldl (fun e p => e.modPart_vitals p _) l e)
  unfold Dev.thermal
  extract_lets d1 _ d2
  have hflags : d2.gauges = d.gauges := by
    simp only [d2]
    split <;> exact hlimits
  split
  · exact (hparts true _ _).trans hflags
  · split
    · exact hflags
    · exact (hparts false _ _).trans hflags

@[simp] theorem Dev.capSuspend_gauges (d : Dev) (p mw : Nat) : (d.capSuspend p mw).gauges = d.gauges := by
  unfold Dev.capSuspend
  extract_lets r d1 d2
  have hrecords : d2.vitals = d.vitals := by
    refine (vitals_foldl (fun e t => ?_) _ d1).trans ?_
    · rw [Dev.countUnit_vitals, Dev.tenantRec_vitals]
    · rw [Dev.record_vitals, Dev.modPart_vitals]
  exact (gauges_of_vitals hrecords :)

@[simp] theorem Dev.hwGuard_gauges (d : Dev) (mw : Nat) : (d.hwGuard mw).gauges = d.gauges := by
  unfold Dev.hwGuard
  split
  · rfl
  · extract_lets d1
    have hlowered : d1.vitals = d.vitals := vitals_foldl (fun e p => e.lowerPart_vitals p) _ d
    exact (gauges_of_vitals hlowered :)

@[simp] theorem Dev.capLoop_gauges (d : Dev) (mw : Nat) : (d.capLoop mw).gauges = d.gauges := by
  unfold Dev.capLoop
  extract_lets cap parts running _ d1
  have hloop : d1.gauges = d.gauges := by
    simp only [d1]
    split
    · split
      · rfl
      · split
        · split <;> rfl
        · split
          · simp only [apply_ite Dev.gauges, Dev.capSuspend_gauges, ite_self]
          · rfl
    · split
      · split
        · split <;> rfl
        · rfl
      · split
        · rfl
        · split
          · rfl
          · exact gauges_of_vitals (vitals_foldl (fun e p => e.raisePart_vitals p) _ d)
  split
  · exact hloop
  · exact hloop

theorem Dev.measure_gauges (d : Dev) (env : TickEnv) : (d.measure env).gauges = d.gauges.measured env := rfl

theorem Dev.applyCap_gauges (d : Dev) : d.applyCap.gauges = { d.gauges with capW := d.gauges.capNext.getD d.gauges.capW, capNext := none } := by
  unfold Dev.applyCap
  split
  · next h => simp [Dev.gauges, gaugesOf, Dev.vitals, h]
  · next w h =>
    have hnext : d.gauges.capNext = some w := h
    rw [gauges_of_vitals (Dev.deferred_vitals _ _ _ _), gauges_of_vitals (Dev.logRec_vitals _ _ _ _ _ _ _), hnext]
    rfl

theorem Dev.applyItems_gauges (d : Dev) : d.applyItems.gauges = d.gauges.capApplied := by
  have hcore : d.gauges.coreOut 0 = d.coreOut 0 := rfl
  unfold Dev.applyItems Gauges.capApplied
  rw [hcore]
  split
  · rfl
  · extract_lets slots d1 n
    have hswitched : d1.gauges = d.applyCap.gauges := by
      refine gauges_foldl (fun e k => ?_) slots _
      exact (gauges_of_vitals (e.applySwitch_vitals k) :)
    rw [d.applyCap_gauges] at hswitched
    split
    · exact hswitched
    · rw [gauges_of_vitals (Dev.logRec_vitals _ _ _ _ _ _ _), gauges_of_vitals (Dev.setProgress_vitals _ _ _ _ _),
        gauges_of_vitals (Dev.setProgress_vitals _ _ _ _ _)]
      exact hswitched

theorem Dev.powerTick_gauges (d : Dev) (f : Fuses) (env : TickEnv) : (d.powerTick f env).gauges = (d.gauges.measured env).capApplied := by
  unfold Dev.powerTick
  extract_lets d1 d2 d3 d4 d5
  have h1 : d1.gauges = d.gauges.measured env := by
    rw [gauges_of_vitals (Dev.newCeilings_vitals _ f), gauges_of_vitals (Dev.noteSaved_vitals _ env.powerMw), Dev.thermal_gauges, Dev.measure_gauges]
    exact congrArg (fun g => g.measured env) (gauges_of_vitals d.countTick_vitals)
  have h3 : d3.gauges = d2.gauges := by
    simp only [d3, apply_ite Dev.gauges, Dev.hwGuard_gauges, Dev.capLoop_gauges, ite_self]
  have h5 : d5.vitals = d3.vitals := (Dev.allVolts_vitals d4 f).trans (vitals_foldl (fun e p => e.setPoints_vitals p) _ d3)
  clear_value d5
  calc Dev.gauges _
    _ = d5.gauges := rfl
    _ = d3.gauges := gauges_of_vitals h5
    _ = d2.gauges := h3
    _ = d1.gauges.capApplied := d1.applyItems_gauges
    _ = (d.gauges.measured env).capApplied := by rw [h1]

/-! ## The rest of the work -/

theorem Dev.fwTick_gauges (d : Dev) : d.fwTick.gauges = d.gauges := by
  unfold Dev.fwTick; dsimp only
  split
  · rw [gauges_of_vitals (Dev.setProgress_vitals _ _ _ _ _)]; rfl
  · rfl

theorem Dev.entryCheck_gauges (d : Dev) (x : Nat × Nat) : (d.entryCheck x).gauges = d.gauges := by
  unfold Dev.entryCheck; split
  · rw [gauges_of_vitals (Dev.record_vitals _ _)]; rfl
  · rfl

theorem Dev.entryChecks_gauges (d : Dev) : d.entryChecks.gauges = d.gauges := by
  unfold Dev.entryChecks
  exact (gauges_foldl (fun e x => e.entryCheck_gauges x) _ _ :)

theorem Dev.runTick_gauges {d : Dev} (h : d.pwr.entering = false) (f : Fuses) (env : TickEnv) :
    (d.runTick f env).gauges = (d.gauges.measured env).capApplied := by
  unfold Dev.runTick; dsimp only
  rw [h, Bool.false_and, if_neg Bool.false_ne_true, Dev.entryChecks_gauges, Dev.fwTick_gauges, gauges_of_vitals (Dev.applyMr_vitals _),
    gauges_of_vitals (Dev.errorsArise_vitals _ env), gauges_of_vitals (Dev.driftCheck_vitals _ env), Dev.powerTick_gauges,
    gauges_of_vitals (Dev.kvTick_vitals _)]
  rfl

/-! ## The log (R468) -/

theorem Dev.deviceWrite_mgmt (d : Dev) (party p a : Nat) (l : List B8) : (d.deviceWrite party p a l).mgmt = d.mgmt := by
  obtain ⟨m, b, n, -, h⟩ := d.deviceWrite_only party p a l
  rw [h]

theorem Dev.tenantRec_mgmt (d : Dev) (p : Nat) (r : ErrRec) : (d.tenantRec p r).mgmt = d.mgmt := by
  unfold Dev.tenantRec
  extract_lets g _ b d1 d2
  have hslot : d1.mgmt = d.mgmt := d.deviceWrite_mgmt p _ _ b
  clear_value d1
  have hmirror : d2.mgmt = d1.mgmt := by
    simp only [d2]
    split <;> rfl
  clear_value d2
  split
  · rfl
  · split
    · exact d.modTen_mgmt p _
    · rw [Dev.event, Dev.modTen_mgmt, Dev.modTen_mgmt, hmirror, hslot]

/-- A record goes to the log ring: the records that wait stay. -/
theorem Dev.putLog_keeps (d : Dev) (r : ErrRec) : (d.putLog r).vitals = d.vitals ∧ (d.putLog r).mgmt.logBuf = d.mgmt.logBuf := by
  unfold Dev.putLog
  extract_lets d0 g r1 _ _ d1
  obtain ⟨hvit0, hmgmt0⟩ : d0.vitals = d.vitals ∧ d0.mgmt = d.mgmt := by
    simp only [d0]
    split
    · exact ⟨d.tenantRec_vitals _ r, d.tenantRec_mgmt _ r⟩
    · exact ⟨rfl, rfl⟩
  obtain ⟨hvit1, hmgmt1⟩ : d1.vitals = d0.vitals ∧ d1.mgmt = d0.mgmt := by
    simp only [d1]
    split <;> exact ⟨rfl, rfl⟩
  split
  · exact ⟨hvit0, (congrArg MgmtPath.logBuf hmgmt0 :)⟩
  · exact ⟨hvit1.trans hvit0, (congrArg MgmtPath.logBuf (hmgmt1.trans hmgmt0) :)⟩

/-- LOG_FLUSH empties the buffers of every core. -/
theorem Dev.logFlush_empties (d : Dev) : d.logFlush.vitals = d.vitals ∧ d.logFlush.mgmt.logBuf = [] := by
  unfold Dev.logFlush; dsimp only
  refine foldl_keeps (P := fun e : Dev => e.vitals = d.vitals ∧ e.mgmt.logBuf = []) (fun e r h => ?_) _ ⟨rfl, rfl⟩
  obtain ⟨hvit, hbuf⟩ := e.putLog_keeps r
  exact ⟨hvit.trans h.1, hbuf.trans h.2⟩

@[simp] theorem Dev.flushTick_vitals (d : Dev) : d.flushTick.vitals = d.vitals := by
  unfold Dev.flushTick; split
  · rfl
  · exact d.logFlush_empties.1

theorem Dev.flushTick_logBuf {d : Dev} (h : d.coreOut 7 = false) : d.flushTick.mgmt.logBuf = [] := by
  rw [Dev.flushTick, h]
  exact d.logFlush_empties.2

/-! ## The tick -/

/-- The device at the start of its next tick (R29). -/
def Dev.atNextTick (d : Dev) : Dev := d.advance ((d.tick + 1) * 1000000 - d.time.toNat)

theorem Dev.atNextTick_eq (d : Dev) : d.atNextTick = { d with time := BitVec.ofNat 64 ((d.tick + 1) * 1000000), ptp := d.atNextTick.ptp } := by
  have hnext : d.time + BitVec.ofNat 64 ((d.tick + 1) * 1000000 - d.time.toNat) = BitVec.ofNat 64 ((d.tick + 1) * 1000000) := by
    have hbefore : d.time.toNat ≤ (d.tick + 1) * 1000000 := by unfold Dev.tick; omega
    apply BitVec.eq_of_toNat_eq
    rw [BitVec.toNat_add, BitVec.toNat_ofNat, BitVec.toNat_ofNat, Nat.add_mod_mod, Nat.add_sub_cancel' hbefore]
  simp only [Dev.atNextTick, Dev.advance, hnext, Dev.slew]

theorem Dev.atNextTick_vitals (d : Dev) : d.atNextTick.vitals = (BitVec.ofNat 64 ((d.tick + 1) * 1000000), d.pwr, d.fw) := by rw [d.atNextTick_eq]; rfl

theorem Dev.atNextTick_pwr (d : Dev) : d.atNextTick.pwr = d.pwr := by rw [d.atNextTick_eq]
theorem Dev.atNextTick_boot (d : Dev) : d.atNextTick.boot = d.boot := by rw [d.atNextTick_eq]

theorem State.tick_fuses (s : State) (env : TickEnv) : (s.tick env).nv.fuses = s.nv.fuses := by
  unfold State.tick
  split
  · rfl
  dsimp only
  split
  · rfl
  split <;> exact State.stageEnd_fuses _ _

/-- The device to which the work of a tick in Noon and Overcast comes: progress and staging are brought up to the tick. -/
def State.atWork (s : State) (env : TickEnv) : Dev := (State.stageEnd { s with dev := s.dev.atNextTick.progressTick env } env.flashLeft).dev

theorem State.atWork_vitals (s : State) (env : TickEnv) : (s.atWork env).vitals = (BitVec.ofNat 64 ((s.dev.tick + 1) * 1000000), s.dev.pwr, s.dev.fw) := by
  rw [State.atWork, State.stageEnd_vitals, Dev.progressTick_vitals, Dev.atNextTick_vitals]

theorem State.tick_idle {s : State} (hp : s.dev.boot.powered = true) (ht : s.dev.boot.thermtrip = false) (h : 1 < s.dev.pwr.state ∨ s.dev.boot.stage < 6)
    (env : TickEnv) : s.tick env = s.withDev s.dev.atNextTick := by
  rw [← s.dev.atNextTick_pwr, ← s.dev.atNextTick_boot] at h
  unfold State.tick
  rw [hp, ht, Bool.not_true, Bool.or_self, if_neg Bool.false_ne_true]
  exact if_pos h

theorem State.tick_dev {s : State} (hp : s.dev.boot.powered = true) (ht : s.dev.boot.thermtrip = false) (hawake : s.dev.pwr.state ≤ 1)
    (hstage : s.dev.boot.stage = 6) (env : TickEnv) : (s.tick env).dev = ((s.atWork env).runTick s.nv.fuses env).flushTick := by
  rw [← s.dev.atNextTick_pwr] at hawake
  rw [← s.dev.atNextTick_boot] at hstage
  have hruns : ¬ (1 < s.dev.atNextTick.pwr.state ∨ s.dev.atNextTick.boot.stage < 6) := by omega
  unfold State.tick
  rw [hp, ht, Bool.not_true, Bool.or_self, if_neg Bool.false_ne_true]
  extract_lets d s1 s2 d1
  have hd : d = s.dev.atNextTick := rfl
  clear_value d
  subst hd
  rw [if_neg hruns, if_neg (not_not_intro hstage)]
  rfl

/-! ## Temperatures (R503) -/

/-- An entry that one element of a list sets to `x`, and that all leave at `x`, is `x` after the fold. -/
theorem get_foldl_of_mem {α β : Type} {f : Tbl α → β → Tbl α} {k : Nat} {x e : α} {b : β} (hkeeps : ∀ t c, t.get k e = x → (f t c).get k e = x)
    (hsets : ∀ t, (f t b).get k e = x) {l : List β} (hb : b ∈ l) (t : Tbl α) : (l.foldl f t).get k e = x := by
  induction l generalizing t with
  | nil => cases hb
  | cons c l ih =>
    rcases List.mem_cons.mp hb with rfl | hb
    · exact foldl_keeps (P := fun t : Tbl α => t.get k e = x) hkeeps l (hsets t)
    · exact ih hb _

theorem readTemps_get {env : TickEnv} {k : Nat} {x : Int} (hk : k < 5) (hx : env.temps[k]? = some x) (t : Tbl Int) : (readTemps env t).get k 0 = x := by
  have hhead : env.temps.drop k = x :: env.temps.drop (k + 1) := by
    obtain ⟨hlt, rfl⟩ := List.getElem?_eq_some_iff.mp hx
    exact List.drop_eq_getElem_cons hlt
  simp only [readTemps, Dev.measure]
  refine get_foldl_of_mem (b := k) (fun t j h => ?_) (fun t => ?_) (List.mem_range.mpr hk) t
  · by_cases hj : j = k
    · subst hj; rw [hhead]; exact Tbl.get_set_same t j x 0
    · split
      · rw [Tbl.get_set_other t hj]; exact h
      · exact h
  · rw [hhead]; exact Tbl.get_set_same t k x 0

/-! ## The row -/

/-- What the work of a tick leaves: it has measured at the new time, and applied a requested cap. -/
theorem State.runTick_gauges {s : State} (h : s.dev.pwr.entering = false) (env : TickEnv) :
    ((s.atWork env).runTick s.nv.fuses env).gauges =
      (({ s.dev.gauges with time := BitVec.ofNat 64 ((s.dev.tick + 1) * 1000000) } : Gauges).measured env).capApplied := by
  have hpwr : (s.atWork env).pwr = s.dev.pwr := congrArg (fun v => v.2.1) (s.atWork_vitals env)
  have hwork : (s.atWork env).gauges = _ := congrArg gaugesOf (s.atWork_vitals env)
  rw [Dev.runTick_gauges (hpwr ▸ h), hwork]
  rfl

/-- Settles O28: asleep or before boot lock the tick is the advance of time alone; else its work leaves the gauges as `State.runTick_gauges`
says, and the flush at its end empties the log buffers. -/
theorem theManagementTick : Obligations.TheManagementTick := by
  unfold Obligations.TheManagementTick
  intro s env hp ht _
  refine ⟨s.tick env, rfl, State.tick_pending s env, State.tick_fuses s env, fun h => ?_, fun hawake hstage hent => ?_⟩
  · rw [State.tick_idle hp ht h]
    exact congrArg s.withDev s.dev.atNextTick_eq
  · have hwork := State.runTick_gauges hent env
    have hgauges := (gauges_of_vitals (Dev.flushTick_vitals ((s.atWork env).runTick s.nv.fuses env))).trans hwork
    rw [State.tick_dev hp ht hawake hstage env]
    refine ⟨congrArg Gauges.time hgauges, congrArg Gauges.powerMw hgauges, congrArg Gauges.maxMw hgauges, fun k x hk hx => ?_, fun hrun => ⟨?_, ?_⟩,
      fun hout => ?_, fun hrun => ?_⟩
    · exact (congrArg (fun g => g.temp.get k 0) hgauges).trans (readTemps_get hk hx _)
    · exact (congrArg Gauges.capW hgauges).trans (if_neg (ne_true_of_eq_false hrun))
    · exact (congrArg Gauges.capNext hgauges).trans (if_neg (ne_true_of_eq_false hrun))
    · exact (congrArg Gauges.capW hgauges).trans (if_pos hout)
    · exact Dev.flushTick_logBuf ((coreOut_of_gauges hwork 7).trans hrun)

end Sys2Proof.Machine

/-! PROOFS. The boot ROM (R33, R38-R43, R56, R57): where it ends, and what it leaves of the cleared device. -/
namespace Sys2Proof.Machine
open Sys2Proof

/-! ## What the boot ROM leaves -/

/-- Time, epochs, and the parts of the device that the boot ROM never writes. -/
def Dev.romKept (d : Dev) : W64 × Epochs × Tbl Queue × Tbl Tenant × Mem × Tok × Tbl Memory :=
  (d.time, d.epochs, d.queues, d.tenants, d.mem, d.tok, d.hostMem)

/-- What the ROM makes of them: 20 ms after its start, with the power-on epoch of the flash at a power-on. -/
def NonVol.romStart (v : NonVol) (d : Dev) (pon : Bool) : W64 × Epochs × Tbl Queue × Tbl Tenant × Mem × Tok × Tbl Memory :=
  (20000000, { d.epochs with pon := if pon then (v.booted pon).flash.epoch.getD 0 else d.epochs.pon }, d.queues, d.tenants, d.mem, d.tok,
    d.hostMem)

/-- A log record changes the management path alone. -/
theorem Dev.logRec_eq (d : Dev) (core code tenant unit a b : Nat) :
    d.logRec core code tenant unit a b = { d with mgmt := (d.logRec core code tenant unit a b).mgmt } := by
  unfold Dev.logRec; dsimp only; split <;> rfl


@[simp] theorem Dev.startFirmware_boot (d : Dev) (m : Memory) (slot : Nat) : (d.startFirmware m slot).boot = d.boot := rfl

/-- A safe boot ends in the stage and reason that it names, and locks the configuration in stage 7 only. -/
theorem Dev.safeBoot_boot (d : Dev) (stage reason detail : Nat) :
    (d.safeBoot stage reason detail).boot =
      { d.boot with
        stage := stage, reason := reason, detail := detail
        bootTimeMs := min 0xFFFF (d.time.toNat / 1000000), locked := decide (stage = 7) } := by
  unfold Dev.safeBoot; dsimp only; split
  · rw [Dev.logRec_eq]
  · rfl

@[simp] theorem Dev.safeBoot_romKept (d : Dev) (stage reason detail : Nat) : (d.safeBoot stage reason detail).romKept = d.romKept := by
  unfold Dev.safeBoot; dsimp only; split
  · rw [Dev.logRec_eq]; rfl
  · rfl

/-- Events 8 and 9 on the device `e` that events 1 to 7 leave: firmware starts, or the boot ends in recovery or in the safe configuration. -/
def NonVol.romEnd (v : NonVol) (pon : Bool) (e : Dev) : Dev :=
  match (v.booted pon).fwSlot with
  | none => e.safeBoot 8 0x14 0
  | some s =>
    let e1 := e.startFirmware ((v.booted pon).flash.firmware s) s
    match v.chooseBci.slot with
    | none => e1.safeBoot 7 v.chooseBci.reason v.chooseBci.detail
    | some k =>
      if !(v.flash.epoch.isSome && (!pon || v.flash.writable)) then e1.safeBoot 7 0x13 0
      else
        let c := cfgOf (v.flash.bci k)
        { e1 with
          cfg := { c with port := ((List.range 4).find? (fun n => c.portOn n && c.portMgmt n)).getD 0 }
          boot := { e1.boot with stage := 3 } }

/-- The security block and the count of free values are not part of what the ROM keeps. -/
theorem Dev.withSec_kept (d : Dev) (n : Nat) (x : Sec) :
    ({ d with draw := n, sec := x } : Dev).romKept = d.romKept ∧ ({ d with draw := n, sec := x } : Dev).boot = d.boot :=
  ⟨rfl, rfl⟩

/-- Events 1 to 7: the ROM sets its own time and epochs and notes the choice of the BCI. -/
theorem bootDev_eq_romEnd (v : NonVol) (d : Dev) (pon : Bool) (pending : Option (List B8)) :
    ∃ e : Dev, bootDev v d pon pending = v.romEnd pon e ∧ e.romKept = v.romStart d pon ∧
    e.boot.reason = v.chooseBci.reason ∧ e.boot.locked = d.boot.locked := by
  unfold bootDev
  extract_lets d1 d2 ch v1 epochOk img _ epochs2 _ d3 d4
  have h2 : d2.romKept = d.romKept ∧ d2.boot = d.boot := by
    simp only [d2, d1, Dev.draw384, Dev.draw256, Dev.drawn, Dev.extend, Dev.romKept, and_self]
  have h4 : d4.romKept = d3.romKept ∧ d4.boot = d3.boot := by
    clear_value d3
    simp only [d4]
    split
    · split
      · exact d3.withSec_kept _ _
      · exact d3.withSec_kept _ _
    · exact ⟨rfl, rfl⟩
  clear_value d4 d2
  obtain ⟨hkept, hboot⟩ := h4
  refine ⟨d4, rfl, hkept.trans ?_, congrArg Boot.reason hboot, ?_⟩
  · simp only [Dev.romKept, Prod.mk.injEq] at h2
    obtain ⟨⟨-, hepochs, hqueues, htenants, hmem, htok, hhost⟩, -⟩ := h2
    simp only [d3, v1, epochs2, Dev.romKept, hepochs, hqueues, htenants, hmem, htok, hhost]
    rfl
  · rw [hboot, ← h2.2]

/-! ## Where the boot ROM ends -/

@[simp] theorem NonVol.romEnd_romKept (v : NonVol) (pon : Bool) (e : Dev) : (v.romEnd pon e).romKept = e.romKept := by
  unfold NonVol.romEnd
  split
  · exact e.safeBoot_romKept _ _ _
  · split
    · exact Dev.safeBoot_romKept _ _ _ _
    · split
      · exact Dev.safeBoot_romKept _ _ _ _
      · rfl

theorem bootDev_romKept (v : NonVol) (d : Dev) (pon : Bool) (pending : Option (List B8)) :
    (bootDev v d pon pending).romKept = v.romStart d pon := by
  obtain ⟨e, heq, hkept, -⟩ := bootDev_eq_romEnd v d pon pending
  rw [heq, v.romEnd_romKept, hkept]

/-- Whether the epoch record of the flash keeps a boot from going on. -/
theorem epoch_unusable_iff (f : Flash) (pon : Bool) :
    (!(f.epoch.isSome && (!pon || f.writable))) = true ↔ f.epoch = none ∨ (pon = true ∧ f.writable = false) := by
  cases f.epoch <;> cases pon <;> simp

/-- Events 8 and 9 end in the stage and reason that fuses and flash allow, and lock the safe configuration only. -/
theorem NonVol.romEnd_boot (v : NonVol) (pon : Bool) {e : Dev} (hreason : e.boot.reason = v.chooseBci.reason)
    (hlock : e.boot.locked = false) :
    ((v.romEnd pon e).boot.stage, (v.romEnd pon e).boot.reason) = v.bootsTo pon ∧
      ((v.romEnd pon e).boot.locked = true ↔ (v.romEnd pon e).boot.stage = 7) := by
  unfold NonVol.romEnd NonVol.bootsTo
  split
  next hfw => simp [hfw, Dev.safeBoot_boot]
  next slot hfw =>
    split
    next hbci => simp [hfw, hbci, Dev.safeBoot_boot]
    next k hbci =>
      split
      next hep => simp [hfw, hbci, (epoch_unusable_iff _ _).mp hep, Dev.safeBoot_boot]
      next hep => simp [hfw, hbci, mt (epoch_unusable_iff _ _).mpr hep, hreason, hlock]

theorem bootDev_boot (v : NonVol) {d : Dev} (hlock : d.boot.locked = false) (pon : Bool) (pending : Option (List B8)) :
    let b := (bootDev v d pon pending).boot
    (b.stage, b.reason) = v.bootsTo pon ∧ (b.locked = true ↔ b.stage = 7) := by
  obtain ⟨e, heq, -, hreason, hlocked⟩ := bootDev_eq_romEnd v d pon pending
  rw [heq]
  exact v.romEnd_boot pon hreason (hlocked.trans hlock)

/-! ## The epoch record (R38) -/

theorem satInc_ge (w : W32) : w.toNat ≤ (satInc w).toNat := by
  have hw := w.isLt
  unfold satInc satAdd
  split
  · simp; omega
  · simp; omega

/-- The higher of two copies. -/
theorem Flash.epoch_of_both {f : Flash} {a b : W32} (ha : f.epochA = some a) (hb : f.epochB = some b) :
    f.epoch = some (if a.toNat < b.toNat then b else a) := by
  rw [Flash.epoch, ha, hb]

/-- A record that is not copy A's is copy B's. -/
theorem Flash.epochB_of_epoch {f : Flash} {e : W32} (h : f.epoch = some e) (ha : f.epochA ≠ some e) : f.epochB = some e := by
  unfold Flash.epoch at h
  split at h
  next a b hA hB =>
    split at h
    · exact hB.trans h
    · exact absurd (hA.trans h) ha
  next a hA hB => exact absurd (hA.trans h) ha
  next b hA => exact h

/-- After a power-on the record is one more (saturating): the copy that was written is the higher one. -/
theorem Flash.stepEpoch_epoch {f : Flash} {e : W32} (h : f.epoch = some e) (hw : f.writable = true) :
    f.stepEpoch.epoch = some (satInc e) := by
  have hle := satInc_ge e
  unfold Flash.stepEpoch
  rw [h, hw]
  dsimp only
  split
  next => contradiction
  next =>
    split
    next hA =>
      refine (Flash.epoch_of_both (f := { f with epochB := some (satInc e) }) hA rfl).trans ?_
      split
      · rfl
      · exact congrArg some (BitVec.eq_of_toNat_eq (by omega))
    next hA =>
      have hB : f.epochB = some e := Flash.epochB_of_epoch h hA
      refine (Flash.epoch_of_both (f := { f with epochA := some (satInc e) }) rfl hB).trans ?_
      rw [if_neg (by omega)]

/-! ## The rows -/

/-- The device that the boot ROM starts from at a power-on (R33): cleared, with the sampled SMB_ADDR. -/
def Dev.underPowerOn (d : Dev) (smbAddr : Bool) : Dev := { d.cleared with pwr := { smbAddr := smbAddr } }

/-- Settles O12: the ROM runs on the cleared device and on the flash as the board left it. -/
theorem powerOnBootsFromTheFlash : Obligations.PowerOnBootsFromTheFlash := by
  unfold Obligations.PowerOnBootsFromTheFlash
  intro s cells eA eB w sa f v
  have hkept := bootDev_romKept v (s.dev.underPowerOn sa) true none
  obtain ⟨hboot, hlocked⟩ := bootDev_boot v (d := s.dev.underPowerOn sa) rfl true none
  simp only [Dev.romKept, NonVol.romStart, Prod.mk.injEq] at hkept
  obtain ⟨htime, hepochs, hqueues, htenants, hmem, htok, hhost⟩ := hkept
  have hpon (e : W32) (he : v.flash.epoch = some e) (hw : w = true) : (bootDev v (s.dev.underPowerOn sa) true none).epochs.pon = satInc e :=
    (congrArg Epochs.pon hepochs).trans (congrArg (fun x => x.getD 0) (Flash.stepEpoch_epoch he hw))
  exact ⟨⟨_, rfl, rfl, rfl, rfl, congrArg Prod.fst hboot, congrArg Prod.snd hboot, hlocked, htime,
    congrArg Epochs.rst hepochs, hpon, hqueues, htenants, congrArg Mem.tiles hmem, congrArg Tok.seqs htok, hhost⟩,
    ⟨_, rfl, rfl, rfl, rfl, rfl⟩⟩

/-- What RESET_L leaves of a powered device that has not tripped. -/
def State.restarted (s : State) : State :=
  { s with nv := s.nv.booted false, dev := bootDev s.nv s.dev.underReset false s.dev.sec.debugPending, latch := none }

theorem State.resetL_of_powered {s : State} (hp : s.dev.boot.powered = true) (ht : s.dev.boot.thermtrip = false) :
    s.resetL true = s.restarted := by
  simp [State.resetL, hp, ht, bootRom, State.restarted, Dev.underReset]

theorem State.resetL_of_off {s : State} (h : s.dev.boot.powered = false ∨ s.dev.boot.thermtrip = true) (ok : Bool) : s.resetL ok = s := by
  rcases h with h | h <;> simp [State.resetL, h]

/-- Settles O13: the ROM runs on the device under reset, whose epochs and time are those of `bootDev_romKept`. -/
theorem resetLRestartsTheBoot : Obligations.ResetLRestartsTheBoot := by
  unfold Obligations.ResetLRestartsTheBoot
  refine fun s => ⟨fun hp ht => ?_, fun h ok => congrArg Host.Outcome.next (State.resetL_of_off h ok)⟩
  have hkept := bootDev_romKept s.nv s.dev.underReset false s.dev.sec.debugPending
  obtain ⟨hboot, -⟩ := bootDev_boot s.nv (d := s.dev.underReset) rfl false s.dev.sec.debugPending
  simp only [Dev.romKept, NonVol.romStart, Prod.mk.injEq] at hkept
  obtain ⟨htime, hepochs, -⟩ := hkept
  exact ⟨s.restarted, congrArg Host.Outcome.next (State.resetL_of_powered hp ht), rfl, congrArg Epochs.rst hepochs,
    (congrArg Epochs.pon hepochs :), rfl, congrArg Prod.fst hboot, congrArg Prod.snd hboot, htime⟩

/-! ## What acts as RESET_L or as a power-on -/

theorem fld_resetValue_kind (k : Nat) (hk : k < 8) (v : W64) : fld (resetValue k v) 0 3 = k := by
  have hv := v.isLt
  simp only [fld, resetValue, BitVec.toNat_ofNat, Nat.shiftRight_zero]
  omega

theorem fld_resetValue_index (k : Nat) (hk : k < 8) (v : W64) : fld (resetValue k v) 8 8 = fld v 8 8 := by
  have hv := v.isLt
  simp only [fld, resetValue, BitVec.toNat_ofNat, Nat.shiftRight_eq_div_pow]
  omega

/-- A write of MG_RESET_REQ that acts is a reset request. -/
theorem State.write_resetReq {s : State} (h : s.dev.Serves mgmtParty 0x2010) (a : W64) :
    s.write mgmtParty 0x2010 a 64 [] = s.resetRequest a := by
  rw [State.write_aligned h, State.act, if_neg h.no_scrub]
  rfl

theorem Dev.Serves.powered {d : Dev} {p off : Nat} (h : d.Serves p off) : d.boot.powered = true ∧ d.boot.thermtrip = false := by
  obtain ⟨-, hwin, -⟩ := h
  simp only [Dev.windowOn, Bool.and_eq_true, Bool.not_eq_true'] at hwin
  exact hwin.1.1


/-- A reply with status 0x00 changes MG_REPLY alone. -/
theorem Dev.reply_ok (d : Dev) (off : Nat) : d.reply mgmtParty 0 0 off = { d with mgmt := (d.reply mgmtParty 0 0 off).mgmt } := rfl

/-- Giving up an entry to Dusk or Night changes that entry alone. -/
theorem Dev.leaveEntry_eq (d : Dev) :
    d.leaveEntry = { d with pwr := { d.pwr with entering := d.leaveEntry.pwr.entering, reqStatus := d.leaveEntry.pwr.reqStatus } } := by
  unfold Dev.leaveEntry; split <;> rfl

/-- The device on which a reset request with status 0x00 acts. -/
def Dev.granted (d : Dev) : Dev := (d.reply mgmtParty 0 0 0x2010).leaveEntry

theorem Dev.granted_underReset (d : Dev) : d.granted.underReset = d.underReset := by
  rw [Dev.granted, Dev.leaveEntry_eq, Dev.reply_ok]; rfl

theorem Dev.granted_boot (d : Dev) : d.granted.boot = d.boot := by rw [Dev.granted, Dev.leaveEntry_eq]; rfl

theorem Dev.granted_sec (d : Dev) : d.granted.sec = d.sec := by rw [Dev.granted, Dev.leaveEntry_eq]; rfl

/-- A write of MG_RESET_REQ with status 0x00: what its kind asks for, on the granted device. -/
theorem State.resetRequest_granted {s : State} {a : W64} (h : s.dev.resetStatus (fld a 0 3) (fld a 8 8) = 0) :
    s.resetRequest a = match fld a 0 3 with
      | 1 => ({ s with dev := s.dev.granted }).resetL true
      | 2 => { s with dev := s.dev.granted.partReset (fld a 8 8) }
      | 3 => { s with dev := s.dev.granted.tenantReset (fld a 8 8) }
      | _ => { s with dev := s.dev.granted.coreRestart (fld a 8 8) 1 } := by
  simp only [State.resetRequest, h, ne_eq, not_true_eq_false, if_false]
  rfl

/-- MG_RESET_REQ of the device kind, where it acts: the reply goes with the rest of the device. -/
theorem State.write_resetDevice {s : State} (h : s.dev.Serves mgmtParty 0x2010) (v : W64) :
    s.write mgmtParty 0x2010 (resetValue 1 v) 64 [] = s.restarted := by
  obtain ⟨hp, ht⟩ := h.powered
  have hkind := fld_resetValue_kind 1 (by decide) v
  rw [State.write_resetReq h, State.resetRequest_granted (by rw [hkind]; simp [Dev.resetStatus]), hkind]
  show ({ s with dev := s.dev.granted } : State).resetL true = _
  rw [State.resetL_of_powered (by rw [s.dev.granted_boot, hp]) (by rw [s.dev.granted_boot, ht]), State.restarted, State.restarted,
    s.dev.granted_underReset, s.dev.granted_sec]

/-- A power-on with the flash as it is. -/
theorem State.powerOn_flash_kept (s : State) (sa : Bool) : (s.powerOn [] none none s.nv.flash.writable sa true).nv = s.nv.booted true := rfl

theorem State.resetL_thermtrip {s : State} (h : s.dev.boot.thermtrip = true) (ok : Bool) : exec (.resetL ok) s = .next s :=
  congrArg Host.Outcome.next (State.resetL_of_off (.inr h) ok)

/-- The device after a trip (R505). -/
def Dev.tripped (d : Dev) : Dev :=
  { d.cleared with
    time := d.time, boot := { thermtrip := true }, epochs := d.epochs
    pwr := { d.pwr with domains := 0x800000, alert := true } }

theorem exec_thermtrip_powered {s : State} (h : s.dev.boot.powered = true) :
    exec .thermtrip s = .next { s with dev := s.dev.tripped, latch := none } := by
  show execThermtrip s = _
  simp only [execThermtrip, h]
  rfl

theorem exec_thermtrip_off {s : State} (h : s.dev.boot.powered = false) : exec .thermtrip s = .next s := by
  show execThermtrip s = _
  simp only [execThermtrip, h]
  rfl

/-- AVS_SETPOINT_TIMEOUT acts as RESET_L on a die that waits for its setpoint, and on no other. -/
theorem exec_avsSetpointTimeout (s : State) (die : Nat) :
    exec (.avsSetpointTimeout die) s = if (s.dev.die die).avsWait then exec (.resetL true) s else .next s := by
  show execAvsSetpointTimeout die s = if _ then execResetL true s else _
  simp only [execAvsSetpointTimeout, execResetL, apply_ite Host.Outcome.next]

/-- Settles O14: the events that act as RESET_L leave `State.restarted`, as O13 says. -/
theorem resetEventsPowerRemovalAndTrip : Obligations.ResetEventsPowerRemovalAndTrip := by
  unfold Obligations.ResetEventsPowerRemovalAndTrip
  have hreset {s : State} (hp : s.dev.boot.powered = true) (ht : s.dev.boot.thermtrip = false) : exec (.resetL true) s = .next s.restarted :=
    congrArg Host.Outcome.next (State.resetL_of_powered hp ht)
  have hrequest {s : State} (h : s.dev.Serves mgmtParty 0x2010) (v : W64) : exec (.resetDevice v) s = .next s.restarted :=
    congrArg Host.Outcome.next (State.write_resetDevice h v)
  have havs {s : State} {die : Nat} (h : (s.dev.die die).avsWait = true) : exec (.avsSetpointTimeout die) s = exec (.resetL true) s := by
    rw [exec_avsSetpointTimeout, if_pos h]
  refine ⟨fun s => ⟨rfl, rfl, rfl, fun die => ⟨havs, fun h => ?_⟩, fun v h => ?_⟩, 
    fun s hp ht => ⟨hreset hp ht, hreset hp ht, fun die h => ?_, fun v h => hrequest h v⟩,
    fun s => ⟨_, rfl, rfl, rfl, s.powerOn_flash_kept _⟩, fun s => ⟨⟨_, rfl, rfl, rfl, rfl⟩, fun hp => ?_, exec_thermtrip_off⟩⟩
  · rw [exec_avsSetpointTimeout, h]; rfl
  · rw [hrequest h v, hreset h.powered.1 h.powered.2]
  · exact (havs h).trans (hreset hp ht)
  · exact ⟨_, exec_thermtrip_powered hp, rfl, rfl, rfl, rfl, rfl, rfl, rfl, rfl, rfl, State.resetL_thermtrip rfl⟩

end Sys2Proof.Machine

/-! PROOFS. BOOT_LOCK and the memory system (R432): the system's memory keys are part of it. -/
namespace Sys2Proof.Machine
open Sys2Proof

/-- Dies and tracks are loaded with memory system and configuration left alone. -/
theorem Dev.allVolts_mem_cfg (d : Dev) (f : Fuses) : (d.allVolts f).mem = d.mem ∧ (d.allVolts f).cfg = d.cfg := by
  unfold Dev.allVolts
  refine foldl_keeps (P := fun e : Dev => e.mem = d.mem ∧ e.cfg = d.cfg) (fun e k h => ?_) _ ⟨rfl, rfl⟩
  exact h

theorem Dev.loadTracks_mem_cfg (d : Dev) : d.loadTracks.mem = d.mem ∧ d.loadTracks.cfg = d.cfg := by
  unfold Dev.loadTracks
  generalize List.range 256 = l
  refine foldl_keeps (P := fun e : Dev => e.mem = d.mem ∧ e.cfg = d.cfg) (fun e n h => ?_) l ⟨rfl, rfl⟩
  exact h

@[simp] theorem Dev.keyMem_cfg (d : Dev) (k : Nat) : (d.keyMem k).cfg = d.cfg := rfl

/-- With no Ethernet port configured nothing is joined. -/
theorem Dev.joinAll_of_unconfigured {d : Dev} (h : d.cfg = {}) : d.joinAll = d := by
  have hoff : ∀ p ∈ [0, 1], ({} : Cfg).ethOn p = false := by decide
  simp [Dev.joinAll, h, hoff 0, hoff 1]

/-- A device at the last boot event, with nothing configured. -/
def Dev.unconfigured : Dev := { boot := { stage := 5 } }

/-- The last boot event generates the system's memory keys there. -/
theorem bootLock_unconfigured_keys : ({ dev := Dev.unconfigured : State }.bootLock).dev.mem.keys.get 0x51 none ≠ none := by
  have hparts : partsOn Dev.unconfigured.cfg = [] := by decide
  have hgroups : (List.range 16).filter Dev.unconfigured.cfg.groupOn = [] := by decide
  have htenants : Dev.unconfigured.cfg.tenants = [] := by decide
  unfold State.bootLock
  rw [if_neg (by decide)]
  simp only [hparts, hgroups, htenants, List.map_nil, List.flatten_nil, List.foldl_nil, Dev.logRec_mem]
  rw [Dev.joinAll_of_unconfigured ?_, (Dev.loadTracks_mem_cfg _).1, (Dev.allVolts_mem_cfg _ _).1]
  · exact Dev.keyMem_keys _ 0x51
  · rw [(Dev.loadTracks_mem_cfg _).2, (Dev.allVolts_mem_cfg _ _).2]
    rw [Dev.keyMem_cfg, Dev.keyMem_cfg]
    rfl

/-- Refutes O15: its clause on the last boot event has the memory system stay as it was, but the system's memory keys, of which there are
none at stage 5 of a device with nothing configured, are generated then. -/
theorem not_memoryTrainingInitialisationAndBootLock : ¬ Obligations.MemoryTrainingInitialisationAndBootLock := by
  unfold Obligations.MemoryTrainingInitialisationAndBootLock
  rintro ⟨-, hlock, -⟩
  obtain ⟨t, hrun, -, -, -, -, -, -, -, -, -, hsame, -⟩ := hlock { dev := Dev.unconfigured } rfl rfl
  cases hrun
  exact bootLock_unconfigured_keys (by rw [hsame]; rfl)

end Sys2Proof.Machine

/-! PROOFS. What a record of the management function and its progress registers change (R9-R11, R130), and the staging of an image (R64-R66). -/
namespace Sys2Proof.Machine
open Sys2Proof

/-- `e` differs from `d` in the global ring, host memory and the counters only. -/
def Dev.globalOnly (d e : Dev) : Prop :=
  ∃ ge gr hm pm, e = { d with mgmt := { d.mgmt with gerr := ge, globalRing := gr }, hostMem := hm, pmc := pm }

theorem globalRec_global (d : Dev) (r : ErrRec) : d.globalOnly (d.globalRec r) := by
  unfold Dev.globalRec
  dsimp only
  split
  · exact ⟨_, _, _, _, rfl⟩
  · split <;> exact ⟨_, _, _, _, rfl⟩

/-- A record of no tenant goes to the global ring alone. -/
theorem record_global (d : Dev) {r : ErrRec} (h : 64 ≤ r.tenant) : d.globalOnly (d.record r) := by
  obtain ⟨ge, gr, hm, pm, heq⟩ := globalRec_global d r
  unfold Dev.record Dev.countUnit
  rw [if_neg (Nat.not_lt.mpr h), heq]
  split <;> exact ⟨_, _, _, _, rfl⟩

theorem regRec_global (d : Dev) (status : B8) (code val off : Nat) : d.globalOnly (d.regRec mgmtParty status code val off) :=
  record_global d (Nat.le_refl 64)

/-- An update of a progress register of the management function: shown where it took none in this tick. -/
theorem Dev.setProgress_mgmt (d : Dev) (slot kind value : Nat) : ∃ v,
    d.setProgress mgmtParty slot kind value = { d with mgmt := { d.mgmt with progress := d.mgmt.progress.set slot v } } ∧
      ((d.mgmt.progress.get slot {}).upd ≠ some d.tick → v.kind = kind ∧ v.value = value) := by
  unfold Dev.setProgress
  split
  next h => exact ⟨_, rfl, fun hne => absurd h hne⟩
  next => exact ⟨_, rfl, fun _ => ⟨rfl, rfl⟩⟩

/-- A refused write of the management window: its record, and the reply. -/
theorem Dev.reply_refused (d : Dev) {status : B8} (h : status ≠ 0) (off : Nat) : ∃ e, d.globalOnly e ∧ d.reply mgmtParty status 0 off =
    { e with mgmt := { e.mgmt with replyStatus := status, replyOffset := BitVec.ofNat 16 off, replyCount := d.mgmt.replyCount + 1 } } := by
  have hrec := regRec_global d status 0 0 off
  refine ⟨d.regRec mgmtParty status 0 0 off, hrec, ?_⟩
  unfold Dev.reply
  rw [if_neg h]
  obtain ⟨ge, gr, hm, pm, heq⟩ := hrec
  simp only [heq]
  rfl

/-- A staging that fails: nothing is staged, progress register 0 says so, and the failure is recorded. -/
theorem Dev.stageFail_eq (d : Dev) (status : B8) (code : Nat) : ∃ v,
    ({ d with stage := { d.stage with active := false, image := [] }, mgmt := { d.mgmt with progress := d.mgmt.progress.set 0 v } } : Dev).globalOnly
      (d.stageFail status code) ∧ ((d.mgmt.progress.get 0 {}).upd ≠ some d.tick → v.kind = 3 ∧ v.value = status.toNat) := by
  obtain ⟨v, heq, hshown⟩ := ({ d with stage := { d.stage with active := false, image := [] } } : Dev).setProgress_mgmt 0 3 status.toNat
  refine ⟨v, ?_, hshown⟩
  unfold Dev.stageFail Dev.stageRec
  rw [heq]
  exact regRec_global _ _ _ _ _

/-- A write of MG_STAGE_CTL that acts. -/
theorem State.write_stageCtl {s : State} (h : s.dev.Serves mgmtParty 0x2028) (a : W64) (host : List Host.Cell) :
    s.write mgmtParty 0x2028 a 64 host = s.stageWrite a host := by
  rw [State.write_aligned h, State.act, if_neg h.no_scrub]
  rfl

/-- With the link of the management port down no image is read. -/
theorem State.stageStart_down {s : State} (h : (s.dev.port s.dev.cfg.port).up = false) (len : Nat) (host : List Host.Cell) :
    s.stageStart len host = { s with dev := s.dev.stageFail 0x11 0x8D } := by
  simp only [State.stageStart, h, Bool.not_false, if_true]

/-- An image that fails a check. -/
theorem State.stageStart_bad {s : State} {len r : Nat} {host : List Host.Cell} (h : (s.dev.port s.dev.cfg.port).up = true)
    (hbad : s.stageFault (Memory.write [] 0 (s.dev.hostRead s.dev.cfg.port host s.dev.stage.addr.toNat len)) len = some r) :
    s.stageStart len host = { s with dev := s.dev.stageFail 0x02 (0x80 + r) } := by
  simp only [State.stageStart, h, hbad, Bool.not_true, Bool.false_eq_true, if_false]

/-- An image that passes them. -/
theorem State.stageStart_good {s : State} {len : Nat} {host : List Host.Cell} (h : (s.dev.port s.dev.cfg.port).up = true)
    (hgood : s.stageFault (Memory.write [] 0 (s.dev.hostRead s.dev.cfg.port host s.dev.stage.addr.toNat len)) len = none) :
    let b := s.dev.hostRead s.dev.cfg.port host s.dev.stage.addr.toNat len
    let image := b.take (s.stageLength (Memory.write [] 0 b))
    s.stageStart len host = { s.putSlot (image.take (image.length - 96)) with
      dev := { s.dev with stage := { s.dev.stage with active := true, image := image } }.setProgress mgmtParty 0 0 0 } := by
  simp only [State.stageStart, h, hgood, Bool.not_true, Bool.false_eq_true, if_false]

/-- Settles O37: the write is refused while a staging runs, ends in the reply without go, and else goes through the checks of the image. -/
theorem stagingOfAnImage : Obligations.StagingOfAnImage := by
  unfold Obligations.StagingOfAnImage
  intro s v host h len b
  refine ⟨s.stageWrite v host, congrArg Host.Outcome.next (State.write_stageCtl h v host), ?_⟩
  by_cases hactive : s.dev.stage.active = true
  · obtain ⟨e, ⟨ge, gr, hm, pm, rfl⟩, heq⟩ := s.dev.reply_refused (status := 0x01) (by decide) 0x2028
    rw [State.stageWrite, if_pos hactive, heq]
    have hidle {P : Prop} (h : s.dev.stage.active = false) : P := absurd hactive (ne_true_of_eq_false h)
    exact ⟨rfl, rfl, rfl, rfl, fun _ => ⟨rfl, rfl⟩, fun _ => ⟨rfl, rfl, rfl⟩, fun _ => hidle, fun _ _ => hidle⟩
  · have hbusy {P : Prop} (h : s.dev.stage.active = true) : P := absurd h hactive
    cases hgo : v.getLsbD 63 with
    | false =>
      rw [State.stageWrite, if_neg hactive, hgo]
      exact ⟨rfl, rfl, rfl, rfl, fun _ => ⟨rfl, rfl⟩, hbusy, nofun, nofun⟩
    | true =>
      rw [State.stageWrite, if_neg hactive, hgo, if_neg (by decide)]
      let s1 : State := { s with dev := s.dev.reply mgmtParty 0 0 0x2028 }
      cases hup : (s.dev.port s.dev.cfg.port).up with
      | false =>
        rw [State.stageStart_down (s := s1) hup]
        obtain ⟨p, ⟨ge, gr, hm, pm, heq⟩, -⟩ := s1.dev.stageFail_eq 0x11 0x8D
        rw [heq]
        exact ⟨rfl, rfl, rfl, rfl, nofun, hbusy, fun _ _ => nofun, fun _ _ _ => nofun⟩
      | true =>
        cases hfault : s.stageFault (Memory.write [] 0 b) len with
        | some r =>
          rw [State.stageStart_bad (s := s1) hup hfault]
          obtain ⟨p, ⟨ge, gr, hm, pm, heq⟩, hshown⟩ := s1.dev.stageFail_eq 0x02 (0x80 + r)
          rw [heq]
          refine ⟨rfl, rfl, rfl, rfl, nofun, hbusy, fun _ _ _ => nofun, fun _ _ _ _ _ => ⟨rfl, rfl, fun hupd => ?_⟩⟩
          rw [Tbl.get_set_same]
          exact hshown hupd
        | none =>
          rw [State.stageStart_good (s := s1) hup hfault]
          obtain ⟨p, heq, hshown⟩ := Dev.setProgress_mgmt _ 0 0 0
          rw [heq]
          refine ⟨rfl, rfl, rfl, rfl, nofun, hbusy, fun _ _ _ _ => ⟨rfl, rfl, fun hupd => ?_⟩, fun _ _ _ _ => nofun⟩
          rw [Tbl.get_set_same]
          exact hshown hupd

end Sys2Proof.Machine

/-! PROOFS. Restarts of a control core (R37, R458-R461): what the start of one leaves, and its end. -/
namespace Sys2Proof.Machine
open Sys2Proof

/-- What one element of a list brings about, and all keep, holds after the fold. -/
theorem foldl_of_mem {α β : Type} {P : α → Prop} {f : α → β → α} {b : β} (hkeeps : ∀ a c, P a → P (f a c)) (hsets : ∀ a, P (f a b))
    {l : List β} (hb : b ∈ l) (a : α) : P (l.foldl f a) := by
  induction l generalizing a with
  | nil => cases hb
  | cons c l ih =>
    rcases List.mem_cons.mp hb with rfl | hb
    · exact foldl_keeps hkeeps l (hsets a)
    · exact ih hb _

/-- `e` differs from `d` in staging, a live update, the windows, the management path, host memory and the counters only; cores and running
image stay. -/
def Dev.restartOnly (d e : Dev) : Prop :=
  ∃ st ten mg f hm pm, f.cores = d.fw.cores ∧ f.image = d.fw.image ∧
    e = { d with stage := st, tenants := ten, mgmt := mg, fw := f, hostMem := hm, pmc := pm }

theorem restartOnly_refl (d : Dev) : d.restartOnly d := ⟨_, _, _, _, _, _, rfl, rfl, rfl⟩
theorem restartOnly_trans {a b c : Dev} (h : a.restartOnly b) (k : b.restartOnly c) : a.restartOnly c := by
  obtain ⟨st, ten, mg, f, hm, pm, hcores, himage, rfl⟩ := h
  obtain ⟨st', ten', mg', f', hm', pm', hcores', himage', rfl⟩ := k
  exact ⟨st', ten', mg', f', hm', pm', hcores'.trans hcores, himage'.trans himage, rfl⟩
theorem modTen_restart (d : Dev) (n : Nat) (f : Tenant → Tenant) : d.restartOnly (d.modTen n f) := ⟨_, _, _, _, _, _, rfl, rfl, rfl⟩
theorem logRec_restart (d : Dev) (core code tenant unit a b : Nat) : d.restartOnly (d.logRec core code tenant unit a b) := by
  rw [Dev.logRec_eq]; exact ⟨_, _, _, _, _, _, rfl, rfl, rfl⟩
theorem restartOnly_foldl {β : Type} {f : Dev → β → Dev} (hf : ∀ (d : Dev) b, d.restartOnly (f d b)) (l : List β) (d : Dev) :
    d.restartOnly (l.foldl f d) :=
  foldl_keeps (P := d.restartOnly) (fun e b h => restartOnly_trans h (hf e b)) l (restartOnly_refl d)

theorem latchShadow_restart (d : Dev) (p : Nat) : d.restartOnly (d.latchShadow p) := by
  unfold Dev.latchShadow; split <;> exact ⟨_, _, _, _, _, _, rfl, rfl, rfl⟩
theorem dropShadow_restart (d : Dev) (p : Nat) : d.restartOnly (d.dropShadow p) := by
  unfold Dev.dropShadow; split <;> exact ⟨_, _, _, _, _, _, rfl, rfl, rfl⟩

/-- What a staging or an update that fails leaves: the windows of the tenants as well. -/
theorem stageFail_restart (d : Dev) (status : B8) (code : Nat) :
    d.restartOnly (d.stageFail status code) ∧ (d.stageFail status code).tenants = d.tenants := by
  obtain ⟨v, ⟨ge, gr, hm, pm, heq⟩, -⟩ := d.stageFail_eq status code
  rw [heq]
  exact ⟨⟨_, _, _, _, _, _, rfl, rfl, rfl⟩, rfl⟩

theorem updFail_restart (d : Dev) (status : B8) (code : Nat) :
    d.restartOnly (d.updFail status code) ∧ (d.updFail status code).tenants = d.tenants := by
  unfold Dev.updFail
  generalize hf : ({ d.fw with updState := 0, newImage := [], status := status, detail := BitVec.ofNat 8 code } : Fw) = f
  obtain ⟨v, heq, -⟩ := ({ d with fw := f } : Dev).setProgress_mgmt 2 3 status.toNat
  rw [heq]
  obtain ⟨ge, gr, hm, pm, hrec⟩ := regRec_global _ status code 0 fwUpdCtl
  rw [hrec]
  exact ⟨⟨_, _, _, f, _, _, by rw [← hf], by rw [← hf], rfl⟩, rfl⟩

/-! ## fw_restart of a window -/

theorem Dev.latchShadow_fwRestart (d : Dev) (p n : Nat) : ((d.latchShadow p).ten n).fwRestart = (d.ten n).fwRestart := by
  unfold Dev.latchShadow
  split
  · by_cases h : p = n
    · subst h; rw [Dev.modTen_ten]
    · rw [Dev.modTen_ten_other d h]
  · rfl

/-- A change of fw_restart with its status event (R99). -/
def Dev.tell (d : Dev) (b : Bool) (t : Nat) : Dev := (d.modTen t (fun v => { v with fwRestart := b })).statusEvent t

theorem Dev.tell_eq (d : Dev) (b : Bool) (t : Nat) : d.tell b t = d.modTen t (fun v => ({ v with fwRestart := b } : Tenant).raise 3) :=
  (by unfold Dev.tell Dev.statusEvent Dev.event; exact d.modTen_modTen t _ _)

theorem Dev.tell_fwRestart (d : Dev) (b : Bool) (t : Nat) : ((d.tell b t).ten t).fwRestart = b := by
  rw [d.tell_eq, Dev.modTen_ten]
  rfl

/-- A window that has `b` keeps it when another window is told. -/
theorem Dev.tell_keeps {d : Dev} {b : Bool} {n : Nat} (h : (d.ten n).fwRestart = b) (t : Nat) : ((d.tell b t).ten n).fwRestart = b := by
  by_cases hn : t = n
  · subst hn; exact d.tell_fwRestart b t
  · rw [d.tell_eq, Dev.modTen_ten_other d hn, h]

theorem tell_restart (d : Dev) (b : Bool) (t : Nat) : d.restartOnly (d.tell b t) := by rw [d.tell_eq]; exact modTen_restart d t _

/-! ## The start of a restart -/

/-- The device as a core goes out: its epoch is stepped and its unflushed log records are lost. -/
def Dev.coreOff (d : Dev) (k cause : Nat) : Dev :=
  ({ d with
    epochs := { d.epochs with cc := d.epochs.cc.set k (satInc (d.epochs.cc.get k 0)) }
    mgmt := { d.mgmt with
      logBuf := d.mgmt.logBuf.filter (fun e => decide (e.1 ≠ k)), logDropped := d.mgmt.logDropped.filter (fun e => decide (e.1 ≠ k)) } } : Dev).modCore
    k (fun _ => { restarting := true, cause := cause, since := d.time })

theorem coreRestart_only (d : Dev) (k cause : Nat) : (d.coreOff k cause).restartOnly (d.coreRestart k cause) ∧
    ∀ n ∈ d.cfg.coreTenants k, ((d.coreRestart k cause).ten n).fwRestart = true := by
  unfold Dev.coreRestart
  extract_lets _ _ d1 d2 d3 d4 d5
  have h3 : d2.restartOnly d3 := restartOnly_foldl (fun e t => tell_restart e true t) _ d2
  have h4 : d3.restartOnly d4 ∧ d4.tenants = d3.tenants := by
    simp only [d4]; split
    · exact stageFail_restart d3 _ _
    · exact ⟨restartOnly_refl d3, rfl⟩
  have h5 : d4.restartOnly d5 ∧ d5.tenants = d4.tenants := by
    simp only [d5]; split
    · exact updFail_restart d4 _ _
    · exact ⟨restartOnly_refl d4, rfl⟩
  have h6 : d5.restartOnly ((d5.cfg.coreParties k).foldl (fun d p => d.latchShadow p) d5) := restartOnly_foldl (fun e p => latchShadow_restart e p) _ d5
  refine ⟨restartOnly_trans h3 (restartOnly_trans h4.1 (restartOnly_trans h5.1 h6)), fun n hn => ?_⟩
  have htold : (d3.ten n).fwRestart = true :=
    foldl_of_mem (P := fun e : Dev => (e.ten n).fwRestart = true) (fun e t h => Dev.tell_keeps h t) (fun e => e.tell_fwRestart true n) hn d2
  have hsame : d5.tenants = d3.tenants := h5.2.trans h4.2
  refine foldl_keeps (P := fun e : Dev => (e.ten n).fwRestart = true) (fun e p h => (e.latchShadow_fwRestart p n).trans h) _ ?_
  rw [Dev.ten, hsame]
  exact htold

/-- The start of a restart is what O26 says of it. -/
theorem coreRestart_coreInRestart (d : Dev) (k cause : Nat) : d.CoreInRestart k cause (d.coreRestart k cause) := by
  obtain ⟨⟨st, ten, mg, f, hm, pm, hcores, himage, heq⟩, htold⟩ := coreRestart_only d k cause
  rw [Dev.CoreInRestart]
  refine ⟨?_, fun j hj => ?_, ?_, htold, ?_, ?_, ?_, ?_⟩
  · rw [heq, Dev.core, hcores]
    exact Tbl.get_set_same _ _ _ _
  · rw [heq, Dev.core, hcores]
    exact Tbl.get_set_other _ (Ne.symm hj) _ _
  · rw [heq]; rfl
  · rw [heq]; rfl
  · rw [heq]; rfl
  · rw [heq]; rfl
  · rw [heq]; exact himage

/-! ## Requests (R39, R60) -/

/-- A write of MG_RESET_REQ that is refused with a status: its record and the reply. -/
theorem State.resetRequest_refused {s : State} {a : W64} {st : B8} (hst : s.dev.resetStatus (fld a 0 3) (fld a 8 8) = st) (h : st ≠ 0) :
    ∃ t, s.resetRequest a = t ∧ t = s.withDev t.dev ∧ t.dev.epochs = s.dev.epochs ∧ t.dev.mgmt.replyStatus = st ∧ t.dev.mgmt.replyOffset = 0x2010 ∧
      t.dev.mgmt.replyCount = s.dev.mgmt.replyCount + 1 := by
  obtain ⟨e, ⟨ge, gr, hm, pm, rfl⟩, heq⟩ := s.dev.reply_refused h 0x2010
  have hrun : s.resetRequest a = s.withDev (s.dev.reply mgmtParty st 0 0x2010).leaveEntry := by
    simp only [State.resetRequest, hst, ne_eq, h, not_false_eq_true, if_true]
  refine ⟨_, hrun, rfl, ?_⟩
  rw [heq, Dev.leaveEntry_eq]
  exact ⟨rfl, rfl, rfl, rfl⟩

/-- The granted device differs in the management path and in the entry to sleep. -/
theorem Dev.granted_eq (d : Dev) : d.granted = { d with mgmt := d.granted.mgmt, pwr := d.granted.pwr } := by
  rw [Dev.granted, Dev.leaveEntry_eq]; rfl

/-- The status of a request of the core kind, outside the safe configuration. -/
theorem Dev.resetStatus_core {d : Dev} (h : d.cfg.safe = false) (k : Nat) :
    d.resetStatus 4 k = if 8 ≤ k then 0x02 else if (d.core k).restarting then 0x01 else 0 := by
  simp [Dev.resetStatus, h]

theorem exec_resetControlCore {s : State} (h : s.dev.Serves mgmtParty 0x2010) (v : W64) :
    exec (.resetControlCore v) s = .next (s.resetRequest (resetValue 4 v)) :=
  congrArg Host.Outcome.next (State.write_resetReq h _)

/-- A watchdog or an error in a core's code while no handoff is under way. -/
theorem State.coreFails_restarts {s : State} {k : Nat} (hk : k < 8) (hon : s.dev.coresOn = true) (hupd : s.dev.fw.updState ≠ 3)
    (hrun : (s.dev.core k).restarting = false) (cause : Nat) : s.coreFails k cause = s.withDev (s.dev.coreRestart k cause) := by
  simp [State.coreFails, hon, hupd, hrun, Nat.not_le.mpr hk]

/-! ## The end of a restart -/

theorem State.replay_of_none {s : State} {p : Nat} (h : s.dev.heldWrites p = []) (fuel : Nat) : s.replay p fuel = s := by
  cases fuel with
  | zero => rfl
  | succ n => rw [State.replay, h]; dsimp only; exact ite_self s

theorem State.replayAll_of_none {s : State} {l : List Nat} (h : ∀ p ∈ l, s.dev.heldWrites p = []) : s.replayAll l = s := by
  unfold State.replayAll
  induction l with
  | nil => rfl
  | cons p l ih =>
    rw [List.foldl_cons, State.replay_of_none (h p List.mem_cons_self)]
    exact ih fun q hq => h q (List.mem_cons_of_mem _ hq)

theorem Dev.dropShadow_heldWrites (d : Dev) (p q : Nat) : (d.dropShadow p).heldWrites q = d.heldWrites q := by
  by_cases hp : p < 64
  · rw [Dev.dropShadow, if_pos hp, Dev.heldWrites, Dev.heldWrites]
    by_cases h : p = q
    · subst h; rw [Dev.modTen_ten]; rfl
    · rw [Dev.modTen_ten_other d h]; rfl
  · rw [Dev.dropShadow, if_neg hp]; rfl

/-- A window that a core's return has yet to tell. -/
theorem Dev.tellBack_keeps {e : Dev} {n : Nat} (h : (e.ten n).fwRestart = false) (t : Nat) :
    ((if (e.ten t).fwRestart then e.tell false t else e).ten n).fwRestart = false := by
  split
  · exact Dev.tell_keeps h t
  · exact h

theorem Dev.tellBack_fwRestart (e : Dev) (t : Nat) : ((if (e.ten t).fwRestart then e.tell false t else e).ten t).fwRestart = false := by
  split
  · exact e.tell_fwRestart false t
  next h => exact Bool.eq_false_iff.mpr h

/-- CC_RESTART_COMPLETE with no write held for the core's windows. -/
theorem State.restartDone_only {s : State} {k : Nat} (hk : k < 8) (hon : s.dev.coresOn = true) (hout : (s.dev.core k).restarting = true)
    (hheld : ∀ p ∈ s.dev.cfg.coreParties k, s.dev.heldWrites p = []) :
    ∃ e, s.restartDone k = s.withDev e ∧ (s.dev.modCore k (fun c => { c with restarting := false })).restartOnly e ∧
      ∀ n ∈ s.dev.cfg.coreTenants k, (e.ten n).fwRestart = false := by
  unfold State.restartDone
  rw [if_neg (by simp [hon, hout, Nat.not_le.mpr hk])]
  extract_lets ps held d1 s1 e e1 us
  have hdrop : (s.dev.modCore k (fun c => { c with restarting := false })).restartOnly d1 := restartOnly_foldl (fun e p => dropShadow_restart e p) ps _
  have hnone : ∀ p ∈ ps, d1.heldWrites p = [] := fun p hp =>
    foldl_keeps (P := fun e : Dev => e.heldWrites p = []) (fun e q h => (e.dropShadow_heldWrites q p).trans h) ps (hheld p hp)
  have hs1 : s1 = { s with dev := d1 } := State.replayAll_of_none hnone
  have he : e = d1 := congrArg State.dev hs1
  have hback : (e.core k).restarting = false := by
    obtain ⟨st, ten, mg, f, hm, pm, hcores, -, heq⟩ := hdrop
    rw [he, heq, Dev.core, hcores]
    exact congrArg Core.restarting (Tbl.get_set_same _ _ _ _)
  have htold : e.restartOnly e1 := restartOnly_foldl (fun e t => by
    split
    · exact tell_restart e false t
    · exact restartOnly_refl e) _ e
  have hlog (x y : Dev) (h : x.restartOnly y) (a b a' b' : Nat) :
      x.restartOnly ((y.logRec k 0x83 0xFF (unitHub 0 k) a b).logRec k 0x84 0xFF (unitHub 0 k) a' b') :=
    restartOnly_trans (restartOnly_trans h (logRec_restart _ _ _ _ _ _ _)) (logRec_restart _ _ _ _ _ _ _)
  rw [if_neg (by rw [hback]; decide)]
  refine ⟨_, by rw [hs1], hlog _ e1 (restartOnly_trans hdrop (he ▸ htold)) _ _ _ _, fun n hn => ?_⟩
  rw [Dev.logRec_eq, Dev.logRec_eq]
  exact foldl_of_mem (P := fun e : Dev => (e.ten n).fwRestart = false) (fun e t h => Dev.tellBack_keeps h t) (fun e => e.tellBack_fwRestart n) hn e

/-- Settles O26: the start of a restart is `coreRestart_only`, its end `State.restartDone_only`. -/
theorem controlCoresRestart : Obligations.ControlCoresRestart := by
  unfold Obligations.ControlCoresRestart
  refine ⟨fun s k hk hon hupd hrun => ?_, fun s v h hsafe => ?_, fun s k hk hon hout hheld => ?_⟩
  · have hfails (cause : Nat) := State.coreFails_restarts hk hon hupd hrun cause
    refine ⟨⟨_, congrArg Host.Outcome.next (hfails 0), rfl, coreRestart_coreInRestart _ _ _⟩,
      ⟨_, congrArg Host.Outcome.next (hfails 2), rfl, coreRestart_coreInRestart _ _ _⟩, fun v hv h hsafe => ?_⟩
    have hkind := fld_resetValue_kind 4 (by decide) v
    have hindex : fld (resetValue 4 v) 8 8 = k := (fld_resetValue_index 4 (by decide) v).trans hv
    have hst : s.dev.resetStatus 4 k = 0 := by simp [Dev.resetStatus_core hsafe, hrun, Nat.not_le.mpr hk]
    rw [exec_resetControlCore h, State.resetRequest_granted (by rw [hkind, hindex, hst]), hkind, hindex]
    refine ⟨_, rfl, rfl, ?_⟩
    rw [s.dev.granted_eq]
    exact coreRestart_coreInRestart _ _ _
  · have hkind := fld_resetValue_kind 4 (by decide) v
    have hindex := fld_resetValue_index 4 (by decide) v
    have hrefused {st : B8} (hst : s.dev.resetStatus 4 (fld v 8 8) = st) (hne : st ≠ 0) :
        (s.resetRequest (resetValue 4 v)).dev.mgmt.replyStatus = st ∧
        (s.resetRequest (resetValue 4 v)).dev.epochs = s.dev.epochs := by
      obtain ⟨t, hrun, -, hepochs, hstatus, -⟩ := State.resetRequest_refused (a := resetValue 4 v) (by rw [hkind, hindex, hst]) hne
      rw [hrun]
      exact ⟨hstatus, hepochs⟩
    refine ⟨_, exec_resetControlCore h v, fun hk => hrefused ?_ (by decide), fun hk hout => hrefused ?_ (by decide)⟩
    · rw [Dev.resetStatus_core hsafe, if_pos hk]
    · rw [Dev.resetStatus_core hsafe, if_neg (Nat.not_le.mpr hk), if_pos hout]
  · obtain ⟨e, hrun, ⟨st, ten, mg, f, hm, pm, hcores, -, rfl⟩, htold⟩ := State.restartDone_only hk hon hout hheld
    refine ⟨_, congrArg Host.Outcome.next hrun, rfl, ?_, htold, rfl, rfl, rfl⟩
    rw [State.withDev, Dev.core, hcores]
    exact congrArg Core.restarting (Tbl.get_set_same _ _ _ _)

end Sys2Proof.Machine

/-! PROOFS. The link reset of a port (R33, R37, R127, R426, R429): what it does to a tenant, to the tenants of the port, and to the queues. -/
namespace Sys2Proof.Machine
open Sys2Proof

/-! ## Lists that have not started -/

/-- An entry of a table of which those that `mine` names are mapped. -/
theorem Tbl.get_mapIf {α : Type} {f : α → α} {x : α} (hx : f x = x) (mine : Nat → Bool) (t : Tbl α) (k : Nat) :
    Tbl.get (t.map (fun e => if mine e.1 then (e.1, f e.2) else e)) k x = if mine k then f (t.get k x) else t.get k x := by
  induction t with
  | nil => simp [Tbl.get, hx]
  | cons e t ih =>
    obtain ⟨i, v⟩ := e
    by_cases h : i = k
    · subst h; cases hm : mine i <;> simp [Tbl.get, hm]
    · rw [List.map_cons]
      cases hm : mine i <;> simpa [Tbl.get, h, hm] using ih

theorem Dev.dropUnstarted_que (d : Dev) (mine : Nat → Bool) (q : Nat) :
    (d.dropUnstarted mine).que q = if mine q then (d.que q).dropUnstarted else d.que q :=
  Tbl.get_mapIf (x := ({} : Queue)) rfl mine d.queues q

/-- Whether the list at the head of a queue has started is not changed by a drop. -/
theorem Queue.dropUnstarted_idem (v : Queue) : v.dropUnstarted.dropUnstarted = v.dropUnstarted := by
  cases hl : v.lists with
  | nil => simp [Queue.dropUnstarted, hl]
  | cons l r => by_cases hk : v.running.isSome = true ∨ 0 < l.index <;> simp [Queue.dropUnstarted, hl, hk]

/-! ## What a link reset changes -/

/-- `e` differs from `d` in the windows, the management path, the queues and the mailbox only. -/
def Dev.linkOnly (d e : Dev) : Prop :=
  ∃ ten mg qs mb, e = { d with tenants := ten, mgmt := mg, queues := qs, sec := { d.sec with mailbox := mb } }

theorem linkOnly_refl (d : Dev) : d.linkOnly d := ⟨_, _, _, _, rfl⟩
theorem linkOnly_trans {a b c : Dev} (h : a.linkOnly b) (k : b.linkOnly c) : a.linkOnly c := by
  obtain ⟨ten, mg, qs, mb, rfl⟩ := h
  obtain ⟨ten', mg', qs', mb', rfl⟩ := k
  exact ⟨ten', mg', qs', mb', rfl⟩
theorem linkOnly_keeps {a b : Dev} (h : a.linkOnly b) : b.cfg = a.cfg ∧ b.ports = a.ports := by
  obtain ⟨ten, mg, qs, mb, rfl⟩ := h; exact ⟨rfl, rfl⟩
theorem modTen_link (d : Dev) (n : Nat) (f : Tenant → Tenant) : d.linkOnly (d.modTen n f) := ⟨_, _, _, _, rfl⟩
theorem dropUnstarted_link (d : Dev) (mine : Nat → Bool) : d.linkOnly (d.dropUnstarted mine) := ⟨_, _, _, _, rfl⟩
theorem linkOnly_foldl {β : Type} {f : Dev → β → Dev} (hf : ∀ (d : Dev) b, d.linkOnly (f d b)) (l : List β) (d : Dev) :
    d.linkOnly (l.foldl f d) :=
  foldl_keeps (P := d.linkOnly) (fun e b h => linkOnly_trans h (hf e b)) l (linkOnly_refl d)

theorem closeSession_link (d : Dev) (t cause : Nat) : d.linkOnly (d.closeSession t cause) := by
  unfold Dev.closeSession
  split
  · exact linkOnly_refl d
  · rw [Dev.logRec_eq]; exact ⟨_, _, _, _, rfl⟩

theorem linkRequests_link (d : Dev) (p : Nat) : d.linkOnly (d.linkRequests p) := by
  unfold Dev.linkRequests Dev.setAttStatus
  split
  · split <;> exact ⟨_, _, _, _, rfl⟩
  · exact linkOnly_refl d

theorem linkTenant_link (d : Dev) (t : Nat) : d.linkOnly (d.linkTenant t) :=
  linkOnly_trans (linkOnly_trans (linkOnly_trans (modTen_link d t _) (closeSession_link _ t 2)) (linkRequests_link _ t)) (dropUnstarted_link _ _)

/-! ## One tenant's window and queues -/

theorem Dev.closeSession_queues (d : Dev) (t cause : Nat) : (d.closeSession t cause).queues = d.queues := by
  unfold Dev.closeSession
  split
  · rfl
  · rw [Dev.logRec_eq]; rfl

theorem Dev.linkRequests_queues (d : Dev) (p : Nat) : (d.linkRequests p).queues = d.queues := by
  unfold Dev.linkRequests Dev.setAttStatus
  split
  · split <;> rfl
  · rfl

theorem Dev.linkTenant_que (d : Dev) (t q : Nat) : (d.linkTenant t).que q = if qParty q = t then (d.que q).dropUnstarted else d.que q := by
  have hque : ((((d.modTen t Tenant.noMirrors).closeSession t 2).linkRequests t)).que q = d.que q := by
    rw [Dev.que, Dev.linkRequests_queues, Dev.closeSession_queues]; rfl
  rw [Dev.linkTenant, Dev.dropUnstarted_que, hque]
  simp only [decide_eq_true_eq]

/-- The tenants' lists of which no command has started, after their link reset. -/
theorem linkTenants_que (l : List Nat) (d : Dev) (q : Nat) :
    (l.foldl (fun d t => d.linkTenant t) d).que q = if qParty q ∈ l then (d.que q).dropUnstarted else d.que q := by
  induction l generalizing d with
  | nil => simp
  | cons t l ih =>
    rw [List.foldl_cons, ih, d.linkTenant_que]
    by_cases h : qParty q = t <;> by_cases hl : qParty q ∈ l <;> simp [h, hl, Queue.dropUnstarted_idem]

@[simp] theorem Dev.logRec_ten (d : Dev) (core code tenant unit a b n : Nat) : (d.logRec core code tenant unit a b).ten n = d.ten n := by
  rw [Dev.logRec_eq]; rfl

theorem Dev.closeSession_ten (d : Dev) (t cause : Nat) : (d.closeSession t cause).ten t = { d.ten t with session := none } := by
  unfold Dev.closeSession
  split
  next h => rw [← h]
  next => rw [Dev.logRec_ten]; exact d.modTen_ten t _

theorem Dev.closeSession_ten_other (d : Dev) {t n : Nat} (h : t ≠ n) (cause : Nat) : (d.closeSession t cause).ten n = d.ten n := by
  unfold Dev.closeSession
  split
  · rfl
  · rw [Dev.logRec_ten]; exact d.modTen_ten_other h _

theorem Dev.setAttStatus_ten (d : Dev) (t : Nat) (st : B8) : ∃ x, (d.setAttStatus t st).ten t = { d.ten t with attStatus := x } := by
  unfold Dev.setAttStatus
  split
  · exact ⟨_, d.modTen_ten t _⟩
  · exact ⟨_, rfl⟩

theorem Dev.setAttStatus_ten_other (d : Dev) {t n : Nat} (h : t ≠ n) (st : B8) : (d.setAttStatus t st).ten n = d.ten n := by
  unfold Dev.setAttStatus
  split
  · exact d.modTen_ten_other h _
  · rfl

theorem Dev.linkRequests_ten (d : Dev) (t : Nat) : ∃ x, (d.linkRequests t).ten t = { d.ten t with attStatus := x } := by
  unfold Dev.linkRequests
  split
  · exact (d.dropRequests t).setAttStatus_ten t 0x01
  · exact ⟨_, rfl⟩

theorem Dev.linkRequests_ten_other (d : Dev) {t n : Nat} (h : t ≠ n) : (d.linkRequests t).ten n = d.ten n := by
  unfold Dev.linkRequests
  split
  · exact (d.dropRequests t).setAttStatus_ten_other h 0x01
  · rfl

/-- The window of the tenant: no mirrors and no session. -/
theorem Dev.linkTenant_ten (d : Dev) (t : Nat) : ∃ x, (d.linkTenant t).ten t = { (d.ten t).noMirrors with session := none, attStatus := x } := by
  obtain ⟨x, hx⟩ := ((d.modTen t Tenant.noMirrors).closeSession t 2).linkRequests_ten t
  refine ⟨x, hx.trans ?_⟩
  rw [Dev.closeSession_ten, Dev.modTen_ten]

theorem Dev.linkTenant_ten_other (d : Dev) {t n : Nat} (h : t ≠ n) : (d.linkTenant t).ten n = d.ten n :=
  ((Dev.linkRequests_ten_other _ h).trans (Dev.closeSession_ten_other _ h 2)).trans (d.modTen_ten_other h _)

/-- What a link reset leaves of a window: neither session nor mirrors. -/
def Tenant.cutOff (v : Tenant) : Prop :=
  v.session = none ∧ v.compl.mirror = 0 ∧ v.compl.mirrorEn = false ∧ v.err.mirror = 0 ∧ v.err.mirrorEn = false

theorem Dev.linkTenant_cutOff (d : Dev) (t : Nat) : ((d.linkTenant t).ten t).cutOff := by
  obtain ⟨x, hx⟩ := d.linkTenant_ten t
  rw [hx]; exact ⟨rfl, rfl, rfl, rfl, rfl⟩

/-- The function's PCIe state is not touched. -/
theorem Dev.linkTenant_function (d : Dev) (t n : Nat) :
    ((d.linkTenant t).ten n).vfEnabled = (d.ten n).vfEnabled ∧ ((d.linkTenant t).ten n).busMaster = (d.ten n).busMaster := by
  by_cases h : t = n
  · subst h
    obtain ⟨x, hx⟩ := d.linkTenant_ten t
    rw [hx]; exact ⟨rfl, rfl⟩
  · rw [d.linkTenant_ten_other h]; exact ⟨rfl, rfl⟩

/-! ## The tenants of a port -/

/-- A window that no operation of a fold names stays. -/
theorem foldl_ten_other {f : Dev → Nat → Dev} (hf : ∀ (d : Dev) {t n : Nat}, t ≠ n → (f d t).ten n = d.ten n) {l : List Nat} {n : Nat}
    (hn : n ∉ l) (d : Dev) : (l.foldl f d).ten n = d.ten n :=
  List.foldlRecOn (motive := fun e : Dev => e.ten n = d.ten n) l f rfl fun e he _ ht => (hf e (ne_of_mem_of_not_mem ht hn)).trans he

theorem linkTenants_cutOff {l : List Nat} {n : Nat} (hn : n ∈ l) (d : Dev) : ((l.foldl (fun d t => d.linkTenant t) d).ten n).cutOff := by
  refine foldl_of_mem (P := fun e : Dev => (e.ten n).cutOff) (fun e t h => ?_) (fun e => e.linkTenant_cutOff n) hn d
  by_cases ht : t = n
  · subst ht; exact e.linkTenant_cutOff t
  · rw [e.linkTenant_ten_other ht]; exact h

/-- The functions of a port, neither enabled nor bus master. -/
theorem noFunctions_ten {l : List Nat} {n : Nat} (hn : n ∈ l) (d : Dev) :
    ((l.foldl (fun d t => d.modTen t Tenant.noFunction) d).ten n).vfEnabled = false ∧
      ((l.foldl (fun d t => d.modTen t Tenant.noFunction) d).ten n).busMaster = false := by
  refine foldl_of_mem (P := fun e : Dev => (e.ten n).vfEnabled = false ∧ (e.ten n).busMaster = false) (fun e t h => ?_) (fun e => ?_) hn d
  · by_cases ht : t = n
    · subst ht; rw [e.modTen_ten]; exact ⟨rfl, rfl⟩
    · rw [e.modTen_ten_other ht]; exact h
  · rw [e.modTen_ten]; exact ⟨rfl, rfl⟩

theorem noFunctions_queues (l : List Nat) (d : Dev) : (l.foldl (fun d t => d.modTen t Tenant.noFunction) d).queues = d.queues :=
  List.foldlRecOn (motive := fun e : Dev => e.queues = d.queues) l _ rfl fun _ he _ _ => he

theorem linkTenants_function {n : Nat} {d : Dev} (h : (d.ten n).vfEnabled = false ∧ (d.ten n).busMaster = false) (l : List Nat) :
    ((l.foldl (fun d t => d.linkTenant t) d).ten n).vfEnabled = false ∧ ((l.foldl (fun d t => d.linkTenant t) d).ten n).busMaster = false := by
  refine foldl_keeps (P := fun e : Dev => (e.ten n).vfEnabled = false ∧ (e.ten n).busMaster = false) (fun e t h => ?_) l h
  obtain ⟨hvf, hbus⟩ := e.linkTenant_function t n
  exact ⟨hvf.trans h.1, hbus.trans h.2⟩

/-! ## The management function -/

theorem Dev.linkRequests_mgmt_tenants (d : Dev) : (d.linkRequests mgmtParty).tenants = d.tenants := by
  unfold Dev.linkRequests
  split <;> rfl

theorem linkEffects_link (d : Dev) (n : Nat) : d.linkOnly (d.linkEffects n) := by
  have hten := linkOnly_foldl linkTenant_link (d.cfg.portTenants n) d
  unfold Dev.linkEffects
  dsimp only
  split
  · exact linkOnly_trans hten (linkOnly_trans (linkRequests_link _ _) (dropUnstarted_link _ _))
  · exact hten

theorem Dev.linkEffects_tenants (d : Dev) (n : Nat) :
    (d.linkEffects n).tenants = ((d.cfg.portTenants n).foldl (fun d t => d.linkTenant t) d).tenants := by
  unfold Dev.linkEffects
  dsimp only
  split
  · exact Dev.linkRequests_mgmt_tenants _
  · rfl

theorem Dev.linkEffects_que (d : Dev) (n q : Nat) : (d.linkEffects n).que q =
    if qParty q ∈ d.cfg.portTenants n ∨ (qIsMgmt q = true ∧ d.cfg.port = n) then (d.que q).dropUnstarted else d.que q := by
  have hten := linkTenants_que (d.cfg.portTenants n) d q
  unfold Dev.linkEffects
  dsimp only
  split
  next hport =>
    have hque (e : Dev) : (e.linkRequests mgmtParty).que q = e.que q := by rw [Dev.que, Dev.linkRequests_queues]; rfl
    rw [Dev.dropUnstarted_que, hque, hten]
    by_cases hq : qIsMgmt q = true <;> by_cases hl : qParty q ∈ d.cfg.portTenants n <;> simp [hq, hl, hport, Queue.dropUnstarted_idem]
  next hport => rw [hten]; simp [hport]

/-- Settles O16: port and functions first (`noFunctions_ten`), then the effects on the port's tenants and queues. -/
theorem linkResetOfAPort : Obligations.LinkResetOfAPort := by
  unfold Obligations.LinkResetOfAPort
  intro s n up hn hpow htrip hstage hstate
  refine ⟨_, rfl, rfl, ?_⟩
  extract_lets d e own
  have he : e = d.linkReset n up := rfl
  unfold Dev.linkReset at he
  rw [if_neg (by simp [d, hpow, htrip, Nat.not_le.mpr hn, Nat.not_lt.mpr hstage])] at he
  extract_lets keep d1 d2 at he
  rw [if_pos hstate] at he
  have h2 : d1.linkOnly d2 := linkOnly_foldl (fun d t => modTen_link d t _) own d1
  have hlink : d1.linkOnly e := he ▸ linkOnly_trans h2 (linkEffects_link d2 n)
  have hcfg : d2.cfg = d.cfg := (linkOnly_keeps h2).1
  have hports : e.ports = d.ports.set n (keep (d.port n)) := (linkOnly_keeps hlink).2
  have hten (x : Nat) : e.ten x = ((own.foldl (fun d t => d.linkTenant t) d2)).ten x := by rw [he, Dev.ten, Dev.linkEffects_tenants, hcfg]; rfl
  have hport : e.port n = keep (d.port n) := by rw [Dev.port, hports, Tbl.get_set_same]
  refine ⟨?_, ?_, ?_, fun k hk => ?_, fun x hx => ?_, fun x hx => ?_, fun q => ?_⟩
  · obtain ⟨ten, mg, qs, mb, heq⟩ := hlink
    rw [heq]; rfl
  · rw [hport]; cases up <;> rfl
  · rw [hport]; cases up <;> rfl
  · rw [Dev.port, hports, Tbl.get_set_other _ (Ne.symm hk)]; rfl
  · rw [hten, foldl_ten_other (fun d _ _ h => d.linkTenant_ten_other h) hx]
    exact foldl_ten_other (fun d _ _ h => d.modTen_ten_other h _) hx d1
  · obtain ⟨hvf, hbus⟩ := linkTenants_function (noFunctions_ten hx d1) own
    obtain ⟨hsession, hcompl, hcomplEn, herr, herrEn⟩ := linkTenants_cutOff hx d2
    rw [hten]
    exact ⟨hvf, hbus, hsession, hcompl, hcomplEn, herr, herrEn⟩
  · have hque : d2.que q = d.que q := congrArg (fun t : Tbl Queue => t.get q {}) (noFunctions_queues own d1)
    rw [he, Dev.linkEffects_que, hcfg, hque]

end Sys2Proof.Machine

/-! PROOFS. What the ends of commands, loads, barriers and sequences leave of the device (R113, R121, R126, R248, R331). -/
namespace Sys2Proof.Machine
open Sys2Proof

/-! ## What stays -/

/-- Time, configuration, epochs and mailbox. -/
def Dev.standing (d : Dev) : W64 × Cfg × Epochs × List AttReq := (d.time, d.cfg, d.epochs, d.sec.mailbox)

/-- With them the partitions, the queues and the sequences. -/
def Dev.quiet (d : Dev) : (W64 × Cfg × Epochs × List AttReq) × Tbl PartState × Tbl Queue × Tbl (Option Seq) :=
  (d.standing, d.parts, d.queues, d.tok.seqs)

/-- Sequences go, but none appears and none changes its tenant. -/
def Dev.seqsFrom (d e : Dev) : Prop := ∀ r x, e.seq r = some x → ∃ y, d.seq r = some y ∧ y.tenant = x.tenant

/-- A queue's command ends, or goes on with the queue's lists as they were. -/
def Dev.queuesEnd (d e : Dev) : Prop :=
  ∀ q, (e.que q).running = none ∨ ((e.que q).running = (d.que q).running ∧ (e.que q).lists = (d.que q).lists)

/-- From `d` to `e` what stands stays, and no sequence is new. -/
def Dev.sameOwners (d e : Dev) : Prop := e.standing = d.standing ∧ d.seqsFrom e

/-- From `d` to `e` the partitions stay as well, and what ends in the queues are commands. -/
def Dev.endsOnly (d e : Dev) : Prop := d.sameOwners e ∧ e.parts = d.parts ∧ d.queuesEnd e

theorem seqsFrom_refl (d : Dev) : d.seqsFrom d := fun _ x h => ⟨x, h, rfl⟩
theorem seqsFrom_trans {a b c : Dev} (h : a.seqsFrom b) (k : b.seqsFrom c) : a.seqsFrom c := by
  intro r x hx
  obtain ⟨y, hy, hyx⟩ := k r x hx
  obtain ⟨z, hz, hzy⟩ := h r y hy
  exact ⟨z, hz, hzy.trans hyx⟩
theorem seqsFrom_of_eq {d e : Dev} (h : e.tok.seqs = d.tok.seqs) : d.seqsFrom e := fun r x hx => ⟨x, by rw [Dev.seq, ← h]; exact hx, rfl⟩

theorem queuesEnd_refl (d : Dev) : d.queuesEnd d := fun _ => .inr ⟨rfl, rfl⟩
theorem queuesEnd_trans {a b c : Dev} (h : a.queuesEnd b) (k : b.queuesEnd c) : a.queuesEnd c := by
  intro q
  rcases k q with hnone | ⟨hrun, hlists⟩
  · exact .inl hnone
  · rcases h q with hnone' | ⟨hrun', hlists'⟩
    · exact .inl (hrun.trans hnone')
    · exact .inr ⟨hrun.trans hrun', hlists.trans hlists'⟩
theorem queuesEnd_of_eq {d e : Dev} (h : e.queues = d.queues) : d.queuesEnd e := fun q => .inr (by rw [Dev.que, h]; exact ⟨rfl, rfl⟩)

theorem sameOwners_refl (d : Dev) : d.sameOwners d := ⟨rfl, seqsFrom_refl d⟩
theorem sameOwners_trans {a b c : Dev} (h : a.sameOwners b) (k : b.sameOwners c) : a.sameOwners c := ⟨k.1.trans h.1, seqsFrom_trans h.2 k.2⟩
theorem sameOwners_foldl {β : Type} {f : Dev → β → Dev} (hf : ∀ (d : Dev) b, d.sameOwners (f d b)) (l : List β) (d : Dev) :
    d.sameOwners (l.foldl f d) :=
  foldl_keeps (P := d.sameOwners) (fun e b h => sameOwners_trans h (hf e b)) l (sameOwners_refl d)

theorem endsOnly_refl (d : Dev) : d.endsOnly d := ⟨sameOwners_refl d, rfl, queuesEnd_refl d⟩
theorem endsOnly_trans {a b c : Dev} (h : a.endsOnly b) (k : b.endsOnly c) : a.endsOnly c := by
  obtain ⟨howners, hparts, hqueues⟩ := h
  obtain ⟨howners', hparts', hqueues'⟩ := k
  exact ⟨sameOwners_trans howners howners', hparts'.trans hparts, queuesEnd_trans hqueues hqueues'⟩
theorem endsOnly_foldl {β : Type} {f : Dev → β → Dev} (hf : ∀ (d : Dev) b, d.endsOnly (f d b)) (l : List β) (d : Dev) :
    d.endsOnly (l.foldl f d) :=
  foldl_keeps (P := d.endsOnly) (fun e b h => endsOnly_trans h (hf e b)) l (endsOnly_refl d)

/-! ## Operations that touch neither partitions nor queues nor sequences -/

theorem endsOnly_of_quiet {d e : Dev} (h : e.quiet = d.quiet) : d.endsOnly e := by
  simp only [Dev.quiet, Prod.mk.injEq] at h
  obtain ⟨hstanding, hparts, hqueues, hseqs⟩ := h
  exact ⟨⟨hstanding, seqsFrom_of_eq hseqs⟩, hparts, queuesEnd_of_eq hqueues⟩

theorem quiet_foldl {β : Type} {f : Dev → β → Dev} (hf : ∀ d b, (f d b).quiet = d.quiet) (l : List β) (d : Dev) :
    (l.foldl f d).quiet = d.quiet :=
  foldl_keeps (P := fun e => e.quiet = d.quiet) (fun e b h => (hf e b).trans h) l rfl

theorem quiet_of_ringOnly {p : Nat} {d e : Dev} (h : d.ringOnly p e) : e.quiet = d.quiet := by
  obtain ⟨ten, mg, m, b, n, hm, pm, -, -, rfl⟩ := h; rfl

theorem quiet_of_memOnly {d e : Dev} (h : d.memOnly e) : e.quiet = d.quiet := quiet_of_ringOnly (ringOnly_of_mem 0 h)

@[simp] theorem Dev.modTen_quiet (d : Dev) (n : Nat) (f : Tenant → Tenant) : (d.modTen n f).quiet = d.quiet := rfl
@[simp] theorem Dev.modSlot_quiet (d : Dev) (n : Nat) (f : Slot → Slot) : (d.modSlot n f).quiet = d.quiet := rfl
@[simp] theorem Dev.unpin_quiet (d : Dev) (slot gen : Nat) : (d.unpin slot gen).quiet = d.quiet := rfl
@[simp] theorem Dev.unmapGen_quiet (d : Dev) (p s g : Nat) : (d.unmapGen p s g).quiet = d.quiet := rfl
@[simp] theorem Dev.modRegion_quiet (d : Dev) (n : Nat) (f : RegionState → RegionState) : (d.modRegion n f).quiet = d.quiet := rfl
@[simp] theorem Dev.clearRegions_quiet (d : Dev) (mask : W16) : (d.clearRegions mask).quiet = d.quiet :=
  quiet_foldl (fun e r => e.modRegion_quiet r _) _ d

@[simp] theorem Dev.setBusy_quiet (d : Dev) (p slot : Nat) (b : Bool) : (d.setBusy p slot b).quiet = d.quiet :=
  quiet_of_ringOnly (setBusy_ring d p slot b)
@[simp] theorem Dev.setProgress_quiet (d : Dev) (p slot kind value : Nat) : (d.setProgress p slot kind value).quiet = d.quiet :=
  quiet_of_ringOnly (setProgress_ring d p slot kind value)

@[simp] theorem Dev.endRecord_quiet (d : Dev) (q : Nat) (l : CmdList) (f : Option (Fail × Nat)) : (d.endRecord q l f).quiet = d.quiet := by
  unfold Dev.endRecord; split
  · exact quiet_of_ringOnly (record_ring _ _)
  · rfl

@[simp] theorem Dev.releaseSlot_quiet (d : Dev) (q : Nat) (r : Running) (st : B8) : (d.releaseSlot q r st).quiet = d.quiet := by
  unfold Dev.releaseSlot; split
  · simp only [apply_ite Dev.quiet, Dev.setBusy_quiet, Dev.setProgress_quiet, ite_self]
  · rfl

@[simp] theorem Dev.tuneEnd_quiet (d : Dev) (p : Nat) (g : Prog) (ok : Bool) : (d.tuneEnd p g ok).quiet = d.quiet := by
  unfold Dev.tuneEnd; dsimp only
  generalize he : d.modTen p _ = e
  have hread := quiet_of_memOnly (e.readMem_only { party := p, part := g.partition } (g.stateAddr + 6) 2)
  have hquiet : e.quiet = d.quiet := he ▸ d.modTen_quiet p _
  split <;> rename_i h <;> rw [h] at hread
  · exact hread.trans hquiet
  · exact (quiet_of_memOnly (Dev.writeMem_only _ _ _ _)).trans (hread.trans hquiet)

@[simp] theorem Dev.unmarkTile_quiet (d : Dev) (q : Nat) (r : Running) : (d.unmarkTile q r).quiet = d.quiet := by
  unfold Dev.unmarkTile; dsimp only
  split
  · split <;> rfl
  · rfl

@[simp] theorem Dev.ctlRelease_quiet (d : Dev) (q : Nat) (c : W512) : (d.ctlRelease q c).quiet = d.quiet := by
  unfold Dev.ctlRelease; split <;> rfl

@[simp] theorem Dev.stopSweep_quiet (d : Dev) (n g : Nat) : (d.stopSweep n g).quiet = d.quiet := by
  unfold Dev.stopSweep; split
  · split <;> rfl
  · rfl

/-! ## Sequences -/

/-- An entry of a table of which those with other keys are kept. -/
theorem Tbl.get_filterKey {α : Type} (keep : Nat → Bool) (t : Tbl α) (k : Nat) (x : α) :
    Tbl.get (t.filter (fun e => keep e.1)) k x = if keep k then t.get k x else x := by
  induction t with
  | nil => simp [Tbl.get]
  | cons e t ih =>
    obtain ⟨i, v⟩ := e
    by_cases h : i = k
    · subst h
      cases hm : keep i
      · simpa [List.filter_cons, hm] using ih
      · simp [Tbl.get, hm]
    · rw [List.filter_cons]
      cases hm : keep i <;> simpa [Tbl.get, h, hm] using ih

/-- An entry of a table that is mapped. -/
theorem Tbl.get_mapVal {α : Type} {f : α → α} {x : α} (hx : f x = x) (t : Tbl α) (k : Nat) :
    Tbl.get (t.map (fun e => (e.1, f e.2))) k x = f (t.get k x) := by
  simpa using Tbl.get_mapIf hx (fun _ => true) t k

theorem modSeq_ends (d : Dev) (r : Nat) {f : Seq → Seq} (hf : ∀ v, (f v).tenant = v.tenant) : d.endsOnly (d.modSeq r f) := by
  unfold Dev.modSeq
  split
  next v h =>
    refine ⟨⟨rfl, fun k x hx => ?_⟩, rfl, queuesEnd_refl d⟩
    by_cases hk : r = k
    · subst hk
      have hput : some (f v) = some x := (Tbl.get_set_same _ _ _ _).symm.trans hx
      cases hput
      exact ⟨v, h, (hf v).symm⟩
    · exact ⟨x, (Tbl.get_set_other _ hk _ _).symm.trans hx, rfl⟩
  next => exact endsOnly_refl d

/-- Every sequence changed alike, none its tenant. -/
theorem mapSeqs_ends (d : Dev) {f : Seq → Seq} (hf : ∀ v, (f v).tenant = v.tenant) :
    d.endsOnly { d with tok := { d.tok with seqs := d.tok.seqs.map (fun e => (e.1, e.2.map f)) } } := by
  refine ⟨⟨rfl, fun r x hx => ?_⟩, rfl, queuesEnd_refl d⟩
  have hget : (d.seq r).map f = some x := (Tbl.get_mapVal (f := Option.map f) (x := none) rfl d.tok.seqs r).symm.trans hx
  obtain ⟨y, hy, rfl⟩ := Option.map_eq_some_iff.mp hget
  exact ⟨y, hy, (hf y).symm⟩

/-- A sequence goes. -/
theorem filterSeq_ends (d : Dev) (r : Nat) : d.endsOnly { d with tok := { d.tok with seqs := d.tok.seqs.filter (fun e => decide (e.1 ≠ r)) } } := by
  refine ⟨⟨rfl, fun k x hx => ?_⟩, rfl, queuesEnd_refl d⟩
  have hget : (if decide (k ≠ r) then d.seq k else none) = some x :=
    (Tbl.get_filterKey (fun k => decide (k ≠ r)) d.tok.seqs k none).symm.trans hx
  split at hget
  · exact ⟨x, hget, rfl⟩
  · cases hget

/-! ## The end of a command (R121, R126) -/

/-- A queue whose command ends, or whose command and lists stay. -/
theorem modQue_ends (d : Dev) (q : Nat) {f : Queue → Queue}
    (hf : (f (d.que q)).running = none ∨ ((f (d.que q)).running = (d.que q).running ∧ (f (d.que q)).lists = (d.que q).lists)) :
    d.endsOnly (d.modQue q f) := by
  refine ⟨⟨rfl, seqsFrom_refl d⟩, rfl, fun k => ?_⟩
  by_cases hk : q = k
  · subst hk
    have hget : (d.modQue q f).que q = f (d.que q) := Tbl.get_set_same _ _ _ _
    rw [hget]; exact hf
  · have hget : (d.modQue q f).que k = d.que k := Tbl.get_set_other _ hk _ _
    rw [hget]; exact .inr ⟨rfl, rfl⟩

theorem Queue.hold_running (v : Queue) (e : Entry) : (v.hold e).running = v.running ∧ (v.hold e).lists = v.lists := by
  unfold Queue.hold; split <;> exact ⟨rfl, rfl⟩

theorem emit_ends (d : Dev) (q : Nat) (e : Entry) : d.endsOnly (d.emit q e) := by
  have hcount : d.endsOnly { d with produced := d.produced + 1 } := endsOnly_of_quiet rfl
  rcases emit_cases d q e with h | h
  · exact endsOnly_trans hcount (endsOnly_of_quiet (quiet_of_ringOnly h))
  · refine endsOnly_trans (endsOnly_trans hcount ?_) (endsOnly_of_quiet (quiet_of_ringOnly h))
    exact modQue_ends { d with produced := d.produced + 1 } q (f := fun v => v.hold _) (.inr (Queue.hold_running _ _))

theorem adapterFree_ends (d : Dev) (p k : Nat) (l : List Nat) : d.endsOnly (d.adapterFree p k l) :=
  endsOnly_trans (endsOnly_of_quiet (d.modTen_quiet p _))
    (endsOnly_foldl (f := fun e s => e.modSeq s (fun v => { v with heldBy := none })) (fun e s => modSeq_ends e s fun _ => rfl) l _)

theorem releaseProg_ends (d : Dev) (p : Nat) (g : Prog) (st : B8) : d.endsOnly (d.releaseProg p g st) := by
  unfold Dev.releaseProg
  extract_lets d1
  have h1 : d.endsOnly d1 := endsOnly_of_quiet (by simp only [d1, Dev.clearRegions_quiet, apply_ite Dev.quiet, Dev.unpin_quiet, ite_self])
  split
  · exact endsOnly_trans (endsOnly_trans h1 (adapterFree_ends d1 _ _ _)) (endsOnly_of_quiet (Dev.tuneEnd_quiet _ _ _ _))
  · exact h1

theorem release_ends (d : Dev) (q : Nat) (r : Running) (st : B8) : d.endsOnly (d.release q r st) := by
  unfold Dev.release
  extract_lets d1 d2
  have h1 : d.endsOnly d1 := endsOnly_of_quiet (d.releaseSlot_quiet q r st)
  have h2 : d.endsOnly d2 := by
    simp only [d2]; split
    · exact endsOnly_trans h1 (releaseProg_ends d1 _ _ _)
    · exact h1
  refine endsOnly_trans h2 ?_
  split
  · exact endsOnly_of_quiet rfl
  · split
    · exact mapSeqs_ends d2 fun _ => rfl
    · split
      · exact endsOnly_of_quiet (d2.unmarkTile_quiet q r)
      · split
        · exact endsOnly_of_quiet (d2.ctlRelease_quiet q _)
        · split
          · exact mapSeqs_ends d2 fun _ => rfl
          · split
            · exact endsOnly_of_quiet rfl
            · exact endsOnly_refl d2

theorem endEntry_ends (d : Dev) (q : Nat) (c : W512) (l : CmdList) (st : B8) (res : W64) : d.endsOnly (d.endEntry q c l st res) := by
  unfold Dev.endEntry; split
  · exact emit_ends d q _
  · exact endsOnly_refl d

/-- The list at the head of a queue with no running command ends. -/
theorem endList_ends {d : Dev} {q : Nat} (h : (d.que q).running = none) (l : CmdList) (last : Nat) : d.endsOnly (d.endList q l last) :=
  endsOnly_trans (modQue_ends d q (.inl h)) (emit_ends _ q _)

/-- A command of queue `q` that has a list ends: nothing runs in the queue then. -/
theorem endCmd_ends (d : Dev) (q : Nat) (st : B8) (res : W64) (f : Option (Fail × Nat)) :
    d.endsOnly (d.endCmd q st res f) ∧ ((d.que q).lists ≠ [] → ((d.endCmd q st res f).que q).running = none) := by
  unfold Dev.endCmd
  split
  next r l rest hrun hlists =>
    extract_lets d1
    let d0 := (d.release q r st).modQue q (fun v => { v with running := none })
    have h0 : d.endsOnly d0 := endsOnly_trans (release_ends d q r st) (modQue_ends _ q (.inl rfl))
    have hidle : (d0.que q).running = none := congrArg Queue.running (Tbl.get_set_same _ _ _ _)
    have h1 : d0.endsOnly d1 := endsOnly_trans (endsOnly_of_quiet (d0.endRecord_quiet q l f)) (endEntry_ends _ q _ _ _ _)
    have hstill {x : Dev} (h : d0.endsOnly x) : (x.que q).running = none := (h.2.2 q).elim id fun hx => hx.1.trans hidle
    have hrest (e : Dev) (he : d1.endsOnly e) : d.endsOnly e ∧ ((d.que q).lists ≠ [] → (e.que q).running = none) :=
      ⟨endsOnly_trans h0 (endsOnly_trans h1 he), fun _ => hstill (endsOnly_trans h1 he)⟩
    split
    · exact hrest _ (endList_ends (hstill h1) _ _)
    · exact hrest _ (modQue_ends d1 q (.inl (hstill h1)))
  next hnot =>
    refine ⟨endsOnly_refl d, fun hlists => ?_⟩
    cases hrun : (d.que q).running with
    | none => rfl
    | some r =>
      obtain ⟨l, rest, hl⟩ := List.exists_cons_of_ne_nil hlists
      exact absurd hl (hnot r l rest hrun)

theorem finish_ends (d : Dev) (q : Nat) (res : W64) : d.endsOnly (d.finish q res) := (endCmd_ends d q _ _ _).1
theorem failDisp_ends (d : Dev) (q : Nat) (f : Fail) : d.endsOnly (d.failDisp q f) := (endCmd_ends d q _ _ _).1
theorem failOpen_ends (d : Dev) (q : Nat) (st : B8) : d.endsOnly (d.failOpen q st) :=
  endsOnly_trans (endsOnly_of_quiet rfl) (failDisp_ends d.drawn q _)

/-! ## Barriers and loads -/

theorem barrierRelease_ends (d : Dev) (t b : Nat) : d.endsOnly (d.barrierRelease t b) := by
  unfold Dev.barrierRelease
  extract_lets g
  split
  · exact endsOnly_trans (endsOnly_of_quiet (d.modTen_quiet t _)) (endsOnly_foldl (fun e q => finish_ends e q 0) _ _)
  · exact endsOnly_refl d

theorem fullBarriers_ends (d : Dev) (t : Nat) : d.endsOnly (d.fullBarriers t) := endsOnly_foldl (fun e b => barrierRelease_ends e t b) _ d

theorem settle_ends (d : Dev) (n : Nat) : d.endsOnly (d.settle n) := by
  unfold Dev.settle
  extract_lets v d1
  have h1 : d.endsOnly d1 := endsOnly_of_quiet (d.modSlot_quiet n _)
  split
  · split
    · exact endsOnly_trans h1 (finish_ends d1 _ 0)
    · exact h1
  · split
    · exact endsOnly_of_quiet (d.modSlot_quiet n _)
    · exact endsOnly_refl d

theorem failLoad_ends (d : Dev) (n : Nat) (f : Fail) : d.endsOnly (d.failLoad n f) := by
  refine endsOnly_trans ?_ (settle_ends _ n)
  unfold Dev.endLoad
  split
  · exact endsOnly_refl d
  · exact endsOnly_trans (endsOnly_of_quiet (by rw [Dev.modSlot_quiet, Dev.unmapGen_quiet])) (failDisp_ends _ _ f)

theorem failLoads_ends (d : Dev) (p : Nat) (f : Fail) : d.endsOnly (d.failLoads p f) :=
  endsOnly_foldl (fun e s => by
    split
    · exact failLoad_ends e _ f
    · exact endsOnly_refl e) _ d

/-! ## Pages, nodes and images -/

@[simp] theorem Dev.freePage_quiet (d : Dev) (i : Nat) : (d.freePage i).quiet = d.quiet := by
  unfold Dev.freePage; split
  · rfl
  · split
    · rfl
    · dsimp only; split <;> rfl

@[simp] theorem Dev.freeRetired_quiet (d : Dev) : d.freeRetired.quiet = d.quiet :=
  quiet_foldl (fun e _ => quiet_foldl (fun e i => e.freePage_quiet i) _ e) _ _

@[simp] theorem Dev.dropList_quiet (d : Dev) (i : Nat) : (d.dropList i).quiet = d.quiet := by
  unfold Dev.dropList; split
  · rfl
  next l _ =>
    split
    · rfl
    · extract_lets both d1
      have h1 : d1.quiet = d.quiet := quiet_foldl (fun e x => by
        split
        · exact e.freePage_quiet _
        · rfl) both d
      exact h1

@[simp] theorem Dev.removeNodes_quiet (d : Dev) (l : List Node) : (d.removeNodes l).quiet = d.quiet := by
  unfold Dev.removeNodes
  exact quiet_foldl (fun e (n : Node) => e.dropList_quiet n.list) _ _

@[simp] theorem Dev.dropGenNodes_quiet (d : Dev) (p s g : Nat) : (d.dropGenNodes p s g).quiet = d.quiet := d.removeNodes_quiet _

theorem dropBlocks_ends (d : Dev) (r : Nat) (draft : Bool) : d.endsOnly (d.dropBlocks r draft) := by
  unfold Dev.dropBlocks; split
  · exact endsOnly_refl d
  next q _ =>
    refine endsOnly_trans (endsOnly_of_quiet (quiet_foldl (fun e x => ?_) _ d)) (modSeq_ends _ r fun v => ?_)
    · split
      · exact e.dropList_quiet _
      · rfl
    · cases draft <;> rfl

theorem dropImage_ends (d : Dev) (r : Nat) : d.endsOnly (d.dropImage r) := by
  unfold Dev.dropImage; split
  · exact endsOnly_refl d
  · split
    · exact endsOnly_refl d
    · exact endsOnly_trans (endsOnly_of_quiet (quiet_foldl (fun e i => e.freePage_quiet i) _ d)) (modSeq_ends _ r fun _ => rfl)

end Sys2Proof.Machine

/-! PROOFS. The start of a partition reset (R34, R39, R60). -/
namespace Sys2Proof.Machine
open Sys2Proof

/-- An ended sequence that finds room goes. -/
theorem finishEnd_ends (d : Dev) (r : Nat) : d.endsOnly (d.finishEnd r) := by
  unfold Dev.finishEnd
  split
  · exact endsOnly_refl d
  next q _ =>
    split
    · exact endsOnly_refl d
    · extract_lets d1 d2 d3
      have h1 : d.endsOnly d1 :=
        endsOnly_trans (endsOnly_trans (endsOnly_trans (emit_ends d _ _) (dropImage_ends _ r)) (dropBlocks_ends _ r false)) (dropBlocks_ends _ r true)
      have h3 : d1.endsOnly d3 := endsOnly_of_quiet (by simp only [d3, d2, apply_ite Dev.quiet, Dev.unpin_quiet, ite_self])
      exact endsOnly_trans (endsOnly_trans h1 h3) (filterSeq_ends d3 r)

theorem flushEnded_ends (d : Dev) : d.endsOnly d.flushEnded := endsOnly_foldl (fun e (x : Nat × Option Seq) => finishEnd_ends e x.1) _ d

/-! ## The commands that run in the partition -/

/-- An entry that is not the default is listed. -/
theorem Tbl.mem_of_get {α : Type} {t : Tbl α} {k : Nat} {x : α} (h : t.get k x ≠ x) : (k, t.get k x) ∈ t := by
  induction t with
  | nil => exact absurd rfl h
  | cons e t ih =>
    obtain ⟨i, v⟩ := e
    by_cases hi : i = k
    · subst hi; simp [Tbl.get]
    · simp only [Tbl.get, if_neg hi] at h ⊢
      exact List.mem_cons_of_mem _ (ih h)

/-- A queue of the partition whose command runs is one that the reset ends. -/
theorem Dev.mem_runningIn {d : Dev} {q : Nat} (h : (d.que q).running ≠ none) : q ∈ d.runningIn (d.qPart q) := by
  have hmem : (q, d.que q) ∈ d.queues := Tbl.mem_of_get fun hdef => h (congrArg Queue.running hdef)
  refine List.mem_map.mpr ⟨(q, d.que q), List.mem_filter.mpr ⟨hmem, ?_⟩, rfl⟩
  simp [Option.isSome_iff_ne_none, h]

/-- The commands of the queues listed end, those that have a list. -/
theorem failDisps_running {d : Dev} {q : Nat} {l : List Nat} (hq : (d.que q).running ≠ none → q ∈ l) (hlists : (d.que q).lists ≠ [])
    (f : Fail) : ((l.foldl (fun d q => d.failDisp q f) d).que q).running = none := by
  have hall (l : List Nat) (d : Dev) : d.endsOnly (l.foldl (fun d q => d.failDisp q f) d) := endsOnly_foldl (fun e q => failDisp_ends e q f) l d
  have hstays {a b : Dev} (h : a.endsOnly b) (ha : (a.que q).running = none) : (b.que q).running = none := (h.2.2 q).elim id fun hb => hb.1.trans ha
  by_cases hidle : (d.que q).running = none
  · exact hstays (hall l d) hidle
  · obtain ⟨l1, l2, rfl⟩ := List.append_of_mem (hq hidle)
    rw [List.foldl_append, List.foldl_cons]
    refine hstays (hall l2 _) ?_
    rcases (hall l1 d).2.2 q with hnone | ⟨-, hsame⟩
    · exact hstays (failDisp_ends _ q f) hnone
    · exact (endCmd_ends _ q _ _ _).2 (by rw [hsame]; exact hlists)

/-! ## The batch -/

theorem foldModSeq_ends (l : List (Nat × Nat × Nat)) (b : Batch) (d : Dev) : d.endsOnly (l.foldl (fun d x => d.modSeq x.1 (b.undo x)) d) :=
  endsOnly_foldl (fun e x => modSeq_ends e x.1 fun v => by unfold Batch.undo; dsimp only; split <;> rfl) l d

/-- The batch of the partition is gone, and what else the partition holds stays. -/
theorem Dev.requeueBatch_part (d : Dev) (p : Nat) :
    (d.requeueBatch p).standing = d.standing ∧ (d.requeueBatch p).part p = { d.part p with batch := none } ∧ d.queuesEnd (d.requeueBatch p) := by
  unfold Dev.requeueBatch
  split
  next h => exact ⟨rfl, by rw [← h], queuesEnd_refl d⟩
  next b h =>
    extract_lets d1
    obtain ⟨⟨hstanding, -⟩, hparts, hqueues⟩ := foldModSeq_ends b.members b d1
    refine ⟨hstanding, ?_, queuesEnd_trans (queuesEnd_of_eq rfl) hqueues⟩
    rw [Dev.part, hparts]
    exact Tbl.get_set_same _ _ _ _

/-! ## partReset of a window -/

/-- The tenants of the partition are told. -/
def Dev.tellPart (d : Dev) (t : Nat) : Dev := (d.modTen t (fun v => { v with partReset := true })).statusEvent t

theorem Dev.tellPart_eq (d : Dev) (t : Nat) : d.tellPart t = d.modTen t (fun v => ({ v with partReset := true } : Tenant).raise 3) := by
  unfold Dev.tellPart Dev.statusEvent Dev.event; exact d.modTen_modTen t _ _

theorem Dev.tellPart_partReset (d : Dev) (t : Nat) : ((d.tellPart t).ten t).partReset = true := by
  rw [d.tellPart_eq, Dev.modTen_ten]; rfl

theorem Dev.tellPart_keeps {d : Dev} {n : Nat} (h : (d.ten n).partReset = true) (t : Nat) : ((d.tellPart t).ten n).partReset = true := by
  by_cases hn : t = n
  · subst hn; exact d.tellPart_partReset t
  · rw [d.tellPart_eq, Dev.modTen_ten_other d hn, h]

theorem tellParts_ends (l : List Nat) (d : Dev) : d.endsOnly (l.foldl (fun d t => d.tellPart t) d) :=
  endsOnly_foldl (fun e t => endsOnly_of_quiet (by rw [e.tellPart_eq]; rfl)) l d

/-! ## The row -/

/-- The start of a partition reset is what O19 says of it. -/
theorem partReset_partInReset (d : Dev) (p : Nat) : d.PartInReset p (d.partReset p) := by
  unfold Dev.partReset
  extract_lets f _ d0 d1 d2 d3
  have hb := endsOnly_foldl fullBarriers_ends (d.cfg.partTenants p) d0
  have h1 := failLoads_ends (((d.cfg.partTenants p).foldl (fun d t => d.fullBarriers t) d0).modPart p (fun v => { v with resetting := true })) p f
  change Dev.endsOnly _ d1 at h1
  generalize (d.cfg.partTenants p).foldl (fun d t => d.fullBarriers t) d0 = b at hb h1
  clear_value d1
  have h2 : d1.endsOnly d2 := endsOnly_foldl (fun e q => failDisp_ends e q f) _ d1
  obtain ⟨hstanding, hpart, hqueues⟩ := d2.requeueBatch_part p
  have h3 : (d2.requeueBatch p).endsOnly d3 := endsOnly_trans (flushEnded_ends _) (endsOnly_of_quiet (Dev.clearRegions_quiet _ _))
  have h4 := tellParts_ends (d3.cfg.partTenants p) d3
  change d3.endsOnly ((d3.cfg.partTenants p).foldl (fun d t => d.tellPart t) d3) at h4
  have hwindows {t : Nat} (ht : t ∈ d3.cfg.partTenants p) : (((d3.cfg.partTenants p).foldl (fun d t => d.tellPart t) d3).ten t).partReset = true :=
    foldl_of_mem (P := fun e : Dev => (e.ten t).partReset = true) (fun e k h => Dev.tellPart_keeps h k) (fun e => e.tellPart_partReset t) ht d3
  change Dev.PartInReset p d ((d3.cfg.partTenants p).foldl (fun d t => d.tellPart t) d3)
  have hrun {q : Nat} (hq : d1.qPart q = p) (hlists : (d1.que q).lists ≠ []) : (d2.que q).running = none :=
    failDisps_running (fun h => hq ▸ Dev.mem_runningIn h) hlists f
  generalize (d3.cfg.partTenants p).foldl (fun d t => d.tellPart t) d3 = e at h4 hwindows ⊢
  clear_value d2 d3
  have hstands1 : d1.standing = d0.standing := h1.1.1.trans hb.1.1
  have hstands3 : d3.standing = d0.standing := h3.1.1.trans (hstanding.trans (h2.1.1.trans hstands1))
  have hstands : e.standing = d0.standing := h4.1.1.trans hstands3
  have hpart3 : e.part p = { d2.part p with batch := none } := by rw [← hpart, Dev.part, h4.2.1, h3.2.1]; rfl
  have hreset : (d2.part p).resetting = true := by
    rw [Dev.part, h2.2.1, h1.2.1]
    exact congrArg PartState.resetting (Tbl.get_set_same _ _ _ _)
  simp only [Dev.standing, Prod.mk.injEq] at hstands hstands1 hstands3
  obtain ⟨htime, hcfg, hepochs, -⟩ := hstands
  have hcfg1 : d1.cfg = d.cfg := hstands1.2.1
  have hcfg3 : d3.cfg = d.cfg := hstands3.2.1
  rw [hcfg3] at hwindows
  refine ⟨hepochs, by rw [hpart3]; exact hreset, by rw [hpart3], fun t ht => hwindows ht, fun q hq hlists => ?_, htime, hcfg⟩
  have hends : d2.queuesEnd e := queuesEnd_trans (queuesEnd_trans hqueues h3.2.2) h4.2.2
  have hbefore : d.queuesEnd d1 := queuesEnd_trans (queuesEnd_of_eq rfl) (queuesEnd_trans hb.2.2 (queuesEnd_trans (queuesEnd_of_eq rfl) h1.2.2))
  have hstays {a b : Dev} (h : a.queuesEnd b) (ha : (a.que q).running = none) : (b.que q).running = none := (h q).elim id fun hb => hb.1.trans ha
  rcases hbefore q with hnone | ⟨-, hsame⟩
  · exact hstays hends (hstays h2.2.2 hnone)
  · exact hstays hends (hrun (by rw [Dev.qPart, hcfg1]; exact hq) (by rw [hsame]; exact hlists))

/-- The reply to the request is no part of what is said of the reset. -/
theorem partInReset_of_granted {d e : Dev} {p : Nat} (h : d.granted.PartInReset p e) : d.PartInReset p e := by
  rw [d.granted_eq] at h
  generalize d.granted.mgmt = mg, d.granted.pwr = pw at h
  exact h

/-- The status of a request of the partition kind, outside the safe configuration. -/
theorem Dev.resetStatus_part {d : Dev} (h : d.cfg.safe = false) (p : Nat) :
    d.resetStatus 2 p = if !d.cfg.partOn p then 0x02 else if (d.part p).resetting then 0x01 else 0 := by
  simp [Dev.resetStatus, h]

/-- Settles O19: the request's status decides, and the start of the reset is `partReset_partInReset`. -/
theorem partitionResetStarts : Obligations.PartitionResetStarts := by
  unfold Obligations.PartitionResetStarts
  intro s v h hsafe p
  have hkind := fld_resetValue_kind 2 (by decide) v
  have hindex : fld (resetValue 2 v) 8 8 = p := fld_resetValue_index 2 (by decide) v
  have hfirst : exec (.resetPartition v) s = .next (s.resetRequest (resetValue 2 v)) := congrArg Host.Outcome.next (State.write_resetReq h _)
  have hst := Dev.resetStatus_part hsafe p
  have hrefused {st : B8} (hst : s.dev.resetStatus 2 p = st) (hne : st ≠ 0) :
      ∃ t, exec (.resetPartition v) s = .next t ∧ t = s.withDev t.dev ∧ t.dev.epochs = s.dev.epochs ∧ t.dev.mgmt.replyStatus = st := by
    obtain ⟨t, hrun, hdev, hepochs, hstatus, -⟩ := State.resetRequest_refused (a := resetValue 2 v) (by rw [hkind, hindex, hst]) hne
    exact ⟨t, by rw [hfirst, hrun], hdev, hepochs, hstatus⟩
  refine ⟨fun hon hidle => ?_, fun hon hbusy => hrefused (by rw [hst, hon, hbusy]; rfl) (by decide),
    fun hoff => hrefused (by rw [hst, hoff]; rfl) (by decide)⟩
  rw [hon, hidle] at hst
  rw [hfirst, State.resetRequest_granted (by rw [hkind, hindex]; exact hst), hkind, hindex]
  exact ⟨_, rfl, rfl, partInReset_of_granted (partReset_partInReset _ p)⟩

end Sys2Proof.Machine

/-! PROOFS. The start of a tenant reset (R35, R39, R60, R437, R522). -/
namespace Sys2Proof.Machine
open Sys2Proof

theorem sameOwners_of_quiet {d e : Dev} (h : e.quiet = d.quiet) : d.sameOwners e := (endsOnly_of_quiet h).1

/-! ## Sequences of the tenant -/

/-- A sequence that has gone does not come back. -/
theorem seq_none_of_sameOwners {d e : Dev} {r : Nat} (h : d.sameOwners e) (hr : d.seq r = none) : e.seq r = none := by
  cases hx : e.seq r with
  | none => rfl
  | some x =>
    obtain ⟨y, hy, -⟩ := h.2 r x hx
    rw [hr] at hy
    cases hy

theorem dropSeq_owners (d : Dev) (r : Nat) : d.sameOwners (d.dropSeq r) := by
  unfold Dev.dropSeq
  split
  · exact sameOwners_refl d
  next q _ =>
    extract_lets d1 d2 d3
    have h1 : d.endsOnly d1 := endsOnly_trans (endsOnly_trans (dropImage_ends d r) (dropBlocks_ends _ r false)) (dropBlocks_ends _ r true)
    have h3 : d1.endsOnly d3 := endsOnly_of_quiet (by simp only [d3, d2, apply_ite Dev.quiet, Dev.unpin_quiet, ite_self])
    exact (endsOnly_trans (endsOnly_trans h1 h3) (filterSeq_ends d3 r)).1

theorem Dev.dropSeq_seq (d : Dev) (r : Nat) : (d.dropSeq r).seq r = none := by
  unfold Dev.dropSeq
  split
  next h => exact h
  next q _ =>
    extract_lets d1 d2 d3
    exact (Tbl.get_filterKey (fun k => decide (k ≠ r)) d3.tok.seqs r none).trans (by simp)

/-- None of the tenant's sequences is left, and no other is new. -/
theorem dropSeqs_owners (d : Dev) (t : Nat) : d.sameOwners (d.dropSeqs t) ∧ ∀ r x, (d.dropSeqs t).seq r = some x → x.tenant ≠ t := by
  unfold Dev.dropSeqs
  extract_lets rs gone
  have hfirst : d.sameOwners { d with parts := d.parts.map (fun e => (e.1, { e.2 with batch := e.2.batch.map gone })) } := ⟨rfl, seqsFrom_refl d⟩
  generalize ({ d with parts := _ } : Dev) = d0 at hfirst ⊢
  have hall : d.sameOwners (rs.foldl (fun d r => d.dropSeq r) d0) := sameOwners_trans hfirst (sameOwners_foldl dropSeq_owners rs d0)
  have hgone {r : Nat} (hr : r ∈ rs) : (rs.foldl (fun d r => d.dropSeq r) d0).seq r = none :=
    foldl_of_mem (P := fun e : Dev => e.seq r = none) (fun e c h => seq_none_of_sameOwners (dropSeq_owners e c) h) (fun e => e.dropSeq_seq r) hr d0
  refine ⟨hall, fun r x hx hown => ?_⟩
  obtain ⟨y, hy, hyx⟩ := hall.2 r x hx
  have hmem : (r, some y) ∈ d.tok.seqs := hy ▸ Tbl.mem_of_get (t := d.tok.seqs) (k := r) (x := none) (fun h => by rw [Dev.seq, h] at hy; cases hy)
  have hr : r ∈ rs := List.mem_filterMap.mpr ⟨_, hmem, by simp [hyx, hown]⟩
  rw [hgone hr] at hx
  cases hx

/-! ## Slots, pages and units of the tenant -/

theorem dropSlots_owners (d : Dev) (t : Nat) : d.sameOwners (d.dropSlots t) := by
  unfold Dev.dropSlots
  refine sameOwners_foldl (fun d n => ?_) _ d
  extract_lets d1 d2
  have h1 : d.sameOwners d1 := by
    simp only [d1]; split
    · split
      · exact ⟨rfl, seqsFrom_refl d⟩
      · exact sameOwners_refl d
    · exact sameOwners_refl d
  have h2 : d2.quiet = d1.quiet := quiet_foldl (fun e g => by rw [Dev.dropGenNodes_quiet, Dev.unmapGen_quiet, Dev.stopSweep_quiet]) _ d1
  refine sameOwners_trans (sameOwners_trans h1 (sameOwners_of_quiet h2)) ?_
  exact (endsOnly_trans (endsOnly_of_quiet (d2.modSlot_quiet n _)) (settle_ends _ n)).1

@[simp] theorem Dev.dropPages_quiet (d : Dev) (t : Nat) : (d.dropPages t).quiet = d.quiet := d.removeNodes_quiet _

@[simp] theorem Dev.dropContext_quiet (d : Dev) (n : Nat) : (d.dropContext n).quiet = d.quiet := rfl
@[simp] theorem Dev.dropArray_quiet (d : Dev) (n : Nat) : (d.dropArray n).quiet = d.quiet := rfl
@[simp] theorem Dev.stopPulse_quiet (d : Dev) (n : Nat) : (d.stopPulse n).quiet = d.quiet := rfl
@[simp] theorem Dev.stopUart_quiet (d : Dev) (n : Nat) : (d.stopUart n).quiet = d.quiet := rfl
@[simp] theorem Dev.stopI3c_quiet (d : Dev) (n t : Nat) : (d.stopI3c n t).quiet = d.quiet := rfl

theorem Dev.stopPulse_triggers (d : Dev) (n : Nat) : (d.stopPulse n).triggers = d.triggers := rfl
theorem Dev.stopUart_triggers (d : Dev) (n : Nat) : (d.stopUart n).triggers = d.triggers := rfl
theorem Dev.stopI3c_triggers (d : Dev) (n t : Nat) : (d.stopI3c n t).triggers = d.triggers := rfl

/-- A trigger gives up what it holds, and is at reset. -/
def Dev.dropTrigger (d : Dev) (n : Nat) : Dev := (d.freeHeld n).modTrg n (fun _ => {})

@[simp] theorem Dev.dropTrigger_quiet (d : Dev) (n : Nat) : (d.dropTrigger n).quiet = d.quiet := rfl
theorem Dev.dropTrigger_trg (d : Dev) (n : Nat) : (d.dropTrigger n).trg n = {} := Tbl.get_set_same _ _ _ _
theorem Dev.dropTrigger_keeps {d : Dev} {k : Nat} (h : d.trg k = {}) (n : Nat) : (d.dropTrigger n).trg k = {} := by
  by_cases hn : n = k
  · subst hn; exact d.dropTrigger_trg n
  · exact (Tbl.get_set_other _ hn _ _).trans h

/-- A fold of operations that leave the triggers alone. -/
theorem triggers_foldl {β : Type} {f : Dev → β → Dev} (hf : ∀ d b, (f d b).triggers = d.triggers) (l : List β) (d : Dev) :
    (l.foldl f d).triggers = d.triggers :=
  foldl_keeps (P := fun e => e.triggers = d.triggers) (fun e b h => (hf e b).trans h) l rfl

theorem dropUnits_owners (d : Dev) (t : Nat) :
    (d.dropUnits t).quiet = d.quiet ∧ ∀ k, k < 1024 → d.cfg.trgOwner k = some t → (d.dropUnits t).trg k = {} := by
  unfold Dev.dropUnits
  extract_lets c d1 d2 d3 d4 d5
  have h1 : d1.quiet = d.quiet := quiet_foldl (fun e n => e.dropContext_quiet n) _ d
  have h2 : d2.quiet = d1.quiet := quiet_foldl (fun e n => e.dropArray_quiet n) _ d1
  have h3 : d3.quiet = d2.quiet := quiet_foldl (fun e n => e.dropTrigger_quiet n) _ d2
  have h4 : d4.quiet = d3.quiet := quiet_foldl (fun e n => e.stopPulse_quiet n) _ d3
  have h5 : d5.quiet = d4.quiet := quiet_foldl (fun e n => e.stopUart_quiet n) _ d4
  have h6 : ((List.range 8).foldl (fun d n => d.stopI3c n t) d5).quiet = d5.quiet := quiet_foldl (fun e n => e.stopI3c_quiet n t) _ d5
  refine ⟨h6.trans (h5.trans (h4.trans (h3.trans (h2.trans h1)))), fun k hk hown => ?_⟩
  have hreset : d3.trg k = {} :=
    foldl_of_mem (P := fun e : Dev => e.trg k = {}) (fun e n h => Dev.dropTrigger_keeps h n) (fun e => e.dropTrigger_trg k)
      (List.mem_filter.mpr ⟨List.mem_range.mpr hk, by simp [c, hown]⟩) d2
  have ht4 : d4.triggers = d3.triggers := triggers_foldl (fun e n => e.stopPulse_triggers n) _ d3
  have ht5 : d5.triggers = d4.triggers := triggers_foldl (fun e n => e.stopUart_triggers n) _ d4
  have ht6 : ((List.range 8).foldl (fun d n => d.stopI3c n t) d5).triggers = d5.triggers := triggers_foldl (fun e n => e.stopI3c_triggers n t) _ d5
  rw [Dev.trg, ht6, ht5, ht4]
  exact hreset

/-! ## Counters, copies and pages that were retired -/

theorem Dev.putTile_quiet (d : Dev) (k : Nat) (v : Option Tile) : (d.putTile k v).quiet = d.quiet := rfl
theorem Dev.putTile_triggers (d : Dev) (k : Nat) (v : Option Tile) : (d.putTile k v).triggers = d.triggers := rfl

theorem Dev.freePage_triggers (d : Dev) (i : Nat) : (d.freePage i).triggers = d.triggers := by
  unfold Dev.freePage; split
  · rfl
  · split
    · rfl
    · dsimp only; split <;> rfl

theorem Dev.dropCopies_quiet (d : Dev) (t : Nat) : (d.dropCopies t).quiet = d.quiet :=
  quiet_foldl (fun e (x : Nat × Tile) => e.putTile_quiet x.1 _) _ d
theorem Dev.dropCopies_triggers (d : Dev) (t : Nat) : (d.dropCopies t).triggers = d.triggers :=
  triggers_foldl (fun e (x : Nat × Tile) => e.putTile_triggers x.1 _) _ d
theorem Dev.freeRetired_triggers (d : Dev) : d.freeRetired.triggers = d.triggers :=
  triggers_foldl (fun e _ => triggers_foldl (fun e i => e.freePage_triggers i) _ e) _ _

theorem Dev.dropCounters_quiet (d : Dev) (t : Nat) : (d.dropCounters t).quiet = d.quiet := rfl
theorem Dev.dropCounters_triggers (d : Dev) (t : Nat) : (d.dropCounters t).triggers = d.triggers := rfl

theorem dropRest_leaves (d : Dev) (t : Nat) :
    ((d.dropCounters t).dropCopies t).freeRetired.quiet = d.quiet ∧ ((d.dropCounters t).dropCopies t).freeRetired.triggers = d.triggers := by
  rw [Dev.freeRetired_quiet, Dev.dropCopies_quiet, Dev.dropCounters_quiet, Dev.freeRetired_triggers,
    Dev.dropCopies_triggers, Dev.dropCounters_triggers]
  exact ⟨rfl, rfl⟩

/-! ## The start of the reset -/

/-- What the tenant has in the device's units goes: steps 2 and 3 of R437. -/
def Dev.tenantDropped (d : Dev) (t : Nat) : Dev :=
  ((((((((d.markPages t).dropRequests t).dropSeqs t).dropSlots t).dropPages t).dropUnits t).dropCounters t).dropCopies t).freeRetired

theorem tenantDropped_leaves (d : Dev) (t : Nat) : let e := d.tenantDropped t
    e.standing = (d.time, d.cfg, d.epochs, d.sec.mailbox.filter (fun r => decide (r.party ≠ t))) ∧
      (∀ r x, e.seq r = some x → x.tenant ≠ t) ∧
      ∀ k, k < 1024 → d.cfg.trgOwner k = some t → e.trg k = {} := by
  have h2 : ((d.markPages t).dropRequests t).standing = (d.time, d.cfg, d.epochs, d.sec.mailbox.filter (fun r => decide (r.party ≠ t))) := rfl
  unfold Dev.tenantDropped
  generalize (d.markPages t).dropRequests t = d2 at h2 ⊢
  obtain ⟨⟨hstands3, -⟩, hseqs⟩ := dropSeqs_owners d2 t
  generalize d2.dropSeqs t = d3 at hstands3 hseqs ⊢
  obtain ⟨hstands5, hseqs5⟩ := sameOwners_trans (dropSlots_owners d3 t) (sameOwners_of_quiet (Dev.dropPages_quiet _ t))
  generalize (d3.dropSlots t).dropPages t = d5 at hstands5 hseqs5 ⊢
  obtain ⟨hquiet6, htriggers⟩ := dropUnits_owners d5 t
  generalize d5.dropUnits t = d6 at hquiet6 htriggers ⊢
  obtain ⟨hquiet9, htriggers9⟩ := dropRest_leaves d6 t
  generalize ((d6.dropCounters t).dropCopies t).freeRetired = e at hquiet9 htriggers9 ⊢
  obtain ⟨hstands, hfrom⟩ := sameOwners_of_quiet (hquiet9.trans hquiet6)
  have hcfg : d5.cfg = d.cfg := congrArg (fun v => v.2.1) (hstands5.trans (hstands3.trans h2))
  refine ⟨hstands.trans (hstands5.trans (hstands3.trans h2)), fun r x hx => ?_, fun k hk hown => ?_⟩
  · obtain ⟨y, hy, hyx⟩ := seqsFrom_trans hseqs5 hfrom r x hx
    rw [← hyx]
    exact hseqs r y hy
  · rw [Dev.trg, htriggers9]
    exact htriggers k hk (by rw [hcfg]; exact hown)

/-- A progress register that starts shows in no other register of the window. -/
theorem Dev.putProg_ten (d : Dev) (t slot : Nat) (v : Progress) : ∃ x, (d.putProg t slot v).ten t = { d.ten t with progress := x } := by
  unfold Dev.putProg
  split
  · exact ⟨_, d.modTen_ten t _⟩
  · exact ⟨_, rfl⟩

theorem Dev.setProgress_ten (d : Dev) (t slot value : Nat) : ∃ x, (d.setProgress t slot 0 value).ten t = { d.ten t with progress := x } := by
  unfold Dev.setProgress
  split
  · exact d.putProg_ten t slot _
  · unfold Dev.showProgress
    dsimp only
    rw [if_neg (by simp)]
    exact d.putProg_ten t slot _

theorem triggers_of_ringOnly {p : Nat} {d e : Dev} (h : d.ringOnly p e) : e.triggers = d.triggers := by
  obtain ⟨ten, mg, m, b, n, hm, pm, -, -, rfl⟩ := h; rfl

/-- The tenant's queues go, and its window is at its reset. -/
def Dev.windowReset (d : Dev) (t frames : Nat) : Dev :=
  { d with queues := d.queues.filter (fun e => decide (e.1 / 32 ≠ t)), mem := { d.mem with keys := d.mem.keys.set t none } }.modTen t
    (fun v => v.reset frames)

theorem Dev.windowReset_que (d : Dev) {t q : Nat} (h : q / 32 = t) (frames : Nat) : (d.windowReset t frames).que q = {} :=
  (Tbl.get_filterKey (fun k => decide (k / 32 ≠ t)) d.queues q {}).trans (by simp [h])

theorem Dev.windowReset_ten (d : Dev) (t frames : Nat) : (d.windowReset t frames).ten t = (d.ten t).reset frames := Dev.modTen_ten _ t _

/-- With the progress register that a scrub reports through. -/
theorem windowReset_leaves (d : Dev) (t frames : Nat) : let e := (d.windowReset t frames).setProgress t 7 0 0
    e.standing = d.standing ∧ e.tok.seqs = d.tok.seqs ∧ e.triggers = d.triggers ∧ (∀ q, q / 32 = t → e.que q = {}) ∧
      ∃ x, e.ten t = { (d.ten t).reset frames with progress := x } := by
  have hstands : (d.windowReset t frames).standing = d.standing := rfl
  have hseqs : (d.windowReset t frames).tok.seqs = d.tok.seqs := rfl
  have htriggers : (d.windowReset t frames).triggers = d.triggers := rfl
  have hque {q : Nat} (hq : q / 32 = t) := d.windowReset_que hq frames
  have hten := d.windowReset_ten t frames
  generalize d.windowReset t frames = w at hstands hseqs htriggers hque hten ⊢
  have hquiet := w.setProgress_quiet t 7 0 0
  simp only [Dev.quiet, Prod.mk.injEq] at hquiet
  obtain ⟨hstands', -, hqueues', hseqs'⟩ := hquiet
  obtain ⟨x, hx⟩ := w.setProgress_ten t 7 0
  refine ⟨hstands'.trans hstands, hseqs'.trans hseqs, (triggers_of_ringOnly (setProgress_ring w t 7 0 0)).trans htriggers, fun q hq => ?_, x, ?_⟩
  · rw [Dev.que, hqueues']; exact hque hq
  · rw [hx, hten]

/-- The start of a tenant reset is what O18 says of it. -/
theorem tenantReset_tenantInReset (d : Dev) (t : Nat) : d.TenantInReset t (d.tenantReset t) := by
  unfold Dev.tenantReset
  extract_lets frames _ d0 d1 mine d2 d3
  have h0 := fullBarriers_ends ({ d with epochs := { d.epochs with ten := d.epochs.ten.set t (satInc (d.epochs.ten.get t 0)) } } : Dev) t
  change Dev.endsOnly _ d0 at h0
  have h1 : d0.endsOnly d1 := endsOnly_foldl (fun e (x : Nat × Slot) => failLoad_ends e x.1 _) _ d0
  have h2 : d1.endsOnly d2 := endsOnly_foldl (fun e q => failOpen_ends e q 0x09) mine d1
  have h3 : d3 = d2.tenantDropped t := rfl
  change Dev.TenantInReset t d ((d3.windowReset t frames).setProgress t 7 0 0)
  obtain ⟨⟨hstands2, -⟩, -⟩ := endsOnly_trans h0 (endsOnly_trans h1 h2)
  clear_value d3 d2
  obtain ⟨hstands3, hseqs3, htriggers3⟩ := tenantDropped_leaves d2 t
  rw [← h3] at hstands3 hseqs3 htriggers3
  obtain ⟨hstands, hseqs, htriggers, hqueues, x, hten⟩ := windowReset_leaves d3 t frames
  generalize (d3.windowReset t frames).setProgress t 7 0 0 = e at hstands hseqs htriggers hqueues hten ⊢
  simp only [Dev.standing, Prod.mk.injEq] at hstands hstands2 hstands3
  obtain ⟨htime, hcfg, hepochs, hmailbox⟩ := hstands
  obtain ⟨htime2, hcfg2, hepochs2, -⟩ := hstands2
  obtain ⟨htime3, hcfg3, hepochs3, hmailbox3⟩ := hstands3
  rw [Dev.TenantInReset, hten]
  refine ⟨hepochs.trans (hepochs3.trans hepochs2), rfl, rfl, rfl, rfl, rfl, rfl, hqueues, fun r hr => ?_, fun r y hy => ?_, fun k hk hown => ?_,
    htime.trans (htime3.trans htime2), hcfg.trans (hcfg3.trans hcfg2)⟩
  · rw [hmailbox, hmailbox3] at hr
    simpa using (List.mem_filter.mp hr).2
  · exact hseqs3 r y (by rw [Dev.seq, ← hseqs]; exact hy)
  · rw [Dev.trg, htriggers]
    exact htriggers3 k hk (by rw [hcfg2]; exact hown)

/-- The reply to the request is no part of what is said of the reset. -/
theorem tenantInReset_of_granted {d e : Dev} {n : Nat} (h : d.granted.TenantInReset n e) : d.TenantInReset n e := by
  rw [d.granted_eq] at h
  generalize d.granted.mgmt = mg, d.granted.pwr = pw at h
  exact h

/-- The status of a request of the tenant kind for an enabled tenant, outside the safe configuration. -/
theorem Dev.resetStatus_tenant {d : Dev} {n : Nat} (hsafe : d.cfg.safe = false) (hon : d.cfg.tenOn n = true) (hrng : d.sec.rngFail = false) :
    d.resetStatus 3 n = if (d.ten n).scrub then 0x01 else 0 := by
  simp [Dev.resetStatus, hsafe, hon, hrng]

/-- VF_FLR of an enabled tenant's function on an awake device with its entropy source. -/
theorem exec_vfFlr {s : State} {port vf n : Nat} (hvf : s.dev.cfg.vfTenant port vf = some n) (hawake : s.dev.awake = true)
    (hrng : s.dev.sec.rngFail = false) :
    exec (.vfFlr port vf) s = .next (if (s.dev.ten n).scrub then s else { s with dev := s.dev.tenantReset n }) := by
  show execVfFlr port vf s = _
  simp only [execVfFlr, hvf, hawake, hrng, Bool.or_false, Bool.not_true]

/-- Settles O18: both rows go by whether the tenant is in its scrub; the start of the reset is `tenantReset_tenantInReset`. -/
theorem tenantResetStarts : Obligations.TenantResetStarts := by
  unfold Obligations.TenantResetStarts
  refine ⟨fun s port vf n hvf hawake hrng => ?_, fun s v n h hsafe hn hon hrng => ?_⟩
  · rw [exec_vfFlr hvf hawake hrng]
    refine ⟨fun hidle => ?_, fun hscrub => by rw [hscrub]; rfl⟩
    rw [hidle]
    exact ⟨_, rfl, rfl, tenantReset_tenantInReset _ _⟩
  · have hkind := fld_resetValue_kind 3 (by decide) v
    have hindex : fld (resetValue 3 v) 8 8 = n := (fld_resetValue_index 3 (by decide) v).trans hn
    have hfirst : exec (.resetTenant v) s = .next (s.resetRequest (resetValue 3 v)) := congrArg Host.Outcome.next (State.write_resetReq h _)
    have hst := Dev.resetStatus_tenant hsafe hon hrng
    refine ⟨fun hidle => ?_, fun hscrub => ?_⟩
    · rw [hidle] at hst
      rw [hfirst, State.resetRequest_granted (by rw [hkind, hindex]; exact hst), hkind, hindex]
      exact ⟨_, rfl, rfl, tenantInReset_of_granted (tenantReset_tenantInReset _ n)⟩
    · rw [hscrub] at hst
      obtain ⟨t, hrun, hleft⟩ :=
        State.resetRequest_refused (a := resetValue 3 v) (by rw [hkind, hindex]; exact hst) (by decide : (0x01 : B8) ≠ 0)
      exact ⟨t, by rw [hfirst, hrun], hleft⟩

end Sys2Proof.Machine

/-! PROOFS. A jump of a TDM slave port's track also restarts the framing of its arrays (R386), of which O40 does not speak. -/
namespace Sys2Proof.Machine
open Sys2Proof

/-- A device with one enabled array of one microphone on TDM slave port 0: it runs, and track 1 counts that port's frame syncs. -/
def framingDev : Dev :=
  { cfg := { lens := [(6, 0x9000)], secs := [(6, [(0x8040, 1#8), (0x8042, 1#8), (0x8081, 0x80#8)])] }
    tracks := [(1, { source := 5 })]
    aud := { tdmValid := [(0, true)], arrays := [(0, { running := true, nextFrame := 7 })] } }

/-- The model's jump of track 1 sets array 0 back to frame 1. -/
theorem framingDev_trackJump :
    (match exec (.trackJump 1) ({ dev := framingDev } : State) with | .next t => some (t.dev.array 0).nextFrame | _ => none) = some 1 := by
  decide +kernel

/-- The jump counted and its triggers handled, and nothing else: array 0 keeps frame 7. -/
theorem framingDev_fireJumped :
    ((({ framingDev with tracks := framingDev.tracks.set 1 { framingDev.trk 1 with jumpCnt := satInc (framingDev.trk 1).jumpCnt } } : Dev).fireJumped
      [1]).array 0).nextFrame = 7 := by
  decide

/-- Refutes O40: where the jumping track counts a TDM slave port's frame syncs (source 5), the jump also ends the chunks of the arrays in that
port's domain and restarts their framing (R386), so the next state is not the counted and handled jump alone. In `framingDev` array 0 goes
back to frame 1 and the statement's device keeps frame 7. -/
theorem not_tracksJumpAndArePreset : ¬ Obligations.TracksJumpAndArePreset := by
  unfold Obligations.TracksJumpAndArePreset
  rintro ⟨hjump, -⟩
  obtain ⟨t, hrun, ht, -⟩ := hjump { dev := framingDev } 1 (by decide) (by decide) (by decide)
  have hmodel := framingDev_trackJump
  rw [hrun, ht] at hmodel
  exact absurd (hmodel.symm.trans (congrArg some framingDev_fireJumped)) (by decide)

end Sys2Proof.Machine

/-! PROOFS. The end of a command (R121, R123, R126): its entries, and all that stays. -/
namespace Sys2Proof.Machine
open Sys2Proof

/-! ## What the end of a command cannot touch -/

/-- An array but for its output binding. -/
def ArrayState.unbound (v : ArrayState) : ArrayState := { v with ring := none }

/-- The device without what the end of a command may touch. -/
def Dev.fixed (d : Dev) : Dev :=
  { d with tenants := [], mgmt := {}, queues := [], mem := {}, hostMem := [], pmc := {}, produced := 0, regions := []
           sec := { d.sec with treeFail := false, treeFailCnt := 0 }, mdl := { d.mdl with slots := [] }, tok := { d.tok with seqs := [] }
           cam := { d.cam with ctx := [] }, aud := { d.aud with arrays := d.aud.arrays.map (fun e => (e.1, e.2.unbound)) } }

theorem eq_of_fixed {d e : Dev} (h : e.fixed = d.fixed) :
    e = { d with tenants := e.tenants, mgmt := e.mgmt, queues := e.queues, mem := e.mem, hostMem := e.hostMem, pmc := e.pmc, produced := e.produced,
                 sec := { d.sec with treeFail := e.sec.treeFail, treeFailCnt := e.sec.treeFailCnt }, mdl := { d.mdl with slots := e.mdl.slots },
                 regions := e.regions, tok := { d.tok with seqs := e.tok.seqs }, cam := { d.cam with ctx := e.cam.ctx }, aud := { d.aud with arrays := e.aud.arrays } } :=
  congrArg (fun x : Dev =>
    { x with tenants := e.tenants, mgmt := e.mgmt, queues := e.queues, mem := e.mem, hostMem := e.hostMem, pmc := e.pmc, produced := e.produced,
             sec := { x.sec with treeFail := e.sec.treeFail, treeFailCnt := e.sec.treeFailCnt }, mdl := { x.mdl with slots := e.mdl.slots },
             regions := e.regions, tok := { x.tok with seqs := e.tok.seqs }, cam := { x.cam with ctx := e.cam.ctx }, aud := { x.aud with arrays := e.aud.arrays } }) h

theorem Dev.fixed_time {d e : Dev} (h : e.fixed = d.fixed) : e.time = d.time := congrArg (fun x => x.time) h
theorem Dev.fixed_cfg {d e : Dev} (h : e.fixed = d.fixed) : e.cfg = d.cfg := congrArg (fun x => x.cfg) h

theorem Dev.qPart_of_fixed {d e : Dev} (h : e.fixed = d.fixed) (q : Nat) : e.qPart q = d.qPart q := by
  unfold Dev.qPart; rw [Dev.fixed_cfg h]

/-! ## Operations that leave the queues aside -/

/-- From `d` to `e` nothing changes but party `p`'s window and what else the end of a command may touch: its ring is on or off as it was, and
the queues and the count of entries stay. -/
structure Dev.BesideQueues (p : Nat) (d e : Dev) : Prop where
  fixed : e.fixed = d.fixed
  windows : ∀ t, t ≠ p → e.ten t = d.ten t
  queues : e.queues = d.queues
  produced : e.produced = d.produced
  ring : (e.complRing p).enable = (d.complRing p).enable

theorem besideQueues_refl (p : Nat) (d : Dev) : d.BesideQueues p d := ⟨rfl, fun _ _ => rfl, rfl, rfl, rfl⟩

theorem besideQueues_trans {p : Nat} {a b c : Dev} (h : a.BesideQueues p b) (k : b.BesideQueues p c) : a.BesideQueues p c :=
  ⟨k.fixed.trans h.fixed, fun t ht => (k.windows t ht).trans (h.windows t ht), k.queues.trans h.queues, k.produced.trans h.produced, k.ring.trans h.ring⟩

theorem besideQueues_foldl {β : Type} {p : Nat} {f : Dev → β → Dev} (hf : ∀ (d : Dev) b, d.BesideQueues p (f d b)) (l : List β) (d : Dev) :
    d.BesideQueues p (l.foldl f d) :=
  foldl_keeps (P := d.BesideQueues p) (fun e b h => besideQueues_trans h (hf e b)) l (besideQueues_refl p d)

/-- An operation that touches neither windows nor queues nor the count of entries. -/
theorem besideQueues_of_eq (p : Nat) {d e : Dev} (hfixed : e.fixed = d.fixed)
    (h : (e.tenants, e.mgmt, e.queues, e.produced) = (d.tenants, d.mgmt, d.queues, d.produced)) : d.BesideQueues p e := by
  simp only [Prod.mk.injEq] at h
  obtain ⟨hten, hmgmt, hqueues, hproduced⟩ := h
  refine ⟨hfixed, fun t _ => by rw [Dev.ten, hten]; rfl, hqueues, hproduced, ?_⟩
  simp only [Dev.complRing, Dev.ten, hten, hmgmt]

theorem besideQueues_of_ringOnly {p : Nat} {d e : Dev} (h : d.ringOnly p e) (hring : (e.complRing p).enable = (d.complRing p).enable) :
    d.BesideQueues p e := by
  obtain ⟨ten, mg, m, b, n, hm, pm, hten, -, rfl⟩ := h
  exact ⟨rfl, hten, rfl, rfl, hring⟩

theorem besideQueues_of_memOnly (p : Nat) {d e : Dev} (h : d.memOnly e) : d.BesideQueues p e := by
  obtain ⟨m, b, n, -, rfl⟩ := h
  exact besideQueues_of_eq p rfl rfl

/-- A change of a window that leaves its ring on or off as it is. -/
theorem modTen_beside (d : Dev) (p : Nat) {f : Tenant → Tenant} (hf : ∀ v, (f v).compl.enable = v.compl.enable) : d.BesideQueues p (d.modTen p f) := by
  refine besideQueues_of_ringOnly (modTen_ring d p f) ?_
  unfold Dev.complRing
  split
  · rw [Dev.modTen_ten, hf]
  · rfl

theorem mgmt_beside (d : Dev) (p : Nat) {g : MgmtPath} (hg : g.compl.enable = d.mgmt.compl.enable) : d.BesideQueues p { d with mgmt := g } := by
  refine besideQueues_of_ringOnly (mgmt_ring d p g) ?_
  unfold Dev.complRing
  split
  · rfl
  · exact hg

theorem event_beside (d : Dev) (p k : Nat) : d.BesideQueues p (d.event p k) := modTen_beside d p fun _ => rfl
theorem hostWrite_beside (d : Dev) (p port a : Nat) (l : List B8) : d.BesideQueues p (d.hostWrite port a l) := besideQueues_of_eq p rfl rfl
theorem deviceWrite_beside (d : Dev) (p party part a : Nat) (l : List B8) : d.BesideQueues p (d.deviceWrite party part a l) :=
  besideQueues_of_memOnly p (d.deviceWrite_only party part a l)

/-! ## Progress and records -/

theorem putProg_beside (d : Dev) (p slot : Nat) (v : Progress) : d.BesideQueues p (d.putProg p slot v) := by
  unfold Dev.putProg; split
  · exact modTen_beside d p fun _ => rfl
  · exact mgmt_beside d p rfl

theorem setBusy_beside (d : Dev) (p slot : Nat) (b : Bool) : d.BesideQueues p (d.setBusy p slot b) := putProg_beside d p slot _

theorem setProgress_beside (d : Dev) (p slot kind value : Nat) : d.BesideQueues p (d.setProgress p slot kind value) := by
  unfold Dev.setProgress; split
  · exact putProg_beside d p slot _
  · unfold Dev.showProgress; dsimp only; split
    · exact besideQueues_trans (putProg_beside d p slot _) (event_beside _ p 3)
    · exact putProg_beside d p slot _

theorem tenantRec_beside (d : Dev) (p : Nat) (r : ErrRec) : d.BesideQueues p (d.tenantRec p r) := by
  unfold Dev.tenantRec
  extract_lets g _ b d1 d2
  have h1 : d.BesideQueues p d1 := deviceWrite_beside d p _ _ _ _
  have h2 : d1.BesideQueues p d2 := by
    simp only [d2]; split
    · exact hostWrite_beside d1 p _ _ _
    · exact besideQueues_refl p d1
  split
  · exact besideQueues_refl p d
  · split
    · exact modTen_beside d p fun _ => rfl
    · refine besideQueues_trans (besideQueues_trans (besideQueues_trans h1 h2) ?_) (event_beside _ p 1)
      exact modTen_beside d2 p fun _ => rfl

theorem globalRec_beside (d : Dev) (p : Nat) (r : ErrRec) : d.BesideQueues p (d.globalRec r) := by
  unfold Dev.globalRec
  extract_lets g r1 _ _ d1
  have h1 : d.BesideQueues p d1 := by
    simp only [d1]; split
    · exact hostWrite_beside d p _ _ _
    · exact besideQueues_refl p d
  split
  · exact mgmt_beside d p rfl
  · exact besideQueues_trans h1 (mgmt_beside d1 p rfl)

theorem countUnit_beside (d : Dev) (p unit who : Nat) : d.BesideQueues p (d.countUnit unit who) := by
  unfold Dev.countUnit; split
  · exact besideQueues_of_eq p rfl rfl
  · exact besideQueues_refl p d

/-- A record of party `p` (R129, R130). -/
theorem record_beside (d : Dev) {p : Nat} {r : ErrRec} (hp : r.tenant = p) : d.BesideQueues p (d.record r) := by
  subst hp
  unfold Dev.record
  refine besideQueues_trans (besideQueues_trans ?_ (globalRec_beside _ _ r)) (countUnit_beside _ _ _ _)
  split
  · exact tenantRec_beside d r.tenant r
  · exact besideQueues_refl _ d

theorem endRecord_beside (d : Dev) (q : Nat) (l : CmdList) (f : Option (Fail × Nat)) : d.BesideQueues (qParty q) (d.endRecord q l f) := by
  unfold Dev.endRecord; split
  · exact record_beside d rfl
  · exact besideQueues_refl _ d

/-! ## What a command held is given up -/

theorem modSeq_beside (d : Dev) (p r : Nat) (f : Seq → Seq) : d.BesideQueues p (d.modSeq r f) := by
  unfold Dev.modSeq; split
  · exact besideQueues_of_eq p rfl rfl
  · exact besideQueues_refl p d

theorem clearRegions_beside (d : Dev) (p : Nat) (mask : W16) : d.BesideQueues p (d.clearRegions mask) :=
  besideQueues_foldl (fun e r => besideQueues_of_eq (e := e.modRegion r _) p rfl rfl) _ d

theorem releaseSlot_beside (d : Dev) (q : Nat) (r : Running) (st : B8) : d.BesideQueues (qParty q) (d.releaseSlot q r st) := by
  unfold Dev.releaseSlot; split
  · split
    · exact besideQueues_refl _ d
    · split
      · exact setBusy_beside d _ _ _
      · exact besideQueues_trans (setProgress_beside d _ _ _ _) (setBusy_beside _ _ _ _)
  · exact besideQueues_refl _ d

theorem adapterFree_beside (d : Dev) (p k : Nat) (l : List Nat) : d.BesideQueues p (d.adapterFree p k l) := by
  unfold Dev.adapterFree
  refine besideQueues_trans ?_ (besideQueues_foldl (fun e s => modSeq_beside e p s _) l _)
  exact modTen_beside d p fun _ => rfl

theorem tuneEnd_beside (d : Dev) (p : Nat) (g : Prog) (ok : Bool) : d.BesideQueues p (d.tuneEnd p g ok) := by
  unfold Dev.tuneEnd
  extract_lets d1 v
  have h1 : d.BesideQueues p d1 := modTen_beside d p fun _ => rfl
  have hread := besideQueues_of_memOnly p (d1.readMem_only v (g.stateAddr + 6) 2)
  split <;> rename_i h <;> rw [h] at hread
  · exact besideQueues_trans h1 hread
  · exact besideQueues_trans (besideQueues_trans h1 hread) (besideQueues_of_memOnly p (Dev.writeMem_only _ _ _ _))

theorem releaseProg_beside (d : Dev) (p : Nat) (g : Prog) (st : B8) : d.BesideQueues p (d.releaseProg p g st) := by
  have hpin : d.BesideQueues p (if g.slot < 8 then d.unpin (slotNo g.partition g.slot) g.gen else d) := by
    split
    · exact besideQueues_of_eq p rfl rfl
    · exact besideQueues_refl p d
  have hregions := besideQueues_trans hpin (clearRegions_beside _ p g.mask)
  unfold Dev.releaseProg; dsimp only
  split
  · exact besideQueues_trans (besideQueues_trans hregions (adapterFree_beside _ p _ _)) (tuneEnd_beside _ p g _)
  · exact hregions

/-- Bindings end or go on; what else the arrays hold stays. -/
theorem mediaRelease_beside (d : Dev) (p q : Nat) : d.BesideQueues p (d.mediaRelease q) := by
  refine besideQueues_of_eq p ?_ rfl
  simp only [Dev.mediaRelease, Dev.fixed, List.map_map]
  rfl

theorem unmarkTile_beside (d : Dev) (p q : Nat) (r : Running) : d.BesideQueues p (d.unmarkTile q r) := by
  unfold Dev.unmarkTile; dsimp only; split
  · split
    · exact besideQueues_of_eq p rfl rfl
    · exact besideQueues_refl p d
  · exact besideQueues_refl p d

theorem ctlRelease_beside (d : Dev) (p q : Nat) (c : W512) : d.BesideQueues p (d.ctlRelease q c) := by
  unfold Dev.ctlRelease; split
  · exact besideQueues_refl p d
  · exact besideQueues_of_eq p rfl rfl

theorem release_beside (d : Dev) (q : Nat) (r : Running) (st : B8) : d.BesideQueues (qParty q) (d.release q r st) := by
  unfold Dev.release
  extract_lets d1 d2
  have h1 : d.BesideQueues (qParty q) d1 := releaseSlot_beside d q r st
  have h2 : d.BesideQueues (qParty q) d2 := by
    simp only [d2]; split
    · exact besideQueues_trans h1 (releaseProg_beside d1 _ _ _)
    · exact h1
  refine besideQueues_trans h2 ?_
  split
  · exact mediaRelease_beside d2 _ q
  · split
    · exact besideQueues_of_eq _ rfl rfl
    · split
      · exact unmarkTile_beside d2 _ q r
      · split
        · exact ctlRelease_beside d2 _ q _
        · split
          · exact besideQueues_of_eq _ rfl rfl
          · split
            · exact modTen_beside d2 _ fun _ => rfl
            · exact besideQueues_refl _ d2

/-! ## The entries of a queue -/

/-- Entries that a queue holds: those in its FIFO, and those that wait at their source. -/
def Queue.waiting (v : Queue) : List Entry × List Entry := (v.fifo, v.atSource)

theorem Queue.hold_waiting {v w : Queue} (h : v.waiting = w.waiting) (e : Entry) : (v.hold e).waiting = (w.hold e).waiting := by
  simp only [Queue.waiting, Prod.mk.injEq] at h
  obtain ⟨hfifo, hsource⟩ := h
  unfold Queue.hold
  rw [hfifo]
  split <;> simp only [Queue.waiting, hsource]

theorem Queue.holdAll_waiting (l : List Entry) {v w : Queue} (h : v.waiting = w.waiting) :
    (l.foldl (fun v x => v.hold x) v).waiting = (l.foldl (fun v x => v.hold x) w).waiting := by
  induction l generalizing v w with
  | nil => exact h
  | cons x l ih => exact ih (Queue.hold_waiting h x)

/-- An entry as queue `q` of a device gives it out. -/
def Dev.stamped (d : Dev) (q : Nat) (e : Entry) : Entry :=
  { e with time := d.time, engine := qEngine q, queue := qIndex q, order := d.produced, partition := if qIsMgmt q then d.qPart q else 0 }

/-- From `d` to `e` queue `q` gives out the entries `l`: they are counted, and held by the queue while the ring is off; nothing else changes
but what the end of a command may touch. -/
structure Dev.GivesOut (q : Nat) (l : List Entry) (d e : Dev) : Prop where
  fixed : e.fixed = d.fixed
  windows : ∀ t, t ≠ qParty q → e.ten t = d.ten t
  others : ∀ k, k ≠ q → e.que k = d.que k
  produced : e.produced = d.produced + l.length
  ring : (e.complRing (qParty q)).enable = (d.complRing (qParty q)).enable
  held : (d.complRing (qParty q)).enable = false → (e.que q).waiting = (l.foldl (fun v x => v.hold x) (d.que q)).waiting

theorem givesOut_trans {q : Nat} {l m : List Entry} {a b c : Dev} (h : a.GivesOut q l b) (k : b.GivesOut q m c) : a.GivesOut q (l ++ m) c where
  fixed := k.fixed.trans h.fixed
  windows t ht := (k.windows t ht).trans (h.windows t ht)
  others x hx := (k.others x hx).trans (h.others x hx)
  produced := by rw [k.produced, h.produced, List.length_append, Nat.add_assoc]
  ring := k.ring.trans h.ring
  held hoff := by
    rw [k.held (h.ring.trans hoff), List.foldl_append]
    exact Queue.holdAll_waiting m (h.held hoff)

theorem givesOut_of_beside {q : Nat} {d e : Dev} (h : d.BesideQueues (qParty q) e) : d.GivesOut q [] e := by
  have hque (k : Nat) : e.que k = d.que k := by rw [Dev.que, h.queues]; rfl
  exact ⟨h.fixed, h.windows, fun k _ => hque k, h.produced, h.ring, fun _ => by rw [hque]; rfl⟩

/-- A change of the queue itself that leaves alone the entries which it holds. -/
theorem givesOut_modQue (d : Dev) (q : Nat) {f : Queue → Queue} (hf : ∀ v, (f v).waiting = v.waiting) : d.GivesOut q [] (d.modQue q f) :=
  ⟨rfl, fun _ _ => rfl, fun _ hk => d.modQue_que_other (Ne.symm hk) f, rfl, rfl, fun _ => by rw [Dev.modQue_que]; exact hf _⟩

theorem putEntry_beside (d : Dev) (p : Nat) (e : Entry) : d.BesideQueues p (d.putEntry p e) := by
  have hstep (r : Ring) : r.step.enable = r.enable := by unfold Ring.step; split <;> rfl
  have hset (x : Dev) : ((x.setCompl p (d.complRing p).step).complRing p).enable = (d.complRing p).enable := by
    by_cases hp : p < 64
    · simp [Dev.setCompl, Dev.complRing, hp, hstep]
    · simp [Dev.setCompl, Dev.complRing, hp, hstep]
  refine besideQueues_of_ringOnly (putEntry_ring d p e) ?_
  unfold Dev.putEntry; dsimp only
  split
  · exact (event_beside _ p 0).ring.trans (hset _)
  · exact hset _

theorem emit_givesOut (d : Dev) (q : Nat) {e e' : Entry} (he : d.stamped q e = e') : d.GivesOut q [e'] (d.emit q e) := by
  subst he
  unfold Dev.emit
  extract_lets p e1 d0 r was d1
  have hcount : (d0.complRing p).enable = (d.complRing p).enable := rfl
  split
  · next h =>
    have hput := putEntry_beside d0 p e1
    have hon : r.enable = true := by
      simp only [Bool.and_eq_true] at h
      exact h.1.1
    refine ⟨hput.fixed, hput.windows, fun k _ => by rw [Dev.que, hput.queues]; rfl, hput.produced, hput.ring.trans hcount, fun hoff => ?_⟩
    exact absurd (hon.symm.trans (hcount.trans hoff)) (by decide)
  · have hheld : d.GivesOut q [e1] d1 :=
      ⟨rfl, fun _ _ => rfl, fun _ hk => d0.modQue_que_other (Ne.symm hk) _, rfl, rfl, fun _ => congrArg Queue.waiting (d0.modQue_que q _)⟩
    split
    · exact givesOut_trans hheld (givesOut_of_beside (event_beside d1 p 3))
    · exact hheld

/-- The command and the lists of a queue. -/
def Dev.work (d : Dev) (q : Nat) : Option Running × List CmdList := ((d.que q).running, (d.que q).lists)

theorem work_of_queues {d e : Dev} (h : e.queues = d.queues) (q : Nat) : e.work q = d.work q := by
  simp only [Dev.work, Dev.que, h]

theorem Dev.emit_work (d : Dev) (q : Nat) (e : Entry) (k : Nat) : (d.emit q e).work k = d.work k := by
  rcases emit_cases d q e with h | h <;> obtain ⟨ten, mg, m, b, n, hm, pm, -, -, h⟩ := h <;> rw [h]
  · rfl
  · by_cases hk : q = k
    · subst hk
      simp only [Dev.work, Dev.que, Tbl.get_set_same, Queue.hold_running]
    · simp only [Dev.work, Dev.que, Tbl.get_set_other _ hk]

/-! ## The entries of a command and of its list -/

theorem endEntry_givesOut (d : Dev) (q : Nat) (c : W512) (l : CmdList) (st : B8) (res : W64) :
    d.GivesOut q (if st ≠ 0 ∨ cmdNotify c = true then [kind1 d q c l st res d.produced] else []) (d.endEntry q c l st res) := by
  unfold Dev.endEntry
  split
  · exact emit_givesOut d q rfl
  · exact givesOut_of_beside (besideQueues_refl _ d)

theorem Dev.endEntry_work (d : Dev) (q : Nat) (c : W512) (l : CmdList) (st : B8) (res : W64) (k : Nat) : (d.endEntry q c l st res).work k = d.work k := by
  unfold Dev.endEntry; split
  · exact d.emit_work q _ k
  · rfl

theorem CmdList.failed_index (l : CmdList) (st : B8) : (l.failed st).index = l.index := by
  unfold CmdList.failed; split <;> rfl

theorem endList_givesOut (d : Dev) (q : Nat) (l : CmdList) : d.GivesOut q [kind0 d q l d.produced] (d.endList q l l.index) := by
  have hlist : d.GivesOut q [] (d.modQue q (fun v => { v with lists := v.lists.drop 1, readySince := d.time })) := givesOut_modQue d q fun _ => rfl
  exact givesOut_trans hlist (emit_givesOut _ q rfl)

theorem Dev.endList_work (d : Dev) (q : Nat) (l : CmdList) (last : Nat) : (d.endList q l last).work q = ((d.que q).running, (d.que q).lists.drop 1) := by
  unfold Dev.endList; dsimp only
  rw [Dev.emit_work]
  simp only [Dev.work, Dev.modQue_que]

theorem kind1_of_fixed {d e : Dev} (h : e.fixed = d.fixed) (q : Nat) (c : W512) (l : CmdList) (st : B8) (res : W64) (n : Nat) :
    kind1 e q c l st res n = kind1 d q c l st res n := by
  unfold kind1; rw [Dev.fixed_time h, Dev.qPart_of_fixed h]

theorem kind0_of_fixed {d e : Dev} (h : e.fixed = d.fixed) (q : Nat) (l : CmdList) (n : Nat) : kind0 e q l n = kind0 d q l n := by
  unfold kind0; rw [Dev.fixed_time h, Dev.qPart_of_fixed h]

/-! ## The end of a command -/

/-- What came of the entries and of the queue is what `Dev.Ended` says. -/
theorem ended_of_givesOut {d e : Dev} {q : Nat} {c : W512} {l : CmdList} {rest : List CmdList} {st : B8} {res : W64}
    (h : d.GivesOut q (endEntries d q c l st res) e)
    (hwork : e.work q = (none, if listEnds l c st then rest else { l.failed st with index := l.index + 1 } :: rest)) : d.Ended e q c l rest st res := by
  obtain ⟨hrunning, hlists⟩ := Prod.mk.injEq .. ▸ hwork
  refine ⟨hrunning, hlists, h.produced, fun hoff => ?_, h.windows, h.others, eq_of_fixed h.fixed⟩
  have hwaiting := h.held hoff
  simp only [Queue.waiting, Prod.mk.injEq] at hwaiting
  exact hwaiting

/-- A command has given up what it held, nothing runs in its queue, and a failure is recorded. -/
def Dev.gaveUp (d : Dev) (q : Nat) (r : Running) (l : CmdList) (st : B8) (f : Option (Fail × Nat)) : Dev :=
  ((d.release q r st).modQue q (fun v => { v with running := none })).endRecord q l f

theorem gaveUp_givesOut (d : Dev) (q : Nat) (r : Running) (l : CmdList) (st : B8) (f : Option (Fail × Nat)) : d.GivesOut q [] (d.gaveUp q r l st f) := by
  unfold Dev.gaveUp
  have hrelease : d.GivesOut q [] (d.release q r st) := givesOut_of_beside (release_beside d q r st)
  generalize d.release q r st = e at hrelease
  have hidle : e.GivesOut q [] (e.modQue q (fun v => { v with running := none })) := givesOut_modQue e q fun _ => rfl
  exact givesOut_trans (givesOut_trans hrelease hidle) (givesOut_of_beside (endRecord_beside _ q l f))

theorem Dev.gaveUp_work (d : Dev) (q : Nat) (r : Running) (l : CmdList) (st : B8) (f : Option (Fail × Nat)) :
    (d.gaveUp q r l st f).work q = (none, (d.que q).lists) := by
  have hqueues := (release_beside d q r st).queues
  unfold Dev.gaveUp
  generalize d.release q r st = e at hqueues
  rw [work_of_queues (endRecord_beside _ q l f).queues q, Dev.work, Dev.modQue_que, Dev.que, hqueues]
  rfl

/-- With the entry of the command itself. -/
theorem gaveUp_endEntry (d : Dev) (q : Nat) (r : Running) (l : CmdList) (st : B8) (res : W64) (f : Option (Fail × Nat)) :
    d.GivesOut q (if st ≠ 0 ∨ cmdNotify r.cmd = true then [kind1 d q r.cmd l st res d.produced] else []) ((d.gaveUp q r l st f).endEntry q r.cmd l st res) := by
  have h0 := gaveUp_givesOut d q r l st f
  have hproduced : (d.gaveUp q r l st f).produced = d.produced := h0.produced
  have h := givesOut_trans h0 (endEntry_givesOut _ q r.cmd l st res)
  rwa [kind1_of_fixed h0.fixed, hproduced, List.nil_append] at h

theorem listEnds_iff (l : CmdList) (c : W512) (st : B8) :
    ((st ≠ 0 ∧ (!cmdContinue c) = true) ∨ l.cmds.length ≤ l.index + 1) ↔ listEnds l c st := by
  simp [listEnds]

/-- The queue once the command's own entry is out: its list ends, or moves on to the next command. -/
def Dev.moveOn (d : Dev) (q : Nat) (c : W512) (l : CmdList) (rest : List CmdList) (st : B8) : Dev :=
  if listEnds l c st then d.endList q (l.failed st) l.index
  else d.modQue q (fun v => { v with lists := { l.failed st with index := l.index + 1 } :: rest, readySince := d.time })

theorem Dev.endCmd_eq {d : Dev} {q : Nat} {r : Running} {l : CmdList} {rest : List CmdList} (hrun : d.running q = some r)
    (hlists : (d.que q).lists = l :: rest) (st : B8) (res : W64) (f : Option (Fail × Nat)) :
    d.endCmd q st res f = ((d.gaveUp q r l st f).endEntry q r.cmd l st res).moveOn q r.cmd l rest st := by
  unfold Dev.endCmd
  rw [hrun, hlists]
  simp only [listEnds_iff]
  rfl

theorem endCmd_givesOut {d : Dev} {q : Nat} {r : Running} {l : CmdList} {rest : List CmdList} (hrun : d.running q = some r)
    (hlists : (d.que q).lists = l :: rest) (st : B8) (res : W64) (f : Option (Fail × Nat)) :
    d.GivesOut q (endEntries d q r.cmd l st res) (d.endCmd q st res f) := by
  have h1 := gaveUp_endEntry d q r l st res f
  rw [Dev.endCmd_eq hrun hlists, Dev.moveOn, endEntries]
  generalize (d.gaveUp q r l st f).endEntry q r.cmd l st res = d1 at h1
  by_cases hends : listEnds l r.cmd st
  · rw [if_pos hends, if_pos hends, ← h1.produced, ← kind0_of_fixed h1.fixed, ← CmdList.failed_index l st]
    exact givesOut_trans h1 (endList_givesOut d1 q (l.failed st))
  · rw [if_neg hends, if_neg hends]
    exact givesOut_trans h1 (givesOut_modQue d1 q fun _ => rfl)

theorem Dev.endCmd_work {d : Dev} {q : Nat} {r : Running} {l : CmdList} {rest : List CmdList} (hrun : d.running q = some r)
    (hlists : (d.que q).lists = l :: rest) (st : B8) (res : W64) (f : Option (Fail × Nat)) :
    (d.endCmd q st res f).work q = (none, if listEnds l r.cmd st then rest else { l.failed st with index := l.index + 1 } :: rest) := by
  have hwork := (Dev.endEntry_work _ q r.cmd l st res q).trans (d.gaveUp_work q r l st f)
  rw [Dev.endCmd_eq hrun hlists, Dev.moveOn]
  generalize (d.gaveUp q r l st f).endEntry q r.cmd l st res = d1 at hwork
  rw [hlists] at hwork
  obtain ⟨hrunning1, hlists1⟩ := Prod.mk.injEq .. ▸ hwork
  split
  · rw [Dev.endList_work, hrunning1, hlists1]; rfl
  · simp only [Dev.work, Dev.modQue_que, hrunning1]

/-- The end of a command, as every command that ends comes to it (R121). -/
theorem endCmd_ended {d : Dev} {q : Nat} {r : Running} {l : CmdList} {rest : List CmdList} (hrun : d.running q = some r)
    (hlists : (d.que q).lists = l :: rest) (st : B8) (res : W64) (f : Option (Fail × Nat)) :
    d.Ended (d.endCmd q st res f) q r.cmd l rest st res :=
  ended_of_givesOut (endCmd_givesOut hrun hlists st res f) (Dev.endCmd_work hrun hlists st res f)

/-- Where nothing runs in a queue, or it has no list, nothing ends. -/
theorem endCmd_cases (d : Dev) (q : Nat) (st : B8) (res : W64) (f : Option (Fail × Nat)) :
    d.endCmd q st res f = d ∨ ∃ l, d.GivesOut q l (d.endCmd q st res f) := by
  cases hrun : d.running q with
  | none => left; unfold Dev.endCmd; rw [hrun]
  | some r =>
    cases hlists : (d.que q).lists with
    | nil => left; unfold Dev.endCmd; rw [hrun, hlists]
    | cons l rest => exact .inr ⟨_, endCmd_givesOut hrun hlists st res f⟩

@[simp] theorem Dev.endCmd_fixed (d : Dev) (q : Nat) (st : B8) (res : W64) (f : Option (Fail × Nat)) : (d.endCmd q st res f).fixed = d.fixed := by
  rcases endCmd_cases d q st res f with h | ⟨l, h⟩
  · rw [h]
  · exact h.fixed

@[simp] theorem Dev.finish_fixed (d : Dev) (q : Nat) (res : W64) : (d.finish q res).fixed = d.fixed := d.endCmd_fixed q _ _ _
@[simp] theorem Dev.failDisp_fixed (d : Dev) (q : Nat) (f : Fail) : (d.failDisp q f).fixed = d.fixed := d.endCmd_fixed q _ _ _

/-- The end of a command on one queue leaves the others. -/
theorem Dev.finish_que_other (d : Dev) {q k : Nat} (h : k ≠ q) (res : W64) : (d.finish q res).que k = d.que k := by
  rcases endCmd_cases d q 0 res none with hsame | ⟨l, hout⟩
  · rw [Dev.finish, hsame]
  · exact hout.others k h

end Sys2Proof.Machine

/-! PROOFS. What the actions of triggers and the audio framing leave of the timebase: time, tracks and PTP (R73, R82-R85, R386). -/
namespace Sys2Proof.Machine
open Sys2Proof

/-! ## Parts of the device -/

/-- Time, configuration, PTP, tracks, and the audio block but for its arrays. -/
def Dev.clocks (d : Dev) : W64 × Cfg × Ptp × Tbl Track × Aud := (d.time, d.cfg, d.ptp, d.tracks, { d.aud with arrays := [] })

/-- With them each array but for its output binding. -/
def Dev.sound (d : Dev) : (W64 × Cfg × Ptp × Tbl Track × Aud) × (Nat → ArrayState) := (d.clocks, fun k => (d.array k).unbound)

/-- With them the triggers, and when the next can dispatch. -/
def Dev.timing (d : Dev) : Tbl Trigger × W64 × (W64 × Cfg × Ptp × Tbl Track × Aud) × (Nat → ArrayState) := (d.triggers, d.trgNext, d.sound)

theorem clocks_of_sound {d e : Dev} (h : e.sound = d.sound) : e.clocks = d.clocks := congrArg Prod.fst h
theorem sound_of_timing {d e : Dev} (h : e.timing = d.timing) : e.sound = d.sound := congrArg (fun x => x.2.2) h
theorem triggers_of_timing {d e : Dev} (h : e.timing = d.timing) : e.triggers = d.triggers := congrArg Prod.fst h

theorem clocks_foldl {β : Type} {f : Dev → β → Dev} (hf : ∀ d b, (f d b).clocks = d.clocks) (l : List β) (d : Dev) : (l.foldl f d).clocks = d.clocks :=
  foldl_keeps (P := fun e => e.clocks = d.clocks) (fun e b h => (hf e b).trans h) l rfl
theorem sound_foldl {β : Type} {f : Dev → β → Dev} (hf : ∀ d b, (f d b).sound = d.sound) (l : List β) (d : Dev) : (l.foldl f d).sound = d.sound :=
  foldl_keeps (P := fun e => e.sound = d.sound) (fun e b h => (hf e b).trans h) l rfl

theorem timing_of_fixed {d e : Dev} (h : e.fixed = d.fixed) : e.timing = d.timing := by
  have hunbound (x : Dev) (k : Nat) : (x.fixed).array k = (x.array k).unbound := Tbl.get_mapVal (f := ArrayState.unbound) rfl x.aud.arrays k
  have hclocks : e.fixed.timing.2.2.1 = d.fixed.timing.2.2.1 := by rw [h]
  have harrays : (fun k => (e.array k).unbound) = fun k => (d.array k).unbound := by
    funext k; rw [← hunbound, ← hunbound, h]
  have htriggers : e.triggers = d.triggers := congrArg (fun x => x.triggers) h
  have hnext : e.trgNext = d.trgNext := congrArg (fun x => x.trgNext) h
  simp only [Dev.timing, Dev.sound, harrays, htriggers, hnext]
  exact congrArg (fun x => (d.triggers, d.trgNext, x, fun k => (d.array k).unbound)) hclocks

theorem timing_of_memOnly {d e : Dev} (h : d.memOnly e) : e.timing = d.timing := by
  obtain ⟨m, b, n, -, rfl⟩ := h; rfl

theorem timing_of_beside {p : Nat} {d e : Dev} (h : d.BesideQueues p e) : e.timing = d.timing := timing_of_fixed h.fixed

@[simp] theorem Dev.modQue_timing (d : Dev) (q : Nat) (f : Queue → Queue) : (d.modQue q f).timing = d.timing := rfl
@[simp] theorem Dev.modPulse_timing (d : Dev) (n : Nat) (f : Pulse → Pulse) : (d.modPulse n f).timing = d.timing := rfl
@[simp] theorem Dev.modTrg_sound (d : Dev) (n : Nat) (f : Trigger → Trigger) : (d.modTrg n f).sound = d.sound := rfl
@[simp] theorem Dev.record_timing (d : Dev) (r : ErrRec) : (d.record r).timing = d.timing := timing_of_beside (record_beside d rfl)
@[simp] theorem Dev.failRec_timing (d : Dev) (p unit : Nat) (f : Fail) : (d.failRec p unit f).timing = d.timing := d.record_timing _
@[simp] theorem Dev.finish_timing (d : Dev) (q : Nat) (res : W64) : (d.finish q res).timing = d.timing := timing_of_fixed (d.finish_fixed q res)
@[simp] theorem Dev.failDisp_timing (d : Dev) (q : Nat) (f : Fail) : (d.failDisp q f).timing = d.timing := timing_of_fixed (d.failDisp_fixed q f)
@[simp] theorem Dev.deviceWrite_timing (d : Dev) (party p a : Nat) (l : List B8) : (d.deviceWrite party p a l).timing = d.timing :=
  timing_of_memOnly (d.deviceWrite_only party p a l)
@[simp] theorem Dev.writeMem_timing (d : Dev) (v : View) (a : Nat) (l : List B8) : (d.writeMem v a l).1.timing = d.timing := timing_of_memOnly (d.writeMem_only v a l)

/-! ## Actions at firing (R82-R84) -/

@[simp] theorem Dev.releaseQueue_timing (d : Dev) (q : Nat) : (d.releaseQueue q).timing = d.timing := by
  unfold Dev.releaseQueue; split
  · simp only [apply_ite Dev.timing, Dev.finish_timing, Dev.modQue_timing, ite_self]
  · rfl

@[simp] theorem Dev.startPulse_timing (d : Dev) (n u : Nat) : (d.startPulse n u).1.timing = d.timing := by
  unfold Dev.startPulse
  extract_lets unit v pos brake d1
  have h1 : d1.timing = d.timing := by
    simp only [d1]; split
    · exact d.deviceWrite_timing _ _ _ _
    · rfl
  split
  · rfl
  · split
    · rfl
    · dsimp only
      simp only [apply_ite Prod.fst, apply_ite Dev.timing, Dev.modPulse_timing, h1, ite_self]

@[simp] theorem Dev.performAction_timing (d : Dev) (n : Nat) (g : Trigger) : (d.performAction n g).1.timing = d.timing := by
  unfold Dev.performAction; dsimp only
  split
  · exact d.releaseQueue_timing _
  · split
    · rfl
    · split <;> rfl
  · exact d.startPulse_timing n _
  · split
    · rfl
    · split <;> rfl
  · split
    · rfl
    · next b _ =>
      have h := d.writeMem_timing { party := d.trgParty n, part := d.partyPart (d.trgParty n) } g.actPtr b
      split <;> rename_i hw <;> rw [hw] at h <;> exact h
  · dsimp only
    split <;> rfl
  · rfl

/-! ## Firing (R79, R81, R85) -/

/-- The mark of a firing on its trigger, before its action. -/
def Dev.marked (d : Dev) (n : Nat) (why : FireCause) : Dev :=
  let miss := decide (why = .late) && !(d.trg n).lateOk
  ({ d with trgNext := BitVec.ofNat 64 (d.dispatchAt + 1) } : Dev).modTrg n (fun g => { g with
    fired := true, firedCnt := satInc g.firedCnt, late := decide (why = .late), jumped := decide (why = .jump), time := BitVec.ofNat 64 d.dispatchAt
    missed := g.missed || miss, missedCnt := if miss then satInc g.missedCnt else g.missedCnt, lastStatus := if miss then 0x0E else 0 })

/-- The action of trigger `n`, which held `g`, and where its unit refused it the failure of the trigger. -/
def Dev.acted (d : Dev) (n : Nat) (g : Trigger) : Dev :=
  match d.performAction n g with
  | (e, none) => e
  | (e, some (unit, f)) => (e.modTrg n (fun g => { g with actionFailed := true, failCnt := satInc g.failCnt, lastStatus := f.status })).failRec (d.trgParty n) unit f

/-- What becomes of the trigger afterwards: a one-shot trigger is idle, a periodic one has its next target. -/
def Dev.rearmed (d : Dev) (n : Nat) (g : Trigger) (pulse : Bool) (pos : W64) : Dev :=
  if g.interval = 0 then d.idleTrigger n
  else
    let x := nextTarget pulse g.mode pos g.target g.interval.toNat
    d.modTrg n (fun g => { g with target := x.1, missed := g.missed || decide (x.2 ≠ 0), missedCnt := satAdd g.missedCnt x.2 })

theorem Dev.fire_eq (d : Dev) (n : Nat) (why : FireCause) :
    d.fire n why = ((d.marked n why).acted n (d.trg n)).rearmed n (d.trg n) (decide (d.trkSource (d.trg n).track = 6)) (d.trkPos (d.trg n).track) := rfl

theorem Dev.acted_sound (d : Dev) (n : Nat) (g : Trigger) : (d.acted n g).sound = d.sound := by
  have h := sound_of_timing (d.performAction_timing n g)
  unfold Dev.acted
  split <;> rename_i hp <;> rw [hp] at h
  · exact h
  · rw [sound_of_timing (Dev.failRec_timing _ _ _ _), Dev.modTrg_sound]; exact h

theorem Dev.rearmed_sound (d : Dev) (n : Nat) (g : Trigger) (pulse : Bool) (pos : W64) : (d.rearmed n g pulse pos).sound = d.sound := by
  unfold Dev.rearmed; split <;> rfl

@[simp] theorem Dev.fire_sound (d : Dev) (n : Nat) (why : FireCause) : (d.fire n why).sound = d.sound := by
  rw [Dev.fire_eq, Dev.rearmed_sound, Dev.acted_sound]; rfl

@[simp] theorem Dev.fireJumped_sound (d : Dev) (trks : List Nat) : (d.fireJumped trks).sound = d.sound := sound_foldl (fun e n => e.fire_sound n _) _ d

/-! ## Models and chunks (R250, R251, R394) -/

theorem Dev.endLoad_sound (d : Dev) (slot : Nat) (f : Fail) : (d.endLoad slot f).sound = d.sound := by
  unfold Dev.endLoad; split
  · rfl
  · exact sound_of_timing (Dev.failDisp_timing _ _ _)

theorem Dev.degrade_sound (d : Dev) (slot g shard : Nat) : (d.degrade slot g shard).sound = d.sound := by
  unfold Dev.degrade
  split
  · rfl
  · split
    · rfl
    · extract_lets _ d1 d2
      have h1 : d1.sound = d.sound := sound_of_timing (d.record_timing _)
      clear_value d1
      split
      · exact h1
      · split
        · exact h1
        · rw [Dev.endLoad_sound]; exact h1

@[simp] theorem Dev.modelFault_sound (d : Dev) (f : Fail) : (d.modelFault f).sound = d.sound := by
  unfold Dev.modelFault
  split
  · rfl
  · split
    · rfl
    · dsimp only
      split
      · split
        · rfl
        · exact d.degrade_sound _ _ _
      · split <;> rfl

@[simp] theorem Dev.failMem_sound (d : Dev) (q : Nat) (e : Fail) : (d.failMem q e).sound = d.sound :=
  (sound_of_timing (Dev.failDisp_timing _ _ _)).trans (d.modelFault_sound e)

/-- A change of an array that shows in its binding alone. -/
theorem Dev.modArray_sound (d : Dev) (n : Nat) {f : ArrayState → ArrayState} (hf : ∀ v, (f v).unbound = v.unbound) : (d.modArray n f).sound = d.sound := by
  refine Prod.ext rfl (funext fun k => ?_)
  by_cases hk : n = k
  · subst hk
    exact (congrArg ArrayState.unbound (d.modArray_array n f)).trans (hf _)
  · exact congrArg ArrayState.unbound (d.modArray_array_other hk f)

@[simp] theorem Dev.chunkBoundary_sound (d : Dev) (n : Nat) : (d.chunkBoundary n).sound = d.sound := by
  unfold Dev.chunkBoundary
  split
  · rfl
  · next b _ =>
    extract_lets v size off
    have hoff (e : Dev) : (off e).sound = e.sound := e.modArray_sound n fun _ => rfl
    split
    · split
      · rw [sound_of_timing (Dev.failDisp_timing _ _ _), hoff]
      · have hwrite := sound_of_timing (d.writeMem_timing v b.ring (List.replicate (64 * b.entries) 0))
        split <;> rename_i h <;> rw [h] at hwrite
        · rw [Dev.failMem_sound, hoff]; exact hwrite
        · rw [sound_of_timing (Dev.finish_timing _ _ _)]
          exact Eq.trans (Dev.modArray_sound _ n fun v => by rfl) hwrite
    · split
      · rw [sound_of_timing (Dev.finish_timing _ _ _), hoff]
      · rfl

@[simp] theorem Dev.modArray_clocks (d : Dev) (n : Nat) (f : ArrayState → ArrayState) : (d.modArray n f).clocks = d.clocks := rfl

end Sys2Proof.Machine

/-! PROOFS. The arming of a trigger (R78, R79): its check, and a firing at once. -/
namespace Sys2Proof.Machine
open Sys2Proof

/-! ## What a firing makes of the triggers -/

/-- Trigger `n` becomes `g`, and no other trigger changes. -/
def Dev.trgBecomes (n : Nat) (g : Trigger) (d e : Dev) : Prop := e.trg n = g ∧ ∀ k, k ≠ n → e.trg k = d.trg k

theorem trgBecomes_trans {n : Nat} {g h : Trigger} {a b c : Dev} (hab : a.trgBecomes n g b) (hbc : b.trgBecomes n h c) : a.trgBecomes n h c :=
  ⟨hbc.1, fun k hk => (hbc.2 k hk).trans (hab.2 k hk)⟩

theorem modTrg_trgBecomes (d : Dev) (n : Nat) (f : Trigger → Trigger) : d.trgBecomes n (f (d.trg n)) (d.modTrg n f) :=
  ⟨d.modTrg_trg n f, fun _ hk => d.modTrg_trg_other (Ne.symm hk) f⟩

theorem trgBecomes_of_triggers {d e : Dev} (h : e.triggers = d.triggers) (n : Nat) : d.trgBecomes n (d.trg n) e :=
  ⟨by rw [Dev.trg, h]; rfl, fun k _ => by rw [Dev.trg, h]; rfl⟩

theorem idleTrigger_trgBecomes (d : Dev) (n : Nat) : d.trgBecomes n { d.trg n with armed := false } (d.idleTrigger n) :=
  modTrg_trgBecomes d n (fun g => { g with armed := false })

/-- An action that its unit refuses shows in the trigger's last status and in the count of failures. -/
theorem acted_trgBecomes (d : Dev) (n : Nat) (g : Trigger) :
    ∃ failed st cnt, d.trgBecomes n { d.trg n with actionFailed := failed, lastStatus := st, failCnt := cnt } (d.acted n g) := by
  have h := triggers_of_timing (d.performAction_timing n g)
  unfold Dev.acted
  split <;> rename_i hp <;> rw [hp] at h
  · exact ⟨(d.trg n).actionFailed, (d.trg n).lastStatus, (d.trg n).failCnt, trgBecomes_of_triggers h n⟩
  · next e unit f =>
    have hact := trgBecomes_of_triggers h n
    have hfail := modTrg_trgBecomes e n (fun g => { g with actionFailed := true, failCnt := satInc g.failCnt, lastStatus := f.status })
    rw [hact.1] at hfail
    generalize e.modTrg n _ = e' at hfail ⊢
    have hrec := trgBecomes_of_triggers (triggers_of_timing (e'.failRec_timing (d.trgParty n) unit f)) n
    rw [hfail.1] at hrec
    exact ⟨true, f.status, satInc (d.trg n).failCnt, trgBecomes_trans (trgBecomes_trans hact hfail) hrec⟩

/-- A firing: what it leaves of its trigger, whatever the action did (R79, R81, R85). -/
theorem Dev.fire_trg (d : Dev) (n : Nat) (why : FireCause) : let g := d.trg n; let e := (d.fire n why).trg n
    e.fired = true ∧ e.firedCnt = satInc g.firedCnt ∧ e.time = BitVec.ofNat 64 d.dispatchAt ∧ e.late = decide (why = .late) ∧
      e.jumped = decide (why = .jump) ∧
      e.armed = (g.armed && decide (g.interval ≠ 0)) ∧ (g.interval = 0 → e.missed = (g.missed || (decide (why = .late) && !g.lateOk))) := by
  intro g e
  have hmark : (d.marked n why).trg n = _ := ({ d with trgNext := _ } : Dev).modTrg_trg n _
  obtain ⟨failed, st, cnt, hact, -⟩ := acted_trgBecomes (d.marked n why) n g
  rw [hmark] at hact
  have he : e = (((d.marked n why).acted n g).rearmed n g (decide (d.trkSource g.track = 6)) (d.trkPos g.track)).trg n :=
    congrArg (fun x : Dev => x.trg n) (d.fire_eq n why)
  clear_value e
  unfold Dev.rearmed at he
  split at he
  · next hone =>
    rw [(idleTrigger_trgBecomes _ n).1, hact] at he
    subst he
    refine ⟨rfl, rfl, rfl, rfl, rfl, ?_, fun _ => rfl⟩
    simp [hone]
  · next hperiodic =>
    rw [Dev.modTrg_trg, hact] at he
    subst he
    refine ⟨rfl, rfl, rfl, rfl, rfl, ?_, fun h => absurd h hperiodic⟩
    change (d.trg n).armed = ((d.trg n).armed && decide ((d.trg n).interval ≠ 0))
    rw [decide_eq_true hperiodic, Bool.and_true]

theorem Dev.fire_trg_other (d : Dev) {n k : Nat} (h : k ≠ n) (why : FireCause) : (d.fire n why).trg k = d.trg k := by
  obtain ⟨failed, st, cnt, -, hact⟩ := acted_trgBecomes (d.marked n why) n (d.trg n)
  have hmark : (d.marked n why).trg k = d.trg k := Tbl.get_set_other _ (Ne.symm h) _ _
  rw [Dev.fire_eq, Dev.rearmed, ← hmark, ← hact k h]
  split
  · exact (idleTrigger_trgBecomes _ n).2 k h
  · exact Dev.modTrg_trg_other _ (Ne.symm h) _

/-! ## What the check of an arming and a condition read -/

/-- `e` shows the positions of `d`: time and tracks, the camera contexts, and each pulse channel but for the programs that it holds. -/
structure Dev.SamePlace (d e : Dev) : Prop where
  clocks : e.clocks = d.clocks
  ctx : e.cam.ctx = d.cam.ctx
  pulse : ∀ i, ∃ h, e.pulse i = { d.pulse i with held := h }

theorem samePlace_trans {a b c : Dev} (h : a.SamePlace b) (k : b.SamePlace c) : a.SamePlace c := by
  refine ⟨k.clocks.trans h.clocks, k.ctx.trans h.ctx, fun i => ?_⟩
  obtain ⟨x, hx⟩ := h.pulse i
  obtain ⟨y, hy⟩ := k.pulse i
  exact ⟨y, by rw [hy, hx]⟩

theorem samePlace_of_eq {d e : Dev} (hclocks : e.clocks = d.clocks) (hctx : e.cam.ctx = d.cam.ctx) (hpls : e.pls.ch = d.pls.ch) : d.SamePlace e :=
  ⟨hclocks, hctx, fun i => ⟨(d.pulse i).held, by rw [Dev.pulse, hpls]; rfl⟩⟩

theorem samePlace_of_memOnly {d e : Dev} (h : d.memOnly e) : d.SamePlace e := by
  obtain ⟨m, b, n, -, rfl⟩ := h
  exact samePlace_of_eq rfl rfl rfl

theorem freeHeld_samePlace (d : Dev) (n : Nat) : d.SamePlace (d.freeHeld n) :=
  ⟨rfl, rfl, fun i => ⟨_, Tbl.get_mapVal (f := fun v : Pulse => { v with held := v.held.filter (fun s => decide (s.trigger ≠ n)) }) rfl d.pls.ch i⟩⟩

theorem idleTrigger_samePlace (d : Dev) (n : Nat) : d.SamePlace (d.idleTrigger n) :=
  samePlace_trans (samePlace_of_eq (e := d.modTrg n _) rfl rfl rfl) (freeHeld_samePlace _ n)

theorem hold_samePlace (d : Dev) (u : Nat) (l : List HeldProg) : d.SamePlace (d.modPulse u (fun c => { c with held := c.held ++ l })) := by
  refine ⟨rfl, rfl, fun i => ?_⟩
  by_cases hi : u = i
  · subst hi
    exact ⟨_, d.modPulse_pulse u _⟩
  · exact ⟨(d.pulse i).held, d.modPulse_pulse_other hi _⟩

section Place
variable {d e : Dev} (h : d.SamePlace e)
include h

theorem samePlace_fields :
    e.time = d.time ∧ e.cfg = d.cfg ∧ e.ptp = d.ptp ∧ e.tracks = d.tracks ∧ e.aud.tdmSyncs = d.aud.tdmSyncs ∧ e.aud.tdmValid = d.aud.tdmValid := by
  have hclocks := h.clocks
  exact ⟨congrArg (fun x => x.1) hclocks, congrArg (fun x => x.2.1) hclocks, congrArg (fun x => x.2.2.1) hclocks,
    congrArg (fun x => x.2.2.2.1) hclocks, congrArg (fun x => x.2.2.2.2.tdmSyncs) hclocks, congrArg (fun x => x.2.2.2.2.tdmValid) hclocks⟩

theorem trkSource_of_samePlace (n : Nat) : e.trkSource n = d.trkSource n := by
  obtain ⟨-, -, -, htracks, -⟩ := samePlace_fields h
  simp only [Dev.trkSource, Dev.trk, htracks]

theorem trkIndex_of_samePlace (n : Nat) : e.trkIndex n = d.trkIndex n := by
  obtain ⟨-, -, -, htracks, -⟩ := samePlace_fields h
  simp only [Dev.trkIndex, Dev.trk, htracks]

theorem camCtx_of_samePlace (n : Nat) : e.camCtx n = d.camCtx n := by rw [Dev.camCtx, h.ctx]; rfl

theorem pulsePos_of_samePlace (n : Nat) : e.pulsePos n = d.pulsePos n := by
  obtain ⟨htime, hcfg, -⟩ := samePlace_fields h
  obtain ⟨x, hx⟩ := h.pulse n
  simp only [Dev.pulsePos, Dev.pulseTravel, Dev.pulseLegs, hx, htime, hcfg]

theorem trkPos_of_samePlace (n : Nat) : e.trkPos n = d.trkPos n := by
  obtain ⟨htime, hcfg, hptp, -, hsyncs, -⟩ := samePlace_fields h
  simp only [Dev.trkPos, Dev.camLine, Dev.streamIndex, Dev.ptpTime, trkSource_of_samePlace h, trkIndex_of_samePlace h, camCtx_of_samePlace h,
    pulsePos_of_samePlace h, htime, hcfg, hptp, hsyncs]

theorem trkValid_of_samePlace (n : Nat) : e.trkValid n = d.trkValid n := by
  obtain ⟨-, -, hptp, -, -, hvalid⟩ := samePlace_fields h
  simp only [Dev.trkValid, trkSource_of_samePlace h, trkIndex_of_samePlace h, camCtx_of_samePlace h, hptp, hvalid]

theorem trgHolds_of_samePlace (g : Trigger) : e.trgHolds g = d.trgHolds g := by
  simp only [Dev.trgHolds, trkValid_of_samePlace h, trkSource_of_samePlace h, trkPos_of_samePlace h]

theorem armFault_of_samePlace (hboot : e.boot = d.boot) (n p : Nat) (g : Trigger) : e.armFault n p g = d.armFault n p g := by
  obtain ⟨-, hcfg, -⟩ := samePlace_fields h
  simp only [Dev.armFault, Dev.trgParty, Dev.trackReadable, Dev.ownsUnit, trkValid_of_samePlace h, trkSource_of_samePlace h, trkIndex_of_samePlace h, hcfg, hboot]
  rfl

end Place

/-! ## What an arming fetches (R368, R399, R403) -/

theorem Dev.fetchHeld_only (d : Dev) (v : View) (a first : Nat) (more : List B8 → Nat) : d.memOnly (d.fetchHeld v a first more).1 := by
  have h1 := d.readMem_only v a first
  unfold Dev.fetchHeld
  split <;> rename_i hk <;> rw [hk] at h1
  · exact h1
  · next d1 b =>
    have h2 := d1.readMem_only v (a + first) (more b)
    split <;> rename_i hk <;> rw [hk] at h2 <;> exact memOnly_trans h1 h2

/-- From `d` to `e` an action's list or program was fetched: positions, triggers and queues stay. -/
structure Dev.FetchOnly (d e : Dev) : Prop where
  place : d.SamePlace e
  timing : e.timing = d.timing
  queues : e.queues = d.queues

theorem fetchOnly_refl (d : Dev) : d.FetchOnly d := ⟨samePlace_of_eq rfl rfl rfl, rfl, rfl⟩
theorem fetchOnly_trans {a b c : Dev} (h : a.FetchOnly b) (k : b.FetchOnly c) : a.FetchOnly c :=
  ⟨samePlace_trans h.place k.place, k.timing.trans h.timing, k.queues.trans h.queues⟩
theorem fetchOnly_of_memOnly {d e : Dev} (h : d.memOnly e) : d.FetchOnly e :=
  ⟨samePlace_of_memOnly h, timing_of_memOnly h, by obtain ⟨m, b, n, -, rfl⟩ := h; rfl⟩

theorem fetchAction_only (d : Dev) (n p : Nat) (g : Trigger) : d.FetchOnly (d.fetchAction n p g) := by
  unfold Dev.fetchAction
  extract_lets v u bad put2 put3 put4
  have hput2 (x : Dev) (b : List B8) (f : Option (B8 × W32)) : x.FetchOnly (put2 x b f) := ⟨samePlace_of_eq rfl rfl rfl, rfl, rfl⟩
  have hput3 (x : Dev) (b : List B8) (f : Option (B8 × W32)) : x.FetchOnly (put3 x b f) := ⟨hold_samePlace x u _, rfl, rfl⟩
  have hput4 (x : Dev) (b : List B8) (f : Option (B8 × W32)) : x.FetchOnly (put4 x b f) := ⟨samePlace_of_eq rfl rfl rfl, rfl, rfl⟩
  clear_value put2 put3 put4
  split
  · split
    · exact fetchOnly_refl d
    · have hfetch := fetchOnly_of_memOnly (d.fetchHeld_only v g.actPtr 16 (fun b => 16 * min 32 (leAt b 0 1)))
      split <;> rename_i hk <;> rw [hk] at hfetch <;> exact fetchOnly_trans hfetch (hput2 _ _ _)
  · split
    · exact fetchOnly_refl d
    · have hfetch := fetchOnly_of_memOnly (d.fetchHeld_only v g.actPtr 16 (fun b => 16 * min 15 (pulCount b)))
      split <;> rename_i hk <;> rw [hk] at hfetch <;> exact fetchOnly_trans hfetch (hput3 _ _ _)
  · split
    · exact fetchOnly_refl d
    · have hfetch := fetchOnly_of_memOnly (d.fetchHeld_only v g.actPtr 64 (fun b => min 256 (leAt b 0 2)))
      split <;> rename_i hk <;> rw [hk] at hfetch <;> exact fetchOnly_trans hfetch (hput4 _ _ _)
  · exact fetchOnly_refl d

/-! ## The arming -/

/-- The trigger set to armed, before its action is fetched. -/
def Dev.armSet (d : Dev) (n : Nat) : Dev := (d.idleTrigger n).modTrg n (fun g => { g with armed := true })

/-- The trigger armed, with what its action needs. -/
def Dev.armed (d : Dev) (n p : Nat) : Dev := (d.armSet n).fetchAction n p { d.trg n with armed := false }

theorem armed_fetchOnly (d : Dev) (n p : Nat) : (d.armSet n).FetchOnly (d.armed n p) := fetchAction_only (d.armSet n) n p _

theorem armSet_trgBecomes (d : Dev) (n : Nat) : d.trgBecomes n { d.trg n with armed := true } (d.armSet n) := by
  have hset := modTrg_trgBecomes (d.idleTrigger n) n (fun g => { g with armed := true })
  rw [(idleTrigger_trgBecomes d n).1] at hset
  exact trgBecomes_trans (idleTrigger_trgBecomes d n) hset

theorem armed_trgBecomes (d : Dev) (n p : Nat) : d.trgBecomes n { d.trg n with armed := true } (d.armed n p) := by
  have hfetch := trgBecomes_of_triggers (triggers_of_timing (armed_fetchOnly d n p).timing) n
  rw [(armSet_trgBecomes d n).1] at hfetch
  exact trgBecomes_trans (armSet_trgBecomes d n) hfetch

theorem armed_samePlace (d : Dev) (n p : Nat) : d.SamePlace (d.armed n p) :=
  have hset : (d.idleTrigger n).SamePlace (d.armSet n) := samePlace_of_eq rfl rfl rfl
  samePlace_trans (samePlace_trans (idleTrigger_samePlace d n) hset) (armed_fetchOnly d n p).place

theorem Dev.armed_dispatchAt (d : Dev) (n p : Nat) : (d.armed n p).dispatchAt = d.dispatchAt := by
  have htiming := (armed_fetchOnly d n p).timing
  simp only [Dev.timing, Dev.sound, Dev.clocks, Prod.mk.injEq] at htiming
  obtain ⟨-, hnext, ⟨htime, -⟩, -⟩ := htiming
  rw [Dev.dispatchAt, htime, hnext]
  rfl

/-- An arming by cases: refused by the check, armed and waiting, or fired at once, late or not (R78, R79). -/
theorem Dev.arm_eq (d : Dev) (n p : Nat) (cmd : Option CmdRef) :
    d.arm n p cmd = match d.armFault n p (d.trg n) with
      | some (row, st, ptr) =>
        (((d.idleTrigger n).modTrg n (fun g => { g with lastStatus := st })).armRec n p row st (if ptr then some (d.trg n).actPtr else none) cmd, st)
      | none =>
        if d.trgHolds (d.trg n) = false then (d.armed n p, 0)
        else if d.trkPos (d.trg n).track = (d.trg n).target then ((d.armed n p).fire n .reached, 0)
        else ((d.armed n p).fire n .late, if (d.trg n).lateOk then 0 else 0x0E) := by
  have hfault : (d.idleTrigger n).armFault n p { d.trg n with armed := false } = d.armFault n p (d.trg n) :=
    armFault_of_samePlace (idleTrigger_samePlace d n) rfl n p _
  have hholds : (d.armed n p).trgHolds { d.trg n with armed := false } = d.trgHolds (d.trg n) := trgHolds_of_samePlace (armed_samePlace d n p) _
  have hpos : (d.armed n p).trkPos (d.trg n).track = d.trkPos (d.trg n).track := trkPos_of_samePlace (armed_samePlace d n p) _
  unfold Dev.arm
  dsimp only
  rw [(idleTrigger_trgBecomes d n).1]
  dsimp only
  rw [hfault, ← hholds, ← hpos]
  cases d.armFault n p (d.trg n) with
  | some x => rfl
  | none =>
    simp only [Bool.not_eq_true']
    rfl

/-- What an arming leaves of its trigger is what R78 and R79 say. -/
theorem arm_armedFrom (d : Dev) (n p : Nat) (cmd : Option CmdRef) : d.ArmedFrom n p (d.arm n p cmd).1 := by
  have hfire (why : FireCause) := (d.armed n p).fire_trg n why
  rw [(armed_trgBecomes d n p).1, d.armed_dispatchAt] at hfire
  rw [d.arm_eq]
  refine ⟨fun row st ptr hfault => ?_, fun hok hwait => ?_, fun hok hholds => ?_, fun k hk => ?_⟩
  · rw [hfault]
    have hidle := idleTrigger_trgBecomes d n
    have hset := modTrg_trgBecomes (d.idleTrigger n) n (fun g => { g with lastStatus := st })
    rw [hidle.1] at hset
    exact ((trgBecomes_of_triggers (triggers_of_timing (Dev.record_timing _ _)) n).1).trans hset.1
  · rw [hok, hwait]
    exact (armed_trgBecomes d n p).1
  · rw [hok, hholds]
    have hfired := hfire (if d.trkPos (d.trg n).track = (d.trg n).target then .reached else .late)
    by_cases hhit : d.trkPos (d.trg n).track = (d.trg n).target
    · simpa [hhit] using hfired
    · simpa [hhit] using hfired
  · rcases hfault : d.armFault n p (d.trg n) with _ | ⟨row, st, ptr⟩
    · have harmed := (armed_trgBecomes d n p).2 k hk
      dsimp only
      split
      · exact harmed
      · split <;> exact ((d.armed n p).fire_trg_other hk _).trans harmed
    · have hset := modTrg_trgBecomes (d.idleTrigger n) n (fun g => { g with lastStatus := st })
      exact ((trgBecomes_of_triggers (triggers_of_timing (Dev.record_timing _ _)) n).2 k hk).trans ((hset.2 k hk).trans ((idleTrigger_trgBecomes d n).2 k hk))

end Sys2Proof.Machine

/-! PROOFS. The trigger registers (R80): where they lie, and what a write of each leaves. -/
namespace Sys2Proof.Machine
open Sys2Proof

/-! ## Where the registers of a trigger lie -/

theorem emulated_above {p off : Nat} (h : 0x3000 ≤ off) : emulated p off = false := by
  have hlow : ∀ x ∈ (if p < 64 then twEmulated else mgEmulated), x < 0x3000 := by
    split <;> decide
  rw [emulated, List.contains_eq_mem, decide_eq_false_iff_not]
  exact fun hmem => absurd (hlow off hmem) (by omega)

theorem targetAt_trgTargetOff {p k : Nat} (hk : trgIndexOk p k = true) : targetAt p (trgTargetOff p k) = some k := by
  unfold trgIndexOk at hk
  unfold targetAt trgTargetOff arrayAt
  split at hk <;> simp_all

theorem trgTargetOff_aligned (p k : Nat) : trgTargetOff p k % 8 = 0 := by
  unfold trgTargetOff
  split <;> omega

theorem Dev.writeTwHardware_trg (d : Dev) (p : Nat) {k r : Nat} (hk : k < 256) (hr : r < 32) (w a : W64) :
    d.writeTwHardware p (0x4000 + 32 * k + r) w a = d.writeTrigger p k r w a := by
  simp (disch := omega) only [Dev.writeTwHardware, if_neg, if_pos]
  rw [show (0x4000 + 32 * k + r - 0x4000) / 32 = k by omega, show (0x4000 + 32 * k + r) % 32 = r by omega]

theorem Dev.writeTb_trg (d : Dev) {k r : Nat} (hk : k < 1024) (hr : r < 32) (w a : W64) :
    d.writeTb (0x4000 + 32 * k + r) w a = (d.writeTrigger mgmtParty k r w a, 0) := by
  simp (disch := omega) only [Dev.writeTb, if_neg, if_pos]
  rw [show (0x4000 + 32 * k + r - 0x4000) / 32 = k by omega, show (0x4000 + 32 * k + r) % 32 = r by omega]

theorem State.writeMgHardware_trg (s : State) {k r : Nat} (hk : k < 1024) (hr : r < 32) (w a : W64) (host : List Host.Cell) :
    s.writeMgHardware (0x14000 + 32 * k + r) w a host = s.withDev (s.dev.writeTrigger mgmtParty k r w a) := by
  rw [State.writeMgHardware, show (0x14000 + 32 * k + r) / 0x10000 = 1 by omega, show (0x14000 + 32 * k + r) % 0x10000 = 0x4000 + 32 * k + r by omega]
  simp only [Dev.writeTb_trg s.dev hk hr, if_true]

theorem Dev.writeTrigger_ctl (d : Dev) (p k : Nat) (isAction : Bool) (w a : W64) :
    d.writeTrigger p k (if isAction then 8 else 0) w a = d.writeTrgCtl p k isAction w := by
  cases isAction <;> rfl

/-- A write of CTL or ACTION of a trigger that acts. -/
theorem State.write_trgCtl {s : State} {p k : Nat} (hp : p ≤ 64) (hk : trgIndexOk p k = true) (isAction : Bool)
    (h : s.dev.Serves p (trgOff p k + if isAction then 8 else 0)) (v : W64) (host : List Host.Cell) :
    s.write p (trgOff p k + if isAction then 8 else 0) v 64 host = s.withDev (s.dev.writeTrgCtl p k isAction v) := by
  have hreg : (if isAction then 8 else 0) < 32 := by split <;> decide
  rw [← Dev.writeTrigger_ctl s.dev p k isAction v v]
  generalize (if isAction then 8 else 0) = r at h hreg ⊢
  unfold trgOff at h ⊢
  unfold trgIndexOk at hk
  rcases Nat.lt_or_ge p 64 with hten | hmg
  · simp only [if_pos hten, decide_eq_true_eq] at h hk ⊢
    rw [State.write_twHardware hten h (targetAt_tenant_below hten (by omega)) (emulated_above (by omega)), Dev.writeTwHardware_trg s.dev p hk hreg]
  · obtain rfl : p = mgmtParty := Nat.le_antisymm hp hmg
    simp only [if_neg (show ¬ mgmtParty < 64 by decide), decide_eq_true_eq] at h hk ⊢
    have htarget : targetAt mgmtParty (0x14000 + 32 * k + r) = none := by
      rw [targetAt, if_neg (by decide), arrayAt, if_neg (by omega)]
    rw [State.write_aligned h, State.act_whole h htarget (emulated_above (by omega)), if_neg (by decide), State.writeMgHardware_trg s hk hreg]

/-! ## TB_TRG_TARGET -/

/-- The halves of a target, each in its place. -/
def lowPart (x : W64) : W64 := BitVec.ofNat 64 (x.toNat % 2 ^ 32)
def highPart (x : W64) : W64 := BitVec.ofNat 64 (x.toNat / 2 ^ 32 * 2 ^ 32)

theorem lowPart_lowPart (x : W64) : lowPart (lowPart x) = lowPart x := by
  apply BitVec.eq_of_toNat_eq
  simp [lowPart]

theorem lowPart_truncate (x : W64) : (lowPart x).truncate 32 = x.truncate 32 := by
  apply BitVec.eq_of_toNat_eq
  simp [lowPart]

theorem highPart_shifted (x : W64) : highPart ((x >>> 32) <<< 32) = highPart x := by
  apply BitVec.eq_of_toNat_eq
  simp [highPart, Nat.shiftLeft_eq, Nat.shiftRight_eq_div_pow]
  omega

/-- A write of TB_TRG_TARGET, whole or a half of it, that acts. -/
theorem State.write_target {s : State} {p k : Nat} (hk : trgIndexOk p k = true) (h : s.dev.Serves p (trgTargetOff p k)) (v : W64) :
    s.write p (trgTargetOff p k) v 64 [] = s.withDev (s.dev.writeTarget p k v .full) ∧
    s.write p (trgTargetOff p k) v 32 [] = s.withDev (s.dev.writeTarget p k (lowPart v) .low) ∧
    s.write p (trgTargetOff p k + 4) (v >>> 32) 32 [] = s.withDev (s.dev.writeTarget p k ((v >>> 32) <<< 32) .high) := by
  have haligned := trgTargetOff_aligned p k
  have hbase : (trgTargetOff p k + 4) / 8 * 8 = trgTargetOff p k := by omega
  refine ⟨?_, ?_, ?_⟩
  · rw [State.write_aligned h]
    simp only [State.act, if_neg h.no_scrub, h.offset, targetAt_trgTargetOff hk]
    rw [if_neg (by omega)]
    rfl
  · rw [State.write_aligned h]
    simp only [State.act, if_neg h.no_scrub, h.offset, targetAt_trgTargetOff hk, haligned]
    rw [if_neg (by omega)]
    rfl
  · rw [State.write_of_serves (by rwa [hbase])]
    simp only [State.act, if_neg h.no_scrub, hbase, targetAt_trgTargetOff hk]
    rw [if_neg (by omega), show (trgTargetOff p k + 4) % 8 = 4 by omega]
    rfl

section Held
variable {d : Dev} {p k n : Nat} (hn : d.trgOf p k = some n) (hown : d.trgForeign p n = false)
include hn hown

theorem Dev.writeTarget_full (v : W64) : d.writeTarget p k v .full = ((d.modTrg n (fun g => { g with target := v, lowHalf := v.truncate 32 })).arm n p none).1 := by
  simp only [Dev.writeTarget, hn, hown, Bool.false_eq_true, if_false]
  change ((d.modTrg n (fun g => { g with target := v, lowHalf := (lowPart v).truncate 32 })).arm n p none).1 = _
  rw [lowPart_truncate]

theorem Dev.writeTarget_low (v : W64) : d.writeTarget p k (lowPart v) .low =
    d.modTrg n (fun g => { g with lowHalf := v.truncate 32, target := if g.armed then g.target else highPart g.target + lowPart v }) := by
  simp only [Dev.writeTarget, hn, hown, Bool.false_eq_true, if_false]
  change d.modTrg n (fun g => { g with
    lowHalf := (lowPart (lowPart v)).truncate 32, target := if g.armed then g.target else highPart g.target + lowPart (lowPart v) }) = _
  rw [lowPart_lowPart, lowPart_truncate]

theorem Dev.writeTarget_high (v : W64) : d.writeTarget p k ((v >>> 32) <<< 32) .high =
    ((d.modTrg n (fun g => { g with target := highPart v + g.lowHalf.zeroExtend 64 })).arm n p none).1 := by
  simp only [Dev.writeTarget, hn, hown, Bool.false_eq_true, if_false]
  change ((d.modTrg n (fun g => { g with target := highPart ((v >>> 32) <<< 32) + g.lowHalf.zeroExtend 64 })).arm n p none).1 = _
  rw [highPart_shifted]

/-! ## TB_TRG_CTL and TB_TRG_ACTION -/

theorem writeTrgCtl_action (v : W64) : d.trgBecomes n { d.trg n with armed := false, action := v &&& 0xFFFFFFFFFFFFFF0F } (d.writeTrgCtl p k true v) := by
  have hset := modTrg_trgBecomes (d.idleTrigger n) n (fun g => { g with action := v &&& 0xFFFFFFFFFFFFFF0F })
  rw [(idleTrigger_trgBecomes d n).1] at hset
  simp only [Dev.writeTrgCtl, hn, hown, Bool.false_eq_true, if_false, if_true]
  exact trgBecomes_trans (idleTrigger_trgBecomes d n) hset

theorem writeTrgCtl_ctl (v : W64) :
    d.trgBecomes n { d.trg n with armed := false, track := fld v 0 8, mode := fld v 8 2, lateOk := v.getLsbD 10, interval := BitVec.ofNat 32 (fld v 32 32),
                                  firedCnt := if v.getLsbD 11 then 0 else (d.trg n).firedCnt, missedCnt := if v.getLsbD 11 then 0 else (d.trg n).missedCnt,
                                  failCnt := if v.getLsbD 11 then 0 else (d.trg n).failCnt } (d.writeTrgCtl p k false v) := by
  have hset := modTrg_trgBecomes (d.idleTrigger n) n (fun g => let g1 := g.ctl v; if v.getLsbD 11 then g1.clearCounts else g1)
  rw [(idleTrigger_trgBecomes d n).1] at hset
  simp only [Dev.writeTrgCtl, hn, hown, Bool.false_eq_true, if_false]
  refine trgBecomes_trans (idleTrigger_trgBecomes d n) ?_
  cases hc : v.getLsbD 11 <;> simp only [hc] at hset ⊢ <;> exact hset

end Held

/-- Settles O38: where each register lies, what its write leaves, and for the two writes that arm, `arm_armedFrom`. -/
theorem triggerRegistersArmAndDisarm : Obligations.TriggerRegistersArmAndDisarm := by
  unfold Obligations.TriggerRegistersArmAndDisarm
  intro s p k n v hp hk hn hown g put low high
  have hindex : ¬ (!trgIndexOk p k) = true := by simp [hk]
  have hdisarm (isAction : Bool) : exec (.triggerDisarm p k isAction v) s = .next (s.write p (trgOff p k + if isAction then 8 else 0) v 64 []) :=
    congrArg Host.Outcome.next (if_neg hindex)
  refine ⟨fun h => ?_, fun h => ?_, fun h => ?_, fun h => ?_⟩
  · obtain ⟨hfull, hlow, hhigh⟩ := State.write_target hk h v
    have hrun (half : Half) : exec (.triggerArm p k v half) s = .next (match half with
      | .full => s.write p (trgTargetOff p k) v 64 []
      | .low => s.write p (trgTargetOff p k) v 32 []
      | .high => s.write p (trgTargetOff p k + 4) (v >>> 32) 32 []) := congrArg Host.Outcome.next (if_neg hindex)
    simp only [hrun, hfull, hlow, hhigh, Dev.writeTarget_full hn hown, Dev.writeTarget_low hn hown, Dev.writeTarget_high hn hown]
    exact ⟨⟨_, rfl, rfl, arm_armedFrom _ n p none⟩, rfl, _, rfl, rfl, arm_armedFrom _ n p none⟩
  · have hwrite := State.write_trgCtl hp hk false h v []
    obtain ⟨hself, hother⟩ := writeTrgCtl_ctl hn hown v
    exact ⟨_, (hdisarm false).trans (congrArg Host.Outcome.next hwrite), rfl, hother, hself⟩
  · have hwrite := State.write_trgCtl hp hk true h v []
    obtain ⟨hself, hother⟩ := writeTrgCtl_action hn hown v
    exact ⟨_, (hdisarm true).trans (congrArg Host.Outcome.next hwrite), rfl, hother, hself⟩
  · have hwrite := State.write_trgCtl hp hk false h (s.readReg p (trgOff p k) ||| 0x800#64) []
    have hrun : exec (.triggerCountClear p k) s = .next (s.write p (trgOff p k) (s.readReg p (trgOff p k) ||| 0x800#64) 64 []) :=
      congrArg Host.Outcome.next (if_neg hindex)
    obtain ⟨hself, hother⟩ := writeTrgCtl_ctl hn hown (s.readReg p (trgOff p k) ||| 0x800#64)
    have hclear : (s.readReg p (trgOff p k) ||| 0x800#64).getLsbD 11 = true := by simp
    rw [hclear] at hself
    refine ⟨_, hrun.trans (congrArg Host.Outcome.next hwrite), rfl, hother, ?_⟩
    rw [hself]
    exact ⟨rfl, rfl, rfl, rfl, rfl, rfl⟩

end Sys2Proof.Machine

/-! PROOFS. ARM_TRIGGER (R78, R79, R111, R112): what an arming leaves of the queue that runs it, and how the command ends. -/
namespace Sys2Proof.Machine
open Sys2Proof

/-! ## What runs on a queue stays while a trigger fires -/

theorem running_of_work {d e : Dev} {q : Nat} (h : e.work q = d.work q) : e.running q = d.running q := congrArg Prod.fst h

/-- A release leaves what runs on queue `q`, unless that is a WAIT_RELEASE. -/
theorem Dev.releaseQueue_work {d : Dev} {q : Nat} (hop : ∀ r, d.running q = some r → cmdOp r.cmd ≠ 4) (k : Nat) : (d.releaseQueue k).work q = d.work q := by
  have hcount : (d.modQue k (fun v => { v with release := satInc v.release })).work q = d.work q := by
    by_cases hk : k = q
    · subst hk; rw [Dev.work, Dev.modQue_que]; rfl
    · rw [Dev.work, d.modQue_que_other hk]; rfl
  unfold Dev.releaseQueue
  split
  · next r hrun =>
    split
    · next hwait =>
      have hk : q ≠ k := fun h => hop r (by rw [h]; exact hrun) hwait
      rw [Dev.work, d.finish_que_other hk]
      rfl
    · exact hcount
  · exact hcount

theorem writeMem_queues (d : Dev) (v : View) (a : Nat) (l : List B8) : (d.writeMem v a l).1.queues = d.queues := by
  obtain ⟨m, b, n, -, h⟩ := d.writeMem_only v a l
  rw [h]

theorem startPulse_queues (d : Dev) (n u : Nat) : (d.startPulse n u).1.queues = d.queues := by
  have hwrite (party part a : Nat) (l : List B8) : (d.deviceWrite party part a l).queues = d.queues := (deviceWrite_beside d 0 party part a l).queues
  unfold Dev.startPulse
  extract_lets unit v pos brake d1
  have h1 : d1.queues = d.queues := by
    simp only [d1]; split
    · exact hwrite _ _ _ _
    · rfl
  clear_value d1
  split
  · rfl
  · split
    · rfl
    · dsimp only
      split
      · rfl
      · split
        · rfl
        · exact h1

theorem armed_queues (d : Dev) (n p : Nat) : (d.armed n p).queues = d.queues := (armed_fetchOnly d n p).queues

section Fired
variable {d : Dev} {q : Nat} (hop : ∀ r, d.running q = some r → cmdOp r.cmd ≠ 4)
include hop

theorem performAction_work (n : Nat) (g : Trigger) : (d.performAction n g).1.work q = d.work q := by
  unfold Dev.performAction; dsimp only
  split
  · exact Dev.releaseQueue_work hop _
  · split
    · rfl
    · split <;> rfl
  · exact work_of_queues (startPulse_queues d n _) q
  · split
    · rfl
    · split <;> rfl
  · split
    · rfl
    · next b _ =>
      have h := writeMem_queues d { party := d.trgParty n, part := d.partyPart (d.trgParty n) } g.actPtr b
      split <;> rename_i hw <;> rw [hw] at h <;> exact work_of_queues h q
  · dsimp only
    split <;> rfl
  · rfl

theorem acted_work (n : Nat) (g : Trigger) : (d.acted n g).work q = d.work q := by
  have h := performAction_work hop n g
  unfold Dev.acted
  split <;> rename_i hp <;> rw [hp] at h
  · exact h
  · exact (work_of_queues (record_beside _ rfl).queues q).trans h

theorem fire_work (n : Nat) (why : FireCause) : (d.fire n why).work q = d.work q := by
  have hacted : ((d.marked n why).acted n (d.trg n)).work q = d.work q := acted_work (d := d.marked n why) hop n (d.trg n)
  rw [Dev.fire_eq, Dev.rearmed]
  generalize (d.marked n why).acted n (d.trg n) = e at hacted
  split <;> exact hacted

theorem arm_work (n p : Nat) (cmd : Option CmdRef) : (d.arm n p cmd).1.work q = d.work q := by
  have harmed : (d.armed n p).work q = d.work q := work_of_queues (armed_queues d n p) q
  have hop' : ∀ r, (d.armed n p).running q = some r → cmdOp r.cmd ≠ 4 := by rwa [running_of_work harmed]
  rw [d.arm_eq]
  split
  · exact work_of_queues (record_beside _ rfl).queues q
  · split
    · exact harmed
    · split <;> exact (fire_work hop' n _).trans harmed

end Fired

/-! ## The command -/

/-- A command starts: it runs on its queue, whose lists stay. -/
theorem Dev.startCmd_work (d : Dev) (q : Nat) (c : W512) : (d.startCmd q c).work q = (some { cmd := c, started := d.time }, (d.que q).lists) := by
  rw [Dev.work, Dev.startCmd, Dev.modQue_que]

/-- A command that fails with a free detail code. -/
theorem failOpen_ended {d : Dev} {q : Nat} {r : Running} {l : CmdList} {rest : List CmdList} (hrun : d.running q = some r)
    (hlists : (d.que q).lists = l :: rest) (st : B8) : d.drawn.Ended (d.failOpen q st) q r.cmd l rest st 0 :=
  endCmd_ended (d := d.drawn) hrun hlists st 0 _

/-- A command that ends as it starts, ends for the device before its start. -/
theorem startCmd_endCmd_ended {d : Dev} {q : Nat} {l : CmdList} {rest : List CmdList} (hlists : (d.que q).lists = l :: rest) (c : W512) (st : B8)
    (res : W64) (f : Option (Fail × Nat)) : d.Ended ((d.startCmd q c).endCmd q st res f) q c l rest st res := by
  have hwork := d.startCmd_work q c
  rw [hlists] at hwork
  obtain ⟨hrun, hlists'⟩ := Prod.mk.injEq .. ▸ hwork
  have hout := givesOut_trans (givesOut_modQue d q (f := fun v => { v with running := some { cmd := c, started := d.time }, reserved := false }) fun _ => rfl)
    (endCmd_givesOut (d := d.startCmd q c) hrun hlists' st res f)
  exact ended_of_givesOut hout (Dev.endCmd_work hrun hlists' st res f)

/-- The device with the three registers of trigger `n` written by ARM_TRIGGER. -/
def Dev.armWrites (d : Dev) (p n : Nat) (c : W512) : Dev :=
  ((d.writeTrgCtl p (cmdArg c) false (BitVec.ofNat 64 (bytesAt c 8 8))).writeTrgCtl p (cmdArg c) true (BitVec.ofNat 64 (bytesAt c 16 8))).modTrg n
    (fun g => { g with target := BitVec.ofNat 64 (bytesAt c 24 8) })

theorem writeTrgCtl_queues (d : Dev) (p k : Nat) (isAction : Bool) (v : W64) : (d.writeTrgCtl p k isAction v).queues = d.queues := by
  unfold Dev.writeTrgCtl
  split
  · rfl
  · dsimp only
    split
    · rfl
    · split <;> rfl

theorem armWrites_queues (d : Dev) (p n : Nat) (c : W512) : (d.armWrites p n c).queues = d.queues :=
  (writeTrgCtl_queues _ p _ true _).trans (writeTrgCtl_queues d p _ false _)

theorem Dev.Starts.op {d : Dev} {q op : Nat} {c : W512} (h : d.Starts q op c) : cmdOp c = op := by
  have hstart := h.1
  unfold Dev.startable at hstart
  split at hstart
  · cases hstart
  · next c' _ =>
    split at hstart
    · next hmay =>
      cases hstart
      simp only [Bool.and_eq_true, decide_eq_true_eq] at hmay
      exact hmay.2
    · cases hstart

/-- ARM_TRIGGER where it starts. -/
theorem Dev.armCmd_of_starts {d : Dev} {q : Nat} {c : W512} (h : d.Starts q 6 c) :
    d.armCmd q = match d.trgOf (qParty q) (cmdArg c) with
      | none => (d.startCmd q c).failOpen q 0x03
      | some n =>
        match ((d.startCmd q c).armWrites (qParty q) n c).arm n (qParty q) (some (q, (d.startCmd q c).cmdAt q)) with
        | (e, st) => if st = 0x0E then e.failOpen q 0x0E else e.endCmd q st 0 none := by
  obtain ⟨hstart, hturn⟩ := h
  simp only [Dev.armCmd, Dev.begin, hstart, hturn, if_true]
  rfl

/-- Settles O42: the arming is `arm_armedFrom`; it leaves the running command (`arm_work`), which then ends as every command does. -/
theorem armTriggerCommand : Obligations.ArmTriggerCommand := by
  unfold Obligations.ArmTriggerCommand
  intro s q n c l rest hstarts hlists p
  have hcmd := Dev.armCmd_of_starts hstarts
  have hrun : exec (.armTrigger q) s = .next (s.withDev (s.dev.armCmd q)) := rfl
  refine ⟨fun hnone => ?_, fun hsome => ?_⟩
  · rw [hnone] at hcmd
    refine ⟨_, hrun, rfl, ?_⟩
    rw [hcmd]
    exact startCmd_endCmd_ended (d := s.dev.drawn) hlists c 0x03 0 _
  · rw [hsome] at hcmd
    intro d1 d2
    have hwork : d2.work q = (some { cmd := c, started := s.dev.time }, l :: rest) := by
      rw [← hlists, ← s.dev.startCmd_work q c]
      exact work_of_queues (armWrites_queues _ p n c) q
    have hat : (s.dev.startCmd q c).cmdAt q = (l.index, l.subTag) := by
      rw [Dev.cmdAt, show ((s.dev.startCmd q c).que q).lists = l :: rest by rw [← hlists]; exact congrArg Prod.snd (s.dev.startCmd_work q c)]
    have hwork3 := arm_work (d := d2) (q := q) (fun r hr => by
      have : some r = some { cmd := c, started := s.dev.time } := hr.symm.trans (congrArg Prod.fst hwork)
      cases this
      rw [hstarts.op]; decide) n p (some (q, l.index, l.subTag))
    rw [hwork] at hwork3
    obtain ⟨hrun3, hlists3⟩ := Prod.mk.injEq .. ▸ hwork3
    rw [hat] at hcmd
    dsimp only at hcmd
    rw [show ((s.dev.startCmd q c).armWrites (qParty q) n c) = d2 from rfl] at hcmd
    clear_value d2
    refine ⟨_, _, _, hrun, rfl, rfl, arm_armedFrom d2 n p _, fun hst => ?_, fun hst => ?_⟩
    · change Dev.Ended _ (s.dev.armCmd q) _ _ _ _ _ _
      rw [hcmd.trans (if_neg hst)]
      exact endCmd_ended hrun3 hlists3 _ 0 none
    · change Dev.Ended _ (s.dev.armCmd q) _ _ _ _ _ _
      rw [hcmd.trans (if_pos hst)]
      exact failOpen_ended hrun3 hlists3 0x0E

end Sys2Proof.Machine

/-! PROOFS. PTP (R70, R71, R73, R528): a Sync that slews or steps, the jump that a step is, and the choice of the master. -/
namespace Sys2Proof.Machine
open Sys2Proof

/-! ## Changes of several tracks -/

theorem trk_of_clocks {d e : Dev} (h : e.clocks = d.clocks) (n : Nat) : e.trk n = d.trk n := by
  have htracks : e.tracks = d.tracks := congrArg (fun x => x.2.2.2.1) h
  rw [Dev.trk, htracks]; rfl
theorem ptp_of_clocks {d e : Dev} (h : e.clocks = d.clocks) : e.ptp = d.ptp := congrArg (fun x => x.2.2.1) h
theorem time_of_clocks {d e : Dev} (h : e.clocks = d.clocks) : e.time = d.time := congrArg Prod.fst h

/-- The tracks of a list change, one after the other. -/
def Dev.modTrks (d : Dev) (ts : List Nat) (f : Track → Track) : Dev := ts.foldl (fun d n => d.modTrk n f) d

theorem modTrks_ptp (d : Dev) (ts : List Nat) (f : Track → Track) : (d.modTrks ts f).ptp = d.ptp ∧ (d.modTrks ts f).time = d.time :=
  foldl_keeps (f := fun (d : Dev) n => d.modTrk n f) (P := fun e : Dev => e.ptp = d.ptp ∧ e.time = d.time) (fun _ _ h => h) ts ⟨rfl, rfl⟩

theorem modTrks_trk_other (f : Track → Track) {k : Nat} (ts : List Nat) : ∀ d : Dev, k ∉ ts → (d.modTrks ts f).trk k = d.trk k := by
  induction ts with
  | nil => exact fun _ _ => rfl
  | cons t ts ih =>
    intro d hk
    rw [List.mem_cons, not_or] at hk
    exact (ih (d.modTrk t f) hk.2).trans (d.modTrk_trk_other (Ne.symm hk.1) f)

/-- A list that names no track twice changes each of its tracks once. -/
theorem modTrks_trk (f : Track → Track) {k : Nat} (ts : List Nat) : ∀ d : Dev, ts.Nodup → k ∈ ts → (d.modTrks ts f).trk k = f (d.trk k) := by
  induction ts with
  | nil => exact fun _ _ hk => absurd hk List.not_mem_nil
  | cons t ts ih =>
    intro d hnodup hk
    obtain ⟨ht, hts⟩ := List.nodup_cons.mp hnodup
    by_cases htk : t = k
    · subst htk
      exact (modTrks_trk_other f ts (d.modTrk t f) ht).trans (d.modTrk_trk t f)
    · have hmem : k ∈ ts := (List.mem_cons.mp hk).resolve_left (Ne.symm htk)
      exact (ih (d.modTrk t f) hts hmem).trans (congrArg f (d.modTrk_trk_other htk f))

/-- A count that the change leaves alone. -/
theorem modTrks_keeps {β : Type} (g : Track → β) {f : Track → Track} (hf : ∀ t, g (f t) = g t) (k : Nat) (ts : List Nat) (d : Dev) :
    g ((d.modTrks ts f).trk k) = g (d.trk k) := by
  refine foldl_keeps (f := fun (d : Dev) n => d.modTrk n f) (P := fun e : Dev => g (e.trk k) = g (d.trk k)) (fun e n h => ?_) ts rfl
  by_cases hn : n = k
  · subst hn; rw [e.modTrk_trk, hf, h]
  · rw [e.modTrk_trk_other hn, h]

/-! ## The jump of the tracks that follow PTP time -/

/-- The tracks that follow PTP time, each once. -/
theorem ptpTracks_nodup (d : Dev) : (d.tracksBy 2 ++ d.tracksBy 4).Nodup := by
  rw [List.nodup_append]
  refine ⟨List.nodup_range.filter _, List.nodup_range.filter _, fun a ha b hb hab => ?_⟩
  simp only [Dev.tracksBy, List.mem_filter, decide_eq_true_eq] at ha hb
  subst hab
  exact absurd (ha.2.symm.trans hb.2) (by decide)

theorem mem_ptpTracks {d : Dev} {n : Nat} (hn : n < 256) (h : d.trkSource n = 2 ∨ d.trkSource n = 4) : n ∈ d.tracksBy 2 ++ d.tracksBy 4 := by
  simpa [Dev.tracksBy, hn] using h

/-- The data and the entry of a chunk that ends, where it has a slot (R394). -/
theorem chunkEnd_eq (d : Dev) (n : Nat) :
    ∃ e : Dev, e.sound = d.sound ∧ d.chunkEnd n =
      (e.modArray n (fun v => { v with chunk := [], chunkSlot := none, chunkFrames := 0, chunkFlags := 0, chunkVad := 0 })).chunkBoundary n := by
  unfold Dev.chunkEnd
  dsimp only
  refine ⟨_, ?_, rfl⟩
  split
  · next b k _ _ =>
    split
    · rfl
    · rw [Dev.modArray_sound _ n fun v => by rfl, sound_of_timing (Dev.deviceWrite_timing _ _ _ _ _)]
      exact sound_foldl (fun e p => sound_of_timing (e.deviceWrite_timing _ _ _ _)) _ d
  · rfl

theorem chunkEnd_clocks (d : Dev) (n : Nat) : (d.chunkEnd n).clocks = d.clocks := by
  obtain ⟨e, hsound, heq⟩ := chunkEnd_eq d n
  rw [heq, clocks_of_sound (Dev.chunkBoundary_sound _ n), Dev.modArray_clocks]
  exact clocks_of_sound hsound

theorem audioJump_clocks (d : Dev) (dom : Option Nat) : (d.audioJump dom).clocks = d.clocks := by
  refine clocks_foldl (fun e n => ?_) _ d
  dsimp only
  split
  · rfl
  · rw [Dev.modArray_clocks]
    split
    · rfl
    · exact chunkEnd_clocks _ n

/-- A jump of PTP time counts on each track that follows it, and leaves time and the clock itself (R73, R74). -/
theorem ptpJump_counts (d : Dev) : d.ptpJump.ptp = d.ptp ∧ d.ptpJump.time = d.time ∧
    ∀ n, n ∈ d.tracksBy 2 ++ d.tracksBy 4 → (d.ptpJump.trk n).jumpCnt = satInc (d.trk n).jumpCnt := by
  unfold Dev.ptpJump
  extract_lets ts
  let e := d.modTrks ts (fun t => { t with jumpCnt := satInc t.jumpCnt })
  have hjump : ((d.jump ts).audioJump none).clocks = e.clocks := (audioJump_clocks _ none).trans (clocks_of_sound (e.fireJumped_sound ts))
  generalize (d.jump ts).audioJump none = e1 at hjump ⊢
  let us := ts.filter (fun n => (e1.trk n).resuming && e1.trkValid n)
  let e2 := e1.modTrks us (fun t => { t with resuming := false })
  have hresume : (e1.resumeTracks ts).clocks = e2.clocks := clocks_of_sound (e2.fireJumped_sound us)
  have hcounted := modTrks_ptp d ts (fun t => { t with jumpCnt := satInc t.jumpCnt })
  have hresumed := modTrks_ptp e1 us (fun t => { t with resuming := false })
  have hkept (n : Nat) : (e2.trk n).jumpCnt = (e1.trk n).jumpCnt :=
    modTrks_keeps (f := fun t => { t with resuming := false }) (fun t => t.jumpCnt) (fun _ => rfl) n us e1
  refine ⟨?_, ?_, fun n hn => ?_⟩
  · rw [ptp_of_clocks hresume, hresumed.1, ptp_of_clocks hjump, hcounted.1]
  · rw [time_of_clocks hresume, hresumed.2, time_of_clocks hjump, hcounted.2]
  · rw [trk_of_clocks hresume, hkept, trk_of_clocks hjump, modTrks_trk _ ts d (ptpTracks_nodup d) hn]

/-! ## A Sync -/

/-- A rate correction of 1 to `ppm`, toward the error. -/
theorem slewRate_bounds (err : Int) (x ppm : Nat) :
    (err.sign * ((1 + x % ppm : Nat) : Int)).sign = err.sign ∧ (ppm ≠ 0 → (err.sign * ((1 + x % ppm : Nat) : Int)).natAbs ≤ ppm) := by
  refine ⟨?_, fun hppm => ?_⟩
  · rw [Int.sign_mul, Int.sign_sign, Int.sign_eq_one_of_pos (Int.natCast_pos.mpr (Nat.add_pos_left Nat.one_pos _)), Int.mul_one]
  · have hmod := Nat.mod_lt x (Nat.pos_of_ne_zero hppm)
    rw [Int.natAbs_mul, Int.natAbs_natCast]
    calc err.sign.natAbs * (1 + x % ppm) ≤ 1 * (1 + x % ppm) := Nat.mul_le_mul_right _ (by rcases Int.sign_trichotomy err with h | h | h <;> simp [h])
      _ ≤ ppm := by rw [Nat.one_mul, Nat.add_comm]; exact hmod

section Sync
variable {d : Dev} {port : Nat} {err : Int} (hawake : d.awake = true) (hon : d.cfg.ptpOn = true) (hup : (d.ethPort port).up = true)
include hawake hon hup

theorem Dev.ptpSync_slew (hport : d.ptp.slavePort = some port) (herr : err.natAbs ≤ d.ptp.stepNs.toNat) :
    d.ptpSync port err = { d with
      draw := d.draw + 1
      ptp := { d.ptp with
        offsetErr := satS32 err, holdover := false, slewLeft := err, rate := err.sign * (1 + Config.freeNat d.draw % d.ptp.slewPpm : Nat) } } := by
  simp only [Dev.ptpSync, hawake, hon, hup, hport, herr, Bool.not_true, Bool.or_false, ne_eq, not_true_eq_false, decide_false, Bool.false_eq_true, if_false, if_true]
  rfl

theorem Dev.ptpSync_step (hport : d.ptp.slavePort = some port) (herr : d.ptp.stepNs.toNat < err.natAbs) :
    d.ptpSync port err = ({ d with
      ptp := { d.ptp with offsetErr := satS32 err, holdover := false, offset := d.ptp.offset - BitVec.ofInt 64 err, slewLeft := 0, valid := true }
      aud := { d.aud with ptpEver := true } } : Dev).ptpJump := by
  simp only [Dev.ptpSync, hawake, hon, hup, hport, Bool.not_true, Bool.or_false, ne_eq, not_true_eq_false, decide_false, Bool.false_eq_true, if_false,
    if_neg (Nat.not_le_of_lt herr)]

end Sync

theorem Dev.ptpSync_elsewhere {d : Dev} {port : Nat} (hport : d.ptp.slavePort ≠ some port) (err : Int) : d.ptpSync port err = d := by
  simp [Dev.ptpSync, hport]

/-! ## Masters (R528) -/

/-- What a port knows of its master, as the statements name it. -/
abbrev Ptp.masterOf (v : Ptp) (port : Nat) : Option W64 := if port = 0 then v.master0 else v.master1
abbrev Ptp.otherMaster (v : Ptp) (port : Nat) : Option W64 := if port = 0 then v.master1 else v.master0

theorem setMaster_master (d : Dev) {port : Nat} (hport : port < 2) (m : Option W64) :
    (d.setMaster port m).ptp.masterOf port = m ∧ (d.setMaster port m).ptp.otherMaster port = d.ptp.otherMaster port := by
  obtain rfl | rfl : port = 0 ∨ port = 1 := by omega
  · exact ⟨rfl, rfl⟩
  · exact ⟨rfl, rfl⟩

/-- Settles O41: a step is `ptpJump_counts`; the other rows are one change of the PTP clock each. -/
theorem ptpSlewsStepsAndHoldsOver : Obligations.PtpSlewsStepsAndHoldsOver := by
  unfold Obligations.PtpSlewsStepsAndHoldsOver
  refine ⟨fun s port err hawake hon hup => ⟨fun hport herr => ?_, fun hport herr => ?_, fun hport => ?_⟩,
    fun s hawake => ⟨fun hvalid => ?_, fun hvalid => ?_⟩,
    fun s port m hport hawake => ⟨fun hon heth hup => ?_, fun hoff => ?_, ?_⟩⟩
  · have hrun : exec (.ptpSync port err) s = .next (s.withDev (s.dev.ptpSync port err)) := rfl
    rw [Dev.ptpSync_slew hawake hon hup hport herr] at hrun
    exact ⟨_, hrun, rfl, slewRate_bounds err _ _⟩
  · have hrun : exec (.ptpSync port err) s = .next (s.withDev (s.dev.ptpSync port err)) := rfl
    rw [Dev.ptpSync_step hawake hon hup hport herr] at hrun
    obtain ⟨hptp, htime, hcount⟩ := ptpJump_counts { s.dev with
      ptp := { s.dev.ptp with offsetErr := satS32 err, holdover := false, offset := s.dev.ptp.offset - BitVec.ofInt 64 err, slewLeft := 0, valid := true }
      aud := { s.dev.aud with ptpEver := true } }
    exact ⟨_, hrun, rfl, hptp, fun n hn hsource => hcount n (mem_ptpTracks hn hsource), htime⟩
  · exact congrArg (fun d => Host.Outcome.next (s.withDev d)) (Dev.ptpSync_elsewhere hport err)
  · exact congrArg (fun d => Host.Outcome.next (s.withDev d)) (if_pos (by simp [hawake, hvalid]))
  · exact congrArg (fun d => Host.Outcome.next (s.withDev d)) (if_neg (by simp [hvalid]))
  · have hrun : exec (.ptpAnnounce port m) s = .next (s.withDev (s.dev.setMaster port (some m))) :=
      congrArg (fun d => Host.Outcome.next (s.withDev d)) (if_pos (by simp [hawake, hon, heth, hup]))
    obtain ⟨hknown, hother⟩ := setMaster_master s.dev hport (some m)
    exact ⟨_, hrun, rfl, hknown, hother, rfl⟩
  · exact congrArg (fun d => Host.Outcome.next (s.withDev d)) (if_neg (by simp [hoff]))
  · have hrun : exec (.announceReceiptTimeout port) s = .next (s.withDev (s.dev.setMaster port none)) :=
      congrArg (fun d => Host.Outcome.next (s.withDev d)) (if_pos hawake)
    exact ⟨_, hrun, rfl, (setMaster_master s.dev hport none).1, rfl⟩

end Sys2Proof.Machine

/-! PROOFS. Audio (R74, R383-R386, R394, R395): received samples, and the frames of an array. -/
namespace Sys2Proof.Machine
open Sys2Proof

/-! ## Samples that are stored -/

/-- The sample of channel reference `ref` at domain index `ix`. -/
def Dev.sample (d : Dev) (ref ix : Nat) : F32 := (d.aud.samples.get ref []).get ix 0

theorem putSample_sample (d : Dev) (ref ix : Nat) (x : F32) : (d.putSample ref ix x).sample ref ix = x := by
  simp only [Dev.sample, Dev.putSample, Tbl.get_set_same]

theorem putSample_sample_other (d : Dev) {ref ix r i : Nat} (h : ¬ (ref = r ∧ ix = i)) (x : F32) : (d.putSample ref ix x).sample r i = d.sample r i := by
  unfold Dev.sample Dev.putSample
  by_cases hr : ref = r
  · subst hr
    dsimp only
    rw [Tbl.get_set_same, Tbl.get_set_other _ (fun hi => h ⟨rfl, hi⟩)]
  · dsimp only
    rw [Tbl.get_set_other _ hr]

section Stores
variable {β : Type} (ref ix : β → Nat) (val : β → F32)

/-- Samples are stored, one after the other. -/
def Dev.putSamples (d : Dev) (l : List β) : Dev := l.foldl (fun d y => d.putSample (ref y) (ix y) (val y)) d

theorem putSamples_rest (d : Dev) (l : List β) :
    d.putSamples ref ix val l = { d with aud := { d.aud with samples := (d.putSamples ref ix val l).aud.samples } } :=
  foldl_keeps (f := fun (d : Dev) y => d.putSample (ref y) (ix y) (val y)) (P := fun e : Dev => e = { d with aud := { d.aud with samples := e.aud.samples } })
    (fun e y h => by rw [h]; rfl) l rfl

/-- A place that some store names holds the value that every store to it gives. -/
theorem putSamples_sample {r i : Nat} {x : F32} (l : List β) : ∀ d : Dev, (∀ y ∈ l, ref y = r → ix y = i → val y = x) →
    (d.sample r i = x ∨ ∃ y ∈ l, ref y = r ∧ ix y = i) → (d.putSamples ref ix val l).sample r i = x := by
  induction l with
  | nil => exact fun d _ h => h.resolve_right (by simp)
  | cons y l ih =>
    intro d hval h
    refine ih (d.putSample (ref y) (ix y) (val y)) (fun z hz => hval z (List.mem_cons_of_mem _ hz)) ?_
    by_cases hy : ref y = r ∧ ix y = i
    · left
      obtain ⟨hr, hi⟩ := hy
      rw [← hval y List.mem_cons_self hr hi, ← hr, ← hi]
      exact putSample_sample d _ _ _
    · rw [putSample_sample_other d hy]
      refine h.imp_right fun ⟨z, hz, hkey⟩ => ?_
      rcases List.mem_cons.mp hz with rfl | hmem
      · exact absurd hkey hy
      · exact ⟨z, hmem, hkey⟩

end Stores

/-! ## AES67 packets (R383, R384) -/

/-- The samples of a packet of `m` samples on `ch` channels, in the order of the packet. -/
def Dev.storePacket (d : Dev) (n ix w ch m : Nat) (bytes : List B8) : Dev :=
  d.putSamples (fun y => 8 * n + y.2) (fun y => ix + y.1) (fun y => sampleF32 (8 * w) (beNat ((bytes.drop ((y.1 * ch + y.2) * w)).take w)))
    (List.range m ×ˢ List.range ch)

theorem storePacket_sample (d : Dev) (n ix w ch m : Nat) (bytes : List B8) {k j : Nat} (hk : k < m) (hj : j < ch) :
    (d.storePacket n ix w ch m bytes).sample (8 * n + j) (ix + k) = sampleF32 (8 * w) (beNat ((bytes.drop ((k * ch + j) * w)).take w)) := by
  refine putSamples_sample _ _ _ _ d (fun y _ hr hi => ?_) (.inr ⟨(k, j), ?_, rfl, rfl⟩)
  · rw [Nat.add_left_cancel hr, Nat.add_left_cancel hi]
  · exact List.pair_mem_product.mpr ⟨List.mem_range.mpr hk, List.mem_range.mpr hj⟩

/-- The device with a packet counted. -/
def Dev.packetCounted (d : Dev) (n : Nat) (seq : W16) : Dev :=
  let gap := match d.aud.rtpSeq.get n none with | some x => (seq - x - 1).toNat | none => 0
  { d with aud := { d.aud with
    lastPkt := d.aud.lastPkt.set n (d.time + 1)
    lost := if gap < 0x8000 then d.aud.lost.set n (satAdd (d.aud.lost.get n 0) gap) else d.aud.lost
    rtpSeq := if gap < 0x8000 then d.aud.rtpSeq.set n (some seq) else d.aud.rtpSeq } }

/-- Stream `n` is enabled and its port is up. -/
def Dev.streamHeard (d : Dev) (n : Nat) : Prop := d.awake = true ∧ d.cfg.streamOn n = true ∧ (d.ethPort (d.cfg.streamEth n)).up = true

/-- What is not enabled, or has no link, changes nothing. -/
theorem audioPacket_off {d : Dev} {n : Nat} (h : ¬ d.streamHeard n) (seq : W16) (ts : W32) (bytes : List B8) : d.audioPacket n seq ts bytes = d := by
  rw [Dev.audioPacket, if_pos]
  simp only [Bool.or_eq_true, Bool.not_eq_true']
  by_contra hon
  simp only [not_or, Bool.not_eq_false] at hon
  obtain ⟨⟨hawake, hstream⟩, hup⟩ := hon
  exact h ⟨hawake, hstream, hup⟩

/-- A packet of an enabled stream is counted; then it waits for PTP time, is late, or stores its samples. -/
theorem audioPacket_on {d : Dev} {n : Nat} (h : d.streamHeard n) (seq : W16) (ts : W32) (bytes : List B8) : d.audioPacket n seq ts bytes =
      let e := d.packetCounted n seq
      let ix := (nearestPos (d.streamIndex n) ts + d.cfg.mediaShift n).toNat
      let w := if d.cfg.streamL24 n then 3 else 2
      let ch := max 1 (d.cfg.streamChannels n)
      if d.aud.ptpEver = false then e
      else if dueAt ix (d.cfg.playout n) ≤ d.mediaIndex then
        { e with aud := { e.aud with late := e.aud.late.set n true, lateCnt := e.aud.lateCnt.set n (satInc (e.aud.lateCnt.get n 0)) } }
      else e.storePacket n ix w ch (bytes.length / (w * ch)) bytes := by
  obtain ⟨hawake, hon, hup⟩ := h
  unfold Dev.audioPacket
  rw [if_neg (by simp [hawake, hon, hup])]
  simp only [Bool.not_eq_true']
  refine if_congr Iff.rfl rfl (if_congr Iff.rfl rfl ?_)
  unfold Dev.storePacket Dev.putSamples
  simp only [SProd.sprod, List.product, List.foldl_flatMap, List.foldl_map]
  rfl

section Packet
variable {d : Dev} {n : Nat} (hon : d.streamHeard n) (seq : W16) (ts : W32) (bytes : List B8)
include hon

/-- A packet that arrives changes the audio block alone, and is counted whatever comes of its samples. -/
theorem audioPacket_counted : let e := d.packetCounted n seq; let b := (d.audioPacket n seq ts bytes).aud
    d.audioPacket n seq ts bytes = { d with aud := b } ∧ b.lastPkt = e.aud.lastPkt ∧ b.lost = e.aud.lost ∧ b.rtpSeq = e.aud.rtpSeq := by
  rw [audioPacket_on hon]
  dsimp only
  split
  · exact ⟨rfl, rfl, rfl, rfl⟩
  · split
    · exact ⟨rfl, rfl, rfl, rfl⟩
    · rw [Dev.storePacket, putSamples_rest]
      exact ⟨rfl, rfl, rfl, rfl⟩

/-- What comes of the samples: none is stored before PTP time, a packet that is late is counted, another stores each channel's samples. -/
theorem audioPacket_fates : let a := d.aud; let b := (d.audioPacket n seq ts bytes).aud
    let ix := (nearestPos (d.streamIndex n) ts + d.cfg.mediaShift n).toNat
    let w := if d.cfg.streamL24 n then 3 else 2
    let ch := max 1 (d.cfg.streamChannels n)
    (a.ptpEver = false → b.samples = a.samples ∧ b.late = a.late) ∧
    (a.ptpEver = true → dueAt ix (d.cfg.playout n) ≤ d.mediaIndex →
      b.samples = a.samples ∧ b.late.get n false = true ∧ b.lateCnt.get n 0 = satInc (a.lateCnt.get n 0)) ∧
    (a.ptpEver = true → d.mediaIndex < dueAt ix (d.cfg.playout n) → b.late = a.late ∧ b.lateCnt = a.lateCnt ∧
      ∀ k j, k < bytes.length / (w * ch) → j < ch →
        (d.audioPacket n seq ts bytes).sample (8 * n + j) (ix + k) = sampleF32 (8 * w) (beNat ((bytes.drop ((k * ch + j) * w)).take w))) := by
  rw [audioPacket_on hon]
  dsimp only
  refine ⟨fun hnever => ?_, fun hever hlate => ?_, fun hever htime => ?_⟩
  · rw [if_pos hnever]
    exact ⟨rfl, rfl⟩
  · rw [if_neg (by rw [hever]; decide), if_pos hlate]
    exact ⟨rfl, Tbl.get_set_same _ _ _ _, Tbl.get_set_same _ _ _ _⟩
  · rw [if_neg (by rw [hever]; decide), if_neg (Nat.not_le.mpr htime)]
    refine ⟨?_, ?_, fun k j hk hj => storePacket_sample _ n _ _ _ _ bytes hk hj⟩
    · rw [Dev.storePacket, putSamples_rest]; rfl
    · rw [Dev.storePacket, putSamples_rest]; rfl

end Packet

/-! ## TDM frames (R74, R385) -/

/-- The slots of a TDM frame of port `p`, in slot order. -/
def Dev.storeSlots (d : Dev) (p ix bits : Nat) (xs : List W32) : Dev :=
  d.putSamples (fun y => 0x8000 + 16 * p + y.1) (fun _ => ix) (fun y => sampleF32 bits y.2.toNat) ((xs.take 16).mapIdx (fun k x => (k, x)))

theorem storeSlots_sample (d : Dev) (p ix bits : Nat) {xs : List W32} {k : Nat} {x : W32} (hk : k < 16) (hx : xs[k]? = some x) :
    (d.storeSlots p ix bits xs).sample (0x8000 + 16 * p + k) ix = sampleF32 bits x.toNat := by
  have hslot : (xs.take 16)[k]? = some x := by rw [List.getElem?_take_of_lt hk, hx]
  have hmem (y : Nat × W32) : y ∈ (xs.take 16).mapIdx (fun k x => (k, x)) ↔ (xs.take 16)[y.1]? = some y.2 := by
    obtain ⟨i, z⟩ := y
    simp only [List.mem_iff_getElem?, List.getElem?_mapIdx, Option.map_eq_some_iff, Prod.mk.injEq]
    exact ⟨fun ⟨_, _, h, hi, hz⟩ => hi ▸ hz ▸ h, fun h => ⟨i, z, h, rfl, rfl⟩⟩
  refine putSamples_sample _ _ _ _ d (fun y hy hr _ => ?_) (.inr ⟨(k, x), (hmem _).mpr hslot, rfl, rfl⟩)
  have hindex : y.1 = k := Nat.add_left_cancel hr
  rw [hmem, hindex, hslot] at hy
  rw [← Option.some.inj hy]

/-- The device with a frame sync counted, its period good or not. -/
def Dev.syncCounted (d : Dev) (p : Nat) (ok : Bool) : Dev :=
  { d with aud := { d.aud with
    tdmSyncs := d.aud.tdmSyncs.set p (d.aud.tdmSyncs.get p 0 + 1), tdmValid := d.aud.tdmValid.set p true, tdmLocked := d.aud.tdmLocked.set p ok
    fsErr := if ok then d.aud.fsErr else d.aud.fsErr.set p true, fsErrCnt := if ok then d.aud.fsErrCnt else d.aud.fsErrCnt.set p (satInc (d.aud.fsErrCnt.get p 0)) } }

theorem tdmSync_off {d : Dev} {p : Nat} (h : ¬ (d.awake = true ∧ d.cfg.tdmOn p = true)) (xs : List W32) (good : Bool) : d.tdmSync p xs good = d := by
  rw [Dev.tdmSync, if_pos]
  simp only [Bool.or_eq_true, Bool.not_eq_true']
  by_contra hon
  simp only [not_or, Bool.not_eq_false] at hon
  exact h hon

/-- The audio block but for its arrays. -/
def Aud.received (a : Aud) : Aud := { a with arrays := [] }

theorem received_of_clocks {d e : Dev} (h : e.clocks = d.clocks) : e.aud.received = d.aud.received := congrArg (fun x => x.2.2.2.2) h

theorem resumeTracks_received (d : Dev) (l : List Nat) : (d.resumeTracks l).aud.received = d.aud.received := by
  unfold Dev.resumeTracks
  extract_lets ts
  have hmarked : (ts.foldl (fun d n => d.modTrk n (fun t => { t with resuming := false })) d).aud = d.aud :=
    foldl_keeps (f := fun (d : Dev) n => d.modTrk n (fun t => { t with resuming := false })) (P := fun e : Dev => e.aud = d.aud) (fun _ _ h => h) ts rfl
  exact (received_of_clocks (clocks_of_sound (Dev.fireJumped_sound _ ts))).trans (congrArg Aud.received hmarked)

/-- What a frame sync makes of the audio block, but for the arrays. -/
theorem tdmSync_received {d : Dev} {p : Nat} (h : d.awake = true ∧ d.cfg.tdmOn p = true) (xs : List W32) {good ok : Bool}
    (hok : (good || d.cfg.tdmMaster p) = ok) :
    (d.tdmSync p xs good).aud.received = (if ok then (d.syncCounted p ok).storeSlots p (if d.cfg.tdmMaster p then d.mediaIndex else d.aud.tdmSyncs.get p 0)
      (d.cfg.tdmBits p) xs else d.syncCounted p ok).aud.received := by
  obtain ⟨hawake, hon⟩ := h
  subst hok
  unfold Dev.tdmSync
  rw [if_neg (by simp [hawake, hon])]
  exact resumeTracks_received _ _

/-- What of the audio block a frame sync counts. -/
def Aud.syncs (a : Aud) : Tbl Nat × Tbl Bool × Tbl Bool × Tbl Bool × Tbl W16 := (a.tdmSyncs, a.tdmValid, a.tdmLocked, a.fsErr, a.fsErrCnt)

/-- A frame sync with a bad period is counted and stores nothing. -/
theorem tdmSync_bad {d : Dev} {p : Nat} (h : d.awake = true ∧ d.cfg.tdmOn p = true) (xs : List W32) {good : Bool} (hok : (good || d.cfg.tdmMaster p) = false) :
    (d.tdmSync p xs good).aud.syncs = (d.syncCounted p false).aud.syncs ∧ (d.tdmSync p xs good).aud.samples = d.aud.samples := by
  have haud : (d.tdmSync p xs good).aud.received = (d.syncCounted p false).aud.received := tdmSync_received h xs hok
  generalize d.tdmSync p xs good = t at haud ⊢
  have hsyncs := congrArg Aud.syncs haud
  have hsamples := congrArg Aud.samples haud
  exact ⟨hsyncs, hsamples⟩

/-- One with a good period is counted and stores its slots. -/
theorem tdmSync_good {d : Dev} {p : Nat} (h : d.awake = true ∧ d.cfg.tdmOn p = true) (xs : List W32) {good : Bool} (hok : (good || d.cfg.tdmMaster p) = true) :
    (d.tdmSync p xs good).aud.syncs = (d.syncCounted p true).aud.syncs ∧ ∀ k x, k < 16 → xs[k]? = some x →
      (d.tdmSync p xs good).sample (0x8000 + 16 * p + k) (if d.cfg.tdmMaster p then d.mediaIndex else d.aud.tdmSyncs.get p 0) =
        sampleF32 (d.cfg.tdmBits p) x.toNat := by
  have haud := tdmSync_received h xs hok
  rw [if_pos rfl] at haud
  generalize d.tdmSync p xs good = t at haud ⊢
  have hsyncs := congrArg Aud.syncs haud
  have hsamples := congrArg Aud.samples haud
  refine ⟨hsyncs.trans ?_, fun k x hk hx => ?_⟩
  · rw [Dev.storeSlots, putSamples_rest]
    rfl
  · exact (congrArg (fun t : Tbl (Tbl F32) => (t.get _ []).get _ 0) hsamples).trans (storeSlots_sample _ p _ _ hk hx)

/-! ## Frames of an array (R386, R394, R395) -/

/-- What the framing of an array shows: running, frames, the next frame, the chunk in the making, and the record. -/
def ArrayState.framing (v : ArrayState) : Bool × W32 × Nat × Nat × Option (List B8) := (v.running, v.frames, v.nextFrame, v.chunkFrames, v.record)

/-- From `d` to `e` the clocks and the framing of array `n` stay. -/
structure Dev.SameFraming (n : Nat) (d e : Dev) : Prop where
  clocks : e.clocks = d.clocks
  framing : (e.array n).framing = (d.array n).framing

theorem sameFraming_refl (n : Nat) (d : Dev) : d.SameFraming n d := ⟨rfl, rfl⟩
theorem sameFraming_trans {n : Nat} {a b c : Dev} (h : a.SameFraming n b) (k : b.SameFraming n c) : a.SameFraming n c :=
  ⟨k.clocks.trans h.clocks, k.framing.trans h.framing⟩
theorem sameFraming_of_sound {d e : Dev} (h : e.sound = d.sound) (n : Nat) : d.SameFraming n e :=
  ⟨clocks_of_sound h, congrArg (fun x => (x.2 n).framing) h⟩
theorem sameFraming_modArray (d : Dev) (n : Nat) {f : ArrayState → ArrayState} (hf : ∀ v, (f v).framing = v.framing) : d.SameFraming n (d.modArray n f) :=
  ⟨rfl, by rw [d.modArray_array]; exact hf _⟩

theorem chunkStart_sameFraming (d : Dev) (n f : Nat) : d.SameFraming n (d.chunkStart n f) := by
  unfold Dev.chunkStart
  extract_lets d1
  have h1 : d.SameFraming n d1 := sameFraming_modArray d n fun _ => by rfl
  clear_value d1
  split
  · exact h1
  · next b _ =>
    split
    · exact h1
    · have hread := d1.readMem_only (d1.arrayView n) (b.ring + 64 * b.next + 63) 1
      have hslot : d1.SameFraming n (d1.slotFull (d1.arrayView n) b b.next).1 := by
        unfold Dev.slotFull
        split <;> rename_i hk <;> rw [hk] at hread <;> exact sameFraming_of_sound (sound_of_timing (timing_of_memOnly hread)) n
      split <;> rename_i hk <;> rw [hk] at hslot
      · exact sameFraming_trans (sameFraming_trans h1 hslot) (sameFraming_modArray _ n fun _ => by rfl)
      · exact sameFraming_trans (sameFraming_trans h1 hslot) (sameFraming_modArray _ n fun _ => by rfl)

theorem steer_sameFraming (d : Dev) (n : Nat) (ps : List Peak) : d.SameFraming n (d.steer n ps) := by
  unfold Dev.steer
  split
  · exact sameFraming_refl n d
  · extract_lets bs near left d1 free
    have h1 : d.SameFraming n d1 := sameFraming_modArray d n fun _ => by rfl
    exact foldl_keeps (P := fun e => d.SameFraming n e) (fun e x h => sameFraming_trans h (sameFraming_modArray e n fun _ => by rfl)) _ h1

/-- A chunk that ends begins again; nothing else of the framing changes. -/
theorem chunkEnd_framing (d : Dev) (n : Nat) : ((d.chunkEnd n).array n).framing = { (d.array n) with chunkFrames := 0 }.framing := by
  obtain ⟨e, hsound, heq⟩ := chunkEnd_eq d n
  have hframing := (sameFraming_of_sound hsound n).framing
  rw [heq, (sameFraming_of_sound (Dev.chunkBoundary_sound _ n) n).framing, Dev.modArray_array]
  simp only [ArrayState.framing, Prod.mk.injEq] at hframing ⊢
  obtain ⟨hrunning, hframes, hnext, -, hrecord⟩ := hframing
  exact ⟨hrunning, hframes, hnext, trivial, hrecord⟩

/-! ### The record of a frame (R395) -/

@[simp] theorem length_leBytes (k v : Nat) : (leBytes k v).length = k := by simp [leBytes]

theorem leNat_leBytes (k : Nat) : ∀ v, leNat (leBytes k v) = v % 256 ^ k := by
  induction k with
  | zero => intro v; rw [Nat.pow_zero, Nat.mod_one]; rfl
  | succ k ih =>
    intro v
    have hbytes : leBytes (k + 1) v = BitVec.ofNat 8 v :: leBytes k (v / 256) := by
      simp only [leBytes, List.range_succ_eq_map, List.map_cons, List.map_map, Nat.mul_zero, Nat.shiftRight_zero, List.cons.injEq, true_and]
      refine List.map_congr_left fun i _ => ?_
      rw [Function.comp_apply, Nat.succ_eq_add_one, Nat.mul_add, Nat.mul_one, Nat.add_comm, Nat.shiftRight_add, Nat.shiftRight_eq_div_pow v 8]
    calc leNat (leBytes (k + 1) v) = v % 256 + 256 * (v / 256 % 256 ^ k) := by rw [hbytes, leNat, ih, BitVec.toNat_ofNat]
      _ = v % 256 ^ (k + 1) := by rw [Nat.pow_succ' (n := k), Nat.mod_mul]

/-- The field that stands behind `off` bytes. -/
theorem leAt_field (pre post : List B8) (k v : Nat) {off : Nat} (hoff : pre.length = off) : leAt (pre ++ (leBytes k v ++ post)) off k = v % 256 ^ k := by
  rw [leAt, ← hoff, List.drop_left, List.take_left' (length_leBytes k v), leNat_leBytes]

theorem length_flatten_range {g : Nat → List B8} {k : Nat} (hg : ∀ i, (g i).length = k) (m : Nat) : (((List.range m).map g).flatten).length = m * k := by
  simp [List.length_flatten, Function.comp_def, hg]

/-- A record of array `n` for the frame that ends at domain index `ix`: 64 bytes, with its mark, its array and its index in place. -/
def FrameRecord (n ix : Nat) (r : List B8) : Prop := r.length = 64 ∧ leAt r 0 4 = 0x414F4451 ∧ leAt r 4 1 = n % 256 ∧ leAt r 8 8 = ix % 2 ^ 64

theorem frameRecord_of_parts {n ix : Nat} {x y z rest : List B8} (hx : x.length = 1) (hy : y.length = 1) (hz : z.length = 1) (hrest : rest.length = 48) :
    FrameRecord n ix (leBytes 4 0x414F4451 ++ (leBytes 1 n ++ (x ++ (y ++ (z ++ (leBytes 8 ix ++ rest)))))) := by
  have hmark (post : List B8) : leAt (leBytes 4 0x414F4451 ++ post) 0 4 = 0x414F4451 := by
    have hfield := leAt_field [] post 4 0x414F4451 (off := 0) rfl
    rwa [List.nil_append, Nat.mod_eq_of_lt (by norm_num)] at hfield
  have harray (post : List B8) : leAt (leBytes 4 0x414F4451 ++ (leBytes 1 n ++ post)) 4 1 = n % 256 := by
    have hfield := leAt_field (leBytes 4 0x414F4451) post 1 n (length_leBytes 4 _)
    rwa [Nat.pow_one] at hfield
  have hindex := leAt_field (leBytes 4 0x414F4451 ++ leBytes 1 n ++ x ++ y ++ z) rest 8 ix (off := 8) (by simp [hx, hy, hz])
  simp only [List.append_assoc] at hindex
  refine ⟨by simp [hx, hy, hz, hrest], hmark _, harray _, ?_⟩
  rw [hindex, show 256 ^ 8 = 2 ^ 64 by norm_num]

/-! ### A frame that is due -/

/-- The frame of array `n` that is processed next (R386). -/
def Dev.frameNo (d : Dev) (n : Nat) : Nat :=
  if (d.array n).running then (d.array n).nextFrame else (d.domainIndex n - 480 - d.cfg.arrayLink n) / 480

/-- The array is enabled and its frame has its samples. -/
def Dev.frameDue (d : Dev) (n : Nat) : Prop :=
  d.awake = true ∧ d.cfg.arrayOn n = true ∧ 480 * d.frameNo n + 480 + d.cfg.arrayLink n ≤ d.domainIndex n

theorem audioFrame_waits {d : Dev} {n : Nat} (h : ¬ d.frameDue n) : d.audioFrame n = d := by
  rw [Dev.audioFrame]
  refine if_pos ?_
  simp only [Bool.or_eq_true, Bool.not_eq_true', decide_eq_true_eq]
  by_contra hon
  simp only [not_or, Bool.not_eq_false, Nat.not_lt] at hon
  obtain ⟨⟨hawake, harray⟩, hdue⟩ := hon
  exact h ⟨hawake, harray, hdue⟩

/-- The audio block with a gap of a frame counted. -/
def Aud.gapped (a : Aud) (gap : Bool) : Aud := if gap then { a with gap := true, gapCnt := satInc a.gapCnt } else a

theorem Aud.received_gapped (a : Aud) (gap : Bool) : (a.gapped gap).received = a.received.gapped gap := by
  cases gap <;> rfl

/-- A frame that is due: it is counted, its gap is counted, its record stands, and a chunk that has its number of frames begins again. -/
theorem audioFrame_due {d : Dev} {n : Nat} (h : d.frameDue n) :
    ∃ r, FrameRecord n (480 * d.frameNo n + 480) r ∧
      (d.audioFrame n).aud.received = (d.aud.gapped (d.frameGap (d.cfg.arrayMicRefs n) (d.frameNo n))).received ∧
      ((d.audioFrame n).array n).framing = (true, (d.array n).frames + 1, d.frameNo n + 1,
        if (d.array n).chunkFrames + 1 = max 1 (d.cfg.chunkFrames n) then 0 else (d.array n).chunkFrames + 1, some r) := by
  obtain ⟨hawake, hon, hdue⟩ := h
  unfold Dev.audioFrame
  extract_lets c link now f d1 beams aec gap refMissing double ps level v past loud hold speech bs anySpeech flags per pk rec_ d2 aud2 d3 d4
  have hd1 : d.SameFraming n d1 := by
    simp only [d1]
    split
    · exact sameFraming_trans (sameFraming_of_sound (d.chunkBoundary_sound n) n) (chunkStart_sameFraming _ n f)
    · exact sameFraming_refl n d
  have hrec : FrameRecord n (480 * d.frameNo n + 480) rec_ := by
    have hpk (i : Nat) : (pk i).length = 4 := by
      simp only [pk]; split <;> simp
    have hper (k : Nat) (g : Nat → List B8) (hg : ∀ b, (g b).length = k) : (per k g).length = 4 * k :=
      length_flatten_range (fun b => by split <;> simp [hg]) 4
    simp only [rec_, List.append_assoc]
    refine frameRecord_of_parts (length_leBytes 1 _) (length_leBytes 1 _) (length_leBytes 1 _) ?_
    simp only [List.length_append, length_leBytes, length_flatten_range hpk, hper _ _ fun b => length_leBytes _ _]
  have hd2 : (d2.array n).framing = (true, (d.array n).frames + 1, d.frameNo n + 1, (d.array n).chunkFrames + 1, some rec_) := by
    have hframing := hd1.framing
    simp only [ArrayState.framing, Prod.mk.injEq] at hframing ⊢
    obtain ⟨-, hframes, -, hchunk, -⟩ := hframing
    simp only [d2, Dev.modArray_array, hframes, hchunk]
    exact ⟨trivial, trivial, rfl, trivial, trivial⟩
  have haud2 : d2.aud.received = d.aud.received := received_of_clocks hd1.clocks
  have hd3 : d3.aud = d2.aud.gapped gap ∧ d3.array n = d2.array n := by
    simp only [d3, Aud.gapped]
    split <;> exact ⟨rfl, rfl⟩
  have hgap : gap = d.frameGap (d.cfg.arrayMicRefs n) (d.frameNo n) := rfl
  clear_value rec_ d3 gap
  clear_value aud2 d2
  have hsteer := steer_sameFraming d3 n ps
  have hd4 : d3.SameFraming n d4 := ⟨hsteer.clocks, hsteer.framing⟩
  clear_value d4
  obtain ⟨haud3, harray3⟩ := hd3
  obtain ⟨hclocks4, hframing4⟩ := hd4
  rw [harray3, hd2] at hframing4
  have haud4 : d4.aud.received = (d.aud.gapped (d.frameGap (d.cfg.arrayMicRefs n) (d.frameNo n))).received := by
    rw [received_of_clocks hclocks4, haud3, Aud.received_gapped, haud2, ← Aud.received_gapped, hgap]
  have hchunk4 : (d4.array n).chunkFrames = (d.array n).chunkFrames + 1 := congrArg (fun x => x.2.2.2.1) hframing4
  have hwait : ¬ (!d.awake || !c.arrayOn n || decide (now < 480 * f + 480 + link)) = true := by
    simp only [Bool.or_eq_true, Bool.not_eq_true', decide_eq_true_eq, not_or, Bool.not_eq_false, Nat.not_lt]
    exact ⟨⟨hawake, hon⟩, hdue⟩
  rw [if_neg hwait]
  refine ⟨rec_, hrec, ?_⟩
  rw [hchunk4]
  split
  · refine ⟨(received_of_clocks (chunkEnd_clocks d4 n)).trans haud4, ?_⟩
    rw [chunkEnd_framing]
    simp only [ArrayState.framing, Prod.mk.injEq] at hframing4 ⊢
    obtain ⟨hrunning, hframes, hnext, -, hrecord⟩ := hframing4
    exact ⟨hrunning, hframes, hnext, trivial, hrecord⟩
  · exact ⟨haud4, hframing4⟩

/-! ## The three rows -/

/-- The counts of a frame sync, read back. -/
theorem syncs_eq {d : Dev} {a : Aud} {p : Nat} {ok : Bool} (h : a.syncs = (d.syncCounted p ok).aud.syncs) :
    a.tdmSyncs.get p 0 = d.aud.tdmSyncs.get p 0 + 1 ∧ a.tdmValid.get p false = true ∧ a.tdmLocked.get p false = ok ∧
    (if ok then a.fsErr = d.aud.fsErr ∧ a.fsErrCnt = d.aud.fsErrCnt else a.fsErr.get p false = true ∧ a.fsErrCnt.get p 0 = satInc (d.aud.fsErrCnt.get p 0)) := by
  simp only [Aud.syncs, Dev.syncCounted, Prod.mk.injEq] at h
  obtain ⟨hsyncs, hvalid, hlocked, herr, hcnt⟩ := h
  rw [hsyncs, hvalid, hlocked, herr, hcnt]
  cases ok <;> simp [Tbl.get_set_same]

/-- Settles O58: the packet by its three fates, the frame sync by its period, and the frame that is due by `audioFrame_due`. -/
theorem audioIsReceivedAndFramed : Obligations.AudioIsReceivedAndFramed := by
  unfold Obligations.AudioIsReceivedAndFramed
  refine ⟨fun s n seq ts bytes => ?_, fun s p xs good => ?_, fun s n => ?_⟩
  · intro a c on gap ix w ch
    have hrun : exec (.aes67Packet n seq ts bytes) s = .next (s.withDev (s.dev.audioPacket n seq ts bytes)) := rfl
    refine ⟨fun hoff => by rw [hrun, audioPacket_off hoff], fun hon => ?_⟩
    obtain ⟨honly, hlast, hlost, hseq⟩ := audioPacket_counted hon seq ts bytes
    refine ⟨_, hrun, congrArg s.withDev honly, ?_, fun hgap => ⟨?_, ?_⟩, fun hgap => ⟨?_, ?_⟩, audioPacket_fates hon seq ts bytes⟩
    · exact (congrArg (fun t => Tbl.get t n 0) hlast).trans (Tbl.get_set_same _ _ _ _)
    · exact (congrArg (fun t => Tbl.get t n 0) (hlost.trans (if_pos hgap))).trans (Tbl.get_set_same _ _ _ _)
    · exact (congrArg (fun t => Tbl.get t n none) (hseq.trans (if_pos hgap))).trans (Tbl.get_set_same _ _ _ _)
    · exact hlost.trans (if_neg (Nat.not_lt.mpr hgap))
    · exact hseq.trans (if_neg (Nat.not_lt.mpr hgap))
  · intro a c on
    have hrun : exec (.tdmFrameSync p xs good) s = .next (s.withDev (s.dev.tdmSync p xs good)) := rfl
    refine ⟨fun hoff => by rw [hrun, tdmSync_off hoff], fun hon => ⟨_, hrun, rfl, ?_⟩⟩
    have hok : (good || c.tdmMaster p) = true ↔ good = true ∨ c.tdmMaster p = true := Bool.or_eq_true_iff
    rcases Bool.eq_false_or_eq_true (good || c.tdmMaster p) with hgood | hbad
    · obtain ⟨hcounted, hslots⟩ := tdmSync_good hon xs hgood
      obtain ⟨hsyncs, hvalid, hlocked, herr⟩ := syncs_eq hcounted
      have hok' := hok.mp hgood
      exact ⟨hsyncs, hvalid, iff_of_true hlocked hok', fun hno => absurd hok' hno, fun _ => ⟨herr.1, herr.2, hslots⟩⟩
    · obtain ⟨hcounted, hsamples⟩ := tdmSync_bad hon xs hbad
      obtain ⟨hsyncs, hvalid, hlocked, herr⟩ := syncs_eq hcounted
      have hok' := fun hgood => Bool.false_ne_true (hbad.symm.trans (hok.mpr hgood))
      exact ⟨hsyncs, hvalid, iff_of_false (by rw [hlocked]; decide) hok', fun _ => ⟨herr.1, herr.2, hsamples⟩, fun hgood => absurd hgood hok'⟩
  · intro v c link now f due
    have hrun : exec (.audioFrame n) s = .next (s.withDev (s.dev.audioFrame n)) := rfl
    refine ⟨fun hwait => by rw [hrun, audioFrame_waits hwait], fun hdue => ⟨_, hrun, rfl, ?_⟩⟩
    obtain ⟨r, ⟨hlen, hmark, harray, hindex⟩, haud, hframing⟩ := audioFrame_due hdue
    have hgap0 := congrArg Aud.gap haud
    have hcnt0 := congrArg Aud.gapCnt haud
    have hgaps : (s.dev.audioFrame n).aud.gap = (s.dev.aud.gapped (s.dev.frameGap (c.arrayMicRefs n) f)).gap ∧
        (s.dev.audioFrame n).aud.gapCnt = (s.dev.aud.gapped (s.dev.frameGap (c.arrayMicRefs n) f)).gapCnt := ⟨hgap0, hcnt0⟩
    simp only [ArrayState.framing, Prod.mk.injEq] at hframing
    obtain ⟨hrunning, hframes, hnext, hchunk, hrecord⟩ := hframing
    refine ⟨hrunning, hframes, hnext, hchunk, ⟨r, hrecord, hlen, hmark, harray, hindex⟩, fun hgap => ?_, fun hgap => ?_⟩
    · rwa [hgap] at hgaps
    · rwa [hgap] at hgaps

end Sys2Proof.Machine

/-! PROOFS. Barriers of a tenant (R113): what leaves them as they are, and how the end of a waiting command leaves one. -/
namespace Sys2Proof.Machine
open Sys2Proof

/-! ## What leaves the barriers alone -/

/-- The barriers of every party. -/
def Dev.barriers (d : Dev) (t : Nat) : Tbl Barrier := (d.ten t).barriers

/-- The round at barrier `b` of party `t`. -/
abbrev Dev.round (d : Dev) (t b : Nat) : Barrier := (d.ten t).barriers.get b {}

theorem barriers_of_memOnly {d e : Dev} (h : d.memOnly e) : e.barriers = d.barriers := by
  obtain ⟨m, b, n, -, rfl⟩ := h; rfl

theorem barriers_foldl {β : Type} {f : Dev → β → Dev} (hf : ∀ d b, (f d b).barriers = d.barriers) (l : List β) (d : Dev) :
    (l.foldl f d).barriers = d.barriers :=
  foldl_keeps (P := fun e => e.barriers = d.barriers) (fun e b h => (hf e b).trans h) l rfl

/-- A change of a window that is not one of its barriers. -/
theorem Dev.modTen_barriers (d : Dev) (n : Nat) {f : Tenant → Tenant} (hf : ∀ v, (f v).barriers = v.barriers) : (d.modTen n f).barriers = d.barriers := by
  funext t
  by_cases ht : n = t
  · subst ht; rw [Dev.barriers, Dev.modTen_ten, hf]; rfl
  · rw [Dev.barriers, d.modTen_ten_other ht]; rfl

@[simp] theorem Dev.event_barriers (d : Dev) (t k : Nat) : (d.event t k).barriers = d.barriers := d.modTen_barriers t fun _ => rfl
@[simp] theorem Dev.statusEvent_barriers (d : Dev) (t : Nat) : (d.statusEvent t).barriers = d.barriers := d.event_barriers t 3
@[simp] theorem Dev.modQue_barriers (d : Dev) (q : Nat) (f : Queue → Queue) : (d.modQue q f).barriers = d.barriers := rfl
@[simp] theorem Dev.hostWrite_barriers (d : Dev) (port a : Nat) (l : List B8) : (d.hostWrite port a l).barriers = d.barriers := rfl
@[simp] theorem Dev.modSeq_barriers (d : Dev) (r : Nat) (f : Seq → Seq) : (d.modSeq r f).barriers = d.barriers := by
  unfold Dev.modSeq; split <;> rfl

/-! ## Progress, records and completion entries -/

@[simp] theorem Dev.putProg_barriers (d : Dev) (p slot : Nat) (v : Progress) : (d.putProg p slot v).barriers = d.barriers := by
  unfold Dev.putProg; split
  · exact d.modTen_barriers p fun _ => rfl
  · rfl

@[simp] theorem Dev.setBusy_barriers (d : Dev) (p slot : Nat) (b : Bool) : (d.setBusy p slot b).barriers = d.barriers := d.putProg_barriers p slot _

@[simp] theorem Dev.setProgress_barriers (d : Dev) (p slot kind value : Nat) : (d.setProgress p slot kind value).barriers = d.barriers := by
  simp only [Dev.setProgress, Dev.showProgress, apply_ite Dev.barriers, Dev.statusEvent_barriers, Dev.putProg_barriers, ite_self]

theorem Dev.tenantRec_barriers (d : Dev) (p : Nat) (r : ErrRec) : (d.tenantRec p r).barriers = d.barriers := by
  unfold Dev.tenantRec
  extract_lets g _ b d1 d2
  have h1 : d1.barriers = d.barriers := barriers_of_memOnly (d.deviceWrite_only _ _ _ _)
  have h2 : d2.barriers = d1.barriers := by simp only [d2, apply_ite Dev.barriers, Dev.hostWrite_barriers, ite_self]
  split
  · rfl
  · split
    · exact d.modTen_barriers p fun _ => rfl
    · refine (Dev.event_barriers _ p 1).trans (Eq.trans ?_ (h2.trans h1))
      exact d2.modTen_barriers p fun _ => rfl

theorem Dev.globalRec_barriers (d : Dev) (r : ErrRec) : (d.globalRec r).barriers = d.barriers := by
  obtain ⟨g, l, hm, pm, h⟩ := globalRec_global d r
  rw [h]; rfl

@[simp] theorem Dev.record_barriers (d : Dev) (r : ErrRec) : (d.record r).barriers = d.barriers := by
  have hcount (e : Dev) (unit who : Nat) : (e.countUnit unit who).barriers = e.barriers := by unfold Dev.countUnit; split <;> rfl
  rw [Dev.record, hcount, Dev.globalRec_barriers]
  split
  · exact d.tenantRec_barriers _ r
  · rfl

theorem Dev.setCompl_barriers (d : Dev) (p : Nat) (r : Ring) : (d.setCompl p r).barriers = d.barriers := by
  unfold Dev.setCompl; split
  · exact d.modTen_barriers p fun _ => rfl
  · rfl

theorem Dev.putEntry_barriers (d : Dev) (p : Nat) (e : Entry) : (d.putEntry p e).barriers = d.barriers := by
  unfold Dev.putEntry
  extract_lets r b d1 d2
  have h1 : d1.barriers = d.barriers := barriers_of_memOnly (d.deviceWrite_only _ _ _ _)
  have h2 : d2.barriers = d1.barriers := by simp only [d2, apply_ite Dev.barriers, Dev.hostWrite_barriers, ite_self]
  split
  · rw [Dev.event_barriers, Dev.setCompl_barriers, h2, h1]
  · exact Dev.setCompl_barriers _ p _

@[simp] theorem Dev.emit_barriers (d : Dev) (q : Nat) (e : Entry) : (d.emit q e).barriers = d.barriers := by
  unfold Dev.emit
  extract_lets p e1 d0 r was d1
  simp only [apply_ite Dev.barriers, Dev.putEntry_barriers, Dev.statusEvent_barriers, show d1.barriers = d.barriers from rfl, show d0.barriers = d.barriers from rfl,
    ite_self]

/-! ## The end of a command -/

@[simp] theorem Dev.releaseSlot_barriers (d : Dev) (q : Nat) (r : Running) (st : B8) : (d.releaseSlot q r st).barriers = d.barriers := by
  unfold Dev.releaseSlot; split
  · simp only [apply_ite Dev.barriers, Dev.setBusy_barriers, Dev.setProgress_barriers, ite_self]
  · rfl

theorem Dev.adapterFree_barriers (d : Dev) (p k : Nat) (l : List Nat) : (d.adapterFree p k l).barriers = d.barriers :=
  (barriers_foldl (fun e s => e.modSeq_barriers s _) l _).trans (d.modTen_barriers p fun _ => rfl)

theorem Dev.tuneEnd_barriers (d : Dev) (p : Nat) (g : Prog) (ok : Bool) : (d.tuneEnd p g ok).barriers = d.barriers := by
  unfold Dev.tuneEnd
  extract_lets d1 v
  have h1 : d1.barriers = d.barriers := d.modTen_barriers p fun _ => rfl
  have hread := barriers_of_memOnly (d1.readMem_only v (g.stateAddr + 6) 2)
  split <;> rename_i h <;> rw [h] at hread
  · exact hread.trans h1
  · exact (barriers_of_memOnly (Dev.writeMem_only _ _ _ _)).trans (hread.trans h1)

theorem Dev.releaseProg_barriers (d : Dev) (p : Nat) (g : Prog) (st : B8) : (d.releaseProg p g st).barriers = d.barriers := by
  unfold Dev.releaseProg
  extract_lets d1
  have h1 : d1.barriers = d.barriers := by
    refine (barriers_foldl (f := fun e r => e.modRegion r (fun v => { v with waiting := [] })) (fun _ _ => rfl) _ _).trans ?_
    split <;> rfl
  simp only [apply_ite Dev.barriers, Dev.tuneEnd_barriers, Dev.adapterFree_barriers, h1, ite_self]

theorem Dev.unmarkTile_barriers (d : Dev) (q : Nat) (r : Running) : (d.unmarkTile q r).barriers = d.barriers := by
  unfold Dev.unmarkTile; dsimp only
  split
  · split <;> rfl
  · rfl

theorem Dev.ctlRelease_barriers (d : Dev) (q : Nat) (c : W512) : (d.ctlRelease q c).barriers = d.barriers := by
  unfold Dev.ctlRelease; split <;> rfl

/-- A queue that does not wait at a barrier leaves none. -/
theorem Dev.barrierLeave_barriers {d : Dev} {q b : Nat} (h : (d.round (qParty q) b).waiting.contains q = false) :
    (d.barrierLeave q b).barriers = d.barriers := by
  funext t
  by_cases ht : qParty q = t
  · subst ht
    rw [Dev.barriers, Dev.barrierLeave, Dev.modTen_ten]
    simp only [h, Bool.false_eq_true, if_false]
    rfl
  · rw [Dev.barriers, Dev.barrierLeave, d.modTen_ten_other ht]; rfl

/-- The end of `r` on queue `q` takes the queue from no barrier: `r` ends well, or the queue does not wait at the barrier that it names. -/
def Dev.LeavesNone (d : Dev) (q : Nat) (r : Running) (st : B8) : Prop :=
  st = 0 ∨ (d.round (qParty q) (cmdArg r.cmd % 16)).waiting.contains q = false

theorem Dev.release_barriers {d : Dev} {q : Nat} {r : Running} {st : B8} (h : d.LeavesNone q r st) : (d.release q r st).barriers = d.barriers := by
  unfold Dev.release
  extract_lets d1 d2
  have h2 : d2.barriers = d.barriers := by
    simp only [d2]; split
    · exact (d1.releaseProg_barriers _ _ st).trans (d.releaseSlot_barriers q r st)
    · exact d.releaseSlot_barriers q r st
  have hleave : st ≠ 0 → (d2.barrierLeave q (cmdArg r.cmd % 16)).barriers = d2.barriers := fun hst =>
    Dev.barrierLeave_barriers (by rw [Dev.round, show (d2.ten (qParty q)).barriers = _ from congrFun h2 (qParty q)]; exact h.resolve_left hst)
  clear_value d2
  rw [← h2]
  split
  · rfl
  · split
    · rfl
    · split
      · exact d2.unmarkTile_barriers q r
      · split
        · exact d2.ctlRelease_barriers q r.cmd
        · split
          · rfl
          · split
            · next hfailed => exact hleave hfailed.2
            · rfl

theorem Dev.endRecord_barriers (d : Dev) (q : Nat) (l : CmdList) (f : Option (Fail × Nat)) : (d.endRecord q l f).barriers = d.barriers := by
  unfold Dev.endRecord; split
  · exact d.record_barriers _
  · rfl

/-- The end of a command that takes its queue from no barrier leaves the barriers of all parties. -/
theorem Dev.endCmd_barriers {d : Dev} {q : Nat} {st : B8} (h : ∀ r, d.running q = some r → d.LeavesNone q r st) (res : W64) (f : Option (Fail × Nat)) :
    (d.endCmd q st res f).barriers = d.barriers := by
  unfold Dev.endCmd
  split
  next r l rest hrun _ =>
    simp only [Dev.endList, Dev.endEntry, apply_ite Dev.barriers, Dev.emit_barriers, Dev.modQue_barriers, Dev.endRecord_barriers,
      Dev.release_barriers (h r hrun), ite_self]
  next => rfl

theorem Dev.finish_barriers (d : Dev) (q : Nat) (res : W64) : (d.finish q res).barriers = d.barriers := Dev.endCmd_barriers (fun _ _ => .inl rfl) _ _

end Sys2Proof.Machine

/-! PROOFS. BARRIER, timeouts and reservations (R95, R110, R113). -/
namespace Sys2Proof.Machine
open Sys2Proof

/-- What a row does where its command starts. -/
theorem Dev.begin_of_starts {d : Dev} {q op : Nat} {c : W512} (h : d.Starts q op c) (f : Dev → W512 → Dev) : d.begin q op f = f (d.startCmd q c) c := by
  obtain ⟨hstart, hturn⟩ := h
  simp only [Dev.begin, hstart, hturn, if_true]

/-! ## A full round -/

/-- The queues of a full round go: its count is 0 again, and the commands of `l` end one after the other. -/
def Dev.roundEnds (d : Dev) (t b : Nat) (l : List Nat) : Dev :=
  l.foldl (fun d q => d.finish q 0) (d.modTen t (fun v => { v with barriers := v.barriers.set b {} }))

theorem barrierRelease_full {d : Dev} {t b : Nat} (hcount : (d.round t b).count ≠ 0) (hfull : (d.round t b).participants ≤ (d.round t b).count) :
    d.barrierRelease t b = d.roundEnds t b (d.round t b).waiting :=
  if_pos ⟨hcount, hfull⟩

theorem barrierRelease_open {d : Dev} {t b : Nat} (h : (d.round t b).count = 0 ∨ (d.round t b).count < (d.round t b).participants) :
    d.barrierRelease t b = d :=
  if_neg fun ⟨hcount, hfull⟩ => h.elim hcount (Nat.not_lt.mpr hfull)

/-- The commands that end leave the new round at the barrier empty. -/
theorem roundEnds_round (d : Dev) (t b : Nat) (l : List Nat) : (d.roundEnds t b l).round t b = {} := by
  have hkept : (d.roundEnds t b l).barriers = _ := barriers_foldl (fun e q => e.finish_barriers q 0) l _
  have hset := congrFun hkept t
  rw [Dev.barriers, Dev.barriers, Dev.modTen_ten] at hset
  rw [Dev.round, hset, Tbl.get_set_same]

/-- A queue in which nothing runs stays so while commands end. -/
theorem idle_of_endsOnly {d e : Dev} (h : d.endsOnly e) {q : Nat} (hidle : (d.que q).running = none) : (e.que q).running = none := by
  obtain ⟨-, -, hqueues⟩ := h
  exact (hqueues q).elim id fun ⟨hsame, _⟩ => hsame.trans hidle

/-- The end of the command of a queue leaves nothing running there, where something could run or nothing did. -/
theorem finish_idle {d : Dev} {q : Nat} (h : (d.que q).running = none ∨ (d.que q).lists ≠ []) (res : W64) : ((d.finish q res).que q).running = none :=
  h.elim (idle_of_endsOnly (finish_ends d q res)) (endCmd_ends d q 0 res none).2

/-- A queue of the round has nothing running afterwards: its command ends at its turn, and none starts again. -/
theorem roundEnds_running {d : Dev} {q : Nat} {l : List Nat} (hq : q ∈ l) (hlists : (d.que q).lists ≠ []) (t b : Nat) : (d.roundEnds t b l).running q = none := by
  have hends (l : List Nat) (d : Dev) : d.endsOnly (l.foldl (fun d q => d.finish q 0) d) := endsOnly_foldl (fun e k => finish_ends e k 0) l d
  obtain ⟨before, after, rfl⟩ := List.append_of_mem hq
  obtain ⟨-, -, hqueues⟩ : d.endsOnly (d.roundEnds t b before) := endsOnly_trans (endsOnly_of_quiet (d.modTen_quiet t _)) (hends before _)
  have hturn : ((d.roundEnds t b before).que q).running = none ∨ ((d.roundEnds t b before).que q).lists ≠ [] :=
    (hqueues q).imp id fun ⟨_, hsame⟩ => hsame ▸ hlists
  rw [Dev.roundEnds, List.foldl_append]
  exact idle_of_endsOnly (hends after _) (finish_idle hturn 0)

/-! ## An arrival -/

/-- Queue `q` is counted into the round that its command `c` names. -/
def Dev.joinRound (d : Dev) (q : Nat) (c : W512) : Dev :=
  let b := cmdArg c % 16
  let g := d.round (qParty q) b
  d.modTen (qParty q) (fun v => { v with barriers := v.barriers.set b { count := g.count + 1, participants := nfld (cmdArg c) 4 6, waiting := g.waiting ++ [q] } })

section Arrival
variable {d : Dev} {q : Nat} {c : W512} (h : d.Starts q 7 c)
include h

/-- BARRIER where it starts, on the device that a full round before has left. -/
theorem barrierCmd_of_starts :
    d.barrierCmd q =
      (let e := (d.startCmd q c).barrierRelease (qParty q) (cmdArg c % 16)
       let g := e.round (qParty q) (cmdArg c % 16)
       if g.count ≠ 0 ∧ g.participants ≠ nfld (cmdArg c) 4 6 then e.failOpen q 0x08 else e.joinRound q c) :=
  Dev.begin_of_starts h _

/-- The round has not begun, or has room and as many participants as the command names. -/
theorem barrierCmd_joins (hround : let g := d.round (qParty q) (cmdArg c % 16); let n := nfld (cmdArg c) 4 6
    g.count = 0 ∨ (g.participants = n ∧ g.count < n)) : d.barrierCmd q = (d.startCmd q c).joinRound q c := by
  have hopen : (d.startCmd q c).barrierRelease (qParty q) (cmdArg c % 16) = d.startCmd q c :=
    barrierRelease_open (hround.imp id fun ⟨hsame, hroom⟩ => lt_of_lt_of_eq hroom hsame.symm)
  rw [barrierCmd_of_starts h, hopen]
  exact if_neg fun hno => hround.elim hno.1 fun hyes => hno.2 hyes.1

/-- A full round goes first; the arrival opens a new one. -/
theorem barrierCmd_afterFull (hcount : (d.round (qParty q) (cmdArg c % 16)).count ≠ 0)
    (hfull : (d.round (qParty q) (cmdArg c % 16)).participants ≤ (d.round (qParty q) (cmdArg c % 16)).count) :
    d.barrierCmd q =
      ((d.startCmd q c).roundEnds (qParty q) (cmdArg c % 16) (d.round (qParty q) (cmdArg c % 16)).waiting).modTen (qParty q) (fun v =>
        { v with barriers := v.barriers.set (cmdArg c % 16) { count := 1, participants := nfld (cmdArg c) 4 6, waiting := [q] } }) := by
  have hround : (d.startCmd q c).barrierRelease (qParty q) (cmdArg c % 16) = _ := barrierRelease_full hcount hfull
  rw [barrierCmd_of_starts h, hround]
  simp only [Dev.joinRound, roundEnds_round, ne_eq, not_true_eq_false, false_and, if_false, Nat.zero_add, List.nil_append]
  rfl

/-- The round has begun with another number of participants, and has room. -/
theorem barrierCmd_refused (hcount : (d.round (qParty q) (cmdArg c % 16)).count ≠ 0)
    (hroom : (d.round (qParty q) (cmdArg c % 16)).count < (d.round (qParty q) (cmdArg c % 16)).participants)
    (hother : (d.round (qParty q) (cmdArg c % 16)).participants ≠ nfld (cmdArg c) 4 6) : d.barrierCmd q = (d.startCmd q c).failOpen q 0x08 := by
  have hopen : (d.startCmd q c).barrierRelease (qParty q) (cmdArg c % 16) = d.startCmd q c := barrierRelease_open (.inr hroom)
  rw [barrierCmd_of_starts h, hopen]
  exact if_pos ⟨hcount, hother⟩

end Arrival

/-- A BARRIER that fails as it starts leaves the round at which its queue does not wait. -/
theorem startCmd_failOpen_round {d : Dev} {q : Nat} {c : W512} (h : (d.round (qParty q) (cmdArg c % 16)).waiting.contains q = false) (st : B8) (t b : Nat) :
    ((d.startCmd q c).failOpen q st).round t b = d.round t b := by
  have hstarted : (d.startCmd q c).drawn.running q = some { cmd := c, started := d.time } := congrArg Prod.fst (d.startCmd_work q c)
  have hkept : ((d.startCmd q c).failOpen q st).barriers = (d.startCmd q c).drawn.barriers := Dev.endCmd_barriers (fun r hr => by
    obtain rfl := Option.some.inj (hstarted.symm.trans hr)
    exact .inr h) _ _
  exact congrArg (fun x => x.get b {}) (congrFun hkept t)

/-! ## A timeout -/

section Timeout
variable {d : Dev} {q : Nat} {r : Running} (hrun : d.running q = some r)
include hrun

theorem timedOut_iff : d.timedOut q = true ↔ cmdTimeout r.cmd ≠ 0 ∧ r.started.toNat + 1000 * cmdTimeout r.cmd ≤ d.time.toNat := by
  simp only [Dev.timedOut, hrun, Bool.and_eq_true, decide_eq_true_eq]

theorem leaveFull_eq : d.leaveFull q = if cmdOp r.cmd = 7 then d.barrierRelease (qParty q) (cmdArg r.cmd % 16) else d := by
  simp only [Dev.leaveFull, hrun]

theorem commandTimeout_waits (hwait : cmdTimeout r.cmd = 0 ∨ d.time.toNat < r.started.toNat + 1000 * cmdTimeout r.cmd) : d.commandTimeout q = d :=
  if_neg fun hout =>
    have ⟨hset, hpassed⟩ := (timedOut_iff hrun).mp hout
    hwait.elim hset (Nat.not_lt.mpr hpassed)

/-- A timeout that passes while the command waits in no full round ends it. -/
theorem commandTimeout_fails (hout : d.timedOut q = true)
    (hround : cmdOp r.cmd = 7 → let g := d.round (qParty q) (cmdArg r.cmd % 16); g.count = 0 ∨ g.count < g.participants) :
    d.commandTimeout q = d.failOpen q 0x11 := by
  have hstay : d.leaveFull q = d := by
    rw [leaveFull_eq hrun]
    split
    · next hop => exact barrierRelease_open (hround hop)
    · rfl
  simp only [Dev.commandTimeout, hout, hstay, hrun, if_true, Option.isNone_some, Bool.false_eq_true, if_false]

/-- A BARRIER that waits in a full round completes with it instead. -/
theorem commandTimeout_completes (hout : d.timedOut q = true) (hlists : (d.que q).lists ≠ []) (hop : cmdOp r.cmd = 7)
    (hcount : (d.round (qParty q) (cmdArg r.cmd % 16)).count ≠ 0)
    (hfull : (d.round (qParty q) (cmdArg r.cmd % 16)).participants ≤ (d.round (qParty q) (cmdArg r.cmd % 16)).count)
    (hwaits : q ∈ (d.round (qParty q) (cmdArg r.cmd % 16)).waiting) :
    d.commandTimeout q = d.barrierRelease (qParty q) (cmdArg r.cmd % 16) := by
  have hleft := (leaveFull_eq hrun).trans (if_pos hop)
  have hdone : (d.barrierRelease (qParty q) (cmdArg r.cmd % 16)).running q = none := by
    rw [barrierRelease_full hcount hfull]
    exact roundEnds_running hwaits hlists _ _
  simp only [Dev.commandTimeout, hout, hleft, hdone, if_true, Option.isNone_none]

end Timeout

/-! ## The rows -/

theorem reserve_of_waited {d : Dev} {q : Nat} {l : CmdList} {c : W512} (hhead : d.headCmd q = some (l, c)) (hengine : qEngine q = 0)
    (hstart : d.mayStart q = true) (hbusy : cmdMask c &&& d.busyMask (d.qPart q) ≠ 0) (hwaited : (d.que q).readySince.toNat + 2000000 ≤ d.time.toNat) :
    d.reserve q = d.modQue q (fun v => { v with reserved := true }) := by
  simp only [Dev.reserve, hhead, hengine, hstart, hbusy, hwaited, ne_eq, not_false_eq_true, decide_true, Bool.and_true, if_true]

/-- Settles O8: an arrival by the state of the round that it finds, a timeout by that of the round that it ends. -/
theorem barriersTimeoutsAndReservations : Obligations.BarriersTimeoutsAndReservations := by
  unfold Obligations.BarriersTimeoutsAndReservations
  have hnext {s : State} {d e : Dev} (h : d = e) : (.next (s.withDev d) : Host.Outcome State Fault Refusal) = .next (s.withDev e) := by rw [h]
  refine ⟨⟨fun s q c l rest hstarts hlists => ⟨fun hround => ?_, fun hcount hfull => ?_, fun hcount hroom hother => ?_⟩, fun s t b hcount hfull => ?_⟩,
    fun s q r l rest hruns => ?_, fun s q l c hhead hengine hstart hbusy hwaited => ?_⟩
  · exact hnext (barrierCmd_joins hstarts hround)
  · exact hnext (barrierCmd_afterFull hstarts hcount hfull)
  · refine ⟨_, hnext (barrierCmd_refused hstarts hcount hroom hother), rfl, ?_, fun hwaits => startCmd_failOpen_round hwaits 0x08 _ _⟩
    exact startCmd_endCmd_ended (d := s.dev.drawn) hlists c 0x08 0 _
  · exact hnext (barrierRelease_full hcount hfull)
  · obtain ⟨hrunning, hlists⟩ := hruns
    refine ⟨fun hset hpassed => ?_, fun hwait => hnext (commandTimeout_waits hrunning hwait)⟩
    have hout := (timedOut_iff hrunning).mpr ⟨hset, hpassed⟩
    refine ⟨fun hop hcount hfull hwaits => ?_, fun hround => ?_⟩
    · exact hnext (commandTimeout_completes hrunning hout (hlists ▸ List.cons_ne_nil l rest) hop hcount hfull hwaits)
    · exact ⟨_, hnext (commandTimeout_fails hrunning hout hround), rfl, failOpen_ended hrunning hlists 0x11⟩
  · exact hnext (reserve_of_waited hhead hengine hstart hbusy hwaited)

end Sys2Proof.Machine

/-! PROOFS. Submission (R102-R107, R118, R119): a write of SUBMIT_CTL that acts, by the checks of its list. -/
namespace Sys2Proof.Machine
open Sys2Proof

/-! ## The register -/

/-- SUBMIT_CTL lies at the same offset in both kinds of window; it is emulated there, and no trigger's target. -/
theorem State.write_submitCtl {s : State} {p : Nat} (hp : p ≤ 64) (h : s.dev.Serves p 0x50) (v : W64) (host : List Host.Cell) :
    s.write p 0x50 v 64 host = s.withDev ((s.dev.submit p v host).reply p 0 0 0x50) := by
  have hwide : ¬ (((64 : Nat) ≠ 64 ∧ (64 : Nat) ≠ 32) ∨ 0x50 % (64 / 8) ≠ 0) := by decide
  rw [State.write_aligned h]
  rcases Nat.lt_or_eq_of_le hp with hlow | rfl
  · have hemulated : emulated p 0x50 = true := by rw [emulated, if_pos hlow]; decide
    simp only [State.act, if_neg h.no_scrub, if_neg hwide, h.offset, targetAt_tenant_below hlow (show 0x50 < 0x6000 by decide), hemulated, if_pos hlow, if_true]
    rfl
  · simp only [State.act, if_neg hwide, h.offset, show targetAt 64 0x50 = none by decide, show emulated 64 0x50 = true by decide, if_true,
      show ¬ (64 : Nat) < 64 by decide, if_false]
    rfl

/-! ## The checks -/

section Submit
variable {d : Dev} {p : Nat}

theorem Dev.submit_ringOff (hring : (d.complRing p).enable = false) (v : W64) (host : List Host.Cell) :
    d.submit p v host = d.submitRec (d.submission p v) { status := 0x01, code := 0x8E, val := 0 } (d.submission p v).ptr 0xFFFF := by
  simp only [Dev.submit, hring, Bool.not_false, if_true]

variable (hring : (d.complRing p).enable = true) {v : W64} {host : List Host.Cell}
include hring

theorem Dev.submit_listFault {r : Refuse} (hfault : d.listFaultOf (d.submission p v) = some r) : d.submit p v host = d.refuse (d.submission p v) r none := by
  simp only [Dev.submit, hring, hfault, Bool.not_true, Bool.false_eq_true, if_false]

/-! A list that passes checks 1 to 4 and is read goes by the validation of its commands. -/

variable (hpass : d.listFaultOf (d.submission p v) = none) {d1 d2 : Dev} {cmds : List W512} (hfetch : d.fetchList (d.submission p v) host = (d1, .ok cmds))
include hpass hfetch

theorem Dev.submit_invalid {i : Nat} {r : Refuse} (hcheck : d1.checkList (qEngine (d.submission p v).key) (d.submission p v).view cmds = (d2, .error (i, r))) :
    d.submit p v host = d2.refuse (d.submission p v) r (some (i, cmds.getD i 0)) := by
  simp only [Dev.submit, hring, hpass, hfetch, hcheck, Bool.not_true, Bool.false_eq_true, if_false]

theorem Dev.submit_valid {kept : List Kept} (hcheck : d1.checkList (qEngine (d.submission p v).key) (d.submission p v).view cmds = (d2, .ok kept)) :
    d.submit p v host = d2.enqueue (d.submission p v) cmds kept := by
  simp only [Dev.submit, hring, hpass, hfetch, hcheck, Bool.not_true, Bool.false_eq_true, if_false]

end Submit

/-- Check 1 comes first: pointer and length of the list (R118). -/
theorem Dev.listFaultOf_shape {d : Dev} {x : Submission} (h : x.ptr % 64 ≠ 0 ∨ (x.host = false ∧ 2 ^ 48 ≤ x.ptr) ∨ x.length = 0 ∨ 1024 < x.length) :
    d.listFaultOf x = some { status := 0x04, code := 0x80, val := 0 } := by
  have hbad : (decide (x.ptr % 64 ≠ 0) || (!x.host && decide (2 ^ 48 ≤ x.ptr)) || decide (x.length = 0) || decide (1024 < x.length)) = true := by
    simpa only [Bool.or_eq_true, Bool.and_eq_true, Bool.not_eq_true', decide_eq_true_eq, or_assoc] using h
  rw [Dev.listFaultOf, hbad]
  rfl

/-! ## A list that joins its queue -/

theorem Dev.enqueue_lists (d : Dev) (x : Submission) (cmds : List W512) (kept : List Kept) :
    ((d.enqueue x cmds kept).que x.key).lists = (d.que x.key).lists ++
      [{ cmds := cmds, subTag := x.subTag, time := d.time, no := d.submitted, index := 0, progs := keptTbl Kept.prog kept, reqs := keptTbl Kept.req kept }] := by
  rw [Dev.enqueue, Dev.modQue_que]; rfl

theorem Dev.enqueue_que_other (d : Dev) (x : Submission) (cmds : List W512) (kept : List Kept) {k : Nat} (hk : k ≠ x.key) :
    (d.enqueue x cmds kept).que k = d.que k :=
  Dev.modQue_que_other _ (Ne.symm hk) _

/-- A reply with status 0x00 shows in the management path alone. -/
theorem Dev.reply_done (d : Dev) (p off : Nat) : d.reply p 0 0 off = { d with mgmt := (d.reply p 0 0 off).mgmt } := by
  by_cases hp : p < 64
  · simp only [Dev.reply, if_pos hp, if_true]
  · simp only [Dev.reply, if_neg hp, if_true]

/-- Settles O34: the write is a submission (`State.write_submitCtl`), which ends at the first check that its list fails. -/
theorem submissionsJoinTheirQueue : Obligations.SubmissionsJoinTheirQueue := by
  unfold Obligations.SubmissionsJoinTheirQueue
  intro s p v host hp hserves d x runs
  have hruns {e : Dev} (h : d.submit p v host = e) : runs (e.reply p 0 0 0x50) := by
    have hwrite := State.write_submitCtl hp hserves v host
    rw [show s.dev.submit p v host = e from h] at hwrite
    refine ⟨fun hlow => ?_, fun hmg => ?_⟩
    · rw [← hwrite]; exact congrArg Host.Outcome.next (if_pos hlow)
    · rw [← hwrite, hmg]; rfl
  refine ⟨fun hoff => hruns (Dev.submit_ringOff hoff v host), fun hon => ⟨fun hshape => ?_,
    fun hpass d1 cmds hfetch => ⟨fun d2 i r hcheck => ?_, fun d2 kept hcheck => ?_⟩⟩⟩
  · exact hruns (Dev.submit_listFault hon (Dev.listFaultOf_shape hshape))
  · exact hruns (Dev.submit_invalid hon hpass hfetch hcheck)
  · refine ⟨_, hruns (Dev.submit_valid hon hpass hfetch hcheck), ?_⟩
    rw [Dev.reply_done]
    exact ⟨d2.enqueue_lists x cmds kept, fun k hk => d2.enqueue_que_other x cmds kept hk, rfl, rfl⟩

end Sys2Proof.Machine

/-! PROOFS. The vector unit (R160-R162): what a step of it leaves, operation by operation. -/
namespace Sys2Proof.Machine
open Sys2Proof

/-! ## Lists by index -/

theorem map_mapIdx {α β γ : Type} (f : Nat → α → β) (g : β → γ) (l : List α) : (l.mapIdx f).map g = l.mapIdx (fun i x => g (f i x)) := by
  simp only [List.mapIdx_eq_zipIdx_map, List.map_map]
  rfl

theorem mapIdx_map {α β : Type} (f : α → β) (l : List α) : l.mapIdx (fun _ x => f x) = l.map f :=
  List.ext_getElem (by simp) (by simp)

/-! ## The best element of a list -/

/-- The best element so far after another one, which takes its place only where it is better by `p`. -/
def better {α : Type} (p : α → α → Prop) [DecidableRel p] (best : Option α) (x : α) : Option α :=
  match best with | none => some x | some y => if p y x then some x else some y

section Better
variable {α : Type} (p : α → α → Prop) [DecidableRel p]

theorem foldl_better_some (l : List α) : ∀ y, ∃ m ∈ y :: l, l.foldl (better p) (some y) = some m := by
  induction l with
  | nil => exact fun y => ⟨y, List.mem_singleton_self y, rfl⟩
  | cons x l ih =>
    intro y
    by_cases h : p y x
    · obtain ⟨m, hm, hfold⟩ := ih x
      exact ⟨m, List.mem_cons_of_mem y hm, by rw [List.foldl_cons, better, if_pos h, hfold]⟩
    · obtain ⟨m, hm, hfold⟩ := ih y
      exact ⟨m, List.cons_subset_cons y (List.subset_cons_self x l) hm, by rw [List.foldl_cons, better, if_neg h, hfold]⟩

/-- A list that is not empty has a best element. -/
theorem foldl_better {l : List α} (h : l ≠ []) : ∃ m ∈ l, l.foldl (better p) none = some m := by
  cases l with
  | nil => exact absurd rfl h
  | cons y l => exact foldl_better_some p l y

end Better

/-! ## The step from its operands -/

/-- The operation reads a second operand (R161). -/
def VecDesc.binary (v : VecDesc) : Bool := decide (1 ≤ v.op ∧ v.op ≤ 4) || decide (v.op = 0x13) || decide (v.op = 0x14)

/-- Rows of the second operand (R160, R161). -/
def VecDesc.rows1 (v : VecDesc) : Nat := if v.op = 0x14 then 2 else if v.bcast then 1 else v.rows

/-- The row that an operation with rows as its result writes for row `k` of the first operand. -/
def VecDesc.outRow (v : VecDesc) (b : List (List F32)) (k : Nat) (l : List F32) : List F32 :=
  if v.op = 0x12 then vecSoftmax l
  else if v.op = 0x13 then vecRms v l (rowOf v b k)
  else if v.op = 0x14 then vecLayer v l (b.getD 0 []) (b.getD 1 [])
  else l.mapIdx (fun j x => vecElem v x ((rowOf v b k).getD j f32Zero))

/-- Writes and saturations as the result of a step that met no failure. -/
def vecWrote (w : List (Nat × List B8) × Nat) : VecRes := { writes := w.1, sat := w.2 }

section Operands
variable {d d1 d2 : Dev} {party c : Nat} {v : VecDesc} {a b : List (List F32)} {f : Fail}

/-- The second operand, where the operation reads one. -/
def Dev.secondOperand (d : Dev) (party c : Nat) (v : VecDesc) : Dev × Except Fail (List (List F32)) :=
  if v.binary then d.readTensor party (clusterDpa c 0 + v.src1) v.inF v.rows1 v.cols else (d, .ok [])

variable (hrows : ¬ (v.op = 0x17 ∨ v.op = 0x18))
include hrows

theorem vecStep_firstFails (ha : d.readTensor party (clusterDpa c 0 + v.src0) v.inF v.rows v.cols = (d1, .error f)) :
    d.vecStep party c v = (d1, { fail := some f }) := by
  simp only [Dev.vecStep, if_neg hrows, ha]

variable (ha : d.readTensor party (clusterDpa c 0 + v.src0) v.inF v.rows v.cols = (d1, .ok a))
include ha

theorem vecStep_secondFails (hb : d1.secondOperand party c v = (d2, .error f)) : d.vecStep party c v = (d2, { fail := some f }) := by
  unfold Dev.secondOperand VecDesc.binary VecDesc.rows1 at hb
  simp only [Dev.vecStep, if_neg hrows, ha, hb]

/-- A step whose operands were read leaves what its operation gives (R161). -/
theorem vecStep_operands (hb : d1.secondOperand party c v = (d2, .ok b)) : d.vecStep party c v =
    if v.op = 0x10 then (d2, vecWrote (columnWrites v.dst v.outF (a.map rowSum)))
    else if v.op = 0x11 then (d2, vecWrote (columnWrites v.dst v.outF (a.map rowMax)))
    else if v.op = 0x15 then
      let w := tensorWrites v.dst v.outF v.cols (a.map (fun l => (vecQuant v l).2))
      (d2, vecWrote (w.1 ++ (columnWrites v.src1 8 (a.map (fun l => (vecQuant v l).1))).1, w.2))
    else if v.op = 0x16 then
      let t := (a.mapIdx (fun i l => topkRow d2.draw (f32Nat v.sa) i l)).flatten
      (if v.cols < f32Nat v.sa then d2.drawn else d2,
        vecWrote ([(v.dst, (t.map (fun x => leBytes 4 x.1)).flatten), (v.src1, (t.map (fun x => leBytes 4 x.2.toNat)).flatten)], 0))
    else (d2, vecWrote (tensorWrites v.dst v.outF v.cols (a.mapIdx (v.outRow b)))) := by
  unfold Dev.secondOperand VecDesc.binary VecDesc.rows1 at hb
  simp only [Dev.vecStep, if_neg hrows, ha, hb, List.map_map]
  rfl

theorem vecStep_outRows (hb : d1.secondOperand party c v = (d2, .ok b)) (hop : ¬ (v.op = 0x10 ∨ v.op = 0x11 ∨ v.op = 0x15 ∨ v.op = 0x16)) :
    d.vecStep party c v = (d2, vecWrote (tensorWrites v.dst v.outF v.cols (a.mapIdx (v.outRow b)))) := by
  simp only [not_or] at hop
  obtain ⟨hsum, hmax, hquant, htopk⟩ := hop
  rw [vecStep_operands hrows ha hb, if_neg hsum, if_neg hmax, if_neg hquant, if_neg htopk]

end Operands

section Indices
variable {d d1 d2 : Dev} {party c : Nat} {v : VecDesc} {ix : List Nat} {a : List (List F32)} {f : Fail}
variable (hop : v.op = 0x17 ∨ v.op = 0x18)
include hop

theorem vecStep_indexFails (hix : d.bufCodes party (clusterDpa c 0 + v.src1) (4 * v.rows) 32 = (d1, .error f)) :
    d.vecStep party c v = (d1, { fail := some f }) := by
  simp only [Dev.vecStep, if_pos hop, hix]

variable (hix : d.bufCodes party (clusterDpa c 0 + v.src1) (4 * v.rows) 32 = (d1, .ok ix))
include hix

/-- An index beyond the rows (R161). -/
theorem vecStep_indexBeyond (hbad : ∃ k ∈ ix, v.rows ≤ k) :
    d.vecStep party c v = (d1.drawn, { fail := some { status := 0x03, code := (Config.freeByte d1.draw).toNat } }) := by
  have hany : ix.any (fun i => decide (v.rows ≤ i)) = true := by simpa using hbad
  simp only [Dev.vecStep, if_pos hop, hix, hany, if_true]

variable (hgood : ∀ k ∈ ix, k < v.rows)
include hgood

theorem vecStep_indexedFails (ha : d1.readTensor party (clusterDpa c 0 + v.src0) v.inF v.rows v.cols = (d2, .error f)) :
    d.vecStep party c v = (d2, { fail := some f }) := by
  have hany : ¬ ix.any (fun i => decide (v.rows ≤ i)) = true := by simpa using hgood
  simp only [Dev.vecStep, if_pos hop, hix, if_neg hany, ha]

theorem vecStep_indexed (ha : d1.readTensor party (clusterDpa c 0 + v.src0) v.inF v.rows v.cols = (d2, .ok a)) : d.vecStep party c v =
    if v.op = 0x17 then (d2, vecWrote (tensorWrites v.dst v.outF v.cols (ix.map (fun k => a.getD k []))))
    else
      let ws := ix.mapIdx (fun k t => let one := tensorWrites v.dst v.outF v.cols (List.replicate t [] ++ [a.getD k []])
        (one.1.drop (t * (v.cols / 16)), one.2))
      (d2, vecWrote ((ws.map (fun x => x.1)).flatten, (ws.map (fun x => x.2)).sum)) := by
  have hany : ¬ ix.any (fun i => decide (v.rows ≤ i)) = true := by simpa using hgood
  simp only [Dev.vecStep, if_pos hop, hix, if_neg hany, ha]
  rfl

end Indices

/-! ## The step of a unit -/

section Unit
variable {d d1 : Dev} {r : RunRef} {c op : Nat} {g : Prog} {u : UnitRun}
variable (hg : d.runProg r = some g) (hu : g.findUnit 2 c (fun w => decide (bytesAt w 1 1 = op)) = some u)

theorem vecDesc_op_of_findUnit (hu : g.findUnit 2 c (fun w => decide (bytesAt w 1 1 = op)) = some u) : (vecDesc (g.step u.step)).op = op := by
  have h := List.find?_some hu
  simp only [Bool.and_eq_true, decide_eq_true_eq] at h
  exact h.2

include hg

theorem vectorStep_noUnit (hnone : g.findUnit 2 c (fun w => decide (bytesAt w 1 1 = op)) = none) : d.vectorStep op r c = d := by
  simp only [Dev.vectorStep, hg, hnone]

include hu

theorem vectorStep_done {w : List (Nat × List B8) × Nat} (hstep : d.vecStep g.party c (vecDesc (g.step u.step)) = (d1, vecWrote w)) :
    d.vectorStep op r c =
      (((d1.putOutput g c w.1).countCl c 0x05 g.attr w.2).countVec c g.attr (vecCycles (vecDesc (g.step u.step)))).unitDone r g u [] 1 := by
  simp only [Dev.vectorStep, hg, hu, hstep, vecWrote]

theorem vectorStep_fails {f : Fail} (hstep : d.vecStep g.party c (vecDesc (g.step u.step)) = (d1, { fail := some f })) :
    d.vectorStep op r c = (d1.countVec c g.attr none).unitDone r g u [(unitCluster c 8, f)] 1 := by
  simp only [Dev.vectorStep, hg, hu, hstep]

end Unit

/-! ## The second operand and the rows of an operation -/

section Rows
variable {d : Dev} {party c : Nat} {v : VecDesc}

theorem secondOperand_rows (hop : (1 ≤ v.op ∧ v.op ≤ 4) ∨ v.op = 0x13) :
    d.secondOperand party c v = d.readTensor party (clusterDpa c 0 + v.src1) v.inF (if v.bcast then 1 else v.rows) v.cols := by
  have htwo : v.binary = true := by
    simp only [VecDesc.binary, Bool.or_eq_true, decide_eq_true_eq]; omega
  rw [Dev.secondOperand, htwo, if_pos rfl, VecDesc.rows1, if_neg (by omega)]

theorem secondOperand_layernorm (hop : v.op = 0x14) :
    d.secondOperand party c v = d.readTensor party (clusterDpa c 0 + v.src1) v.inF 2 v.cols := by
  have htwo : v.binary = true := by simp [VecDesc.binary, hop]
  rw [Dev.secondOperand, htwo, if_pos rfl, VecDesc.rows1, if_pos hop]

theorem secondOperand_none (hop : ¬ ((1 ≤ v.op ∧ v.op ≤ 4) ∨ v.op = 0x13 ∨ v.op = 0x14)) : d.secondOperand party c v = (d, .ok []) := by
  have hone : ¬ v.binary = true := by
    simp only [VecDesc.binary, Bool.or_eq_true, decide_eq_true_eq]; omega
  rw [Dev.secondOperand, if_neg hone]

theorem vecResult_eq_vecElem (hlo : 1 ≤ v.op) (hhi : v.op ≤ 0x0C) (x y : F32) : (vecResult v x y v.op).getD f32Zero = vecElem v x y := by
  unfold vecElem
  generalize v.op = op at hlo hhi
  interval_cases op <;> rfl

theorem VecDesc.outRow_elementwise (b : List (List F32)) (hlo : 1 ≤ v.op) (hhi : v.op ≤ 0x0C) :
    v.outRow b = fun k l => l.mapIdx (fun j x => (vecResult v x ((rowOf v b k).getD j f32Zero) v.op).getD f32Zero) := by
  funext k l
  simp only [VecDesc.outRow, vecResult_eq_vecElem hlo hhi]
  rw [if_neg (by omega), if_neg (by omega), if_neg (by omega)]

/-- With no second operand read, every element of it stands as +0. -/
theorem VecDesc.outRow_unary (hlo : 1 ≤ v.op) (hhi : v.op ≤ 0x0C) :
    v.outRow [] = fun _ l => l.map (fun x => (vecResult v x f32Zero v.op).getD f32Zero) := by
  rw [VecDesc.outRow_elementwise [] hlo hhi]
  funext k l
  exact mapIdx_map (fun x => (vecResult v x f32Zero v.op).getD f32Zero) l

theorem VecDesc.outRow_softmax (b : List (List F32)) (hop : v.op = 0x12) : v.outRow b = fun _ l => vecSoftmax l := by
  funext k l
  rw [VecDesc.outRow, if_pos hop]

theorem VecDesc.outRow_rmsnorm (b : List (List F32)) (hop : v.op = 0x13) : v.outRow b = fun k l => vecRms v l (rowOf v b k) := by
  funext k l
  rw [VecDesc.outRow, if_neg (by omega), if_pos hop]

theorem VecDesc.outRow_layernorm (b : List (List F32)) (hop : v.op = 0x14) :
    v.outRow b = fun _ l => vecLayer v l (b.getD 0 []) (b.getD 1 []) := by
  funext k l
  rw [VecDesc.outRow, if_neg (by omega), if_neg (by omega), if_pos hop]

end Rows

/-! ## Every operation -/

/-- The operations of R161. -/
abbrev IsVecOp (op : Nat) : Prop := (1 ≤ op ∧ op ≤ 0x0C) ∨ (0x10 ≤ op ∧ op ≤ 0x18)

/-- A vector step runs as R160 to R162 say, whatever its operation. -/
theorem vectorStep_vecRan (d : Dev) (r : RunRef) (c : Nat) {op : Nat} (hvalid : IsVecOp op) : d.VecRan r c op (d.vectorStep op r c) := by
  intro g hg
  refine ⟨vectorStep_noUnit hg, fun u hu => ?_⟩
  have hop := vecDesc_op_of_findUnit hu
  have hdone {x : Dev} {w} := vectorStep_done (d1 := x) (w := w) hg hu
  have hfails {x : Dev} {f} := vectorStep_fails (d1 := x) (f := f) hg hu
  generalize vecDesc (g.step u.step) = v at hop hdone hfails ⊢
  subst hop
  intro _ base done fails
  refine ⟨fun hrow d1 f ha => hfails (vecStep_firstFails (by omega) ha), fun d1 a ha => ?_, fun hidx => ?_⟩
  · have hnoidx : v.op < 0x17 → ¬ (v.op = 0x17 ∨ v.op = 0x18) := by omega
    have hplain (hrow : v.op < 0x17) (hone : ¬ ((1 ≤ v.op ∧ v.op ≤ 4) ∨ v.op = 0x13 ∨ v.op = 0x14)) :=
      vecStep_operands (hnoidx hrow) ha (secondOperand_none hone)
    refine ⟨fun htwo d2 b hb => ?_, fun htwo d2 f hb => ?_, fun hlayer d2 b hb => ?_, fun hlayer d2 f hb => ?_,
      fun hlo hhi => ?_, fun hsum => ?_, fun hmax => ?_, fun hsoft => ?_, fun hquant => ?_, fun htopk => ?_⟩
    · have hrows := hdone (vecStep_outRows (hnoidx (by omega)) ha ((secondOperand_rows (by omega)).trans hb) (by omega))
      refine ⟨fun h => ?_, fun h => ?_⟩
      · rwa [VecDesc.outRow_elementwise b (by omega) (by omega)] at hrows
      · rwa [VecDesc.outRow_rmsnorm b h] at hrows
    · exact hfails (vecStep_secondFails (hnoidx (by omega)) ha ((secondOperand_rows (by omega)).trans hb))
    · have hrows := hdone (vecStep_outRows (hnoidx (by omega)) ha ((secondOperand_layernorm hlayer).trans hb) (by omega))
      rwa [VecDesc.outRow_layernorm b hlayer, mapIdx_map] at hrows
    · exact hfails (vecStep_secondFails (hnoidx (by omega)) ha ((secondOperand_layernorm hlayer).trans hb))
    · have hrows := hdone (vecStep_outRows (hnoidx (by omega)) ha (secondOperand_none (by omega)) (by omega))
      rwa [VecDesc.outRow_unary (by omega) hhi, mapIdx_map] at hrows
    · exact hdone ((hplain (by omega) (by omega)).trans (if_pos hsum))
    · have hstep := hplain (by omega) (by omega)
      rw [if_neg (by omega), if_pos hmax] at hstep
      exact hdone hstep
    · have hrows := hdone (vecStep_outRows (hnoidx (by omega)) ha (secondOperand_none (by omega)) (by omega))
      rwa [VecDesc.outRow_softmax [] hsoft, mapIdx_map] at hrows
    · have hstep := hplain (by omega) (by omega)
      rw [if_neg (by omega), if_neg (by omega), if_pos hquant] at hstep
      exact hdone hstep
    · have hstep := hplain (by omega) (by omega)
      rw [if_neg (by omega), if_neg (by omega), if_neg (by omega), if_pos htopk] at hstep
      exact hdone hstep
  · refine ⟨fun d1 f hix => hfails (vecStep_indexFails hidx hix), fun d1 ix hix => ⟨fun hbad => ?_, fun hgood d2 a ha => ?_, fun hgood d2 f ha => ?_⟩⟩
    · exact ⟨_, rfl, hfails (vecStep_indexBeyond hidx hix hbad)⟩
    · have hstep := vecStep_indexed hidx hix hgood ha
      refine ⟨fun hgather => ?_, fun hscatter => ?_⟩
      · rw [if_pos hgather] at hstep
        exact hdone hstep
      · rw [if_neg (by omega)] at hstep
        refine ⟨_, _, hdone hstep, ?_⟩
        rw [map_mapIdx]
    · exact hfails (vecStep_indexedFails hidx hix hgood ha)

/-! ## TOPK_ROW -/

theorem vecTopk_succ (k : Nat) (l : List (Nat × F32)) : vecTopk (k + 1) l =
    match l.foldl (better (fun y x => flt y.2 x.2 = true)) none with
    | none => []
    | some m => m :: vecTopk k (l.filter (fun x => decide (x.1 ≠ m.1))) := by
  rw [vecTopk]
  refine congrArg (fun f => match l.foldl f none with | none => [] | some m => m :: vecTopk k (l.filter (fun x => decide (x.1 ≠ m.1)))) (funext₂ ?_)
  rintro (_ | y) x <;> rfl

/-- An element taken out by its number takes one element out of a row whose numbers differ. -/
theorem filter_number {l : List (Nat × F32)} (hnodup : (l.map Prod.fst).Nodup) {m : Nat × F32} (hm : m ∈ l) :
    ((l.filter (fun x => decide (x.1 ≠ m.1))).map Prod.fst).Nodup ∧ (l.filter (fun x => decide (x.1 ≠ m.1))).length = l.length - 1 := by
  have herase : (l.filter (fun x => decide (x.1 ≠ m.1))).map Prod.fst = (l.map Prod.fst).erase m.1 := by
    rw [hnodup.erase_eq_filter, List.filter_map]
    congr 1
    exact List.filter_congr fun x _ => decide_not (p := x.1 = m.1)
  refine ⟨herase ▸ hnodup.erase _, ?_⟩
  rw [← List.length_map (f := Prod.fst), herase, List.length_erase_of_mem (List.mem_map_of_mem hm), List.length_map]

/-- A row with `k` elements of different numbers has `k` largest ones. -/
theorem length_vecTopk (k : Nat) : ∀ {l : List (Nat × F32)}, (l.map Prod.fst).Nodup → k ≤ l.length → (vecTopk k l).length = k := by
  induction k with
  | zero => exact fun _ _ => rfl
  | succ k ih =>
    intro l hnodup hk
    cases l with
    | nil => simp at hk
    | cons y l =>
      obtain ⟨m, hm, hbest⟩ := foldl_better (fun (y x : Nat × F32) => flt y.2 x.2 = true) (List.cons_ne_nil y l)
      obtain ⟨hnodup', hlength⟩ := filter_number hnodup hm
      rw [List.length_cons] at hk
      rw [vecTopk_succ, hbest]
      exact congrArg (· + 1) (ih hnodup' (by rw [hlength, List.length_cons]; omega))

theorem length_vecTopk_row {k : Nat} {l : List F32} (hk : k ≤ l.length) : (vecTopk k (l.mapIdx (fun j x => (j, x)))).length = k := by
  have hnumbers : (l.mapIdx (fun j x => (j, x))).map Prod.fst = List.range l.length := by
    rw [map_mapIdx]
    exact List.ext_getElem (by simp) (by simp)
  exact length_vecTopk k (hnumbers ▸ List.nodup_range) (by rwa [List.length_mapIdx])

/-- Settles O48: each row is `vectorStep_vecRan` of its operation; a TOPK_ROW that has the columns takes no free value. -/
theorem vectorStepsWriteTheirRows : Obligations.VectorStepsWriteTheirRows := by
  unfold Obligations.VectorStepsWriteTheirRows
  refine ⟨fun s r c => ?_, fun draw k i l hk => ?_⟩
  · and_intros <;> exact ⟨_, rfl, rfl, vectorStep_vecRan s.dev r c (by decide)⟩
  · have hlength := length_vecTopk_row hk
    have htop : topkRow draw k i l = vecTopk k (l.mapIdx (fun j x => (j, x))) := by
      simp only [topkRow, hlength, Nat.sub_self, List.range_zero, List.map_nil, List.append_nil]
    exact ⟨htop, htop ▸ hlength⟩

end Sys2Proof.Machine

/-! PROOFS. The program that runs at a place, and what the issue, the barriers and the start of units leave of the device (R137, R165, R166). -/
namespace Sys2Proof.Machine
open Sys2Proof

/-! ## The program at a place -/

theorem prog_of_runs {d e : Dev} (hqueues : e.queues = d.queues) (hparts : e.parts = d.parts) (r : RunRef) : e.prog r = d.prog r := by
  cases r <;> simp only [Dev.prog, Dev.running, Dev.que, Dev.part, hqueues, hparts]

theorem prog_of_quiet {d e : Dev} (h : e.quiet = d.quiet) (r : RunRef) : e.prog r = d.prog r := by
  simp only [Dev.quiet, Prod.mk.injEq] at h
  exact prog_of_runs h.2.2.1 h.2.1 r

/-- Where a program runs, another one can be put in its place. -/
theorem setProg_prog {d : Dev} {r : RunRef} {g : Prog} (h : d.prog r = some g) (v : Prog) : (d.setProg r v).prog r = some v := by
  cases r with
  | queue q =>
    simp only [Dev.prog, Dev.running] at h
    cases hrun : (d.que q).running with
    | none => rw [hrun] at h; cases h
    | some w => simp only [Dev.setProg, Dev.prog, Dev.running, Dev.modQue_que, hrun]
  | batch p =>
    simp only [Dev.prog] at h
    cases hbatch : (d.part p).batch with
    | none => rw [hbatch] at h; cases h
    | some b => simp only [Dev.setProg, Dev.prog, Dev.modPart_part, hbatch]

/-- A program that is not over goes on. -/
theorem progEnd_running {d : Dev} {r : RunRef} {g : Prog} (h : d.prog r = some g) (hover : g.over = false) : d.progEnd r = d := by
  cases r with
  | batch p => rfl
  | queue q => simp only [Dev.progEnd, h, hover, Bool.false_eq_true, if_false]

/-! ## Clusters, regions and counters -/

/-- From `d` to `e` only regions, clusters and counters change. -/
def Dev.unitsOnly (d e : Dev) : Prop := ∃ r c m, e = { d with regions := r, clusters := c, pmc := m }

theorem unitsOnly_refl (d : Dev) : d.unitsOnly d := ⟨_, _, _, rfl⟩
theorem unitsOnly_trans {a b c : Dev} (h : a.unitsOnly b) (k : b.unitsOnly c) : a.unitsOnly c := by
  obtain ⟨_, _, _, rfl⟩ := h
  obtain ⟨_, _, _, rfl⟩ := k
  exact ⟨_, _, _, rfl⟩
theorem unitsOnly_foldl {β : Type} {f : Dev → β → Dev} (hf : ∀ (d : Dev) b, d.unitsOnly (f d b)) (l : List β) (d : Dev) :
    d.unitsOnly (l.foldl f d) :=
  foldl_keeps (P := d.unitsOnly) (fun e b h => unitsOnly_trans h (hf e b)) l (unitsOnly_refl d)
theorem modCluster_units (d : Dev) (c : Nat) (f : Cluster → Cluster) : d.unitsOnly (d.modCluster c f) := ⟨_, _, _, rfl⟩
theorem modRegion_units (d : Dev) (n : Nat) (f : RegionState → RegionState) : d.unitsOnly (d.modRegion n f) := ⟨_, _, _, rfl⟩
theorem countRg_units (d : Dev) (n ev who k : Nat) : d.unitsOnly (d.countRg n ev who k) := ⟨_, _, _, rfl⟩

theorem prog_of_unitsOnly {d e : Dev} (h : d.unitsOnly e) (r : RunRef) : e.prog r = d.prog r := by
  obtain ⟨_, _, _, rfl⟩ := h
  exact prog_of_runs rfl rfl r

/-- The last release of a region's barrier controller: its number, its delay and its time (R165, R168). -/
def RegionState.release (v : RegionState) := (v.relNo, v.relDelay, v.relAt)

/-- From `d` to `e` units start: only regions, clusters and counters change, and the barrier controllers make no release. -/
def Dev.starts (d e : Dev) : Prop := d.unitsOnly e ∧ ∀ n, (e.region n).release = (d.region n).release

theorem starts_refl (d : Dev) : d.starts d := ⟨unitsOnly_refl d, fun _ => rfl⟩
theorem starts_trans {a b c : Dev} (h : a.starts b) (k : b.starts c) : a.starts c := ⟨unitsOnly_trans h.1 k.1, fun n => (k.2 n).trans (h.2 n)⟩
theorem starts_foldl {β : Type} {f : Dev → β → Dev} (hf : ∀ (d : Dev) b, d.starts (f d b)) (l : List β) (d : Dev) : d.starts (l.foldl f d) :=
  foldl_keeps (P := d.starts) (fun e b h => starts_trans h (hf e b)) l (starts_refl d)
theorem modCluster_starts (d : Dev) (c : Nat) (f : Cluster → Cluster) : d.starts (d.modCluster c f) := ⟨modCluster_units d c f, fun _ => rfl⟩
theorem countRg_starts (d : Dev) (n ev who k : Nat) : d.starts (d.countRg n ev who k) := ⟨countRg_units d n ev who k, fun _ => rfl⟩

theorem modRegion_starts (d : Dev) (n : Nat) {f : RegionState → RegionState} (hf : ∀ v, (f v).release = v.release) : d.starts (d.modRegion n f) := by
  refine ⟨modRegion_units d n f, fun k => ?_⟩
  by_cases h : n = k
  · rw [← h, Dev.modRegion_region, hf]
  · rw [d.modRegion_region_other h]

theorem rampCluster_starts (d : Dev) (g : Prog) (c n : Nat) : d.starts (d.rampCluster g c n) := by
  unfold Dev.rampCluster
  extract_lets v r d1
  have h1 : d.starts d1 := by
    simp only [d1]; split
    · exact starts_refl d
    · refine starts_trans (starts_trans (starts_foldl (fun e l => modCluster_starts e _ _) _ d) (modRegion_starts _ r ?_)) (countRg_starts _ _ _ _ _)
      exact fun _ => rfl
  split
  · exact starts_refl d
  · split
    · exact h1
    · exact starts_trans h1 (modRegion_starts d1 r fun _ => rfl)

theorem startUnit_starts (d : Dev) (g : Prog) (u : UnitRun) : d.starts (d.startUnit g u).1 := by
  unfold Dev.startUnit
  extract_lets es ws n d1 d2 d3
  have h1 : d.starts d1 := starts_foldl (fun e l => rampCluster_starts e g _ _) _ d
  have h2 : d1.starts d2 := starts_foldl (fun e x => modCluster_starts e _ _) _ d1
  have h3 : d2.starts d3 := by
    simp only [d3]; split
    · exact starts_refl d2
    · exact modRegion_starts d2 u.region fun _ => rfl
  exact starts_trans (starts_trans h1 h2) h3

theorem startUnits_starts (d : Dev) (g : Prog) (us : List UnitRun) : d.starts (d.startUnits g us).1 := by
  unfold Dev.startUnits
  refine foldl_keeps (P := fun (s : Dev × List UnitRun) => d.starts s.1) (fun s u h => ?_) us (starts_refl d)
  dsimp only
  split
  · exact h
  · exact starts_trans h (startUnit_starts s.1 g u)

/-! ## Releases -/

theorem barrierOpen_units (d : Dev) (n delay : Nat) (ls : List Nat) : d.unitsOnly (d.barrierOpen n delay ls) :=
  unitsOnly_trans (modRegion_units d n _) (unitsOnly_foldl (fun e c => modCluster_units e c _) ls _)

theorem barrierOpen_regions (d : Dev) (n delay : Nat) (ls : List Nat) : (d.barrierOpen n delay ls).regions =
    (d.modRegion n (fun v => { v with relNo := (d.region n).relNo + 1, relDelay := delay, relAt := d.time, ramped := 0 })).regions := by
  refine foldl_keeps (P := fun e : Dev => e.regions = (d.modRegion n _).regions) (fun e c h => ?_) ls rfl
  exact h

theorem barrierOpen_region (d : Dev) (n delay : Nat) (ls : List Nat) :
    ((d.barrierOpen n delay ls).region n).release = ((d.region n).relNo + 1, delay, d.time) := by
  rw [Dev.region, barrierOpen_regions]
  exact congrArg RegionState.release (d.modRegion_region n _)

theorem barrierOpen_region_other (d : Dev) {n k : Nat} (h : n ≠ k) (delay : Nat) (ls : List Nat) : (d.barrierOpen n delay ls).region k = d.region k := by
  rw [Dev.region, barrierOpen_regions]
  exact d.modRegion_region_other h _

section Several
variable (delay : Nat) (reach : Nat → List Nat)

/-- A release of several regions. -/
def Dev.barriersOpen (d : Dev) (l : List Nat) : Dev := l.foldl (fun d k => d.barrierOpen k delay (reach k)) d

theorem barriersOpen_units (d : Dev) (l : List Nat) : d.unitsOnly (d.barriersOpen delay reach l) :=
  unitsOnly_foldl (fun e k => barrierOpen_units e k delay (reach k)) l d

theorem barriersOpen_region_other {m : Nat} {l : List Nat} (h : m ∉ l) : ∀ d : Dev, (d.barriersOpen delay reach l).region m = d.region m := by
  induction l with
  | nil => exact fun _ => rfl
  | cons k l ih =>
    intro d
    exact (ih (List.not_mem_of_not_mem_cons h) _).trans (barrierOpen_region_other d (Ne.symm (List.ne_of_not_mem_cons h)) delay (reach k))

/-- The barrier controller of each region notes the release. -/
theorem barriersOpen_region {m : Nat} {l : List Nat} (hnodup : l.Nodup) (hm : m ∈ l) : ∀ d : Dev,
    ((d.barriersOpen delay reach l).region m).release = ((d.region m).relNo + 1, delay, d.time) := by
  induction l with
  | nil => cases hm
  | cons k l ih =>
    intro d
    obtain ⟨hk, hnodup'⟩ := List.nodup_cons.mp hnodup
    by_cases h : m = k
    · subst h
      exact (congrArg RegionState.release (barriersOpen_region_other delay reach hk _)).trans (barrierOpen_region d m delay (reach m))
    · have hrest := ih hnodup' (List.mem_of_ne_of_mem h hm) (d.barrierOpen k delay (reach k))
      have htime : (d.barrierOpen k delay (reach k)).time = d.time := by
        obtain ⟨_, _, _, hunits⟩ := barrierOpen_units d k delay (reach k)
        rw [hunits]
      rwa [barrierOpen_region_other d (Ne.symm h), htime] at hrest

end Several

/-! ## The sequencers (R137, R165) -/

/-- From `d` to `e` the program at `r` has become `g`; only programs, regions, clusters and counters change. -/
structure Dev.Carries (r : RunRef) (g : Prog) (d e : Dev) : Prop where
  frame : e = { d with queues := e.queues, parts := e.parts, regions := e.regions, clusters := e.clusters, pmc := e.pmc }
  prog : e.prog r = some g

/-- Regions that a release reaches (R165). -/
def Prog.releases (g : Prog) (h : Hold) : List Nat := if h.scope = 2 then g.regions else [h.region]

theorem releases_nodup (g : Prog) (h : Hold) : (g.releases h).Nodup := by
  unfold Prog.releases
  split
  · exact List.nodup_range.filter _
  · exact List.nodup_singleton _

/-- Units that waited for a release alone. -/
def Prog.freed (g : Prog) (h : Hold) : List UnitRun :=
  (g.released h).units.filter (fun u => !u.parked && g.units.any (fun x => decide (x = { u with parked := true })))

section Sequencer
variable {d d1 : Dev} {r : RunRef} {g : Prog} {n : Nat} (hg : d.prog r = some g)

theorem countRg_carries {e : Dev} (h : Dev.Carries r g d e) (n ev who k : Nat) : Dev.Carries r g d (e.countRg n ev who k) :=
  ⟨congrArg (fun x : Dev => x.countRg n ev who k) h.frame, h.prog⟩

/-- A program that goes on after its step has been put in place. -/
theorem progEnd_carries {e : Dev} (h : Dev.Carries r g d e) (hover : g.over = false) : Dev.Carries r g d (e.progEnd r) := by
  rwa [progEnd_running h.prog hover]

include hg

theorem issue_waits (hcan : g.canIssue n = false) : d.issue r n = d := by
  simp only [Dev.issue, hg, hcan, Bool.false_and, Bool.false_eq_true, if_false]

theorem setProg_carries (h : d.unitsOnly d1) (v : Prog) : Dev.Carries r v d (d1.setProg r v) := by
  refine ⟨?_, setProg_prog ((prog_of_unitsOnly h r).trans hg) v⟩
  obtain ⟨_, _, _, rfl⟩ := h
  cases r <;> rfl

variable (hclock : d.clocked g.partition = true)
include hclock

theorem runProg_of_clocked : d.runProg r = some g := by
  rw [Dev.runProg, hg, Option.filter_some, if_pos hclock]

theorem syncRelease_waits (hnone : g.holds.find? g.holdDone = none) : d.syncRelease r = d := by
  simp only [Dev.syncRelease, runProg_of_clocked hg hclock, hnone]

theorem issue_carries (hcan : g.canIssue n = true) : let x := d.startUnits g ((g.unitsOf n (g.pc n)).map (fun u => { u with parked := g.isHeld u }))
    Dev.Carries r { g.advance n with units := g.units ++ x.2 } d (d.issue r n) := by
  intro x
  have h := countRg_carries (setProg_carries hg (d1 := x.1) (startUnits_starts d g _).1 { g.advance n with units := g.units ++ x.2 }) n 0x01 g.attr 1
  simpa only [Dev.issue, hg, hcan, hclock, Bool.and_self, if_true] using h

theorem nop_carries (hnext : g.next n (fun x => decide (stepKind x = 0)) = true) (hover : (g.advance n).over = false) :
    Dev.Carries r (g.advance n) d (d.nopStep r n) := by
  have h := progEnd_carries (countRg_carries (setProg_carries hg (unitsOnly_refl d) (g.advance n)) n 0x01 g.attr 1) hover
  simpa only [Dev.nopStep, hg, hnext, hclock, Bool.and_self, if_true] using h

theorem sync_carries (hnext : g.next n (fun x => decide (stepKind x = 5)) = true) {v : Prog}
    (hv : v = { g.advance n with holds := g.holds ++ g.syncHolds (g.step (g.pc n)) n }) (hover : v.over = false) : Dev.Carries r v d (d.syncStep r n) := by
  have h := progEnd_carries (countRg_carries (setProg_carries hg (unitsOnly_refl d) v) n 0x01 g.attr 1) hover
  subst hv
  simpa only [Dev.syncStep, hg, hnext, hclock, Bool.and_self, if_true] using h

theorem release_carries {h : Hold} (hfind : g.holds.find? g.holdDone = some h) {v : Prog}
    (hd1 : d1 = d.barriersOpen (releaseDelay g h) (releaseTo h) (g.releases h))
    (hv : v = { g.released h with units := (g.released h).units.filter (fun u => !(g.freed h).contains u) ++ (d1.startUnits g (g.freed h)).2 })
    (hover : v.over = false) : Dev.Carries r v d (d.syncRelease r) ∧
      ∀ m ∈ g.releases h, ((d.syncRelease r).region m).release = ((d.region m).relNo + 1, releaseDelay g h, d.time) := by
  have hstarts := startUnits_starts d1 g (g.freed h)
  have hput := setProg_carries hg (unitsOnly_trans (hd1 ▸ barriersOpen_units _ _ d _) hstarts.1) v
  have hrelease : d.syncRelease r = (d1.startUnits g (g.freed h)).1.setProg r v := by
    rw [← progEnd_running hput.prog hover]
    subst hd1 hv
    simp only [Dev.syncRelease, runProg_of_clocked hg hclock, hfind]
    rfl
  rw [hrelease]
  refine ⟨hput, fun m hm => ?_⟩
  rw [← barriersOpen_region (releaseDelay g h) (releaseTo h) (releases_nodup g h) hm d, ← hd1, ← hstarts.2 m]
  cases r <;> rfl

end Sequencer

/-! ## The gust limiter (R166) -/

theorem foldl_better_least {α : Type} (key : α → Nat) (l : List α) : ∀ {y m}, l.foldl (better (fun y x => key x < key y)) (some y) = some m →
    ∀ x ∈ y :: l, key m ≤ key x := by
  induction l with
  | nil =>
    intro y m hm x hx
    cases hm
    rw [List.mem_singleton.mp hx]
  | cons z l ih =>
    intro y m hm x hx
    rw [List.foldl_cons, better] at hm
    split at hm
    all_goals
      have hle := ih hm
      grind

/-- The place of an engine in the order 16 × ME + local cluster. -/
def engineOrder (x : Nat × Nat) : Nat := 16 * x.1 + x.2

/-- A program once engine `m` of region `n` has started. -/
def Prog.engineGo (g : Prog) (n : Nat) (m : Nat × Nat) : Prog := if g.mask.getLsbD n then startEngine n m.1 m.2 g else g

def Queue.engineGo (v : Queue) (n : Nat) (m : Nat × Nat) : Queue :=
  { v with running := v.running.map (fun x => { x with prog := x.prog.map (fun g => g.engineGo n m) }) }
def PartState.engineGo (v : PartState) (n : Nat) (m : Nat × Nat) : PartState :=
  { v with batch := v.batch.map (fun b => { b with prog := b.prog.map (fun g => g.engineGo n m) }) }

/-- The device once engine `m` has passed the limiter of region `n`. -/
def Dev.engineOut (d : Dev) (n : Nat) (m : Nat × Nat) : Dev :=
  { d.modRegion n (fun v => { v with waiting := v.waiting.filter (fun x => decide (x ≠ m)) }) with
    queues := d.queues.map (fun e => (e.1, e.2.engineGo n m)), parts := d.parts.map (fun e => (e.1, e.2.engineGo n m)) }

theorem engineOut_waiting (d : Dev) (n : Nat) (m : Nat × Nat) : ((d.engineOut n m).region n).waiting = (d.region n).waiting.filter (fun x => decide (x ≠ m)) :=
  congrArg RegionState.waiting (d.modRegion_region n (fun v => { v with waiting := v.waiting.filter (fun x => decide (x ≠ m)) }))
theorem engineOut_que (d : Dev) (n : Nat) (m : Nat × Nat) (q : Nat) : (d.engineOut n m).que q = (d.que q).engineGo n m :=
  Tbl.get_mapVal (α := Queue) (f := fun v => v.engineGo n m) (x := {}) rfl d.queues q
theorem engineOut_part (d : Dev) (n : Nat) (m : Nat × Nat) (p : Nat) : (d.engineOut n m).part p = (d.part p).engineGo n m :=
  Tbl.get_mapVal (α := PartState) (f := fun v => v.engineGo n m) (x := {}) rfl d.parts p

theorem engineOut_prog (d : Dev) (n : Nat) (m : Nat × Nat) (r : RunRef) : (d.engineOut n m).prog r = (d.prog r).map (fun g => g.engineGo n m) := by
  cases r with
  | queue q =>
    simp only [Dev.prog, Dev.running, engineOut_que, Queue.engineGo]
    cases (d.que q).running <;> rfl
  | batch p =>
    simp only [Dev.prog, engineOut_part, PartState.engineGo]
    cases (d.part p).batch <;> rfl

section Limiter
variable {d : Dev} {n : Nat} (hclock : d.clocked ((d.cfg.regionPart n).getD 16) = true)
include hclock

theorem gustStart_eq : d.gustStart n =
    match (d.region n).waiting.foldl (better (fun y x => engineOrder x < engineOrder y)) none with
    | none => d
    | some m => d.engineOut n m := by
  simp only [Dev.gustStart, hclock, Bool.not_true, Bool.false_eq_true, if_false]
  refine congrArg (fun f => match (d.region n).waiting.foldl f none with | none => d | some m => d.engineOut n m) (funext₂ ?_)
  rintro (_ | y) x <;> rfl

theorem gustStart_waits (hnone : (d.region n).waiting = []) : d.gustStart n = d := by
  rw [gustStart_eq hclock, hnone]; rfl

theorem gustStart_starts (hwait : (d.region n).waiting ≠ []) : ∃ m ∈ (d.region n).waiting,
    (∀ x ∈ (d.region n).waiting, engineOrder m ≤ engineOrder x) ∧ d.gustStart n = d.engineOut n m := by
  obtain ⟨m, hm, hbest⟩ := foldl_better (fun y x => engineOrder x < engineOrder y) hwait
  refine ⟨m, hm, ?_, by rw [gustStart_eq hclock, hbest]⟩
  cases hl : (d.region n).waiting with
  | nil => exact absurd hl hwait
  | cons y l =>
    rw [hl] at hbest
    exact foldl_better_least engineOrder l hbest

end Limiter

/-! ## The end of a unit (R138) -/

/-- The device once a unit's step has ended: its failures recorded and counted, its engines idle. -/
def Dev.unitLeft (d : Dev) (r : RunRef) (g : Prog) (u : UnitRun) (fails : List (Nat × Fail)) (n : Nat) : Dev :=
  let d1 := fails.foldl (fun d x => d.stepRec r g x.1 u.step x.2) d
  let d2 := if perRegion u.kind then d1 else
    (d1.countCl u.cluster 0x0C g.attr (n - fails.length)).countCl u.cluster 0x0D g.attr fails.length
  (if perRegion u.kind then d2 else d2.countCl u.cluster 0x0B g.attr ((fails.filter (fun x => decide (x.2.code = 0x94))).length)).idleEngines g u

/-- The failure that is kept of the one that a program has and that of a unit at step `k`: the one of the lower step (R138). -/
def Prog.keeps (g : Prog) (k : Nat) (f : Fail) : Nat × B8 × W32 :=
  match g.fail with
  | some y => if y.1 ≤ k then y else (k, f.status, detailOf f.code k)
  | none => (k, f.status, detailOf f.code k)

/-- The program once a unit has ended without failure. -/
def Prog.unitEnds (g : Prog) (u : UnitRun) : Prog := { g with units := g.units.filter (fun x => decide (x ≠ u)) }
/-- The program once a unit has failed with `f`: what has not started is dropped. -/
def Prog.unitFails (g : Prog) (u : UnitRun) (f : Fail) : Prog :=
  { g with units := g.units.filter (fun x => decide (x ≠ u) && !x.parked), fail := some (g.keeps u.step f), holds := [] }

theorem unitDone_ends (d : Dev) (r : RunRef) (g : Prog) (u : UnitRun) (n : Nat) :
    d.unitDone r g u [] n = ((d.unitLeft r g u [] n).setProg r (g.unitEnds u)).progEnd r := rfl
theorem unitDone_fails (d : Dev) (r : RunRef) (g : Prog) (u : UnitRun) (x : Nat × Fail) (xs : List (Nat × Fail)) (n : Nat) :
    d.unitDone r g u (x :: xs) n = ((d.unitLeft r g u (x :: xs) n).setProg r (g.unitFails u x.2)).progEnd r := rfl

/-! What the end of a unit leaves of the device. -/

theorem stepRec_quiet (d : Dev) (r : RunRef) (g : Prog) (unit step : Nat) (f : Fail) : (d.stepRec r g unit step f).quiet = d.quiet := by
  unfold Dev.stepRec
  cases r with
  | queue q => dsimp only; split <;> exact quiet_of_ringOnly (record_ring d _)
  | batch p => exact quiet_of_ringOnly (record_ring d _)

theorem idleEngines_quiet (d : Dev) (g : Prog) (u : UnitRun) : (d.idleEngines g u).quiet = d.quiet := by
  unfold Dev.idleEngines
  refine quiet_foldl (fun e x => ?_) _ d
  rfl

theorem unitLeft_quiet (d : Dev) (r : RunRef) (g : Prog) (u : UnitRun) (fails : List (Nat × Fail)) (n : Nat) :
    (d.unitLeft r g u fails n).quiet = d.quiet := by
  have hrec := quiet_foldl (fun e (x : Nat × Fail) => stepRec_quiet e r g x.1 u.step x.2) fails d
  rw [Dev.unitLeft, idleEngines_quiet]
  split <;> exact hrec

section Unit
variable {d : Dev} {r : RunRef} {g : Prog} (hg : d.prog r = some g)
include hg

theorem unitLeft_put (u : UnitRun) (fails : List (Nat × Fail)) (n : Nat) (v : Prog) : ((d.unitLeft r g u fails n).setProg r v).prog r = some v :=
  setProg_prog ((prog_of_quiet (unitLeft_quiet d r g u fails n) r).trans hg) v

theorem unitDone_goesOn {u : UnitRun} (hover : (g.unitEnds u).over = false) (n : Nat) : (d.unitDone r g u [] n).prog r = some (g.unitEnds u) := by
  have hput := unitLeft_put hg u [] n (g.unitEnds u)
  rwa [unitDone_ends, progEnd_running hput hover]

theorem unitDone_failed {u : UnitRun} {x : Nat × Fail} (hstay : (g.unitFails u x.2).units ≠ []) (xs : List (Nat × Fail)) (n : Nat) :
    (d.unitDone r g u (x :: xs) n).prog r = some (g.unitFails u x.2) := by
  have hput := unitLeft_put hg u (x :: xs) n (g.unitFails u x.2)
  have hover : (g.unitFails u x.2).over = false := by
    rw [Prog.over, List.isEmpty_eq_false_iff.mpr hstay, Bool.false_and]
  rwa [unitDone_fails, progEnd_running hput hover]

end Unit

/-! ## The end of a program (R138) -/

/-- Clusters whose engines of a unit have been idle since `t`. -/
def idled (t : W64) (g : Prog) (u : UnitRun) (cl : Tbl Cluster) : Tbl Cluster :=
  (unitEngines g u).foldl (fun cl x => let v := cl.get (16 * u.region + x.2) {}
    cl.set (16 * u.region + x.2) { v with idle := v.idle.set x.1 (some t) }) cl

theorem idleEngines_eq (d : Dev) (g : Prog) (u : UnitRun) : d.idleEngines g u = { d with clusters := idled d.time g u d.clusters } := by
  unfold Dev.idleEngines idled
  generalize unitEngines g u = l
  induction l generalizing d with
  | nil => rfl
  | cons x l ih => exact ih _

theorem stepRec_beside (d : Dev) (q : Nat) (g : Prog) (unit step : Nat) (f : Fail) : d.BesideQueues (qParty q) (d.stepRec (.queue q) g unit step f) := by
  unfold Dev.stepRec
  dsimp only
  split <;> exact record_beside d rfl

theorem countCl_beside (d : Dev) (p c ev who n : Nat) : d.BesideQueues p (d.countCl c ev who n) := besideQueues_of_eq p rfl rfl

/-- The end of a unit beside its engines' idle time. -/
theorem unitLeft_beside (d : Dev) (q : Nat) (g : Prog) (u : UnitRun) (fails : List (Nat × Fail)) (n : Nat) :
    ({ d with clusters := (d.idleEngines g u).clusters } : Dev).BesideQueues (qParty q) (d.unitLeft (.queue q) g u fails n) := by
  have hrec := besideQueues_foldl (fun e (x : Nat × Fail) => stepRec_beside e q g x.1 u.step x.2) fails d
  have hkeep {e : Dev} (h : d.BesideQueues (qParty q) e) :
      ({ d with clusters := (d.idleEngines g u).clusters } : Dev).BesideQueues (qParty q) (e.idleEngines g u) := by
    have hclusters : e.clusters = d.clusters := congrArg (fun x => x.clusters) h.fixed
    have hidle : e.idleEngines g u = { e with clusters := (d.idleEngines g u).clusters } := by
      rw [idleEngines_eq e, idleEngines_eq d]
      have hidled : idled e.time g u e.clusters = idled d.time g u d.clusters := by rw [Dev.fixed_time h.fixed, hclusters]
      exact congrArg (fun c : Tbl Cluster => { e with clusters := c }) hidled
    rw [hidle]
    exact ⟨congrArg (fun x : Dev => { x with clusters := (d.idleEngines g u).clusters }) h.fixed, h.windows, h.queues, h.produced, h.ring⟩
  unfold Dev.unitLeft
  split
  · exact hkeep hrec
  · exact hkeep (besideQueues_trans (besideQueues_trans (besideQueues_trans hrec (countCl_beside _ _ _ _ _ _)) (countCl_beside _ _ _ _ _ _)) (countCl_beside _ _ _ _ _ _))

theorem endEntries_of_fixed {d e : Dev} (h : e.fixed = d.fixed) (hproduced : e.produced = d.produced) (q : Nat) (c : W512) (l : CmdList) (st : B8) (res : W64) :
    endEntries e q c l st res = endEntries d q c l st res := by
  simp only [endEntries, kind1_of_fixed h, kind0_of_fixed h, hproduced]

/-- The end of a command for a device before it, from which the queue has given out nothing. -/
theorem endCmd_ended_of_givesOut {d e : Dev} {q : Nat} {r : Running} {l : CmdList} {rest : List CmdList} (h : d.GivesOut q [] e)
    (hruns : e.Runs q r l rest) (st : B8) (res : W64) (f : Option (Fail × Nat)) : d.Ended (e.endCmd q st res f) q r.cmd l rest st res := by
  obtain ⟨hrun, hlists⟩ := hruns
  have hout := givesOut_trans h (endCmd_givesOut hrun hlists st res f)
  rw [List.nil_append, endEntries_of_fixed h.fixed h.produced] at hout
  exact ended_of_givesOut hout (Dev.endCmd_work hrun hlists st res f)

theorem setProg_givesOut (d : Dev) (q : Nat) (v : Prog) : d.GivesOut q [] (d.setProg (.queue q) v) := by
  unfold Dev.setProg
  refine givesOut_modQue d q fun k => ?_
  split <;> rfl

theorem setProg_runs {d : Dev} {q : Nat} {w : Running} {l : CmdList} {rest : List CmdList} (h : d.Runs q w l rest) (v : Prog) :
    (d.setProg (.queue q) v).Runs q { w with prog := some v } l rest := by
  obtain ⟨hrun, hlists⟩ := h
  unfold Dev.running at hrun
  simp only [Dev.Runs, Dev.running, Dev.setProg, Dev.modQue_que, hrun, hlists, and_self]

section Over
variable {d : Dev} {q : Nat} {w : Running} {l : CmdList} {rest : List CmdList} {g v : Prog}

/-- A program that is over ends its command with the status of the failure that it has kept (R138). -/
theorem progEnd_over_failed (hv : d.prog (.queue q) = some v) (hover : v.over = true) {x : Nat × B8 × W32} (hfail : v.fail = some x) :
    d.progEnd (.queue q) = d.endCmd q x.2.1 0 none := by
  simp only [Dev.progEnd, hv, hover, if_true, hfail]

/-- Without a failure it ends with 0x00, where it is not a TUNE. -/
theorem progEnd_over_done (hv : d.prog (.queue q) = some v) (hover : v.over = true) (hfail : v.fail = none) (htune : 8 ≤ v.adapter) :
    d.progEnd (.queue q) = d.endCmd q 0 0 none := by
  simp only [Dev.progEnd, hv, hover, if_true, hfail, if_neg (Nat.not_lt.mpr htune), Dev.finish]

variable (hg : d.prog (.queue q) = some g) (hruns : d.Runs q w l rest) (u : UnitRun) (fails : List (Nat × Fail)) (n : Nat)
include hg hruns

/-- With the last unit of a program ends its command. -/
theorem unitLeft_ended {v : Prog} {st : B8} (hend : ∀ e : Dev, e.prog (.queue q) = some v → e.progEnd (.queue q) = e.endCmd q st 0 none) :
    ({ d with clusters := (d.idleEngines g u).clusters } : Dev).Ended (((d.unitLeft (.queue q) g u fails n).setProg (.queue q) v).progEnd (.queue q)) q w.cmd l rest st 0 := by
  have hqueues : (d.unitLeft (.queue q) g u fails n).queues = d.queues := (unitLeft_beside d q g u fails n).queues
  have hleft : (d.unitLeft (.queue q) g u fails n).Runs q w l rest := by
    simpa only [Dev.Runs, Dev.running, Dev.que, hqueues] using hruns
  rw [hend _ (unitLeft_put hg u fails n v)]
  exact endCmd_ended_of_givesOut (givesOut_trans (givesOut_of_beside (unitLeft_beside d q g u fails n)) (setProg_givesOut _ q v)) (setProg_runs hleft v) st 0 none

theorem unitDone_ended (hover : (g.unitEnds u).over = true) (hfail : g.fail = none) (htune : 8 ≤ g.adapter) :
    ({ d with clusters := (d.idleEngines g u).clusters } : Dev).Ended (d.unitDone (.queue q) g u [] n) q w.cmd l rest 0 0 := by
  rw [unitDone_ends]
  exact unitLeft_ended hg hruns u [] n fun e he => progEnd_over_done he hover hfail htune

theorem unitDone_failed_ended {x : Nat × Fail} (hnone : (g.unitFails u x.2).units = []) (hfail : g.fail = none) :
    ({ d with clusters := (d.idleEngines g u).clusters } : Dev).Ended (d.unitDone (.queue q) g u [x] n) q w.cmd l rest x.2.status 0 := by
  have hkeeps : (g.unitFails u x.2).fail = some (u.step, x.2.status, detailOf x.2.code u.step) := by
    simp only [Prog.unitFails, Prog.keeps, hfail]
  have hover : (g.unitFails u x.2).over = true := by
    rw [Prog.over, hnone, hkeeps]; rfl
  rw [unitDone_fails]
  exact unitLeft_ended hg hruns u [x] n fun e he => progEnd_over_failed he hover hkeeps

end Over

theorem next_withDev (s : State) {d e : Dev} (h : d = e) : (Host.Outcome.next (s.withDev d) : Host.Outcome State Fault Refusal) = .next (s.withDev e) :=
  congrArg (fun d => Host.Outcome.next (s.withDev d)) h

/-- Settles O47: a step is the program put in place after units have started (`Dev.Carries`), an engine start `gustStart_starts`; a unit that
ends leaves the program to go on, or its command ends. -/
theorem sequencersIssueHoldAndRelease : Obligations.SequencersIssueHoldAndRelease := by
  unfold Obligations.SequencersIssueHoldAndRelease
  refine ⟨fun s r g n hg hclock => ?_, fun s n hclock => ⟨fun hnone => ?_, fun hwait => ?_⟩, fun d r g u n hg => ?_⟩
  · intro k same
    have hsame {v : Prog} {e : Dev} (h : Dev.Carries r v s.dev e) : same (s.withDev e) := congrArg s.withDev h.frame
    refine ⟨fun hcan => ?_, fun hcan => ?_, fun hnext hover => ?_, fun hnext => ?_, fun h hfind => ?_, fun hnone => ?_⟩
    · have hissue := issue_carries hg hclock hcan
      exact ⟨_, rfl, hsame hissue, hissue.prog, fun m hm => Tbl.get_set_other _ (Ne.symm hm) _ _, Tbl.get_set_same _ _ _ _⟩
    · exact next_withDev s (issue_waits hg hcan)
    · have hnop := nop_carries hg hclock hnext hover
      exact ⟨_, rfl, hsame hnop, hnop.prog⟩
    · intro g1 hover
      have hsync := sync_carries hg hclock hnext rfl hover
      exact ⟨_, rfl, hsame hsync, hsync.prog⟩
    · intro g1 rs freed d1 g2 hover
      obtain ⟨hcarries, hregions⟩ := release_carries hg hclock hfind (d1 := d1) (v := g2) rfl rfl hover
      refine ⟨_, rfl, hsame hcarries, hcarries.prog, fun m hm => ?_⟩
      simpa only [RegionState.release, Prod.mk.injEq] using hregions m hm
    · exact next_withDev s (syncRelease_waits hg hclock hnone)
  · exact next_withDev s (gustStart_waits hclock hnone)
  · obtain ⟨m, hm, hleast, hstart⟩ := gustStart_starts hclock hwait
    refine ⟨s.withDev (s.dev.engineOut n m), m, next_withDev s hstart, rfl, hm, hleast, ?_, engineOut_prog s.dev n m⟩
    exact engineOut_waiting s.dev n m
  · intro left stay d0 keep
    refine ⟨fun hover => unitDone_goesOn hg hover n, fun hstay x xs => unitDone_failed hg hstay xs n, ?_, ?_⟩
    · rintro q w l rest rfl hruns hover hfail htune
      exact unitDone_ended hg hruns u n hover hfail htune
    · rintro q w l rest x rfl hruns hnone hfail
      exact unitDone_failed_ended hg hruns u n hnone hfail

end Sys2Proof.Machine

/-! PROOFS. The steps of clusters and regions: matrix engines, movers, scale files, the halo ring (R142, R145, R153, R163, R164, R185). -/
namespace Sys2Proof.Machine
open Sys2Proof

/-! ## The matrix engines (R145, R151, R152) -/

/-- One engine of a MATMUL step takes its columns. -/
def Dev.engineTake (party c : Nat) (v : MatDesc) (cols : Nat) (s : Dev × List (Nat × EngRes)) (x : Nat × Nat) : Dev × List (Nat × EngRes) :=
  match s.1.engineStep party c v (x.1 * cols) cols with
  | (d', e) => (d', s.2 ++ [(x.2, e)])

theorem foldl_engineTake (party c : Nat) (v : MatDesc) (cols : Nat) (js : List Nat) : ∀ (d : Dev) (k : Nat) (l : List (Nat × EngRes)),
    (js.mapIdx (fun i j => (i + k, j))).foldl (Dev.engineTake party c v cols) (d, l) =
      ((d.enginesAll party c v cols js k).1, l ++ (d.enginesAll party c v cols js k).2) := by
  induction js with
  | nil => simp [Dev.enginesAll]
  | cons j js ih =>
    intro d k l
    have hnext (i : Nat) : (fun j : Nat => (i + 1 + k, j)) = fun j => (i + (k + 1), j) := by
      funext j; rw [Nat.add_assoc, Nat.add_comm 1 k]
    rw [List.mapIdx_cons, List.foldl_cons]
    simp only [hnext, Dev.engineTake, Nat.zero_add, ih, Dev.enginesAll, List.append_assoc, List.singleton_append]

section Matmul
variable {d d1 : Dev} {r : RunRef} {g : Prog} {c : Nat} (hg : d.runProg r = some g)
include hg

theorem matStep_noUnit (hnone : g.findUnit 1 c (fun _ => true) = none) : d.matStep r c = d := by
  simp only [Dev.matStep, hg, hnone]

/-- The unit of a MATMUL step ends: each engine that met no failure has written its output, and every engine's events are counted. -/
def Dev.matEnds (d : Dev) (r : RunRef) (g : Prog) (u : UnitRun) (c : Nat) (out : List (Nat × EngRes)) : Dev :=
  let d2 := out.foldl (fun d x => match x.2.fail with | some _ => d | none => d.putOutput g c x.2.writes) d
  let d3 := out.foldl (fun d x => ((d.countCl c 0x05 g.attr x.2.sat).countCl c 0x01 g.attr x.2.busy).countCl c 0x02 g.attr x.2.stall) d2
  d3.unitDone r g u (out.filterMap (fun x => x.2.fail.map (fun e => (unitCluster c x.1, e)))) out.length

theorem matStep_engines {u : UnitRun} (hu : g.findUnit 1 c (fun _ => true) = some u) {v : MatDesc} (hv : v = matDesc (g.step u.step))
    {out : List (Nat × EngRes)} (hall : d.enginesAll g.party c v (v.n / v.selected.length) v.selected 0 = (d1, out)) :
    d.matStep r c = d1.matEnds r g u c out := by
  have hfold : (v.selected.mapIdx (fun i j => (i, j))).foldl (Dev.engineTake g.party c v (v.n / v.selected.length)) (d, []) = (d1, out) :=
    (foldl_engineTake g.party c v _ v.selected d 0 []).trans (by rw [hall, List.nil_append])
  have hstep : d.matStep r c = let s := (v.selected.mapIdx (fun i j => (i, j))).foldl (Dev.engineTake g.party c v (v.n / v.selected.length)) (d, [])
      s.1.matEnds r g u c s.2 := by
    subst hv
    simp only [Dev.matStep, hg, hu]
    rfl
  rw [hstep, hfold]

end Matmul

/-- With no zero point, scale or accumulator input an element in FP32 is the sum of its products in ascending order, times the two multipliers. -/
theorem matElem_fp32 {v : MatDesc} (hscale : v.scaleEn = false) (hacc : v.accIn = false) (x : MatData) (per n j : Nat) :
    matElem v false false x per n j = (fmul (fmul (fadd ((List.range v.k).foldl
      (fun a kk => fmac a (x.a.getD (subIndex v.k n kk) (.fin false 0 0)) (x.wAt per kk j).1) f32Zero) f32Zero) v.actScale) v.outMul, 0) := by
  simp only [matElem, hscale, hacc, Bool.false_and, Bool.false_eq_true, if_false]

/-- The product sum of an element in INT32, saturating at each addition, with its saturations. -/
def intSum (v : MatDesc) (x : MatData) (per n j : Nat) : Int × Nat :=
  (List.range v.k).foldl (fun (a : Int × Nat) kk =>
    let y := sat32 (a.1 + fvInt (x.a.getD (subIndex v.k n kk) (.fin false 0 0)) * fvInt (x.wAt per kk j).1); (y.1, a.2 + y.2)) (0, 0)

section Plain
variable {v : MatDesc} {x : MatData} {per j : Nat} (hplain : ∀ kk, kk < v.k → (x.wAt per kk j).2 = false)
include hplain

/-- With no escape among its weights the FP32 lane of an element adds nothing, and every product goes to the INT32 sum. -/
theorem escapeSum_zero (n : Nat) : (List.range v.k).foldl (fun s kk => if (x.wAt per kk j).2 then
    fmac s (x.a.getD (subIndex v.k n kk) (.fin false 0 0)) (x.wAt per kk j).1 else s) f32Zero = f32Zero := by
  refine (List.foldl_ext _ (fun s _ => s) f32Zero fun s kk hkk => ?_).trans (List.foldl_fixed _)
  rw [hplain kk (List.mem_range.mp hkk), if_neg Bool.false_ne_true]

theorem plainSum_eq (n : Nat) : (List.range v.k).foldl (fun (a : Int × Nat) kk =>
    let y := sat32 (a.1 + (if (x.wAt per kk j).2 then 0 else fvInt (x.a.getD (subIndex v.k n kk) (.fin false 0 0)) * fvInt (x.wAt per kk j).1))
    (y.1, a.2 + y.2)) (0, 0) = intSum v x per n j := by
  refine List.foldl_ext _ _ _ fun a kk hkk => ?_
  rw [hplain kk (List.mem_range.mp hkk), if_neg Bool.false_ne_true]

/-- With no zero point, scale or escape an element of INT32 is its saturating sum times the two multipliers. -/
theorem matElem_int32 (hzp : v.zpMode ≠ 1) (hscale : v.scaleEn = false) (n : Nat) : matElem v true true x per n j =
    (fmul (fmul (fadd (f32OfInt (intSum v x per n j).1) f32Zero) v.actScale) v.outMul, (intSum v x per n j).2) := by
  rw [← plainSum_eq hplain n]
  simp only [matElem, hscale, escapeSum_zero hplain, hzp, Bool.true_and, decide_false, Bool.false_and, Bool.false_eq_true, if_false, if_true, false_and]

end Plain

/-! ## Movers (R163) -/

/-- From `d` to `e` only the counters change. -/
def Dev.countsOnly (d e : Dev) : Prop := e = { d with pmc := e.pmc }

theorem countPlace_counts (d : Dev) (k : Place) (ev who n : Nat) : d.countsOnly (d.countPlace k ev who n) := by cases k <;> rfl

theorem countsOnly_trans {a b c : Dev} (h : a.countsOnly b) (k : b.countsOnly c) : a.countsOnly c := by
  unfold Dev.countsOnly at h k ⊢
  rw [h] at k
  exact k

/-- The lines of a move counted at its cluster, its region and its places (R511). -/
def Dev.moveCounted (d : Dev) (who c : Nat) (src dst : Place) (w : Moved) : Dev :=
  ((((d.countCl c 0x07 who w.lines).countRg (c / 16) 0x08 who w.rd).countRg (c / 16) 0x09 who w.wr).countPlace src 0x08 who w.lines).countPlace dst 0x09 who w.lines

theorem moveCounted_counts (d : Dev) (who c : Nat) (src dst : Place) (w : Moved) : d.countsOnly (d.moveCounted who c src dst w) :=
  countsOnly_trans (b := (((d.countCl c 0x07 who w.lines).countRg (c / 16) 0x08 who w.rd).countRg (c / 16) 0x09 who w.wr).countPlace src 0x08 who w.lines)
    (countsOnly_trans (b := ((d.countCl c 0x07 who w.lines).countRg (c / 16) 0x08 who w.rd).countRg (c / 16) 0x09 who w.wr) rfl (countPlace_counts _ src _ _ _))
    (countPlace_counts _ dst _ _ _)

/-- The unit of a DMA step ends, with the refusal that its move met. -/
def Dev.moveEnds (d : Dev) (r : RunRef) (g : Prog) (u : UnitRun) (c : Nat) : Option Fail → Dev
  | some f => (d.modelFault f).unitDone r g u [(unitCluster c 9, f)] 1
  | none => d.unitDone r g u [] 1

section Dma
variable {d d1 : Dev} {r : RunRef} {g : Prog} {c : Nat} {u : UnitRun} (hg : d.runProg r = some g) (hu : g.findUnit 3 c (fun _ => true) = some u)
variable {k : W512} (hk : k = g.step u.step) {src dst : Place} (hsrc : src = dmaPlace c (fld k 8 2) (bytesAt k 4 2)) (hdst : dst = dmaPlace c (fld k 10 2) (bytesAt k 4 2))
include hg hu hk hsrc hdst

/-- With no tile of its on the move a DMA step moves its bytes, up to a refusal, and ends its unit. -/
theorem dmaStep_moves (hfrom : d.busyIn g.view (bytesAt k 8 8) (bytesAt k 24 4) = false ∨ src ≠ .memory)
    (hto : d.busyIn g.view (bytesAt k 16 8) (bytesAt k 24 4) = false ∨ dst ≠ .memory) {e : Option Fail} {w : Moved}
    (hmove : d.moveBytes g.view src dst (bytesAt k 8 8) (bytesAt k 16 8) (bytesAt k 24 4) = (d1, e, w)) :
    d.dmaStep r c = (d1.moveCounted g.attr c src dst w).moveEnds r g u c e := by
  have hidle {p : Place} {b : Bool} (h : b = false ∨ p ≠ .memory) : (decide (p = .memory) && b) = false := by
    rcases h with h | h
    · rw [h, Bool.and_false]
    · rw [decide_eq_false h, Bool.false_and]
  subst hk hsrc hdst
  simp only [Dev.dmaStep, hg, hu, hidle hfrom, hidle hto, Bool.or_self, Bool.false_eq_true, if_false, hmove]
  cases e <;> rfl

end Dma

/-! ## Scale files (R153) -/

/-- Words read are put into a scale file from entry `first` on. -/
def putScales (party first : Nat) (vs : List Nat) (t : Tbl (Nat × F32)) : Tbl (Nat × F32) :=
  (vs.mapIdx (fun i x => (i, x))).foldl (fun t x => t.set (first + x.1) (party, BitVec.ofNat 32 x.2)) t

theorem putScales_get (party first : Nat) (vs : List Nat) (t : Tbl (Nat × F32)) (n : Nat) (x : Nat × F32) :
    (putScales party first vs t).get n x =
      if first ≤ n ∧ n < first + vs.length then (party, BitVec.ofNat 32 (vs.getD (n - first) 0)) else t.get n x := by
  induction vs using List.reverseRecOn with
  | nil => simp [putScales]
  | append_singleton vs y ih =>
    have hput : putScales party first (vs ++ [y]) t = (putScales party first vs t).set (first + vs.length) (party, BitVec.ofNat 32 y) := by
      simp only [putScales, List.mapIdx_concat, List.foldl_append, List.foldl_cons, List.foldl_nil]
    rw [hput, List.length_append, List.length_singleton]
    by_cases h : first + vs.length = n
    · subst h
      rw [Tbl.get_set_same, if_pos (by omega), Nat.add_sub_cancel_left, List.getD_append_right _ _ _ _ (le_refl _), Nat.sub_self]
      rfl
    · rw [Tbl.get_set_other _ h, ih]
      by_cases hin : first ≤ n ∧ n < first + vs.length
      · rw [if_pos hin, if_pos (by omega), List.getD_append _ _ _ _ (by omega)]
      · rw [if_neg hin, if_neg (by omega)]

section Scales
variable {d d1 : Dev} {r : RunRef} {g : Prog} {c : Nat} {u : UnitRun} (hg : d.runProg r = some g) (hu : g.findUnit 4 c (fun _ => true) = some u)
variable {k : W512} (hk : k = g.step u.step)
include hg hu hk

theorem scalesStep_fails {e : Fail} (hread : d.bufCodes g.party (clusterDpa c (bytesAt k 8 4)) (4 * bytesAt k 14 2) 32 = (d1, .error e)) :
    d.scalesStep r c = d1.unitDone r g u [(unitCluster c 9, e)] 1 := by
  subst hk
  simp only [Dev.scalesStep, hg, hu, hread]

theorem scalesStep_loads {vs : List Nat} (hread : d.bufCodes g.party (clusterDpa c (bytesAt k 8 4)) (4 * bytesAt k 14 2) 32 = (d1, .ok vs)) :
    d.scalesStep r c = (d1.modCluster c (fun v => { v with scales := putScales g.party (bytesAt k 12 2) vs v.scales })).unitDone r g u [] 1 := by
  subst hk
  simp only [Dev.scalesStep, hg, hu, hread]
  rfl

end Scales

/-! ## The halo ring (R164, R185) -/

theorem flatten_chunksOf (n k : Nat) : ∀ {b : List B8}, b.length ≤ n * k → (chunksOf n b k).flatten = b := by
  induction k with
  | zero =>
    intro b hb
    rw [List.length_eq_zero_iff.mp (Nat.le_zero.mp hb)]
    rfl
  | succ k ih =>
    intro b hb
    rw [chunksOf]
    split
    · next hempty => rw [List.isEmpty_iff.mp hempty]; rfl
    · rw [List.flatten_cons, ih (by rw [List.length_drop, Nat.mul_succ] at *; omega), List.take_append_drop]

/-- A fold that takes every chunk gives the chunks one after the other. -/
theorem foldl_takes {f : List B8 × Option Nat → Nat × List B8 → List B8 × Option Nat} (hf : ∀ l x, f (l, none) x = (l ++ x.2, none))
    (cs : List (Nat × List B8)) : ∀ l, cs.foldl f (l, none) = (l ++ (cs.map Prod.snd).flatten, none) := by
  induction cs with
  | nil => simp
  | cons x cs ih => intro l; rw [List.foldl_cons, hf, ih, List.map_cons, List.flatten_cons, List.append_assoc]

/-- Frames that arrive as they were sent decode to the chunks that were coded. -/
theorem decode_unaltered {v : HaloStop} (h : v.frames = []) (cs : List (List B8)) : v.decode cs = (cs.flatten, none) := by
  have hchunks : (cs.mapIdx (fun i c => (i, c))).map Prod.snd = cs := by
    rw [map_mapIdx, mapIdx_map (fun c => c), List.map_id']
  refine (foldl_takes (fun l x => ?_) _ []).trans (by rw [hchunks, List.nil_append])
  simp only [h, Tbl.get, List.isEmpty_nil, if_true]

theorem receive_unaltered {d : Dev} {k : Nat} (h : (d.stop k).frames = []) (b : List B8) : d.receive k b = (d, b, none) := by
  have hall : (chunksOf 512 b (b.length / 512 + 1)).flatten = b := flatten_chunksOf 512 _ (Nat.le_of_lt (Nat.lt_mul_div_succ _ (by decide)))
  simp only [Dev.receive, decode_unaltered h, h, if_true, hall]

/-- What the receiving stop reports of the chunk that failed (R185). -/
def chunkFailure (next dir dst : Nat) : Option Nat → List (Nat × Fail)
  | none => []
  | some i => [(unitDie (next / 4) (25 - dir), { status := 0x04, code := 0xA7, addr := dst + 512 * i, space := 1 })]

section Ring
variable {d d1 : Dev} {r : RunRef} {g : Prog} {c : Nat} {u : UnitRun} (hg : d.runProg r = some g) (hu : g.findUnit 7 c (fun _ => true) = some u)
variable {k : W512} (hk : k = g.step u.step) {dir next n : Nat} (hdir : dir = if k.getLsbD 8 then 1 else 0)
variable (hnext : next = 4 * ((if dir = 0 then c / 4 + 1 else c / 4 + 3) % 4) + c % 4) (hn : n = bytesAt k 16 4)
include hg hu hk hdir hnext

/-- The ring carries nothing out of the partition (R16). -/
theorem ringStep_outside (hout : next ∉ d.cfg.partRegions g.partition) :
    d.ringStep r c = d.unitDone r g u [(unitDie (c / 4) (24 + dir), { status := 0x08, code := 0x87 })] 1 := by
  have hcontains : (d.cfg.partRegions g.partition).contains next = false := by simpa using hout
  subst hk hdir hnext
  simp only [Dev.ringStep, hg, hu, hcontains, Bool.not_false, if_true]

variable (hin : next ∈ d.cfg.partRegions g.partition)
include hin hn

theorem ringStep_fails {e : Fail} (hread : d.bufRead g.party (regionDpa c (bytesAt k 8 4)) n = (d1, .error e)) :
    d.ringStep r c = d1.unitDone r g u [(unitDie (c / 4) (24 + dir), e)] 1 := by
  have hcontains : (d.cfg.partRegions g.partition).contains next = true := by simpa using hin
  subst hk hdir hnext hn
  simp only [Dev.ringStep, hg, hu, hcontains, Bool.not_true, Bool.false_eq_true, if_false, hread]

/-- Lines of a transfer counted at the regions that send and receive it (R511). -/
def Dev.ringCounted (d : Dev) (who c next lines : Nat) : Dev := (d.countRg c 0x06 who lines).countRg next 0x07 who lines

variable {b : List B8} (hread : d.bufRead g.party (regionDpa c (bytesAt k 8 4)) n = (d1, .ok b))
include hread

theorem ringStep_plain (hplain : k.getLsbD 9 = false) (htune : 8 ≤ g.adapter) :
    d.ringStep r c = ((d1.bufWrite g.party (regionDpa next (bytesAt k 12 4)) b).ringCounted g.attr c next (cdiv n 64)).unitDone r g u [] 1 := by
  have hcontains : (d.cfg.partRegions g.partition).contains next = true := by simpa using hin
  have hcoded : (k.getLsbD 9 || decide (g.adapter < 8)) = false := by
    rw [hplain, Bool.false_or, decide_eq_false (Nat.not_lt.mpr htune)]
  subst hk hdir hnext hn
  simp only [Dev.ringStep, hg, hu, hcontains, Bool.not_true, Bool.false_eq_true, if_false, hread, hcoded]
  rfl

/-- A coded transfer is written as far as it decodes; a chunk that fails ends it (R185). -/
theorem ringStep_coded (hcode : k.getLsbD 9 = true ∨ g.adapter < 8) {sent : Nat} (hsent : sent = ((chunksOf 512 b (n / 512 + 1)).map frameBytes).sum)
    {d2 : Dev} {got : List B8} {bad : Option Nat}
    (hreceive : (d1.countCoded (2 * (c / 4) + dir) n sent).receive (2 * (next / 4) + 1 - dir) b = (d2, got, bad)) :
    d.ringStep r c = ((d2.bufWrite g.party (regionDpa next (bytesAt k 12 4)) got).ringCounted g.attr c next (cdiv sent 64)).unitDone r g u
      (chunkFailure next dir (regionDpa next (bytesAt k 12 4)) bad) 1 := by
  have hcontains : (d.cfg.partRegions g.partition).contains next = true := by simpa using hin
  have hcoded : (k.getLsbD 9 || decide (g.adapter < 8)) = true := by simpa using hcode
  subst hk hdir hnext hn hsent
  simp only [Dev.ringStep, hg, hu, hcontains, Bool.not_true, Bool.false_eq_true, if_false, hread, hcoded, if_true, hreceive]
  cases bad <;> rfl

end Ring

end Sys2Proof.Machine

/-! PROOFS. The steps of the attention unit (R274-R277, R283): items in table order up to the first failure. -/
namespace Sys2Proof.Machine
open Sys2Proof

/-- One item after the results `l` of those before it: a failure stays, and what the item gives joins them. -/
def takeItem {α β : Type} (step : Dev → Item → Dev × Except Fail β) (join : α → Item → β → α) (st : Dev × Except Fail α) (x : Item) : Dev × Except Fail α :=
  match st with
  | (d, .error e) => (d, .error e)
  | (d, .ok l) => match step d x with
    | (d', .error e) => (d', .error e)
    | (d', .ok y) => (d', .ok (join l x y))

/-- `all` takes the items of a list one by one by `step`, and puts what each gives before what the rest give; the first failure ends it. -/
structure Collects {β γ : Type} (step : Dev → Item → Dev × Except Fail β) (start : γ) (cons : Item → β → γ → γ)
    (all : Dev → List Item → Dev × Except Fail γ) : Prop where
  nil : ∀ d, all d [] = (d, .ok start)
  first : ∀ {d d1 x xs e}, step d x = (d1, .error e) → all d (x :: xs) = (d1, .error e)
  rest : ∀ {d d1 d2 x xs y e}, step d x = (d1, .ok y) → all d1 xs = (d2, .error e) → all d (x :: xs) = (d2, .error e)
  ok : ∀ {d d1 d2 x xs y w}, step d x = (d1, .ok y) → all d1 xs = (d2, .ok w) → all d (x :: xs) = (d2, .ok (cons x y w))

section Items
variable {α β γ : Type} {step : Dev → Item → Dev × Except Fail β} {start : γ} {cons : Item → β → γ → γ} {all : Dev → List Item → Dev × Except Fail γ}

theorem foldl_takeItem_error (join : α → Item → β → α) (d : Dev) (e : Fail) (xs : List Item) :
    xs.foldl (takeItem step join) (d, .error e) = (d, .error e) := by
  induction xs with
  | nil => rfl
  | cons x xs ih => exact ih

/-- A step of a fold that keeps a failure, fails where `step` does and joins what `step` gives is `takeItem`. -/
theorem eq_takeItem {join : α → Item → β → α} {f : Dev × Except Fail α → Item → Dev × Except Fail α} (hkeep : ∀ d e x, f (d, .error e) x = (d, .error e))
    (hfail : ∀ {d d1 x e} l, step d x = (d1, .error e) → f (d, .ok l) x = (d1, .error e))
    (hjoin : ∀ {d d1 x y} l, step d x = (d1, .ok y) → f (d, .ok l) x = (d1, .ok (join l x y))) : f = takeItem step join := by
  funext st x
  obtain ⟨d, e | l⟩ := st
  · exact hkeep d e x
  · rcases hx : step d x with ⟨d1, e | y⟩
    · rw [hfail l hx, takeItem, hx]
    · rw [hjoin l hx, takeItem, hx]

variable (hall : Collects step start cons all) {join : α → Item → β → α}
include hall

/-- A fold over the items fails where `all` does. -/
theorem foldl_takeItem_fails {d2 : Dev} {e : Fail} (xs : List Item) : ∀ {d : Dev} (l : α), all d xs = (d2, .error e) →
    xs.foldl (takeItem step join) (d, .ok l) = (d2, .error e) := by
  induction xs with
  | nil => intro d l h; rw [hall.nil] at h; cases h
  | cons x xs ih =>
    intro d l h
    rw [List.foldl_cons]
    rcases hx : step d x with ⟨d1, e1 | y⟩
    · rw [hall.first hx] at h
      cases h
      simp only [takeItem, hx]
      exact foldl_takeItem_error join d2 e xs
    · simp only [takeItem, hx]
      refine ih _ ?_
      rcases hxs : all d1 xs with ⟨d', e' | w⟩
      · rwa [hall.rest hx hxs] at h
      · rw [hall.ok hx hxs] at h; cases h

/-- Where `all` gives a result, the fold gives one that `joins` relates to it. -/
theorem foldl_takeItem_ok {joins : α → γ → α → Prop} (hstart : ∀ l, joins l start l)
    (hjoin : ∀ {l x y w l'}, joins (join l x y) w l' → joins l (cons x y w) l') {d2 : Dev} (xs : List Item) : ∀ {d : Dev} (l : α) {w : γ},
    all d xs = (d2, .ok w) → ∃ l', xs.foldl (takeItem step join) (d, .ok l) = (d2, .ok l') ∧ joins l w l' := by
  induction xs with
  | nil =>
    intro d l w h
    rw [hall.nil] at h
    cases h
    exact ⟨l, rfl, hstart l⟩
  | cons x xs ih =>
    intro d l w h
    rw [List.foldl_cons]
    rcases hx : step d x with ⟨d1, e1 | y⟩
    · rw [hall.first hx] at h; cases h
    · rcases hxs : all d1 xs with ⟨d', e' | w'⟩
      · rw [hall.rest hx hxs] at h; cases h
      · rw [hall.ok hx hxs] at h
        cases h
        obtain ⟨l', hfold, hjoins⟩ := ih (join l x y) hxs
        refine ⟨l', ?_, hjoin hjoins⟩
        simpa only [takeItem, hx] using hfold

end Items

/-- The unit of an ATTENTION step ends with a failure. -/
def Dev.attFails (d : Dev) (r : RunRef) (g : Prog) (u : UnitRun) (region : Nat) (e : Fail) : Dev :=
  ((d.modelFault e).unitDone r g u [(attUnit region e, e)] 1).freeRetired

/-! ## ATTEND -/

section Attend
variable (r : RunRef) (g : Prog) (m : Manifest) (k : W512) (region : Nat) (began : W64)

/-- One item of an ATTEND step, where its rows lie in the footprint. -/
def Dev.attendOne (d : Dev) (x : Item) : Dev × Except Fail (List (Nat × List (Nat × Nat))) :=
  if itemBeyond g m k x then (d, .error { status := 0x02, code := 0x8B }) else d.attendItem r g m k region began x

/-- The rows of an item join those of the items before it, with the item's cluster. -/
def joinRows (l : List (Nat × Nat × List (Nat × Nat))) (x : Item) (rows : List (Nat × List (Nat × Nat))) : List (Nat × Nat × List (Nat × Nat)) :=
  l ++ rows.map (fun y => (x.cluster, y))

theorem attendAll_collects : Collects (fun d x => d.attendOne r g m k region began x) [] (fun x rows l => rows.map (fun y => (x.cluster, y)) ++ l)
    (fun d xs => d.attendAll r g m k region began xs) where
  nil _ := rfl
  first h := by unfold Dev.attendOne at h; simp only [Dev.attendAll, h]
  rest h hxs := by unfold Dev.attendOne at h; simp only [Dev.attendAll, h, hxs]
  ok h hxs := by unfold Dev.attendOne at h; simp only [Dev.attendAll, h, hxs]

/-- The unit of an ATTEND step ends: the rows of its items are written and counted, unless an item failed. -/
def Dev.attendEnds (u : UnitRun) : Dev × Except Fail (List (Nat × Nat × List (Nat × Nat))) → Dev
  | (d, .error e) => d.attFails r g u region e
  | (d, .ok rows) => ((rows.foldl (fun d y =>
      (d.putOutput g (16 * region + y.1) (rowWrites (bytesAt k 0x18 4) (fld k 48 4) (attDim m) y.2.1 (y.2.2.map (fun x => x.1)))).countCl
        (16 * region + y.1) 0x05 g.attr ((y.2.2.map (fun x => x.2)).sum)) d).unitDone r g u [] 1).freeRetired

variable {r g m k region} {d d1 : Dev} {u : UnitRun} (hg : d.runProg r = some g) (hu : g.findUnit 6 region (fun w => decide (bytesAt w 1 1 = 0)) = some u)
variable (hm : m = d.progManifest g) (hk : k = g.step u.step)
include hg hu hm hk

theorem attendStep_tableFails {e : Fail} (hread : d.readItems g m k = (d1, .error e)) : d.attendStep r region = d1.attFails r g u region e := by
  subst hm hk
  simp only [Dev.attendStep, hg, hu, hread, Dev.attFails]

theorem attendStep_items {b : List B8} (hread : d.readItems g m k = (d1, .ok b)) : d.attendStep r region =
    Dev.attendEnds r g m k region u ((d1.itemsFor m g k b region).foldl (takeItem (fun d x => d.attendOne r g m k region u.began x) joinRows) (d1, .ok [])) := by
  subst hm hk
  simp only [Dev.attendStep, hg, hu, hread]
  show Dev.attendEnds r g _ _ region u (List.foldl _ _ _) = _
  refine congrArg (fun f => Dev.attendEnds r g _ _ region u (List.foldl f _ _)) (eq_takeItem (fun _ _ _ => rfl) ?_ ?_)
  all_goals
    intro _ _ _ _ _ h
    unfold Dev.attendOne at h
    simp only [h, joinRows]

variable {b : List B8} (hread : d.readItems g m k = (d1, .ok b)) {d2 : Dev}
include hread

theorem attendStep_itemFails {e : Fail} (hfail : d1.attendAll r g m k region u.began (d1.itemsFor m g k b region) = (d2, .error e)) :
    d.attendStep r region = d2.attFails r g u region e := by
  rw [attendStep_items hg hu hm hk hread, foldl_takeItem_fails (attendAll_collects r g m k region u.began) _ _ hfail, Dev.attendEnds]

theorem attendStep_writes {rows : List (Nat × Nat × List (Nat × Nat))}
    (hall : d1.attendAll r g m k region u.began (d1.itemsFor m g k b region) = (d2, .ok rows)) :
    d.attendStep r region = Dev.attendEnds r g m k region u (d2, .ok rows) := by
  obtain ⟨l, hfold, rfl⟩ := foldl_takeItem_ok (attendAll_collects r g m k region u.began) (join := joinRows) (joins := fun l rows l' => l' = l ++ rows)
    (fun l => (List.append_nil l).symm) (fun h => by rw [h, joinRows, List.append_assoc]) _ [] hall
  rw [attendStep_items hg hu hm hk hread, hfold]

end Attend

/-! ## APPEND -/

/-- What APPEND writes of one position: the page, its row there, key and value codes, and the page's scales. -/
abbrev PageRow := Nat × Nat × (List Nat × List Nat) × F32 × F32

section Append
variable (r : RunRef) (g : Prog) (m : Manifest) (k : W512) (region : Nat)

/-- One item of an APPEND step, where its rows lie in the footprint. -/
def Dev.appendOne (d : Dev) (x : Item) : Dev × Except Fail (List PageRow × Nat) :=
  if itemBeyond g m k x then (d, .error { status := 0x02, code := 0x8B }) else d.appendItem r g m k region x

/-- The rows and saturations of an item join those of the items before it, with the item's cluster. -/
def joinPages (l : List (Nat × PageRow) × List (Nat × Nat)) (x : Item) (y : List PageRow × Nat) : List (Nat × PageRow) × List (Nat × Nat) :=
  (l.1 ++ y.1.map (fun w => (x.cluster, w)), l.2 ++ [(x.cluster, y.2)])

/-- `l'` is `l` with the rows and saturations of `w` behind it, clusters aside. -/
def JoinsPages (l : List (Nat × PageRow) × List (Nat × Nat)) (w : List PageRow × List (Nat × Nat)) (l' : List (Nat × PageRow) × List (Nat × Nat)) : Prop :=
  l'.1.map Prod.snd = l.1.map Prod.snd ++ w.1 ∧ l'.2 = l.2 ++ w.2

theorem joinsPages_cons {l l' : List (Nat × PageRow) × List (Nat × Nat)} {x : Item} {y : List PageRow × Nat} {w : List PageRow × List (Nat × Nat)}
    (h : JoinsPages (joinPages l x y) w l') : JoinsPages l (y.1 ++ w.1, (x.cluster, y.2) :: w.2) l' := by
  simpa only [JoinsPages, joinPages, List.map_append, List.map_map, Function.comp_def, List.map_id', List.append_assoc, List.singleton_append] using h

theorem appendAll_collects : Collects (fun d x => d.appendOne r g m k region x) ([], []) (fun x y l => (y.1 ++ l.1, (x.cluster, y.2) :: l.2))
    (fun d xs => d.appendAll r g m k region xs) where
  nil _ := rfl
  first h := by unfold Dev.appendOne at h; simp only [Dev.appendAll, h]
  rest h hxs := by unfold Dev.appendOne at h; simp only [Dev.appendAll, h, hxs]
  ok h hxs := by unfold Dev.appendOne at h; simp only [Dev.appendAll, h, hxs]

/-- Each row goes to its page. -/
def Dev.putPages (d : Dev) (m : Manifest) (rows : List PageRow) : Dev :=
  rows.foldl (fun d y => d.putRows m y.1 y.2.1 (some y.2.2.1.1) (some y.2.2.1.2) y.2.2.2.1 y.2.2.2.2) d

/-- The unit of an APPEND step ends: the rows of its items go to their pages, unless an item failed. -/
def Dev.appendEnds (u : UnitRun) : Dev × Except Fail (List (Nat × PageRow) × List (Nat × Nat)) → Dev
  | (d, .error e) => d.attFails r g u region e
  | (d, .ok w) => ((w.2.foldl (fun d y => d.countCl (16 * region + y.1) 0x05 g.attr y.2) (w.1.foldl (fun d y =>
      d.putRows m y.2.1 y.2.2.1 (some y.2.2.2.1.1) (some y.2.2.2.1.2) y.2.2.2.2.1 y.2.2.2.2.2) d)).unitDone r g u [] 1).freeRetired

variable {r g m k region} {d d1 : Dev} {u : UnitRun} (hg : d.runProg r = some g) (hu : g.findUnit 6 region (fun w => decide (bytesAt w 1 1 = 1)) = some u)
variable (hm : m = d.progManifest g) (hk : k = g.step u.step)
include hg hu hm hk

theorem appendStep_tableFails {e : Fail} (hread : d.readItems g m k = (d1, .error e)) : d.appendStep r region = d1.attFails r g u region e := by
  subst hm hk
  simp only [Dev.appendStep, hg, hu, hread, Dev.attFails]

theorem appendStep_items {b : List B8} (hread : d.readItems g m k = (d1, .ok b)) : d.appendStep r region =
    Dev.appendEnds r g m region u ((d1.itemsFor m g k b region).foldl (takeItem (fun d x => d.appendOne r g m k region x) joinPages) (d1, .ok ([], []))) := by
  subst hm hk
  simp only [Dev.appendStep, hg, hu, hread]
  show Dev.appendEnds r g _ region u (List.foldl _ _ _) = _
  refine congrArg (fun f => Dev.appendEnds r g _ region u (List.foldl f _ _)) (eq_takeItem (fun _ _ _ => rfl) ?_ ?_)
  all_goals
    intro _ _ _ _ _ h
    unfold Dev.appendOne at h
    simp only [h, joinPages]

variable {b : List B8} (hread : d.readItems g m k = (d1, .ok b)) {d2 : Dev}
include hread

theorem appendStep_itemFails {e : Fail} (hfail : d1.appendAll r g m k region (d1.itemsFor m g k b region) = (d2, .error e)) :
    d.appendStep r region = d2.attFails r g u region e := by
  rw [appendStep_items hg hu hm hk hread, foldl_takeItem_fails (appendAll_collects r g m k region) _ _ hfail, Dev.appendEnds]

theorem appendStep_writes {w : List PageRow × List (Nat × Nat)}
    (hall : d1.appendAll r g m k region (d1.itemsFor m g k b region) = (d2, .ok w)) :
    d.appendStep r region = ((w.2.foldl (fun d y => d.countCl (16 * region + y.1) 0x05 g.attr y.2) (d2.putPages m w.1)).unitDone r g u [] 1).freeRetired := by
  obtain ⟨l, hfold, (hrows : l.1.map Prod.snd = w.1), (hsat : l.2 = w.2)⟩ := foldl_takeItem_ok (appendAll_collects r g m k region) (join := joinPages) (joins := JoinsPages)
    (fun l => ⟨(List.append_nil _).symm, (List.append_nil _).symm⟩) joinsPages_cons _ ([], []) hall
  rw [appendStep_items hg hu hm hk hread, hfold, Dev.appendEnds, hsat, ← hrows, Dev.putPages, List.foldl_map]

end Append

/-! ## O49 -/

/-- Settles O49, each step by the lemma that gives its unit's end. -/
theorem clusterAndRegionStepsEndTheirUnits : Obligations.ClusterAndRegionStepsEndTheirUnits := by
  unfold Obligations.ClusterAndRegionStepsEndTheirUnits
  refine ⟨fun s r g c hg => ⟨?matmul, ?dma, ?scales, fun hnone => next_withDev s (matStep_noUnit hg hnone), ?ring, ?attention⟩,
    fun d k b h => receive_unaltered h b,
    fun v x per n j hzp hscale => ⟨fun hacc => matElem_fp32 hscale hacc x per n j, fun hplain => matElem_int32 hplain hzp hscale n⟩⟩
  case matmul =>
    intro u hu v d1 out hall d2 d3
    exact next_withDev s (matStep_engines hg hu rfl hall)
  case dma =>
    intro u hu k src dst hfrom hto d1 e w hmove
    have hstep := dmaStep_moves hg hu rfl rfl rfl hfrom hto hmove
    refine ⟨d1.moveCounted g.attr c src dst w, moveCounted_counts d1 _ _ _ _ w, ?_, ?_⟩
    · rintro rfl
      exact next_withDev s hstep
    · rintro f rfl
      exact next_withDev s hstep
  case scales =>
    intro u hu k first
    refine ⟨fun d1 e hread => next_withDev s (scalesStep_fails hg hu rfl hread), fun d1 vs hread =>
      ⟨d1.modCluster c (fun v => { v with scales := putScales g.party first vs v.scales }), next_withDev s (scalesStep_loads hg hu rfl hread), rfl, ?_, ?_⟩⟩
    · exact fun j hj => Dev.modCluster_cluster_other d1 (Ne.symm hj) _
    · intro n x
      rw [Dev.modCluster_cluster]
      exact putScales_get g.party first vs _ n x
  case ring =>
    intro u hu k dir next n to_
    refine ⟨fun hout => next_withDev s (ringStep_outside hg hu rfl rfl rfl hout), fun hin =>
      ⟨fun d1 e hread => next_withDev s (ringStep_fails hg hu rfl rfl rfl rfl hin hread), fun d1 b hread => ⟨?_, ?_⟩⟩⟩
    · intro hplain htune
      exact ⟨(d1.bufWrite g.party to_ b).ringCounted g.attr c next (cdiv n 64), rfl, next_withDev s (ringStep_plain hg hu rfl rfl rfl rfl hin hread hplain htune)⟩
    · intro hcode d2 got bad hreceive
      have hstep := ringStep_coded hg hu rfl rfl rfl rfl hin hread hcode rfl hreceive
      let sent := ((chunksOf 512 b (n / 512 + 1)).map frameBytes).sum
      refine ⟨(d2.bufWrite g.party to_ got).ringCounted g.attr c next (cdiv sent 64), rfl, ?_, ?_⟩
      · rintro rfl
        exact next_withDev s hstep
      · rintro i rfl
        exact next_withDev s hstep
  case attention =>
    intro m u k bad
    refine ⟨fun hu => ⟨fun d1 e hread => next_withDev s (attendStep_tableFails hg hu rfl rfl hread), fun d1 b hread =>
        ⟨fun d2 e h => next_withDev s (attendStep_itemFails hg hu rfl rfl hread h),
        fun d2 rows h => next_withDev s (attendStep_writes hg hu rfl rfl hread h)⟩⟩,
      fun hu => ⟨fun d1 e hread => next_withDev s (appendStep_tableFails hg hu rfl rfl hread), fun d1 b hread =>
        ⟨fun d2 e h => next_withDev s (appendStep_itemFails hg hu rfl rfl hread h),
        fun d2 w h => next_withDev s (appendStep_writes hg hu rfl rfl hread h)⟩⟩⟩

end Sys2Proof.Machine

/-! PROOFS. The commands of an NVMe drive (R213, R524, R525): what a failure, a SMART read and a training time-out change. -/
namespace Sys2Proof.Machine
open Sys2Proof

theorem Dev.driveError_absent {d : Dev} {k : Nat} (h : 2 ≤ k ∨ d.mem.nvmePresent.getLsbD k = false) : d.driveError k = d :=
  if_pos (by simpa using h)

/-- Of the two drives' flags, the one set is the one named. -/
theorem getLsbD_or_flag (x : BitVec 2) {k : Nat} (hk : k < 2) (j : Nat) : (x ||| (1#2 <<< k)).getLsbD j = (x.getLsbD j || decide (j = k)) := by
  by_cases hj : j < 2
  · interval_cases k <;> interval_cases j <;> simp
  · simp [BitVec.getLsbD_of_ge _ j (Nat.le_of_not_lt hj), show j ≠ k by omega]

theorem getLsbD_andNot_flag (x : BitVec 2) {k : Nat} (hk : k < 2) (j : Nat) : (x &&& ~~~(1#2 <<< k)).getLsbD j = (x.getLsbD j && !decide (j = k)) := by
  by_cases hj : j < 2
  · interval_cases k <;> interval_cases j <;> simp
  · simp [BitVec.getLsbD_of_ge _ j (Nat.le_of_not_lt hj)]

theorem driveError_driveFailed {d : Dev} {k : Nat} (hk : k < 2) (hp : d.mem.nvmePresent.getLsbD k = true) : d.DriveFailed k (d.driveError k) := by
  have hserves : ¬ (decide (2 ≤ k) || !d.mem.nvmePresent.getLsbD k) = true := by simp [hp, hk]
  simp only [Dev.driveError, if_neg hserves]
  refine ⟨fun hfirst => ?_, fun hagain => ?_⟩
  · rw [hfirst, if_neg Bool.false_ne_true]
  · rw [if_pos hagain]
    refine ⟨rfl, Tbl.get_set_same .., Tbl.get_set_same .., ?_, Tbl.get_set_same .., fun j hj => ⟨?_, Tbl.get_set_other _ (Ne.symm hj) _ _⟩⟩
    · simp [getLsbD_or_flag _ hk]
    · simp [getLsbD_or_flag _ hk, hj]

theorem Dev.smartDue_iff (d : Dev) (k : Nat) :
    d.smartDue k = true ↔ ∀ a, d.mem.smartAt.get k none = some a → a.toNat + 3600000000000 ≤ d.time.toNat := by
  unfold Dev.smartDue
  cases d.mem.smartAt.get k none with
  | none => simp
  | some a => simp

/-- Settles O45: a failure is `driveError_driveFailed`; the reads and the time-out act under their conditions only. -/
theorem drivesRetryFailAndAreRead : Obligations.DrivesRetryFailAndAreRead := by
  unfold Obligations.DrivesRetryFailAndAreRead
  refine ⟨fun s k hk hp => ⟨⟨_, rfl, rfl, driveError_driveFailed hk hp⟩, ⟨_, rfl, rfl, driveError_driveFailed hk hp⟩⟩, fun s k h => ?absent,
    fun s k hk => ⟨⟨fun hawake hp hdue => ?read, fun hdue => ?early⟩, fun hp => ?noDrive, fun hdown => ?untrained, fun hup => ?trained⟩⟩
  case absent =>
    exact ⟨next_withDev s (Dev.driveError_absent h), next_withDev s (Dev.driveError_absent h)⟩
  case read =>
    exact congrArg Host.Outcome.next (if_pos (by simp [hawake, hp, s.dev.smartDue_iff k |>.mpr hdue]))
  case early =>
    exact congrArg Host.Outcome.next (if_neg (fun h => hdue (s.dev.smartDue_iff k |>.mp (Bool.and_eq_true_iff.mp h).2)))
  case noDrive =>
    exact congrArg Host.Outcome.next (if_neg (by simp [hp]))
  case untrained =>
    refine ⟨_, congrArg Host.Outcome.next (if_neg (by simp [hdown, hk])), rfl, ?_, fun j hj => ?_⟩
    · simp [Dev.driveUp, getLsbD_andNot_flag _ hk]
    · simp [Dev.driveUp, getLsbD_andNot_flag _ hk, hj]
  case trained =>
    exact congrArg Host.Outcome.next (if_pos (.inr hup))

end Sys2Proof.Machine

/-! PROOFS. Memory by its places (R189-R191, R198, R200, R217): which part of the device a read goes by, what mapping a tile, bringing it up
and storing in it change, and the on-chip buffers. -/
namespace Sys2Proof
/-! ## Ranges of a byte memory -/

theorem Memory.read_congr {m m' : Memory} {a n : Nat} (h : ∀ x, a ≤ x → x < a + n → m'.get x = m.get x) : m'.read a n = m.read a n :=
  List.map_congr_left fun i hi => h _ (by omega) (by have := List.mem_range.mp hi; omega)

theorem Memory.read_zero {m : Memory} {a n : Nat} (h : ∀ x, a ≤ x → x < a + n → m.get x = 0) : m.read a n = List.replicate n 0 := by
  refine List.eq_replicate_iff.mpr ⟨m.read_length a n, fun b hb => ?_⟩
  obtain ⟨i, hi, rfl⟩ := List.mem_map.mp hb
  exact h _ (by omega) (by have := List.mem_range.mp hi; omega)

theorem Memory.read_write_same {m : Memory} (h : m.wf) (a : Nat) (l : List B8) : (m.write a l).read a l.length = l := by
  refine List.ext_getElem (Memory.read_length _ _ _) fun i hi hl => ?_
  simp only [Memory.read, List.getElem_map, List.getElem_range, Memory.get_write h]
  rw [if_pos (by omega), Nat.add_sub_cancel_left, List.getD_eq_getElem _ _ hl]

theorem Memory.read_write_apart {m : Memory} (h : m.wf) {a b n : Nat} {l : List B8} (hapart : b + n ≤ a ∨ a + l.length ≤ b) :
    (m.write a l).read b n = m.read b n :=
  Memory.read_congr fun x _ _ => by rw [Memory.get_write h, if_neg (by omega)]

theorem Memory.get_overlay_apart {m : Memory} (h : m.wf) {x : Nat} (l : List Host.Cell) (hl : ∀ c ∈ l, c.1 ≠ x) : (m.overlay l).get x = m.get x := by
  unfold Memory.overlay
  induction l generalizing m with
  | nil => rfl
  | cons c l ih =>
    rw [List.foldl_cons, ih (Memory.put_wf h _ _) (fun c' hc' => hl c' (List.mem_cons_of_mem _ hc')), Memory.get_put h,
      if_neg (Ne.symm (hl c List.mem_cons_self))]

/-! ## The least free number, and the parts of a range -/

/-- With more steps than numbers in use from `i` on, the search ends at one that is not in use. -/
theorem lowestFree_free {used : List Nat} {fuel : Nat} : ∀ {i : Nat}, (used.toFinset.filter (i ≤ ·)).card < fuel → lowestFree used i fuel ∉ used := by
  induction fuel with
  | zero => intro i h; omega
  | succ fuel ih =>
    intro i h
    unfold lowestFree
    split
    · next hin =>
      have hi : i ∈ used := List.contains_iff_mem.mp hin
      refine ih (lt_of_lt_of_le (Finset.card_lt_card ?_) (Nat.le_of_lt_succ h))
      refine Finset.ssubset_iff_of_subset (fun x hx => ?_) |>.mpr ⟨i, by simp [hi], by simp⟩
      simp only [Finset.mem_filter] at hx ⊢
      exact ⟨hx.1, Nat.le_of_succ_le hx.2⟩
    · next hout => exact fun hi => hout (List.contains_iff_mem.mpr hi)

theorem lowestFree_notMem (used : List Nat) (i : Nat) : lowestFree used i (used.length + 1) ∉ used :=
  lowestFree_free (Nat.lt_succ_of_le ((Finset.card_filter_le _ _).trans (List.toFinset_card_le used)))

end Sys2Proof

namespace Sys2Proof.Machine
open Sys2Proof

/-- A range inside one tile is one part. -/
theorem tileParts_inside {a n : Nat} (h : a % tileSize + n ≤ tileSize) : tileParts a n = if n = 0 then [] else [(a, n)] := by
  cases n with
  | zero => simp [tileParts, pieces]
  | succ n =>
    have hmin : min (n + 1) (tileSize - a % tileSize) = n + 1 := by omega
    simp [tileParts, pieces, hmin]

/-! ## What reads go by -/

/-- The device without what reads count and consume: errors counted, corrections made, and the state of the drives' commands. -/
def Dev.contents (d : Dev) : Dev :=
  { d with
    mem := { d.mem with
      ceWords := [], ceLines := [], sramFlags := 0, sramCe := 0, sramUe := 0, dramFlags := 0, dramCe := 0, dramUe := 0, macCnt := 0, chLinkCe := [],
      nvmeFail := [], nvmeRetry := [] }
    sec := { d.sec with treeFail := false, treeFailCnt := 0 } }

theorem Dev.readSram_contents (d : Dev) (live : Nat → Bool) (a n : Nat) : (d.readSram live a n).1.contents = d.contents := by
  unfold Dev.readSram
  dsimp only
  split <;> split <;> rfl

theorem Dev.countLinkCe_contents (d : Dev) (a n : Nat) : (d.countLinkCe a n).contents = d.contents := by
  unfold Dev.countLinkCe
  dsimp only
  split <;> rfl

theorem Dev.readPhys_contents (d : Dev) (a n : Nat) : (d.readPhys a n).1.contents = d.contents := by
  have hce := d.countLinkCe_contents a n
  unfold Dev.readPhys
  dsimp only
  split
  · exact d.readSram_contents _ a n
  · split
    · split <;> rfl
    · split
      · rfl
      · split
        · exact hce
        · split
          · exact hce
          · split <;> exact hce

theorem Dev.driveCheck_contents (d : Dev) (f : Nat) : (d.driveCheck f).1.contents = d.contents := by
  have huse : (d.driveUse (driveOf f)).1.contents = d.contents := by
    unfold Dev.driveUse
    split
    · rfl
    · split <;> rfl
  unfold Dev.driveCheck
  split <;> rename_i h <;> rw [h] at huse <;> exact huse

theorem Dev.readPieces_contents (d : Dev) (src : Nat) (ps : List (Nat × Nat)) : (d.readPieces src ps).1.contents = d.contents := by
  refine foldl_keeps (P := fun (s : Dev × Option Fail) => s.1.contents = d.contents) ?_ ps rfl
  rintro ⟨e, r⟩ x h
  cases r with
  | some _ => exact h
  | none =>
    have hread := e.readPhys_contents (src + x.1) x.2
    dsimp only
    split <;> rename_i hk <;> rw [hk] at hread <;> exact hread.trans h

/-! What a read answers goes by the contents alone. -/

@[simp] theorem Dev.contents_readSram (d : Dev) (live : Nat → Bool) (a n : Nat) : (d.contents.readSram live a n).2 = (d.readSram live a n).2 := by
  unfold Dev.readSram
  dsimp only [Dev.contents]
  split <;> rfl

@[simp] theorem Dev.contents_readPhys (d : Dev) (a n : Nat) : (d.contents.readPhys a n).2 = (d.readPhys a n).2 := by
  have hkey : d.contents.keyIndexAt a = d.keyIndexAt a := rfl
  have hsram := d.contents_readSram (fun _ => true) a n
  unfold Dev.readPhys
  simp only [hkey, show d.contents.cfg = d.cfg from rfl, show d.contents.mem.badMac = d.mem.badMac from rfl, show d.contents.mem.badLp = d.mem.badLp from rfl,
    show d.contents.sec.badNodes = d.sec.badNodes from rfl, show d.contents.mem.phys = d.mem.phys from rfl]
  split
  · exact hsram
  · split
    · split <;> rfl
    · split
      · rfl
      · split
        · rfl
        · split
          · rfl
          · split <;> rfl

theorem readPhys_of_contents {d e : Dev} (h : e.contents = d.contents) (a n : Nat) : (e.readPhys a n).2 = (d.readPhys a n).2 := by
  rw [← e.contents_readPhys, h, d.contents_readPhys]

theorem keyAt_of_contents {d e : Dev} (h : e.contents = d.contents) (v : View) (a : Nat) : e.keyAt v a = d.keyAt v a := by
  have hkey : e.contents.keyAt v a = d.contents.keyAt v a := by rw [h]
  exact hkey

theorem keyAt_of_memOnly {d e : Dev} (h : d.memOnly e) (v : View) (a : Nat) : e.keyAt v a = d.keyAt v a := by
  obtain ⟨m, b, n, -, rfl⟩ := h
  rfl

theorem phys_of_contents {d e : Dev} (h : e.contents = d.contents) : e.mem.phys = d.mem.phys := by
  have hphys : e.contents.mem.phys = d.contents.mem.phys := by rw [h]
  exact hphys

theorem tiles_of_contents {d e : Dev} (h : e.contents = d.contents) : e.mem.tiles = d.mem.tiles := by
  have htiles : e.contents.mem.tiles = d.contents.mem.tiles := by rw [h]
  exact htiles

theorem usableMib_of_contents {d e : Dev} (h : e.contents = d.contents) : e.mem.usableMib = d.mem.usableMib := by
  have husable : e.contents.mem.usableMib = d.contents.mem.usableMib := by rw [h]
  exact husable

/-- No word, line or node is listed that fails a read. -/
def Dev.Clean (d : Dev) : Prop := d.mem.bad = [] ∧ d.mem.badLp = [] ∧ d.mem.badMac = [] ∧ d.sec.badNodes = []

theorem Dev.NoMarks.clean {d : Dev} (h : d.NoMarks) : d.Clean := by
  obtain ⟨hbad, -, -, hlp, hmac, hnodes⟩ := h
  exact ⟨hbad, hlp, hmac, hnodes⟩

theorem clean_of_contents {d e : Dev} (h : e.contents = d.contents) (hd : d.Clean) : e.Clean := by
  have hclean : e.contents.Clean := h ▸ hd
  exact hclean

/-- A range that is written or cleared loses errors, and gains none. -/
theorem Dev.Clean.unmark {d : Dev} (h : d.Clean) (a n : Nat) : ({ d with mem := d.mem.unmark a n } : Dev).Clean := by
  obtain ⟨hbad, hlp, hmac, hnodes⟩ := h
  simp [Dev.Clean, Mem.unmark, hbad, hlp, hmac, hnodes]

theorem writePhys_clean {d : Dev} (h : d.Clean) (a : Nat) (l : List B8) : (d.writePhys a l).Clean := h.unmark a l.length

theorem firstIn_nil (w a n : Nat) : firstIn w [] a n = none := rfl

theorem Dev.Clean.readSram {d : Dev} (h : d.Clean) (live : Nat → Bool) (a n : Nat) : (d.readSram live a n).2 = .ok (d.mem.phys.read a n) := by
  simp [Dev.readSram, h.1]

/-- Where no error is listed, a read answers the bytes, save in a free frame of LP5X. -/
theorem Dev.Clean.readPhys {d : Dev} (h : d.Clean) {a : Nat} (hkey : a < sramBase → d.keyIndexAt a ≠ 0xFE) (n : Nat) :
    (d.readPhys a n).2 = .ok (d.mem.phys.read a n) := by
  have hsram := h.readSram (fun _ => true) a n
  obtain ⟨-, hlp, hmac, hnodes⟩ := h
  unfold Dev.readPhys
  rw [hlp, hmac, hnodes, firstIn_nil, firstIn_nil]
  split
  · exact hsram
  · split
    · rfl
    · next hlow =>
      rw [if_neg (hkey (Nat.lt_of_not_le hlow))]
      dsimp only [firstIn_nil, List.find?_nil]
      split <;> rfl

/-! ## Places (R189, R190) -/

theorem slotDpa_eq (k : Nat) : slotDpa k = sramBase + k * tileSize := by
  simp only [slotDpa, clusterDpa, sramBase, tileSize]
  omega

/-- The number of a place: a place of a tile starts at a multiple of the tile size. -/
def placeOf (t : Tile) : Nat := if t.onchip then 0x4000000 + t.slot else t.frame

theorem tileDpa_eq (t : Tile) : tileDpa t = placeOf t * tileSize := by
  unfold tileDpa placeOf
  split
  · rw [slotDpa_eq, sramBase, tileSize]; omega
  · rfl

theorem tileDpa_ne {t u : Tile} : tileDpa t ≠ tileDpa u ↔ placeOf t ≠ placeOf u := by
  rw [tileDpa_eq, tileDpa_eq, tileSize]
  omega

theorem mem_mapped {d : Dev} {k : Nat} {t : Tile} (h : d.tile k = some t) : (k, t) ∈ d.mapped := by
  have hmem : (k, d.mem.tiles.get k none) ∈ d.mem.tiles := Tbl.mem_of_get (by rw [show d.mem.tiles.get k none = some t from h]; exact Option.some_ne_none t)
  rw [show d.mem.tiles.get k none = some t from h] at hmem
  exact List.mem_filterMap.mpr ⟨_, hmem, rfl⟩

/-- The frame of a tile in LP5X is not free (R432). -/
theorem keyIndexAt_of_mapped {d : Dev} {k a : Nat} {t : Tile} (h : d.tile k = some t) (h0 : t.tier = 0) (hframe : a / tileSize = t.frame) :
    d.keyIndexAt a ≠ 0xFE := by
  unfold Dev.keyIndexAt
  cases hfind : d.mapped.find? (fun e => decide (e.2.tier = 0) && decide (e.2.frame = a / tileSize)) with
  | none => exact absurd (List.find?_eq_none.mp hfind (k, t) (mem_mapped h)) (by simp [h0, hframe])
  | some e =>
    dsimp only
    split <;> omega

/-- The lowest free frame lies in the data area, and no tile of LP5X has it. -/
theorem freeFrame_free {d : Dev} {f : Nat} (h : d.freeFrame = some f) : f < d.tileFrames ∧ ∀ k t, d.tile k = some t → t.tier = 0 → t.frame ≠ f := by
  simp only [Dev.freeFrame, Option.ite_none_right_eq_some, Option.some.injEq] at h
  obtain ⟨hlt, rfl⟩ := h
  refine ⟨hlt, fun k t ht h0 heq => ?_⟩
  have hused : t.frame ∈ (d.mapped.filter (fun e => decide (e.2.tier = 0))).map (fun e => e.2.frame) :=
    List.mem_map.mpr ⟨(k, t), List.mem_filter.mpr ⟨mem_mapped ht, decide_eq_true h0⟩, rfl⟩
  rw [heq] at hused
  exact lowestFree_notMem _ 0 hused

/-! ## Reading a tile of LP5X (R190, R191) -/

theorem readIn_lp5x {d : Dev} {v : View} {b : Nat} {t : Tile} (ht : d.tile (d.keyAt v b) = some t) (h0 : t.tier = 0) (n : Nat) :
    (d.readIn v b n).2 = if 0x10000000000 ≤ b then .error { status := 0x03, code := 0xB2, addr := b, space := 0 }
      else if t.owner ≠ v.party ∧ t.owner ≠ mgmtParty then .error { status := 0x03, code := 0xB0, addr := b, space := 0 }
      else (d.readPhys (tileDpa t + b % tileSize) n).2 := by
  have hup : d.bringUp (d.keyAt v b) t = (d, none) := if_pos h0
  unfold Dev.readIn
  dsimp only
  split
  · rfl
  · rw [ht]
    dsimp only
    split
    · rfl
    · rw [hup]
      dsimp only
      rw [ht]

theorem Dev.Clean.readPhys_tile {d : Dev} (h : d.Clean) {k : Nat} {t : Tile} (ht : d.tile k = some t) (h0 : t.tier = 0) (b n : Nat) :
    (d.readPhys (tileDpa t + b % tileSize) n).2 = .ok (d.mem.phys.read (tileDpa t + b % tileSize) n) := by
  refine h.readPhys (fun hlow => keyIndexAt_of_mapped ht h0 ?_) n
  rw [tileDpa_eq, tileSize] at hlow ⊢
  have hplace : placeOf t = t.frame := by
    unfold placeOf at hlow ⊢
    split
    · next hon => rw [if_pos hon, sramBase] at hlow; omega
    · rfl
  omega

/-- The owner of a mapped tile reads the bytes of its place. -/
theorem Dev.Clean.readIn_own {d : Dev} (h : d.Clean) {v : View} {b : Nat} {t : Tile} (ht : d.tile (d.keyAt v b) = some t) (h0 : t.tier = 0)
    (hown : t.owner = v.party) (hb : b < 0x10000000000) (n : Nat) : (d.readIn v b n).2 = .ok (d.mem.phys.read (tileDpa t + b % tileSize) n) := by
  rw [readIn_lp5x ht h0, if_neg (Nat.not_le.mpr hb), if_neg (fun hne => hne.1 hown), h.readPhys_tile ht h0]

/-- A read of a tile of LP5X answers the same in two devices that have the tile at one place with the same bytes. -/
theorem readIn_congr {d e : Dev} (hd : d.Clean) (he : e.Clean) {w : View} {b : Nat} {t : Tile} (hkey : e.keyAt w b = d.keyAt w b)
    (htd : d.tile (d.keyAt w b) = some t) (hte : e.tile (d.keyAt w b) = some t) (h0 : t.tier = 0) {n : Nat} (hin : b % tileSize + n ≤ tileSize)
    (hbytes : ∀ x, x / tileSize = placeOf t → e.mem.phys.get x = d.mem.phys.get x) : (e.readIn w b n).2 = (d.readIn w b n).2 := by
  have hte' : e.tile (e.keyAt w b) = some t := by rw [hkey, hte]
  rw [readIn_lp5x htd h0, readIn_lp5x hte' h0, hd.readPhys_tile htd h0, he.readPhys_tile hte h0]
  rw [Memory.read_congr fun x hlo hhi => hbytes x ?_]
  rw [tileDpa_eq, tileSize] at hlo hhi
  rw [tileSize] at hin ⊢
  omega

/-! ## Storing in a mapped tile (R198, R199) -/

/-- A tile after a write: its on-chip copy, where it has one, is dirty. -/
def Tile.stored (t : Tile) : Tile := { t with dirty := t.dirty || t.onchip }

theorem Tile.stored_onchip {t : Tile} (h : t.onchip = true) : t.stored = { t with dirty := true } := by simp [Tile.stored, h]
theorem Tile.stored_offchip {t : Tile} (h : ¬ t.onchip = true) : t.stored = t := by cases t; simp_all [Tile.stored]

section Store
variable (d : Dev) (k a : Nat) (l : List B8) (w : Tile)

/-- A store is a write of the bytes, and changes tile `k`, tags and sector masks beside it. -/
theorem storeTile_cases : ∃ tiles tags sector, (let e := d.writePhys (tileDpa w + a % tileSize) l
      d.storeTile k a l w = { e with mem := { e.mem with tiles := tiles, tags := tags, sector := sector } }) ∧
    (d.tile k = some w → tiles.get k none = some w.stored) ∧ ∀ j, j ≠ k → tiles.get j none = d.tile j := by
  unfold Dev.storeTile
  dsimp only
  split
  · next hon => exact ⟨_, _, _, rfl, fun _ => by rw [Tile.stored_onchip hon, Tbl.get_set_same], fun j hj => Tbl.get_set_other _ (Ne.symm hj) _ _⟩
  · next hoff =>
    rw [Tile.stored_offchip hoff]
    split <;> exact ⟨_, _, _, rfl, id, fun _ _ => rfl⟩

theorem storeTile_phys : (d.storeTile k a l w).mem.phys = d.mem.phys.write (tileDpa w + a % tileSize) l := by
  obtain ⟨tiles, tags, sector, h, -⟩ := storeTile_cases d k a l w
  rw [h]; rfl

theorem storeTile_usableMib : (d.storeTile k a l w).mem.usableMib = d.mem.usableMib := by
  obtain ⟨tiles, tags, sector, h, -⟩ := storeTile_cases d k a l w
  rw [h]; rfl

theorem storeTile_clean {d : Dev} (hd : d.Clean) : (d.storeTile k a l w).Clean := by
  obtain ⟨tiles, tags, sector, h, -⟩ := storeTile_cases d k a l w
  rw [h]
  exact writePhys_clean hd (tileDpa w + a % tileSize) l

theorem storeTile_tile {d : Dev} {w : Tile} (hw : d.tile k = some w) : (d.storeTile k a l w).tile k = some w.stored := by
  obtain ⟨tiles, tags, sector, h, hsame, -⟩ := storeTile_cases d k a l w
  rw [h]
  exact hsame hw

theorem storeTile_tile_other {j : Nat} (hj : j ≠ k) : (d.storeTile k a l w).tile j = d.tile j := by
  obtain ⟨tiles, tags, sector, h, -, hother⟩ := storeTile_cases d k a l w
  rw [h]
  exact hother j hj

end Store

/-- A byte in another place is as before. -/
theorem storeTile_get {d : Dev} (hwf : d.mem.phys.wf) (k : Nat) {a : Nat} {l : List B8} (hin : a % tileSize + l.length ≤ tileSize) (w : Tile) {x : Nat}
    (hx : x / tileSize ≠ placeOf w) : (d.storeTile k a l w).mem.phys.get x = d.mem.phys.get x := by
  rw [storeTile_phys, Memory.get_write hwf, if_neg]
  rw [tileDpa_eq, tileSize] at *
  omega

section OwnTile
variable {d : Dev} {v : View} {a b : Nat} {w : Tile} (hd : d.Clean) (hwf : d.mem.phys.wf) (ht : d.tile (d.keyAt v a) = some w) (h0 : w.tier = 0)
  (hown : w.owner = v.party)
include hd ht h0 hown

/-- The owner of a tile reads, after a store in it, the bytes of its place. -/
theorem readIn_stored (l : List B8) (hkey : d.keyAt v b = d.keyAt v a) (hb : b < 0x10000000000) (n : Nat) :
    ((d.storeTile (d.keyAt v a) a l w).readIn v b n).2 =
      .ok ((d.mem.phys.write (tileDpa w + a % tileSize) l).read (tileDpa w + b % tileSize) n) := by
  have hkey' : (d.storeTile (d.keyAt v a) a l w).keyAt v b = d.keyAt v a := (keyAt_of_memOnly (d.storeTile_only ..) v b).trans hkey
  have hread := (storeTile_clean (d.keyAt v a) a l w hd).readIn_own (v := v) (b := b) (t := w.stored) (by rw [hkey']; exact storeTile_tile _ a l ht) h0 hown hb n
  rwa [storeTile_phys] at hread

include hwf

theorem readIn_stored_same (l : List B8) (ha : a < 0x10000000000) : ((d.storeTile (d.keyAt v a) a l w).readIn v a l.length).2 = .ok l := by
  rw [readIn_stored hd ht h0 hown l rfl ha, Memory.read_write_same hwf]

theorem readIn_stored_apart {l : List B8} (hkey : d.keyAt v b = d.keyAt v a) (hb : b < 0x10000000000) (htile : b / tileSize = a / tileSize) {n : Nat}
    (hapart : b + n ≤ a ∨ a + l.length ≤ b) : ((d.storeTile (d.keyAt v a) a l w).readIn v b n).2 = (d.readIn v b n).2 := by
  have htb : d.tile (d.keyAt v b) = some w := by rw [hkey, ht]
  rw [readIn_stored hd ht h0 hown l hkey hb, hd.readIn_own htb h0 hown hb, Memory.read_write_apart hwf]
  rw [tileSize] at htile ⊢
  omega

end OwnTile

/-! ## A tile that gets a place in LP5X -/

/-- From `d` to `e`, tile `k` got the free frame `f` of LP5X: as a new tile of zeros, or from the NVMe tier. -/
structure Dev.Places (d : Dev) (k f : Nat) (w : Tile) (e : Dev) : Prop where
  free : d.freeFrame = some f
  tiles : e.mem.tiles = d.mem.tiles.set k (some w)
  tier : w.tier = 0
  frame : w.frame = f
  onchip : w.onchip = true → ∃ t, d.tile k = some t ∧ t.onchip = true ∧ t.slot = w.slot
  usable : e.mem.usableMib = d.mem.usableMib
  clean : d.Clean → e.Clean
  bytes : d.mem.phys.wf → ∀ x, x / tileSize ≠ f → e.mem.phys.get x = d.mem.phys.get x
  only : d.memOnly e

theorem Dev.Places.tile {d e : Dev} {k f : Nat} {w : Tile} (h : d.Places k f w e) : e.tile k = some w := by
  rw [Dev.tile, h.tiles, Tbl.get_set_same]

theorem Dev.Places.tile_other {d e : Dev} {k f j : Nat} {w : Tile} (h : d.Places k f w e) (hj : j ≠ k) : e.tile j = d.tile j := by
  rw [Dev.tile, h.tiles, Tbl.get_set_other _ (Ne.symm hj)]; rfl

/-- `PlacesApart` by the tile that changed: where every other tile stays, it is enough to look at that one. -/
theorem placesApart_of_tile {d e : Dev} {k : Nat} {w : Tile} (h : d.PlacesApart) (husable : e.mem.usableMib = d.mem.usableMib) (hw : e.tile k = some w)
    (hother : ∀ j, j ≠ k → e.tile j = d.tile j) (hfits : w.tier = 0 ∧ w.frame < 0x4000000 ∧ (w.onchip = true → w.slot < 8192))
    (hapart : ∀ j t, j ≠ k → d.tile j = some t → placeOf w ≠ placeOf t ∧ (t.tier = 0 → w.frame ≠ t.frame)) : e.PlacesApart := by
  obtain ⟨hmib, hfit, hpair⟩ := h
  obtain ⟨h0, hframe, hslot⟩ := hfits
  refine ⟨husable ▸ hmib, fun j t ht => ?_, fun i j t u hij ht hu => ?_⟩
  · by_cases hj : j = k
    · subst hj
      cases hw.symm.trans ht
      exact ⟨fun _ => hframe, fun h1 => absurd h0 h1, hslot⟩
    · exact hfit j t (hother j hj ▸ ht)
  · by_cases hi : i = k
    · subst hi
      cases hw.symm.trans ht
      obtain ⟨hplace, hne⟩ := hapart j u (Ne.symm hij) (hother j (Ne.symm hij) ▸ hu)
      exact ⟨tileDpa_ne.mpr hplace, fun _ => hne⟩
    · by_cases hj : j = k
      · subst hj
        cases hw.symm.trans hu
        obtain ⟨hplace, hne⟩ := hapart i t hi (hother i hi ▸ ht)
        exact ⟨tileDpa_ne.mpr (Ne.symm hplace), fun ht0 _ => Ne.symm (hne ht0)⟩
      · exact hpair i j t u hij (hother i hi ▸ ht) (hother j hj ▸ hu)

/-! ## Mapping a tile, and bringing one up (R191, R192, R214) -/

theorem copyPlace_get {d : Dev} (hwf : d.mem.phys.wf) (src : Nat) {dst x : Nat} (hx : x < dst ∨ dst + tileSize ≤ x) :
    (d.copyPlace src dst).mem.phys.get x = d.mem.phys.get x := by
  refine (Memory.get_overlay_apart (Memory.clear_wf hwf dst tileSize) _ fun c hc => ?_).trans ?_
  · simp only [List.mem_map, List.mem_filter, Bool.and_eq_true, decide_eq_true_eq] at hc
    obtain ⟨y, ⟨-, hlo, hhi⟩, rfl⟩ := hc
    dsimp only
    omega
  · rw [Memory.get_clear, if_neg (by omega)]

theorem copyPieces_whole (d : Dev) (src dst : Nat) : d.copyPieces src dst [(0, tileSize)] = d.copyPlace src dst := if_pos rfl

theorem copyPlace_clean {d : Dev} (src dst : Nat) (h : d.Clean) : (d.copyPlace src dst).Clean := h.unmark dst tileSize

theorem mapTile_fails {d d1 : Dev} {party k : Nat} {e : Fail} (h : d.mapTile party k = (d1, some e)) : d1 = d := by
  unfold Dev.mapTile at h
  dsimp only at h
  repeat' split at h
  all_goals cases h
  all_goals rfl

/-- A tile that a first write maps is a place of zeros of the writer. -/
theorem mapTile_places {d d1 : Dev} {party k : Nat} (h : d.mapTile party k = (d1, none)) :
    ∃ f, d.Places k f { owner := party, frame := f } d1 ∧ ∀ x, x / tileSize = f → d1.mem.phys.get x = 0 := by
  have honly := d.mapTile_only party k
  rw [h] at honly
  unfold Dev.mapTile at h
  dsimp only at h
  repeat' split at h
  all_goals try cases h
  next f hf =>
    refine ⟨f, ⟨hf, rfl, rfl, rfl, fun hon => absurd hon Bool.false_ne_true, rfl, fun hd => hd.unmark (f * tileSize) tileSize, fun _ x hx => ?_, honly⟩,
      fun x hx => ?_⟩
    · refine (Memory.get_clear _ _ _ _).trans (if_neg ?_)
      rw [tileSize] at *
      omega
    · refine (Memory.get_clear _ _ _ _).trans (if_pos ?_)
      rw [tileSize] at *
      omega

theorem bringUp_lp5x {d : Dev} {k : Nat} {t : Tile} (h : t.tier = 0) : d.bringUp k t = (d, none) := if_pos h

theorem bringUp_fails {d d1 : Dev} {k : Nat} {t : Tile} {e : Fail} (h : d.bringUp k t = (d1, some e)) : d1.contents = d.contents := by
  unfold Dev.bringUp at h
  split at h
  · cases h
  · split at h
    · cases h; rfl
    · split at h
      · cases h; rfl
      · have hcheck := d.driveCheck_contents t.frame
        split at h
        · next hfail => cases h; rwa [hfail] at hcheck
        · next d2 hok =>
          rw [hok] at hcheck
          have hread := d2.readPieces_contents (t.frame * tileSize) [(0, tileSize)]
          split at h
          · next hfail => cases h; rw [hfail] at hread; exact hread.trans hcheck
          · cases h

/-- A tile of the NVMe tier after it came up to frame `f`: unless it holds EBF16 blocks, its place in that tier becomes its copy. -/
def Tile.lifted (t : Tile) (f age : Nat) : Tile :=
  if t.ebf16 then { t with tier := 0, frame := f } else { t with tier := 0, frame := f, nvmeCopy := true, copyFrame := t.frame, age := age }

theorem Tile.lifted_keeps (t : Tile) (f age : Nat) :
    (t.lifted f age).tier = 0 ∧ (t.lifted f age).frame = f ∧ (t.lifted f age).onchip = t.onchip ∧ (t.lifted f age).slot = t.slot ∧ (t.lifted f age).owner = t.owner := by
  unfold Tile.lifted
  split <;> exact ⟨rfl, rfl, rfl, rfl, rfl⟩

/-- A tile that comes up from the NVMe tier keeps its owner and its on-chip slot. -/
theorem bringUp_places {d d1 : Dev} {k : Nat} {t : Tile} (ht : d.tile k = some t) (hnvme : t.tier ≠ 0) (h : d.bringUp k t = (d1, none)) :
    ∃ f w, d.Places k f w d1 ∧ w.owner = t.owner := by
  have honly := d.bringUp_only k t [(0, tileSize)]
  rw [h] at honly
  unfold Dev.bringUp at h
  rw [if_neg hnvme] at h
  split at h
  · cases h
  · split at h
    · cases h
    · next f hf =>
      have hcheck := d.driveCheck_contents t.frame
      split at h
      · cases h
      · next d2 hok =>
        rw [hok] at hcheck
        have hread := d2.readPieces_contents (t.frame * tileSize) [(0, tileSize)]
        split at h
        · cases h
        · next d3 hgot =>
          rw [hgot] at hread
          have hsame : d3.contents = d.contents := hread.trans hcheck
          have htiles := tiles_of_contents hsame
          have husable := usableMib_of_contents hsame
          have hphys := phys_of_contents hsame
          let w := t.lifted f d3.mem.freshCopy
          obtain ⟨h0, hframe, hon, hslot, hown⟩ := t.lifted_keeps f d3.mem.freshCopy
          rw [copyPieces_whole] at h
          cases h
          refine ⟨f, w, ⟨hf, congrArg (fun x => Tbl.set x k (some w)) htiles, h0, hframe, fun h => ⟨t, ht, hon ▸ h, hslot.symm⟩,
            husable, fun hd => copyPlace_clean (t.frame * tileSize) (f * tileSize) (clean_of_contents hsame hd), fun hwf x hx => ?_, honly⟩, hown⟩
          refine (copyPlace_get (hphys ▸ hwf) (t.frame * tileSize) ?_).trans (congrArg (fun m : Memory => m.get x) hphys)
          rw [tileSize] at *
          omega

/-! ## A write inside one tile (R191, R227) -/

/-- A write of a mapped tile that is taken: the tile is the writer's, comes up, and takes the bytes. -/
theorem writeIn_mapped {d e : Dev} {v : View} {a : Nat} {l : List B8} {t : Tile} (ha : a < 0x8000000000) (ht : d.tile (d.keyAt v a) = some t)
    (h : d.writeIn v a l = (e, none)) :
    t.owner = v.party ∧ ∃ d1, d.bringUp (d.keyAt v a) t = (d1, none) ∧ ∀ w, d1.tile (d.keyAt v a) = some w → e = d1.storeTile (d.keyAt v a) a l w := by
  have hwin : inWindow a = false := decide_eq_false (Nat.not_le.mpr ha)
  unfold Dev.writeIn at h
  simp only [hwin, ht, Bool.false_and, Bool.not_false, Bool.true_and, decide_eq_true_eq, Bool.false_eq_true, if_false] at h
  split at h
  · cases h
  · split at h
    · cases h
    · split at h
      · cases h
      · next hown =>
        refine ⟨not_not.mp hown, ?_⟩
        split at h
        · cases h
        · split at h
          · cases h
          · next d1 hup =>
            refine ⟨d1, hup, fun w hw => ?_⟩
            rw [hw] at h
            cases h
            rfl

/-- A first write of a tile that is mapped for the writer is taken. -/
theorem writeIn_unmapped {d d0 : Dev} {v : View} {a f : Nat} {l : List B8} (ht : d.tile (d.keyAt v a) = none) (ha : a < 0x10000000000)
    (hmay : ¬ (inWindow a && !v.mayWrite a) = true) (hmap : d.mapTile v.party (d.keyAt v a) = (d0, none))
    (hnew : d0.tile (d.keyAt v a) = some { owner := v.party, frame := f }) :
    d.writeIn v a l = (d0.storeTile (d.keyAt v a) a l { owner := v.party, frame := f }, none) := by
  unfold Dev.writeIn
  simp [ht, hmap, hnew, hmay, Nat.not_le.mpr ha, bringUp_lp5x]

/-- A write that the tile table refuses leaves the contents. -/
theorem writeIn_fails {d e : Dev} {v : View} {a : Nat} {l : List B8} {f : Fail} (h : d.writeIn v a l = (e, some f)) : e.contents = d.contents := by
  by_cases ha : 0x10000000000 ≤ a
  · rw [Dev.writeIn, if_pos ha] at h
    cases h; rfl
  by_cases hmay : (inWindow a && !v.mayWrite a) = true
  · rw [Dev.writeIn, if_neg ha, if_pos hmay] at h
    cases h; rfl
  cases ht : d.tile (d.keyAt v a) with
  | none =>
    cases hmap : d.mapTile v.party (d.keyAt v a) with
    | mk d0 r =>
      cases r with
      | none =>
        obtain ⟨x, hplaces, -⟩ := mapTile_places hmap
        rw [writeIn_unmapped ht (Nat.lt_of_not_le ha) hmay hmap hplaces.tile] at h
        cases h
      | some g =>
        simp only [Dev.writeIn, if_neg ha, if_neg hmay, ht, hmap] at h
        cases h
        rw [mapTile_fails hmap]
  | some t =>
    simp only [Dev.writeIn, if_neg ha, if_neg hmay, ht] at h
    split at h
    · cases h; rfl
    · split at h
      · cases h; rfl
      · split at h
        · cases h; rfl
        · split at h
          · next hup => cases h; exact bringUp_fails hup
          · split at h <;> cases h

/-- The device as a write finds it when it stores: the tile is the writer's and in LP5X, which it was before, or it got a free frame; what the
writer reads of it is as before. -/
structure Dev.Opens (d : Dev) (v : View) (a : Nat) (w : Tile) (d1 : Dev) : Prop where
  tile : d1.tile (d.keyAt v a) = some w
  tier : w.tier = 0
  owner : w.owner = v.party
  placed : d1 = d ∨ ∃ f, d.Places (d.keyAt v a) f w d1
  reads : d.Clean → ∀ b n, d.keyAt v b = d.keyAt v a → b < 0x10000000000 → b % tileSize + n ≤ tileSize → (d1.readIn v b n).2 = (d.readIn v b n).2

theorem opens_mapped {d : Dev} {v : View} {a : Nat} {t : Tile} (ht : d.tile (d.keyAt v a) = some t) (h0 : t.tier = 0) (hown : t.owner = v.party) :
    d.Opens v a t d :=
  ⟨ht, h0, hown, .inl rfl, fun _ _ _ _ _ _ => rfl⟩

theorem opens_unmapped {d d1 : Dev} {v : View} {a : Nat} (ht : d.tile (d.keyAt v a) = none) (h : d.mapTile v.party (d.keyAt v a) = (d1, none)) :
    ∃ f, d.Opens v a { owner := v.party, frame := f } d1 := by
  obtain ⟨f, hplaces, hzero⟩ := mapTile_places h
  refine ⟨f, hplaces.tile, rfl, rfl, .inr ⟨f, hplaces⟩, fun hd b n hkey hb hin => ?_⟩
  have hkey1 : d1.keyAt v b = d.keyAt v a := (keyAt_of_memOnly hplaces.only v b).trans hkey
  have hold : (d.readIn v b n).2 = .ok (List.replicate n 0) := by
    unfold Dev.readIn
    simp [hkey, ht, Nat.not_le.mpr hb]
  rw [hold, (hplaces.clean hd).readIn_own (t := { owner := v.party, frame := f }) (by rw [hkey1]; exact hplaces.tile) rfl rfl hb n]
  refine congrArg Except.ok (Memory.read_zero fun x hlo hhi => hzero x ?_)
  rw [tileDpa_eq, show placeOf { owner := v.party, frame := f } = f from rfl, tileSize] at hlo hhi
  rw [tileSize] at hin ⊢
  omega

theorem opens_nvme {d d1 : Dev} {v : View} {a : Nat} {t : Tile} (ht : d.tile (d.keyAt v a) = some t) (hnvme : t.tier ≠ 0) (hown : t.owner = v.party)
    (h : d.bringUp (d.keyAt v a) t = (d1, none)) : ∃ w, d.Opens v a w d1 := by
  obtain ⟨f, w, hplaces, hkeeps⟩ := bringUp_places ht hnvme h
  have hw : w.owner = v.party := hkeeps.trans hown
  refine ⟨w, hplaces.tile, hplaces.tier, hw, .inr ⟨f, hplaces⟩, fun _ b n hkey hb _ => ?_⟩
  have hkey1 : d1.keyAt v b = d.keyAt v a := (keyAt_of_memOnly hplaces.only v b).trans hkey
  rw [readIn_lp5x (t := w) (by rw [hkey1]; exact hplaces.tile) hplaces.tier, if_neg (Nat.not_le.mpr hb), if_neg (fun hne => hne.1 hw)]
  unfold Dev.readIn
  simp [hkey, ht, Nat.not_le.mpr hb, hown, h, hplaces.tile]

/-- A write that is taken opens its tile, and stores. -/
theorem writeIn_stores {d e : Dev} {v : View} {a : Nat} {l : List B8} (ha : a < 0x8000000000) (h : d.writeIn v a l = (e, none)) :
    ∃ d1 w, d.Opens v a w d1 ∧ e = d1.storeTile (d.keyAt v a) a l w := by
  cases ht : d.tile (d.keyAt v a) with
  | some t =>
    obtain ⟨hown, d1, hup, hstore⟩ := writeIn_mapped ha ht h
    by_cases h0 : t.tier = 0
    · cases (bringUp_lp5x h0).symm.trans hup
      exact ⟨d, t, opens_mapped ht h0 hown, hstore t ht⟩
    · obtain ⟨w, hopens⟩ := opens_nvme ht h0 hown hup
      exact ⟨d1, w, hopens, hstore w hopens.tile⟩
  | none =>
    have hlow : a < 0x10000000000 := ha.trans (by decide)
    have hmay : ¬ (inWindow a && !v.mayWrite a) = true := by simp [inWindow, ha]
    cases hmap : d.mapTile v.party (d.keyAt v a) with
    | mk d1 r =>
      cases r with
      | none =>
        obtain ⟨f, hopens⟩ := opens_unmapped ht hmap
        rw [writeIn_unmapped ht hlow hmay hmap hopens.tile] at h
        cases h
        exact ⟨d1, _, hopens, rfl⟩
      | some g =>
        unfold Dev.writeIn at h
        simp only [if_neg (Nat.not_le.mpr hlow), if_neg hmay, ht, hmap] at h
        cases h

/-! ## What a write leaves -/

theorem Dev.Opens.clean {d d1 : Dev} {v : View} {a : Nat} {w : Tile} (h : d.Opens v a w d1) (hd : d.Clean) : d1.Clean := by
  rcases h.placed with rfl | ⟨f, hplaces⟩
  · exact hd
  · exact hplaces.clean hd

theorem Dev.Opens.only {d d1 : Dev} {v : View} {a : Nat} {w : Tile} (h : d.Opens v a w d1) : d.memOnly d1 := by
  rcases h.placed with rfl | ⟨f, hplaces⟩
  · exact memOnly_refl _
  · exact hplaces.only

theorem Dev.Opens.tile_other {d d1 : Dev} {v : View} {a j : Nat} {w : Tile} (h : d.Opens v a w d1) (hj : j ≠ d.keyAt v a) : d1.tile j = d.tile j := by
  rcases h.placed with rfl | ⟨f, hplaces⟩
  · rfl
  · exact hplaces.tile_other hj

theorem wf_of_memOnly {d e : Dev} (h : d.memOnly e) (hd : d.mem.phys.wf) : e.mem.phys.wf := by
  obtain ⟨m, b, n, hwf, rfl⟩ := h
  exact hwf hd

/-- No tile lies in a free frame of LP5X. -/
theorem placeOf_ne_free {d : Dev} (h : d.PlacesApart) {f j : Nat} {t : Tile} (hf : d.freeFrame = some f) (ht : d.tile j = some t) : placeOf t ≠ f := by
  obtain ⟨hmib, hfit, -⟩ := h
  obtain ⟨-, hnvme, -⟩ := hfit j t ht
  obtain ⟨hlt, hfree⟩ := freeFrame_free hf
  rw [Dev.tileFrames] at hlt
  rw [nvmeFrameBase] at hnvme
  unfold placeOf
  split
  · omega
  · by_cases h0 : t.tier = 0
    · exact hfree j t ht h0
    · have := hnvme h0
      omega

/-- A tile that gets a free frame is apart from every other. -/
theorem Dev.Places.placesApart {d e : Dev} {k f : Nat} {w : Tile} (h : d.Places k f w e) (hd : d.PlacesApart) : e.PlacesApart := by
  obtain ⟨hlt, hfree⟩ := freeFrame_free h.free
  have ⟨hmib, hfit, hpair⟩ := hd
  have hframe : w.frame < 0x4000000 := by rw [h.frame]; rw [Dev.tileFrames] at hlt; omega
  refine placesApart_of_tile hd h.usable h.tile (fun j hj => h.tile_other hj) ⟨h.tier, hframe, fun hon => ?_⟩ fun j t hj ht => ⟨?_, fun h0 => ?_⟩
  · obtain ⟨u, hu, huon, hslot⟩ := h.onchip hon
    obtain ⟨-, -, hlow⟩ := hfit k u hu
    exact hslot ▸ hlow huon
  · by_cases hon : w.onchip = true
    · obtain ⟨u, hu, huon, hslot⟩ := h.onchip hon
      have hplace : placeOf w = placeOf u := by simp [placeOf, hon, huon, hslot]
      exact hplace ▸ tileDpa_ne.mp (hpair k j u t (Ne.symm hj) hu ht).1
    · have hplace : placeOf w = f := by rw [placeOf, if_neg hon, h.frame]
      exact hplace ▸ Ne.symm (placeOf_ne_free hd h.free ht)
  · exact h.frame ▸ Ne.symm (hfree j t ht h0)

theorem Dev.Opens.placesApart {d d1 : Dev} {v : View} {a : Nat} {w : Tile} (h : d.Opens v a w d1) (hd : d.PlacesApart) : d1.PlacesApart := by
  rcases h.placed with rfl | ⟨f, hplaces⟩
  · exact hd
  · exact hplaces.placesApart hd

theorem storeTile_placesApart {d : Dev} {k : Nat} {w : Tile} (a : Nat) (l : List B8) (hw : d.tile k = some w) (h0 : w.tier = 0) (hd : d.PlacesApart) :
    (d.storeTile k a l w).PlacesApart := by
  have ⟨_, hfit, hpair⟩ := hd
  obtain ⟨hlow, -, hslot⟩ := hfit k w hw
  refine placesApart_of_tile hd (storeTile_usableMib ..) (storeTile_tile k a l hw) (fun j hj => storeTile_tile_other d k a l w hj) ⟨h0, hlow h0, hslot⟩
    fun j t hj ht => ?_
  obtain ⟨hdpa, hframe⟩ := hpair k j w t (Ne.symm hj) hw ht
  exact ⟨tileDpa_ne.mp hdpa, hframe h0⟩

/-- A byte in the place of another tile of LP5X is as before. -/
theorem Dev.Opens.get_other {d d1 : Dev} {v : View} {a j : Nat} {w t : Tile} (h : d.Opens v a w d1) (hwf : d.mem.phys.wf) (hd : d.PlacesApart)
    (ht : d.tile j = some t) {x : Nat} (hx : x / tileSize = placeOf t) : d1.mem.phys.get x = d.mem.phys.get x := by
  rcases h.placed with rfl | ⟨f, hplaces⟩
  · rfl
  · exact hplaces.bytes hwf x (hx ▸ placeOf_ne_free hd hplaces.free ht)

/-! ## On-chip buffers (R139, R200) -/

theorem getLsbD_foldl_or {j : Nat} (hj : j < 256) (l : List Nat) : ∀ m : W256,
    (l.foldl (fun m i => m ||| (1#256 <<< i)) m).getLsbD j = (m.getLsbD j || decide (j ∈ l)) := by
  induction l with
  | nil => intro m; simp
  | cons i l ih =>
    intro m
    have hbit : (1#256 <<< i).getLsbD j = decide (j = i) := by
      rw [BitVec.getLsbD_shiftLeft, BitVec.getLsbD_one]
      by_cases h : j = i
      · simp [h, h ▸ hj]
      · simp [h, hj]; omega
    rw [List.foldl_cons, ih, BitVec.getLsbD_or, hbit]
    simp [Bool.or_assoc]

/-- The line of a byte that is written is in the mask of the write. -/
theorem lineMask_getLsbD {o n i : Nat} (hin : o + n ≤ tileSize) (hlo : o ≤ i) (hhi : i < o + n) : (lineMask o n).getLsbD (i / 64) = true := by
  rw [tileSize] at hin
  rw [lineMask, getLsbD_foldl_or (by omega)]
  simp only [List.mem_filter, List.mem_range, Bool.and_eq_true, decide_eq_true_eq, Bool.or_eq_true]
  omega

theorem bufRead_inside {d : Dev} {p a n : Nat} (hin : a % tileSize + n ≤ tileSize) (hn : n ≠ 0) : (d.bufRead p a n).2 = (d.bufTile p a n).2 := by
  rw [Dev.bufRead, tileParts_inside hin, if_neg hn, List.foldl_cons, List.foldl_nil]
  dsimp only
  split <;> rename_i h <;> simp [h]

/-- A device whose buffer tile of the byte at `a` belongs to party `p`, with the lines of the `n` bytes from there valid. -/
def Dev.BufHeld (d : Dev) (p a n : Nat) : Prop :=
  (d.mem.tags.get (tagNo a) {}).owner = some p ∧ ∀ i, i < n → (d.mem.tags.get (tagNo a) {}).valid.getLsbD ((a + i) % tileSize / 64) = true

theorem Dev.BufHeld.bufTile {d : Dev} {p a n : Nat} (h : d.BufHeld p a n) (hd : d.Clean) : (d.bufTile p a n).2 = .ok (d.mem.phys.read a n) := by
  obtain ⟨hown, hvalid⟩ := h
  have hread := hd.readSram (fun x => (d.mem.tags.get (tagNo a) {}).valid.getLsbD (x % tileSize / 64)) a n
  unfold Dev.bufTile
  simp only [hown, ne_eq, not_true_eq_false, if_false]
  split <;> rename_i hk <;> rw [hk] at hread <;> cases hread
  refine congrArg Except.ok (List.ext_getElem (by simp) fun i hi hl => ?_)
  rw [List.getElem_mapIdx, if_pos (hvalid i (by simpa [Memory.read_length] using hl))]

theorem Dev.BufHeld.bufTile_other {d : Dev} {p q a n : Nat} (h : d.BufHeld p a n) (hq : q ≠ p) :
    (d.bufTile q a n).2 = .error { status := 0x03, code := 0x94, addr := a / tileSize * tileSize, space := 1 } := by
  obtain ⟨hown, -⟩ := h
  unfold Dev.bufTile
  simp only [hown]
  rw [if_pos (Ne.symm hq)]

theorem bufWrite_nil (d : Dev) (p a : Nat) : d.bufWrite p a [] = d := by
  rw [Dev.bufWrite, List.length_nil]
  simp [tileParts, pieces]

/-- Clearing keeps the canonical form, and lists no error. -/
theorem clearPhys_keeps {d : Dev} (h : d.mem.phys.wf ∧ d.Clean) (a n : Nat) : (d.clearPhys a n).mem.phys.wf ∧ (d.clearPhys a n).Clean :=
  ⟨Memory.clear_wf h.1 a n, h.2.unmark a n⟩

/-- A write inside one buffer tile: the writer holds the tile, and the bytes are there. -/
theorem bufWrite_inside {d : Dev} {p a : Nat} {l : List B8} (hwf : d.mem.phys.wf) (hd : d.Clean) (hin : a % tileSize + l.length ≤ tileSize) (hl : l ≠ []) :
    (d.bufWrite p a l).BufHeld p a l.length ∧ (d.bufWrite p a l).Clean ∧ (d.bufWrite p a l).mem.phys.read a l.length = l := by
  have hn : l.length ≠ 0 := fun h => hl (List.eq_nil_of_length_eq_zero h)
  rw [Dev.bufWrite, tileParts_inside hin, if_neg hn, List.foldl_cons, List.foldl_nil]
  dsimp only
  rw [Nat.sub_self, List.drop_zero, List.take_length]
  set g := if (d.mem.tags.get (tagNo a) {}).owner = some p then d.mem.tags.get (tagNo a) {} else { owner := some p, valid := 0, written := 0 } with hg
  have hown : g.owner = some p := by
    rw [hg]
    split
    · assumption
    · rfl
  obtain ⟨hwf1, hd1⟩ := foldl_keeps (P := fun e : Dev => e.mem.phys.wf ∧ e.Clean) (f := fun e i => e.clearPhys (a / tileSize * tileSize + 64 * i) 64)
    (fun e i he => clearPhys_keeps he _ _) (maskLines (lineMask (a % tileSize) l.length &&& ~~~g.valid)) ⟨hwf, hd⟩
  refine ⟨⟨?_, fun i hi => ?_⟩, writePhys_clean hd1 a l, Memory.read_write_same hwf1 a l⟩
  · rw [Tbl.get_set_same]
    exact hown
  · rw [Tbl.get_set_same]
    dsimp only
    rw [BitVec.getLsbD_or, show (a + i) % tileSize = a % tileSize + i by rw [tileSize] at *; omega, lineMask_getLsbD hin (by omega) (by omega), Bool.or_true]

/-! ## O60 -/

section Write
variable {d e : Dev} {v : View} {a : Nat} {l : List B8} (hwf : d.mem.phys.wf) (hd : d.Clean) (ha : a < 0x8000000000) (hin : a % tileSize + l.length ≤ tileSize)
  (h : d.writeIn v a l = (e, none))
include hwf hd ha h

theorem writeIn_readIn_same : (e.readIn v a l.length).2 = .ok l := by
  obtain ⟨d1, w, hopens, rfl⟩ := writeIn_stores ha h
  have hkey : d1.keyAt v a = d.keyAt v a := keyAt_of_memOnly hopens.only v a
  rw [← hkey]
  exact readIn_stored_same (hopens.clean hd) (wf_of_memOnly hopens.only hwf) (by rw [hkey]; exact hopens.tile) hopens.tier hopens.owner l (ha.trans (by decide))

theorem writeIn_readIn_apart {b n : Nat} (htile : b / tileSize = a / tileSize) (hapart : b + n ≤ a ∨ a + l.length ≤ b) (hb : b % tileSize + n ≤ tileSize) :
    (e.readIn v b n).2 = (d.readIn v b n).2 := by
  obtain ⟨d1, w, hopens, rfl⟩ := writeIn_stores ha h
  have hlow : b < 0x8000000000 := by rw [tileSize] at htile; omega
  have hkey : d1.keyAt v a = d.keyAt v a := keyAt_of_memOnly hopens.only v a
  have hsame : d.keyAt v b = d.keyAt v a := by simp [Dev.keyAt, Dev.genAt, inWindow, Nat.not_le.mpr hlow, Nat.not_le.mpr ha, htile]
  have hsame1 : d1.keyAt v b = d1.keyAt v a := by rw [keyAt_of_memOnly hopens.only, hkey, hsame]
  have hb2 : b < 0x10000000000 := hlow.trans (by decide)
  rw [← hopens.reads hd b n hsame hb2 hb, ← hkey]
  exact readIn_stored_apart (hopens.clean hd) (wf_of_memOnly hopens.only hwf) (by rw [hkey]; exact hopens.tile) hopens.tier hopens.owner hsame1 hb2 htile hapart

include hin

/-- A write leaves what anyone reads of another tile outside the NVMe tier. -/
theorem writeIn_readIn_other (hapart : d.PlacesApart) {w : View} {b n : Nat} {t : Tile} (hkey : d.keyAt w b ≠ d.keyAt v a)
    (ht : d.tile (d.keyAt w b) = some t) (h0 : t.tier = 0) (hb : b % tileSize + n ≤ tileSize) : (e.readIn w b n).2 = (d.readIn w b n).2 := by
  have honly := d.writeIn_only v a l
  rw [h] at honly
  obtain ⟨d1, u, hopens, rfl⟩ := writeIn_stores ha h
  have ht1 : d1.tile (d.keyAt w b) = some t := (hopens.tile_other hkey).trans ht
  refine readIn_congr hd (storeTile_clean _ a l u (hopens.clean hd)) (keyAt_of_memOnly honly w b) ht ((storeTile_tile_other d1 _ a l u hkey).trans ht1) h0 hb fun x hx => ?_
  obtain ⟨-, -, hpair⟩ := hopens.placesApart hapart
  have hne : placeOf u ≠ placeOf t := tileDpa_ne.mp (hpair _ _ u t (Ne.symm hkey) hopens.tile ht1).1
  rw [storeTile_get (wf_of_memOnly hopens.only hwf) _ hin u (hx ▸ Ne.symm hne), hopens.get_other hwf hapart ht hx]

end Write

theorem writeIn_placesApart {d e : Dev} {v : View} {a : Nat} {l : List B8} (ha : a < 0x8000000000) (h : d.writeIn v a l = (e, none)) (hd : d.PlacesApart) :
    e.PlacesApart := by
  obtain ⟨d1, w, hopens, rfl⟩ := writeIn_stores ha h
  exact storeTile_placesApart a l hopens.tile hopens.tier (hopens.placesApart hd)

/-- A refused write leaves what anyone reads of a tile outside the NVMe tier. -/
theorem writeIn_fails_readIn {d e : Dev} {v : View} {a : Nat} {l : List B8} {f : Fail} (h : d.writeIn v a l = (e, some f)) {w : View} {b : Nat} {t : Tile}
    (ht : d.tile (d.keyAt w b) = some t) (h0 : t.tier = 0) (n : Nat) : (e.readIn w b n).2 = (d.readIn w b n).2 := by
  have hsame := writeIn_fails h
  have hte : e.tile (e.keyAt w b) = some t := by rw [Dev.tile, tiles_of_contents hsame, keyAt_of_contents hsame]; exact ht
  rw [readIn_lp5x ht h0, readIn_lp5x hte h0, readPhys_of_contents hsame]

/-- Settles O60: a write that is taken is a store in a tile that it opens (`writeIn_stores`), a refused one leaves the contents. -/
theorem memoryReadsBackWhatWasWritten : Obligations.MemoryReadsBackWhatWasWritten := by
  unfold Obligations.MemoryReadsBackWhatWasWritten
  refine ⟨fun d e v a l hwf hm ha hin h => ⟨writeIn_readIn_same hwf hm.clean ha h, ?canonical, fun b n htile hapart hb => ?sameTile, fun hd => ⟨?apart, ?others⟩⟩,
    fun d e v a l f h w b n t ht h0 _ => writeIn_fails_readIn h ht h0 n, fun d p a l hwf hm hin => ⟨?own, ?bufCanonical, fun q hq hl => ?foreign⟩, ?reset⟩
  case canonical =>
    have honly := d.writeIn_only v a l
    rw [h] at honly
    exact wf_of_memOnly honly hwf
  case sameTile => exact writeIn_readIn_apart hwf hm.clean ha h htile hapart hb
  case apart => exact writeIn_placesApart ha h hd
  case others =>
    intro w b n t hkey ht h0 hb
    exact writeIn_readIn_other hwf hm.clean ha hin h hd hkey ht h0 hb
  case own =>
    by_cases hl : l = []
    · subst hl; rfl
    · obtain ⟨hheld, hclean, hread⟩ := bufWrite_inside (p := p) hwf hm.clean hin hl
      rw [bufRead_inside hin (fun hn => hl (List.eq_nil_of_length_eq_zero hn)), hheld.bufTile hclean, hread]
  case bufCanonical => exact wf_of_memOnly (d.bufWrite_only p a l) hwf
  case foreign =>
    obtain ⟨hheld, -, -⟩ := bufWrite_inside (p := p) hwf hm.clean hin hl
    rw [bufRead_inside hin (fun hn => hl (List.eq_nil_of_length_eq_zero hn)), hheld.bufTile_other hq]
  case reset =>
    refine ⟨by decide, fun k t ht => ?_, fun k j t u _ ht _ => ?_⟩
    · cases ht
    · cases ht

end Sys2Proof.Machine

/-! PROOFS. What the ends of commands, records, firings and faults leave of the reception of camera frames: the line pool, and each context but
for its bindings and what waits for it (R346, R359, R361, R365). -/
namespace Sys2Proof.Machine
open Sys2Proof

/-! ## The reception of a context -/

/-- A context but for its bindings, its staged set and the commits that wait. -/
def CamCtx.receiving (v : CamCtx) : CamCtx := { v with outs := [], commits := [], staged := none }

/-- Time, configuration, and the reception of context `k`. -/
def Dev.image (d : Dev) (k : Nat) : W64 × Cfg × CamCtx := (d.time, d.cfg, (d.camCtx k).receiving)

/-- With them the line pool, for every context. -/
def Dev.imaging (d : Dev) : List Line × (Nat → W64 × Cfg × CamCtx) := (d.cam.pool, d.image)

theorem image_of_imaging {d e : Dev} (h : e.imaging = d.imaging) (k : Nat) : e.image k = d.image k := congrFun (congrArg Prod.snd h) k
theorem pool_of_imaging {d e : Dev} (h : e.imaging = d.imaging) : e.cam.pool = d.cam.pool := congrArg Prod.fst h
theorem time_of_image {d e : Dev} {k : Nat} (h : e.image k = d.image k) : e.time = d.time := congrArg Prod.fst h
theorem cfg_of_image {d e : Dev} {k : Nat} (h : e.image k = d.image k) : e.cfg = d.cfg := congrArg (fun x => x.2.1) h
theorem receiving_of_image {d e : Dev} {k : Nat} (h : e.image k = d.image k) : (e.camCtx k).receiving = (d.camCtx k).receiving := congrArg (fun x => x.2.2) h

theorem imaging_foldl {β : Type} {f : Dev → β → Dev} (hf : ∀ d b, (f d b).imaging = d.imaging) (l : List β) (d : Dev) : (l.foldl f d).imaging = d.imaging :=
  foldl_keeps (P := fun e => e.imaging = d.imaging) (fun e b h => (hf e b).trans h) l rfl

theorem imaging_of_ringOnly {p : Nat} {d e : Dev} (h : d.ringOnly p e) : e.imaging = d.imaging := by
  obtain ⟨ten, mg, m, b, n, hm, pm, -, -, rfl⟩ := h; rfl

theorem imaging_of_memOnly {d e : Dev} (h : d.memOnly e) : e.imaging = d.imaging := imaging_of_ringOnly (ringOnly_of_mem 0 h)

@[simp] theorem Dev.modCtx_image (d : Dev) (c : Nat) (f : CamCtx → CamCtx) : (d.modCtx c f).image c = (d.time, d.cfg, (f (d.camCtx c)).receiving) := by
  simp [Dev.image]

theorem Dev.modCtx_image_other (d : Dev) {c k : Nat} (h : k ≠ c) (f : CamCtx → CamCtx) : (d.modCtx c f).image k = d.image k := by
  simp [Dev.image, d.modCtx_camCtx_other (Ne.symm h)]

/-- A change of a context that shows in its bindings, its staged set or the commits alone. -/
theorem Dev.modCtx_imaging (d : Dev) (c : Nat) {f : CamCtx → CamCtx} (hf : ∀ v, (f v).receiving = v.receiving) : (d.modCtx c f).imaging = d.imaging := by
  refine Prod.ext rfl (funext fun k => ?_)
  by_cases hk : k = c
  · subst hk
    exact (d.modCtx_image k f).trans (by rw [hf]; rfl)
  · exact d.modCtx_image_other hk f

/-! ## The end of a command (R121) -/

@[simp] theorem Dev.record_imaging (d : Dev) (r : ErrRec) : (d.record r).imaging = d.imaging := imaging_of_ringOnly (record_ring d r)
@[simp] theorem Dev.failRec_imaging (d : Dev) (p unit : Nat) (f : Fail) : (d.failRec p unit f).imaging = d.imaging := d.record_imaging _
@[simp] theorem Dev.setBusy_imaging (d : Dev) (p slot : Nat) (b : Bool) : (d.setBusy p slot b).imaging = d.imaging := imaging_of_ringOnly (setBusy_ring d p slot b)
@[simp] theorem Dev.setProgress_imaging (d : Dev) (p slot kind value : Nat) : (d.setProgress p slot kind value).imaging = d.imaging :=
  imaging_of_ringOnly (setProgress_ring d p slot kind value)
@[simp] theorem Dev.modQue_imaging (d : Dev) (q : Nat) (f : Queue → Queue) : (d.modQue q f).imaging = d.imaging := rfl
@[simp] theorem Dev.deviceWrite_imaging (d : Dev) (party p a : Nat) (l : List B8) : (d.deviceWrite party p a l).imaging = d.imaging :=
  imaging_of_memOnly (d.deviceWrite_only party p a l)

@[simp] theorem Dev.emit_imaging (d : Dev) (q : Nat) (e : Entry) : (d.emit q e).imaging = d.imaging := by
  rcases emit_cases d q e with h | h <;> exact (imaging_of_ringOnly h :)

theorem Dev.modSeq_imaging (d : Dev) (r : Nat) (f : Seq → Seq) : (d.modSeq r f).imaging = d.imaging := by
  unfold Dev.modSeq; split <;> rfl

theorem Dev.adapterFree_imaging (d : Dev) (p k : Nat) (l : List Nat) : (d.adapterFree p k l).imaging = d.imaging :=
  imaging_foldl (fun e s => e.modSeq_imaging s _) l _

theorem Dev.tuneEnd_imaging (d : Dev) (p : Nat) (g : Prog) (ok : Bool) : (d.tuneEnd p g ok).imaging = d.imaging := by
  unfold Dev.tuneEnd
  extract_lets d1 v
  have hread := imaging_of_memOnly (d1.readMem_only v (g.stateAddr + 6) 2)
  split <;> rename_i h <;> rw [h] at hread
  · exact hread
  · exact (imaging_of_memOnly (Dev.writeMem_only _ _ _ _)).trans hread

theorem Dev.releaseSlot_imaging (d : Dev) (q : Nat) (r : Running) (st : B8) : (d.releaseSlot q r st).imaging = d.imaging := by
  unfold Dev.releaseSlot; split
  · simp only [apply_ite Dev.imaging, Dev.setBusy_imaging, Dev.setProgress_imaging, ite_self]
  · rfl

theorem Dev.releaseProg_imaging (d : Dev) (p : Nat) (g : Prog) (st : B8) : (d.releaseProg p g st).imaging = d.imaging := by
  unfold Dev.releaseProg
  extract_lets d1
  have h1 : d1.imaging = d.imaging := by
    refine (imaging_foldl (f := fun e r => e.modRegion r (fun v => { v with waiting := [] })) (fun _ _ => rfl) _ _).trans ?_
    split <;> rfl
  simp only [apply_ite Dev.imaging, Dev.tuneEnd_imaging, Dev.adapterFree_imaging, h1, ite_self]

/-- A context for which queue `q` waits no more: its bindings as `clean` leaves them. -/
def CamCtx.released (v : CamCtx) (clean : OutBind → Option OutBind) (q : Nat) : CamCtx :=
  { v with outs := v.outs.map (fun o => (o.1, o.2.bind clean)), commits := v.commits.filter (fun x => decide (x.1 ≠ q)) }

/-- What a command of the media engine waits for is a binding or a commit. -/
theorem Dev.mediaRelease_imaging (d : Dev) (q : Nat) : (d.mediaRelease q).imaging = d.imaging := by
  refine Prod.ext rfl (funext fun k => Prod.ext rfl (Prod.ext rfl ?_))
  unfold Dev.mediaRelease
  extract_lets clean
  have hctx := Tbl.get_mapVal (f := fun v : CamCtx => v.released clean q) (x := {}) rfl d.cam.ctx k
  have hreceiving := congrArg CamCtx.receiving hctx
  exact hreceiving

theorem Dev.unmarkTile_imaging (d : Dev) (q : Nat) (r : Running) : (d.unmarkTile q r).imaging = d.imaging := by
  unfold Dev.unmarkTile; dsimp only
  split
  · split <;> rfl
  · rfl

theorem Dev.ctlRelease_imaging (d : Dev) (q : Nat) (c : W512) : (d.ctlRelease q c).imaging = d.imaging := by
  unfold Dev.ctlRelease; split <;> rfl

theorem Dev.release_imaging (d : Dev) (q : Nat) (r : Running) (st : B8) : (d.release q r st).imaging = d.imaging := by
  unfold Dev.release
  extract_lets d1 d2
  have h2 : d2.imaging = d.imaging := by
    simp only [d2]; split
    · exact (d1.releaseProg_imaging _ _ st).trans (d.releaseSlot_imaging q r st)
    · exact d.releaseSlot_imaging q r st
  simp only [apply_ite Dev.imaging, Dev.mediaRelease_imaging, Dev.unmarkTile_imaging, Dev.ctlRelease_imaging, show (d2.scatterRelease q).imaging = d2.imaging from rfl,
    show (d2.seqCtlRelease q).imaging = d2.imaging from rfl, show (d2.barrierLeave q (cmdArg r.cmd % 16)).imaging = d2.imaging from rfl, h2, ite_self]

theorem Dev.endRecord_imaging (d : Dev) (q : Nat) (l : CmdList) (f : Option (Fail × Nat)) : (d.endRecord q l f).imaging = d.imaging := by
  unfold Dev.endRecord; split
  · exact d.record_imaging _
  · rfl

/-- The end of a command leaves the reception of frames, whatever waits for them. -/
@[simp] theorem Dev.endCmd_imaging (d : Dev) (q : Nat) (st : B8) (res : W64) (f : Option (Fail × Nat)) : (d.endCmd q st res f).imaging = d.imaging := by
  unfold Dev.endCmd; split
  · simp only [Dev.endList, Dev.endEntry, apply_ite Dev.imaging, Dev.emit_imaging, Dev.modQue_imaging, Dev.endRecord_imaging, Dev.release_imaging, ite_self]
  · rfl

@[simp] theorem Dev.finish_imaging (d : Dev) (q : Nat) (res : W64) : (d.finish q res).imaging = d.imaging := d.endCmd_imaging q _ _ _
@[simp] theorem Dev.failDisp_imaging (d : Dev) (q : Nat) (f : Fail) : (d.failDisp q f).imaging = d.imaging := d.endCmd_imaging q _ _ _

/-! ## Faults of a model (R250, R251) -/

theorem Dev.endLoad_imaging (d : Dev) (slot : Nat) (f : Fail) : (d.endLoad slot f).imaging = d.imaging := by
  unfold Dev.endLoad; split
  · rfl
  · exact Dev.failDisp_imaging _ _ f

theorem Dev.degrade_imaging (d : Dev) (slot g shard : Nat) : (d.degrade slot g shard).imaging = d.imaging := by
  unfold Dev.degrade
  split
  · rfl
  · split
    · rfl
    · extract_lets _ d1 d2
      have h1 : d1.imaging = d.imaging := d.record_imaging _
      clear_value d1
      split
      · exact h1
      · split
        · exact h1
        · rw [Dev.endLoad_imaging]; exact h1

theorem Dev.modelFault_imaging (d : Dev) (f : Fail) : (d.modelFault f).imaging = d.imaging := by
  unfold Dev.modelFault
  split
  · rfl
  · split
    · rfl
    · dsimp only
      split
      · split
        · rfl
        · exact d.degrade_imaging _ _ _
      · split <;> rfl

@[simp] theorem Dev.failMem_imaging (d : Dev) (q : Nat) (e : Fail) : (d.failMem q e).imaging = d.imaging :=
  (Dev.failDisp_imaging _ _ _).trans (d.modelFault_imaging e)

/-! ## Triggers (R73, R82-R85) -/

theorem Dev.releaseQueue_imaging (d : Dev) (q : Nat) : (d.releaseQueue q).imaging = d.imaging := by
  unfold Dev.releaseQueue; split
  · simp only [apply_ite Dev.imaging, Dev.finish_imaging, Dev.modQue_imaging, ite_self]
  · rfl

theorem Dev.startPulse_imaging (d : Dev) (n u : Nat) : (d.startPulse n u).1.imaging = d.imaging := by
  unfold Dev.startPulse
  extract_lets unit v pos brake d1
  have h1 : d1.imaging = d.imaging := by
    simp only [d1]; split
    · exact d.deviceWrite_imaging _ _ _ _
    · rfl
  clear_value d1
  split
  · rfl
  · split
    · rfl
    · dsimp only
      split
      · rfl
      · split
        · rfl
        · exact h1

theorem Dev.performAction_imaging (d : Dev) (n : Nat) (g : Trigger) : (d.performAction n g).1.imaging = d.imaging := by
  unfold Dev.performAction; dsimp only
  split
  · exact d.releaseQueue_imaging _
  · split
    · rfl
    · split <;> rfl
  · exact d.startPulse_imaging n _
  · split
    · rfl
    · split <;> rfl
  · split
    · rfl
    · next b _ =>
      have h := imaging_of_memOnly (d.writeMem_only { party := d.trgParty n, part := d.partyPart (d.trgParty n) } g.actPtr b)
      split <;> rename_i hw <;> rw [hw] at h <;> exact h
  · dsimp only
    split <;> rfl
  · rfl

theorem Dev.acted_imaging (d : Dev) (n : Nat) (g : Trigger) : (d.acted n g).imaging = d.imaging := by
  have h := d.performAction_imaging n g
  unfold Dev.acted
  split <;> rename_i hp <;> rw [hp] at h
  · exact h
  · rw [Dev.failRec_imaging]; exact h

theorem Dev.fire_imaging (d : Dev) (n : Nat) (why : FireCause) : (d.fire n why).imaging = d.imaging := by
  have hacted : ((d.marked n why).acted n (d.trg n)).imaging = d.imaging := (d.marked n why).acted_imaging n _
  rw [Dev.fire_eq, Dev.rearmed]
  split <;> exact hacted

theorem Dev.fireJumped_imaging (d : Dev) (trks : List Nat) : (d.fireJumped trks).imaging = d.imaging :=
  imaging_foldl (fun e n => e.fire_imaging n .jump) _ d

@[simp] theorem Dev.jump_imaging (d : Dev) (trks : List Nat) : (d.jump trks).imaging = d.imaging :=
  (Dev.fireJumped_imaging _ trks).trans (imaging_foldl (f := fun d n => d.modTrk n (fun t => { t with jumpCnt := satInc t.jumpCnt })) (fun _ _ => rfl) trks d)

@[simp] theorem Dev.resumeTracks_imaging (d : Dev) (l : List Nat) : (d.resumeTracks l).imaging = d.imaging := by
  unfold Dev.resumeTracks
  extract_lets ts
  exact (Dev.fireJumped_imaging _ ts).trans (imaging_foldl (f := fun d n => d.modTrk n (fun t => { t with resuming := false })) (fun _ _ => rfl) ts d)

end Sys2Proof.Machine

/-! PROOFS. Frames that drop, end and start (R346, R359, R361, R364): what each makes of its context, and that it leaves every other. -/
namespace Sys2Proof.Machine
open Sys2Proof

/-! ## One context beside the others -/

/-- From `d` to `e` no context but `c` shows another reception. -/
def Dev.imagesBut (c : Nat) (d e : Dev) : Prop := ∀ k, k ≠ c → e.image k = d.image k

theorem imagesBut_refl (c : Nat) (d : Dev) : d.imagesBut c d := fun _ _ => rfl
theorem imagesBut_trans {c : Nat} {a b e : Dev} (h : a.imagesBut c b) (k : b.imagesBut c e) : a.imagesBut c e := fun n hn => (k n hn).trans (h n hn)
theorem imagesBut_of_imaging (c : Nat) {d e : Dev} (h : e.imaging = d.imaging) : d.imagesBut c e := fun k _ => image_of_imaging h k
theorem modCtx_imagesBut (d : Dev) (c : Nat) (f : CamCtx → CamCtx) : d.imagesBut c (d.modCtx c f) := fun _ hk => d.modCtx_image_other hk f

section Fold
variable {f : Dev → Nat → Dev} (hf : ∀ (d : Dev) c, d.imagesBut c (f d c))
include hf

theorem image_foldl_absent {k : Nat} {l : List Nat} (hk : k ∉ l) (d : Dev) : (l.foldl f d).image k = d.image k := by
  induction l generalizing d with
  | nil => rfl
  | cons c l ih =>
    obtain ⟨hc, hl⟩ := List.ne_and_not_mem_of_not_mem_cons hk
    exact (ih hl (f d c)).trans (hf d c k hc)

/-- Each context of a list takes its own step once: of it the fold leaves what that step does, from a device that shows it as at first. -/
theorem image_foldl {l : List Nat} (hnodup : l.Nodup) {k : Nat} (hk : k ∈ l) (d : Dev) :
    ∃ e, e.image k = d.image k ∧ (l.foldl f d).image k = (f e k).image k := by
  obtain ⟨l1, l2, rfl⟩ := List.append_of_mem hk
  obtain ⟨-, hrest, happart⟩ := List.nodup_append.mp hnodup
  refine ⟨l1.foldl f d, image_foldl_absent hf (fun h => happart k h k List.mem_cons_self rfl) d, ?_⟩
  rw [List.foldl_append, List.foldl_cons]
  exact image_foldl_absent hf (List.nodup_cons.mp hrest).1 _

end Fold

theorem contextsOn_nodup (c : Cfg) (port vc : Nat) : (c.contextsOn port vc).Nodup := (List.nodup_range.filter _).filter _

/-! ## What waits for frames (R359, R361) -/

@[simp] theorem Dev.modOut_imaging (d : Dev) (c o : Nat) (f : OutBind → OutBind) : (d.modOut c o f).imaging = d.imaging := d.modCtx_imaging c fun _ => rfl

theorem Dev.unbound_imaging (d : Dev) (c o : Nat) :
    (d.modCtx c (fun v => { v with outs := v.outs.set o none })).imaging = d.imaging := d.modCtx_imaging c fun _ => rfl

theorem Dev.stageSet_imaging (d : Dev) (c q : Nat) (b : List B8) : (d.stageSet c q b).imaging = d.imaging :=
  (Dev.finish_imaging _ q _).trans (d.modCtx_imaging c fun _ => rfl)

@[simp] theorem Dev.ctxRelease_imaging (d : Dev) (c : Nat) : (d.ctxRelease c).imaging = d.imaging := by
  unfold Dev.ctxRelease
  extract_lets d1
  have h1 : d1.imaging = d.imaging := imaging_foldl (fun e o => by
    split
    · dsimp only
      split
      · split
        · exact (Dev.finish_imaging _ _ 0).trans (e.unbound_imaging c o)
        · exact e.unbound_imaging c o
      · rfl
    · rfl) _ d
  split
  · exact h1
  · refine (imaging_foldl (f := fun (e : Dev) (x : Nat × List B8) => e.stageSet c x.1 x.2) (fun e x => e.stageSet_imaging c x.1 x.2) _ _).trans ?_
    exact Eq.trans (d1.modCtx_imaging c fun v => by rfl) h1

/-! ## Drops (R346, R366) -/

/-- A context that drops frame `no`. -/
def CamCtx.drops (v : CamCtx) (no reason : Nat) : CamCtx :=
  { v with drop := true, dropCnt := satInc v.dropCnt, lastReason := reason, inFlight := v.inFlight.filter (fun x => decide (x.no ≠ no)) }

/-- The line pool without the lines of a frame. -/
def poolWithout (l : List Line) (c no : Nat) : List Line := l.filter (fun l => decide (l.ctx ≠ c) || decide (l.frame ≠ no))

theorem dropFrame_of_find {d : Dev} {c no : Nat} {f : Frame} (h : (d.camCtx c).inFlight.find? (fun f => decide (f.no = no)) = some f) (reason : Nat) :
    (d.dropFrame c no reason).imaging = (poolWithout d.cam.pool c no, (d.modCtx c (fun v => v.drops no reason)).image) := by
  unfold Dev.dropFrame
  split
  · next hnone => rw [hnone] at h; cases h
  · extract_lets d1
    have h1 (k : Nat) : d1.image k = (d.modCtx c (fun v => v.drops no reason)).image k := by
      by_cases hk : k = c
      · subst hk
        refine (Dev.modCtx_image _ k _).trans ?_
        rw [Dev.countDrop, Dev.modCtx_camCtx, Dev.modCtx_image]
        rfl
      · exact (Dev.modCtx_image_other _ hk _).trans ((d.modCtx_image_other hk _).trans (d.modCtx_image_other hk _).symm)
    have hpool : d1.cam.pool = d.cam.pool := rfl
    clear_value d1
    rw [Dev.ctxRelease_imaging, ← hpool]
    exact congrArg (Prod.mk (poolWithout d1.cam.pool c no)) (funext h1)

theorem dropFrame_absent {d : Dev} {c no : Nat} (h : (d.camCtx c).inFlight.find? (fun f => decide (f.no = no)) = none) (reason : Nat) :
    d.dropFrame c no reason = d := by
  unfold Dev.dropFrame; rw [h]

theorem dropFrame_imagesBut (d : Dev) (c no reason : Nat) : d.imagesBut c (d.dropFrame c no reason) := by
  intro k hk
  cases h : (d.camCtx c).inFlight.find? (fun f => decide (f.no = no)) with
  | none => rw [dropFrame_absent h]
  | some f => exact (congrFun (congrArg Prod.snd (dropFrame_of_find h reason)) k).trans (d.modCtx_image_other hk _)

/-- A frame in flight is found by its number. -/
theorem find_of_mem_inFlight {l : List Frame} {f : Frame} (h : f ∈ l) : ∃ g, l.find? (fun x => decide (x.no = f.no)) = some g :=
  Option.isSome_iff_exists.mp (List.find?_isSome.mpr ⟨f, h, decide_eq_true rfl⟩)

theorem CamCtx.mem_of_current {v : CamCtx} {f : Frame} (h : v.current = some f) : f ∈ v.inFlight := List.mem_of_find?_eq_some h

/-- The drop of the frame that is being received. -/
theorem dropFrame_current {d : Dev} {c : Nat} {f : Frame} (h : (d.camCtx c).current = some f) (reason : Nat) : let e := d.dropFrame c f.no reason
    e.cam.pool = poolWithout d.cam.pool c f.no ∧ (e.camCtx c).receiving = ((d.camCtx c).drops f.no reason).receiving := by
  obtain ⟨g, hg⟩ := find_of_mem_inFlight (CamCtx.mem_of_current h)
  have himaging := dropFrame_of_find hg reason
  refine ⟨congrArg Prod.fst himaging, ?_⟩
  have himage : (d.dropFrame c f.no reason).image c = (d.modCtx c (fun v => v.drops f.no reason)).image c := congrFun (congrArg Prod.snd himaging) c
  exact (receiving_of_image himage).trans (by rw [Dev.modCtx_camCtx])

theorem CamCtx.drops_without (v : CamCtx) (no reason : Nat) : ∀ g ∈ (v.drops no reason).inFlight, g.no ≠ no := fun _ hg =>
  of_decide_eq_true (List.mem_filter.mp hg).2

/-! ## Deliveries (R363, R374, R380) -/

/-- A context that delivers frame `no`, of generation `g`, with its statistics record. -/
def CamCtx.delivers (v : CamCtx) (no : Nat) (g : Nat × Bool) (st : List B8) : CamCtx :=
  { v with inFlight := v.inFlight.filter (fun x => decide (x.no ≠ no)), frames := v.frames + 1, gen := BitVec.ofNat 32 g.1
           uncertain := v.uncertain || g.2, uncCnt := if g.2 then satInc v.uncCnt else v.uncCnt, stats := some st }

theorem CamCtx.delivers_without (v : CamCtx) (no : Nat) (g : Nat × Bool) (st : List B8) : ∀ x ∈ (v.delivers no g st).inFlight, x.no ≠ no := fun _ hx =>
  of_decide_eq_true (List.mem_filter.mp hx).2

theorem deliver_imaging (d : Dev) (c : Nat) (f : Frame) : ∃ g st, (d.deliver c f).imaging = (d.modCtx c (fun v => v.delivers f.no g st)).imaging := by
  refine ⟨d.frameGen c f, statRecord f c (d.cfg.ctxMosaic c) (d.cfg.ctxWidth c) (d.cfg.ctxHeight c) (d.frameGen c f).1 (d.frameGen c f).2, ?_⟩
  unfold Dev.deliver
  extract_lets g v view d1
  rw [Dev.ctxRelease_imaging]
  refine imaging_foldl (fun e o => ?_) _ d1
  split
  · exact (Dev.modOut_imaging _ c o _).trans (e.deviceWrite_imaging _ _ _ _)
  · rfl

theorem maybeDeliver_of_find {d : Dev} {c no : Nat} {f : Frame} (h : (d.camCtx c).inFlight.find? (fun f => decide (f.no = no)) = some f) :
    d.maybeDeliver c no = if f.fe && decide (f.done = d.cfg.ctxHeight c) then d.deliver c f else d := by
  unfold Dev.maybeDeliver; rw [h]

theorem maybeDeliver_imagesBut (d : Dev) (c no : Nat) : d.imagesBut c (d.maybeDeliver c no) := by
  unfold Dev.maybeDeliver
  split
  · next f _ =>
    split
    · obtain ⟨g, st, h⟩ := deliver_imaging d c f
      exact imagesBut_trans (modCtx_imagesBut d c _) (imagesBut_of_imaging c h)
    · exact imagesBut_refl c d
  · exact imagesBut_refl c d

/-- A delivery, but for bindings and what waits. -/
theorem deliver_receiving (d : Dev) (c : Nat) (f : Frame) :
    ∃ g st, ((d.deliver c f).camCtx c).receiving = ((d.camCtx c).delivers f.no g st).receiving := by
  obtain ⟨g, st, himaging⟩ := deliver_imaging d c f
  exact ⟨g, st, (receiving_of_image (image_of_imaging himaging c)).trans (by rw [Dev.modCtx_camCtx])⟩

theorem maybeDeliver_active (d : Dev) (c no : Nat) : ((d.maybeDeliver c no).camCtx c).active = (d.camCtx c).active := by
  unfold Dev.maybeDeliver
  split
  · next f _ =>
    split
    · obtain ⟨g, st, hw⟩ := deliver_receiving d c f
      generalize (d.deliver c f).camCtx c = w at hw ⊢
      exact congrArg (fun v => v.active) hw
    · rfl
  · rfl

/-- A frame that has ended and whose batches have all run is delivered: one more frame, and its statistics. -/
theorem maybeDeliver_delivers {d : Dev} {c no : Nat} {f : Frame} (h : (d.camCtx c).inFlight.find? (fun f => decide (f.no = no)) = some f) (hfe : f.fe = true)
    (hdone : f.done = d.cfg.ctxHeight c) : let w := (d.maybeDeliver c no).camCtx c
      w.frames = (d.camCtx c).frames + 1 ∧ w.stats.isSome = true ∧ ∀ g ∈ w.inFlight, g.no ≠ no := by
  obtain ⟨g, st, hw⟩ := deliver_receiving d c f
  have hno : f.no = no := of_decide_eq_true (List.find?_some h :)
  rw [maybeDeliver_of_find h, hfe, decide_eq_true hdone, Bool.true_and, if_pos rfl]
  rw [hno] at hw
  generalize (d.deliver c f).camCtx c = w at hw
  have hframes := congrArg (fun v => v.frames) hw
  have hstats := congrArg (fun v => v.stats.isSome) hw
  have hflight : w.inFlight = ((d.camCtx c).delivers no g st).inFlight := congrArg (fun v => v.inFlight) hw
  exact ⟨hframes, hstats, fun x hx => (d.camCtx c).delivers_without no g st x (hflight ▸ hx)⟩

/-! ## The end of a frame (R346) -/

/-- What the end of a frame makes of its context `v`, with `h` lines in a frame. -/
structure CamCtx.EndsTo (h : Nat) (v w : CamCtx) : Prop where
  inactive : w.active = false
  dropped : ∀ f, v.active = true → v.current = some f → f.lines ≠ h →
    w.dropCnt = satInc v.dropCnt ∧ w.lastReason = 2 ∧ w.frames = v.frames ∧ ∀ g ∈ w.inFlight, g.no ≠ f.no
  delivered : ∀ f g, v.active = true → v.current = some f → f.lines = h → v.inFlight.find? (fun x => decide (x.no = f.no)) = some g → g.done = h →
    w.frames = v.frames + 1 ∧ w.stats.isSome = true ∧ ∀ g ∈ w.inFlight, g.no ≠ f.no

theorem CamCtx.EndsTo.of_receiving {h : Nat} {v w v' w' : CamCtx} (hends : v.EndsTo h w) (hv : v.receiving = v'.receiving) (hw : w'.receiving = w.receiving) :
    v'.EndsTo h w' := by
  have hshown : v.receiving.EndsTo h w.receiving := ⟨hends.inactive, hends.dropped, hends.delivered⟩
  rw [hv, ← hw] at hshown
  exact ⟨hshown.inactive, hshown.dropped, hshown.delivered⟩

/-- The frame of a number after a change of the frames with that number. -/
theorem find_modFrame (d : Dev) (c no : Nat) {f : Frame → Frame} (hf : ∀ x, (f x).no = x.no) :
    ((d.modFrame c no f).camCtx c).inFlight.find? (fun x => decide (x.no = no)) = ((d.camCtx c).inFlight.find? (fun x => decide (x.no = no))).map f := by
  have hnum (x : Frame) : (if x.no = no then f x else x).no = x.no := by split <;> simp [hf]
  rw [Dev.modFrame, Dev.modCtx_camCtx, List.find?_map]
  simp only [Function.comp_def, hnum]
  cases h : (d.camCtx c).inFlight.find? (fun x => decide (x.no = no)) with
  | none => rfl
  | some g => simp [of_decide_eq_true (List.find?_some h :)]

/-- A frame whose end has come at time `t`. -/
def Frame.ended (f : Frame) (t : W64) : Frame := { f with fe := true, tEnd := t }

/-- A context that receives no more lines of its frame. -/
def CamCtx.stops (v : CamCtx) : CamCtx := { v with active := false, extrapolating := !v.stalled }

/-- The device with the end of frame `no` of context `c` marked. -/
def Dev.frameEnded (d : Dev) (c no : Nat) : Dev := (d.modCtx c CamCtx.stops).modFrame c no (fun f => f.ended d.time)

theorem frameEnded_imagesBut (d : Dev) (c no : Nat) : d.imagesBut c (d.frameEnded c no) :=
  imagesBut_trans (modCtx_imagesBut d c _) (modCtx_imagesBut _ c _)

theorem frameEnded_camCtx (d : Dev) (c no : Nat) :
    ((d.frameEnded c no).camCtx c).active = false ∧ ((d.frameEnded c no).camCtx c).frames = (d.camCtx c).frames := by
  rw [Dev.frameEnded, Dev.modFrame, Dev.modCtx_camCtx, Dev.modCtx_camCtx]
  exact ⟨rfl, rfl⟩

theorem frameEnded_find {d : Dev} {c no : Nat} {g : Frame} (h : (d.camCtx c).inFlight.find? (fun x => decide (x.no = no)) = some g) :
    ((d.frameEnded c no).camCtx c).inFlight.find? (fun x => decide (x.no = no)) = some (g.ended d.time) := by
  rw [Dev.frameEnded, find_modFrame _ c no (f := fun f => f.ended d.time) fun _ => rfl, Dev.modCtx_camCtx]
  exact congrArg (Option.map _) h

theorem frameEnd_idle {d : Dev} {c : Nat} (h : (d.camCtx c).active = false) : d.frameEnd c = d := by
  simp [Dev.frameEnd, h]

theorem frameEnd_active {d : Dev} {c : Nat} (h : (d.camCtx c).active = true) : d.frameEnd c = match (d.camCtx c).current with
    | none => d.modCtx c CamCtx.stops
    | some f => if f.lines ≠ d.cfg.ctxHeight c then (d.modCtx c CamCtx.stops).dropFrame c f.no 2 else (d.frameEnded c f.no).maybeDeliver c f.no := by
  simp only [Dev.frameEnd, h]
  rfl

theorem frameEnd_imagesBut (d : Dev) (c : Nat) : d.imagesBut c (d.frameEnd c) := by
  cases h : (d.camCtx c).active with
  | false => rw [frameEnd_idle h]; exact imagesBut_refl c d
  | true =>
    have hstop : d.imagesBut c (d.modCtx c CamCtx.stops) := modCtx_imagesBut d c _
    rw [frameEnd_active h]
    split
    · exact hstop
    · split
      · exact imagesBut_trans hstop (dropFrame_imagesBut _ c _ 2)
      · exact imagesBut_trans (frameEnded_imagesBut d c _) (maybeDeliver_imagesBut _ c _)

theorem drops_endsTo {v : CamCtx} {f : Frame} {h : Nat} (hcur : v.current = some f) (hlines : f.lines ≠ h) : v.EndsTo h (v.stops.drops f.no 2) := by
  refine ⟨rfl, fun f' _ hf' _ => ?_, fun f' g _ hf' hwhole => ?_⟩
  · cases hcur.symm.trans hf'
    exact ⟨rfl, rfl, rfl, CamCtx.drops_without _ _ _⟩
  · cases hcur.symm.trans hf'
    exact absurd hwhole hlines

theorem frameEnd_endsTo (d : Dev) (c : Nat) : (d.camCtx c).EndsTo (d.cfg.ctxHeight c) ((d.frameEnd c).camCtx c) := by
  cases hactive : (d.camCtx c).active with
  | false =>
    rw [frameEnd_idle hactive]
    exact ⟨hactive, fun f h => absurd (hactive.symm.trans h) (by decide), fun f g h => absurd (hactive.symm.trans h) (by decide)⟩
  | true =>
    rw [frameEnd_active hactive]
    have hstop : (d.modCtx c CamCtx.stops).camCtx c = (d.camCtx c).stops := d.modCtx_camCtx c _
    cases hcur : (d.camCtx c).current with
    | none =>
      dsimp only
      rw [hstop]
      exact ⟨rfl, fun f _ h => absurd (hcur.symm.trans h) (by simp), fun f g _ h => absurd (hcur.symm.trans h) (by simp)⟩
    | some f =>
      dsimp only
      by_cases hlines : f.lines = d.cfg.ctxHeight c
      · obtain ⟨hstopped, hsame⟩ := frameEnded_camCtx d c f.no
        rw [if_neg (not_not_intro hlines)]
        refine ⟨(maybeDeliver_active _ c f.no).trans hstopped, fun f' _ h hshort => ?_, fun f' g _ h _ hg hdone => ?_⟩
        · cases hcur.symm.trans h
          exact absurd hlines hshort
        · cases hcur.symm.trans h
          rw [← hsame]
          exact maybeDeliver_delivers (frameEnded_find hg) rfl hdone
      · rw [if_pos hlines]
        obtain ⟨-, hw⟩ := dropFrame_current (d := d.modCtx c CamCtx.stops) (by rw [hstop]; exact hcur) 2
        rw [hstop] at hw
        exact (drops_endsTo hcur hlines).of_receiving rfl hw

end Sys2Proof.Machine

/-! PROOFS. The start of a frame (R72, R73, R359, R361, R364): its track, its bindings and slots, and the frame that begins. -/
namespace Sys2Proof.Machine
open Sys2Proof

/-! ## The camera track (R72, R73) -/

/-- Time, and the frame starts and headers that the track of context `c` has counted. -/
def Dev.camTrack (d : Dev) (c : Nat) : W64 × Nat × Nat := (d.time, (d.camCtx c).fsCount, (d.camCtx c).hdrs)

theorem camTrack_of_image {d e : Dev} {c : Nat} (h : e.image c = d.image c) : e.camTrack c = d.camTrack c :=
  congrArg (fun x => (x.1, x.2.2.fsCount, x.2.2.hdrs)) h

/-- From `d` to `e` the track of context `c` and every other context stay. -/
def Dev.keepsTrack (c : Nat) (d e : Dev) : Prop := e.camTrack c = d.camTrack c ∧ d.imagesBut c e

theorem keepsTrack_refl (c : Nat) (d : Dev) : d.keepsTrack c d := ⟨rfl, imagesBut_refl c d⟩
theorem keepsTrack_trans {c : Nat} {a b e : Dev} (h : a.keepsTrack c b) (k : b.keepsTrack c e) : a.keepsTrack c e :=
  ⟨k.1.trans h.1, imagesBut_trans h.2 k.2⟩
theorem keepsTrack_of_imaging (c : Nat) {d e : Dev} (h : e.imaging = d.imaging) : d.keepsTrack c e :=
  ⟨camTrack_of_image (image_of_imaging h c), imagesBut_of_imaging c h⟩
theorem keepsTrack_foldl {β : Type} {c : Nat} {f : Dev → β → Dev} (hf : ∀ (d : Dev) b, d.keepsTrack c (f d b)) (l : List β) (d : Dev) :
    d.keepsTrack c (l.foldl f d) :=
  foldl_keeps (P := d.keepsTrack c) (fun e b h => keepsTrack_trans h (hf e b)) l (keepsTrack_refl c d)

theorem modCtx_camTrack (d : Dev) (c : Nat) (f : CamCtx → CamCtx) :
    (d.modCtx c f).camTrack c = (d.time, (f (d.camCtx c)).fsCount, (f (d.camCtx c)).hdrs) := by
  rw [Dev.camTrack, Dev.modCtx_camCtx]; rfl

theorem modCtx_keepsTrack (d : Dev) (c : Nat) {f : CamCtx → CamCtx} (hf : ∀ v, (f v).fsCount = v.fsCount ∧ (f v).hdrs = v.hdrs) :
    d.keepsTrack c (d.modCtx c f) := by
  refine ⟨?_, modCtx_imagesBut d c f⟩
  rw [modCtx_camTrack, (hf _).1, (hf _).2]
  rfl

theorem settleInvalid_imaging (d : Dev) (c n : Nat) : (d.settleInvalid c n).imaging = d.imaging :=
  imaging_foldl (fun e s => by split <;> rfl) _ d

/-- A frame start on the track of a context: one more, with no header yet. -/
theorem trackStart_camTrack (d : Dev) (c : Nat) : (d.trackStart c).camTrack c = (d.time, (d.camCtx c).fsCount + 1, 0) := by
  unfold Dev.trackStart
  extract_lets line stall d1
  have h1 : d1.camTrack c = (d.time, (d.camCtx c).fsCount + 1, 0) := modCtx_camTrack d c _
  clear_value d1
  split
  · exact (camTrack_of_image (image_of_imaging (settleInvalid_imaging _ c _) c)).trans h1
  · exact h1

theorem trackStart_imagesBut (d : Dev) (c : Nat) : d.imagesBut c (d.trackStart c) := by
  unfold Dev.trackStart
  extract_lets line stall d1
  have h1 : d.imagesBut c d1 := modCtx_imagesBut d c _
  clear_value d1
  split
  · exact imagesBut_trans h1 (imagesBut_of_imaging c (settleInvalid_imaging _ c _))
  · exact h1

/-! ## Bindings and slots (R361, R364) -/

theorem bindNow_imaging (d : Dev) (c o : Nat) (b : OutBind) : (d.bindNow c o b).imaging = d.imaging := by
  unfold Dev.bindNow
  extract_lets s v n off
  have hoff (e : Dev) : (off e).imaging = e.imaging := e.unbound_imaging c o
  clear_value off
  split
  · exact (Dev.failDisp_imaging _ _ _).trans (hoff d)
  · split
    · exact (Dev.failDisp_imaging _ _ _).trans (hoff d)
    · have hwrite := imaging_of_memOnly (d.writeMem_only v b.ring (List.replicate (64 * b.entries) 0))
      split <;> rename_i h <;> rw [h] at hwrite
      · exact (Dev.failMem_imaging _ _ _).trans ((hoff _).trans hwrite)
      · exact (Dev.finish_imaging _ _ _).trans ((Dev.modOut_imaging _ c o _).trans hwrite)

theorem slotFull_imaging (d : Dev) (v : View) (b : OutBind) (k : Nat) : (d.slotFull v b k).1.imaging = d.imaging := by
  have hread := imaging_of_memOnly (d.readMem_only v (b.ring + 64 * k + 63) 1)
  unfold Dev.slotFull
  split <;> rename_i h <;> rw [h] at hread <;> exact hread

theorem countDrop_keepsTrack (d : Dev) (c reason : Nat) : d.keepsTrack c (d.countDrop c reason) := modCtx_keepsTrack d c fun _ => ⟨rfl, rfl⟩

theorem dropFrame_keepsTrack (d : Dev) (c no reason : Nat) : d.keepsTrack c (d.dropFrame c no reason) := by
  refine ⟨?_, dropFrame_imagesBut d c no reason⟩
  cases h : (d.camCtx c).inFlight.find? (fun f => decide (f.no = no)) with
  | none => rw [dropFrame_absent h]
  | some f =>
    have himage : (d.dropFrame c no reason).image c = (d.modCtx c (fun v => v.drops no reason)).image c :=
      congrFun (congrArg Prod.snd (dropFrame_of_find h reason)) c
    exact (camTrack_of_image himage).trans (modCtx_camTrack d c _)

/-! ## The frame that begins -/

/-- A context in which frame `f` begins. -/
def CamCtx.begins (v : CamCtx) (f : Frame) : CamCtx := { v with active := true, discard := false, inFlight := v.inFlight ++ [f] }

/-- A new frame of a number and a start time. -/
def Frame.new (f : Frame) (no : Nat) (t : W64) : Prop := f.no = no ∧ f.fe = false ∧ f.lines = 0 ∧ f.done = 0 ∧ f.tStart = t

/-- What comes before the new frame of a context leaves its track: a drop, a set, bindings, slots. -/
theorem frameStart_begins (d : Dev) (c : Nat) : ∃ e f, d.keepsTrack c e ∧ d.frameStart c = (e.modCtx c (fun v => v.begins f)).ctxRelease c ∧
    f.new (e.camCtx c).frameCount e.time := by
  unfold Dev.frameStart
  extract_lets v0 d0 d1 d2 x s rc f
  have h0 : d.keepsTrack c d0 := by
    simp only [d0]; split
    · exact dropFrame_keepsTrack d c _ 2
    · exact keepsTrack_refl c d
  have h1 : d0.keepsTrack c d1 := modCtx_keepsTrack d0 c fun v => by split <;> exact ⟨rfl, rfl⟩
  have h2 : d1.keepsTrack c d2 := keepsTrack_foldl (fun e o => by
    split
    · split
      · exact keepsTrack_of_imaging c (bindNow_imaging e c o _)
      · split
        · exact keepsTrack_of_imaging c (Dev.modOut_imaging e c o _)
        · exact keepsTrack_refl c e
    · exact keepsTrack_refl c e) _ d1
  have hx : d2.keepsTrack c x.1 := by
    refine foldl_keeps (P := fun st : Dev × Tbl (Option Nat) => d2.keepsTrack c st.1) (fun st o h => ?_) _ (keepsTrack_refl c d2)
    refine keepsTrack_trans h ?_
    split
    · next b _ =>
      extract_lets missed
      have hmissed (e : Dev) : e.keepsTrack c (missed e) :=
        keepsTrack_trans (countDrop_keepsTrack e c 3) (keepsTrack_of_imaging c (Dev.modOut_imaging _ c o _))
      clear_value missed
      split
      · exact keepsTrack_refl c _
      · split
        · exact hmissed _
        · next k _ =>
          have hslot := keepsTrack_of_imaging c (slotFull_imaging st.1 (st.1.ctxView c) b k)
          split <;> rename_i hfull <;> rw [hfull] at hslot
          · exact keepsTrack_trans hslot (hmissed _)
          · exact hslot
    · exact keepsTrack_refl c _
  clear_value x d2 d1 d0
  exact ⟨x.1, f, keepsTrack_trans (keepsTrack_trans h0 h1) (keepsTrack_trans h2 hx), rfl, rfl, rfl, rfl, rfl, rfl⟩

theorem frameStart_imagesBut (d : Dev) (c : Nat) : d.imagesBut c (d.frameStart c) := by
  obtain ⟨e, f, ⟨-, hothers⟩, hstart, -⟩ := frameStart_begins d c
  rw [hstart]
  exact imagesBut_trans hothers (imagesBut_trans (modCtx_imagesBut e c _) (imagesBut_of_imaging c (Dev.ctxRelease_imaging _ c)))

/-- What a frame start at time `t` makes of its context, whose track has counted `n` frame starts and no header. -/
def CamCtx.startsAt (t : W64) (n : Nat) (w : CamCtx) : Prop :=
  w.fsCount = n ∧ w.active = true ∧ w.discard = false ∧ w.hdrs = 0 ∧ ∃ f, w.inFlight.getLast? = some f ∧ f.new ((n - 1) % 2 ^ 48) t

theorem startsAt_of_receiving {t : W64} {n : Nat} {v w : CamCtx} (h : v.startsAt t n) (hw : w.receiving = v.receiving) : w.startsAt t n := by
  have hshown : v.receiving.startsAt t n := h
  rw [← hw] at hshown
  exact hshown

theorem frameStart_startsAt {d : Dev} {c n : Nat} {t : W64} (htrack : d.camTrack c = (t, n, 0)) : ((d.frameStart c).camCtx c).startsAt t n := by
  obtain ⟨e, f, ⟨hkeeps, -⟩, hstart, hnew⟩ := frameStart_begins d c
  have he := hkeeps.trans htrack
  simp only [Dev.camTrack, Prod.mk.injEq] at he
  obtain ⟨htime, hcount, hhdrs⟩ := he
  have hw := receiving_of_image (image_of_imaging (Dev.ctxRelease_imaging (e.modCtx c (fun v => v.begins f)) c) c)
  rw [Dev.modCtx_camCtx] at hw
  rw [CamCtx.frameCount, hcount, htime] at hnew
  rw [hstart]
  exact startsAt_of_receiving (v := (e.camCtx c).begins f) ⟨hcount, rfl, rfl, hhdrs, f, List.getLast?_concat, hnew⟩ hw

/-- A frame start on a virtual channel, in each context there. -/
theorem csiStart_startsAt {d : Dev} {port vc : Nat} (hawake : d.awake = true) (hon : d.cfg.camPortOn port = true) {k : Nat} (hk : k ∈ d.cfg.contextsOn port vc) :
    ((d.csiStart port vc).camCtx k).startsAt d.time ((d.camCtx k).fsCount + 1) := by
  unfold Dev.csiStart
  rw [if_neg (by simp [hawake, hon])]
  extract_lets cs js d1
  have hnodup : cs.Nodup := contextsOn_nodup d.cfg port vc
  obtain ⟨e, he, htracks⟩ := image_foldl trackStart_imagesBut hnodup hk d
  have h1 : d1.imaging = (cs.foldl (fun d c => d.trackStart c) d).imaging := (Dev.resumeTracks_imaging _ _).trans (Dev.jump_imaging _ _)
  have htrack1 : d1.camTrack k = (d.time, (d.camCtx k).fsCount + 1, 0) := by
    have hcount : (e.camCtx k).fsCount = (d.camCtx k).fsCount := congrArg (fun v => v.fsCount) (receiving_of_image he)
    rw [camTrack_of_image ((image_of_imaging h1 k).trans htracks), trackStart_camTrack, time_of_image he, hcount]
  clear_value d1
  obtain ⟨e', he', hframes⟩ := image_foldl frameStart_imagesBut hnodup hk d1
  exact startsAt_of_receiving (frameStart_startsAt ((camTrack_of_image he').trans htrack1)) (receiving_of_image hframes)

end Sys2Proof.Machine

/-! PROOFS. Lines and batches of a frame (R345, R346, R356, R365), and the rows of the camera ports. -/
namespace Sys2Proof.Machine
open Sys2Proof

/-! ## Lines (R345, R346) -/

/-- What of a context a line finds. -/
def CamCtx.filling (v : CamCtx) : Bool × Bool × List Frame × W16 := (v.active, v.discard, v.inFlight, v.dropCnt)

/-- A header on the track of a context leaves its frames. -/
theorem trackLine_filling (d : Dev) (c : Nat) : ((d.trackLine c).camCtx c).filling = (d.camCtx c).filling := by
  unfold Dev.trackLine; split
  · rfl
  · rw [Dev.modCtx_camCtx]; rfl

theorem trackLine_rest (d : Dev) (c : Nat) : (d.trackLine c).time = d.time ∧ (d.trackLine c).cfg = d.cfg ∧ (d.trackLine c).cam.pool = d.cam.pool := by
  unfold Dev.trackLine; split <;> exact ⟨rfl, rfl, rfl⟩

/-- Bytes that a line of `n` samples of data type `dt` takes in the pool. -/
def lineBytes (n dt : Nat) : Nat := cdiv (cdiv (n * rawBits dt) 8) 64 * 64

/-- A line that fits enters the pool. -/
theorem poolLine_fits {d : Dev} {c : Nat} {f : Frame} {px : List W16} (h : poolUse d.cam.pool + lineBytes px.length (d.cfg.ctxType c) ≤ poolSize) :
    let e := d.poolLine c f px
    e.cam.pool = d.cam.pool ++ [{ ctx := c, frame := f.no, num := f.lines, bytes := lineBytes px.length (d.cfg.ctxType c), samples := px, time := d.time }] ∧
      e.camCtx c = { d.camCtx c with inFlight := (d.camCtx c).inFlight.map (fun x => if x.no = f.no then { x with lines := x.lines + 1 } else x) } := by
  have hroom : d.makeRoom c (cdiv (cdiv (px.length * rawBits (d.cfg.ctxType c)) 8) 64 * 64) 130 = (d, true) := if_pos h
  simp only [Dev.poolLine, hroom]
  exact ⟨rfl, Dev.modCtx_camCtx _ c _⟩

section Line
variable {d : Dev} {c : Nat} {f : Frame} (hactive : (d.camCtx c).active = true) (hcur : (d.camCtx c).current = some f) (hopen : (d.camCtx c).discard = false)
include hactive hcur hopen

/-- A line of a frame that is being received, by its checksum, its length and its place. -/
theorem lineArrives_eq (crc : Bool) (px : List W16) : d.lineArrives c crc px =
    if crc || decide (px.length ≠ d.cfg.ctxWidth c) then (d.trackLine c).dropFrame c f.no 2
    else if d.cfg.ctxHeight c ≤ f.lines then (d.trackLine c).modFrame c f.no (fun f => { f with lines := f.lines + 1 })
    else (d.trackLine c).poolLine c f px := by
  have hfill := trackLine_filling d c
  simp only [CamCtx.filling, Prod.mk.injEq] at hfill
  obtain ⟨hactive1, hopen1, hflight1, -⟩ := hfill
  have hcur1 : ((d.trackLine c).camCtx c).current = some f := by rw [CamCtx.current, hflight1]; exact hcur
  obtain ⟨-, hcfg, -⟩ := trackLine_rest d c
  simp only [Dev.lineArrives, hactive1, hactive, hcur1, hopen1, hopen, hcfg]
  rfl

/-- A line with a wrong checksum or length drops its frame, with the frame's lines. -/
theorem lineArrives_bad {crc : Bool} {px : List W16} (hbad : crc = true ∨ px.length ≠ d.cfg.ctxWidth c) : let e := d.lineArrives c crc px; let w := e.camCtx c
    w.dropCnt = satInc (d.camCtx c).dropCnt ∧ w.lastReason = 2 ∧ (∀ g ∈ w.inFlight, g.no ≠ f.no) ∧ e.cam.pool = poolWithout d.cam.pool c f.no := by
  have hfill := trackLine_filling d c
  simp only [CamCtx.filling, Prod.mk.injEq] at hfill
  obtain ⟨-, -, hflight1, hcnt1⟩ := hfill
  obtain ⟨-, -, hpool1⟩ := trackLine_rest d c
  obtain ⟨hpool, hw⟩ := dropFrame_current (d := d.trackLine c) (c := c) (f := f) (by rw [CamCtx.current, hflight1]; exact hcur) 2
  rw [lineArrives_eq hactive hcur hopen, if_pos (by simpa using hbad)]
  generalize (d.trackLine c).dropFrame c f.no 2 = e at hpool hw ⊢
  have hcnt : (e.camCtx c).dropCnt = satInc ((d.trackLine c).camCtx c).dropCnt := congrArg (fun v => v.dropCnt) hw
  have hreason := congrArg (fun v => v.lastReason) hw
  have hflight : (e.camCtx c).inFlight = (((d.trackLine c).camCtx c).drops f.no 2).inFlight := congrArg (fun v => v.inFlight) hw
  exact ⟨hcnt.trans (congrArg satInc hcnt1), hreason, fun g hg => CamCtx.drops_without _ f.no 2 g (hflight ▸ hg), hpool1 ▸ hpool⟩

/-- A good line of the frame enters the pool while there is room. -/
theorem lineArrives_good {px : List W16} (hlen : px.length = d.cfg.ctxWidth c) (hlines : f.lines < d.cfg.ctxHeight c)
    (hroom : poolUse d.cam.pool + lineBytes px.length (d.cfg.ctxType c) ≤ poolSize) : let e := d.lineArrives c false px; let w := e.camCtx c
    e.cam.pool = d.cam.pool ++ [{ ctx := c, frame := f.no, num := f.lines, bytes := lineBytes px.length (d.cfg.ctxType c), samples := px, time := d.time }] ∧
      w.inFlight = (d.camCtx c).inFlight.map (fun x => if x.no = f.no then { x with lines := x.lines + 1 } else x) ∧ w.dropCnt = (d.camCtx c).dropCnt := by
  have hfill := trackLine_filling d c
  simp only [CamCtx.filling, Prod.mk.injEq] at hfill
  obtain ⟨-, -, hflight1, hcnt1⟩ := hfill
  obtain ⟨htime1, hcfg1, hpool1⟩ := trackLine_rest d c
  obtain ⟨hpool, hw⟩ := poolLine_fits (d := d.trackLine c) (c := c) (f := f) (px := px) (by rw [hpool1, hcfg1]; exact hroom)
  rw [htime1, hcfg1, hpool1] at hpool
  rw [lineArrives_eq hactive hcur hopen, if_neg (by simp [hlen]), if_neg (Nat.not_le.mpr hlines)]
  dsimp only
  rw [hw, ← hflight1, ← hcnt1]
  exact ⟨hpool, rfl, rfl⟩

end Line

/-! ## Batches (R356, R365) -/

/-- Of a frame, what a batch decides: its number, whether its end has come, its lines that are done, and its finished lines. -/
def Frame.progress (f : Frame) : Nat × Bool × Nat × List (List Px) := (f.no, f.fe, f.done, f.rows)

theorem statLine_progress (f : Frame) (w h y : Nat) (wb colour final : List Px) : (statLine f w h y wb colour final).progress = f.progress := by
  unfold statLine
  extract_lets f1 f3 ys
  have h1 : f1.progress = f.progress := foldl_keeps (P := fun g : Frame => g.progress = f.progress) (fun g e hg => by
    refine Eq.trans ?_ hg
    dsimp only
    split <;> rfl) _ rfl
  have h3 : f3.progress = f.progress := foldl_keeps (P := fun g : Frame => g.progress = f.progress) (fun g p hg => Eq.trans (by rfl) hg) colour h1
  exact foldl_keeps (P := fun g : Frame => g.progress = f.progress) (fun g x hg => Eq.trans (by rfl) hg) _ h3

/-- The frames that context `c` has delivered, and the progress of those in flight. -/
def Dev.batches (d : Dev) (c : Nat) : Cfg × W32 × List (Nat × Bool × Nat × List (List Px)) :=
  (d.cfg, (d.camCtx c).frames, (d.camCtx c).inFlight.map Frame.progress)

theorem batches_of_imaging {d e : Dev} (h : e.imaging = d.imaging) (c : Nat) : e.batches c = d.batches c :=
  congrArg (fun x => (x.2.1, x.2.2.frames, x.2.2.inFlight.map Frame.progress)) (image_of_imaging h c)

theorem modFrame_batches (d : Dev) (c no : Nat) {F : Frame → Frame} (hF : ∀ x, (F x).progress = x.progress) : (d.modFrame c no F).batches c = d.batches c := by
  unfold Dev.batches Dev.modFrame
  rw [Dev.modCtx_camCtx]
  simp only [List.map_map, Function.comp_def, apply_ite Frame.progress, hF, ite_self]
  rfl

theorem writeOutput_batches (d : Dev) (c o : Nat) (f : Frame) (before : Nat) : (d.writeOutput c o f before).batches c = d.batches c := by
  unfold Dev.writeOutput
  split
  · extract_lets s k0 k1 w view base
    split
    · rfl
    · refine Eq.trans (modFrame_batches _ c f.no fun x => by rfl) (batches_of_imaging (imaging_foldl (fun e x => ?_) _ d) c)
      exact e.deviceWrite_imaging _ _ _ _
  · rfl

/-- A context holds frame `f`: a frame of its number is in flight, and each such shows its progress. -/
def CamCtx.holds (v : CamCtx) (f : Frame) : Prop := (∃ g ∈ v.inFlight, g.no = f.no) ∧ ∀ g ∈ v.inFlight, g.no = f.no → g.progress = f.progress

theorem holds_of_progress {v w : CamCtx} {f : Frame} (h : w.inFlight.map Frame.progress = v.inFlight.map Frame.progress) (hv : v.holds f) : w.holds f := by
  obtain ⟨⟨g, hg, hno⟩, hall⟩ := hv
  refine ⟨?_, fun x hx hxno => ?_⟩
  · obtain ⟨x, hx, hxg⟩ := List.mem_map.mp (h ▸ List.mem_map_of_mem hg)
    exact ⟨x, hx, (congrArg Prod.fst hxg).trans hno⟩
  · obtain ⟨y, hy, hyx⟩ := List.mem_map.mp (h ▸ List.mem_map_of_mem hx : x.progress ∈ v.inFlight.map Frame.progress)
    exact hyx.symm.trans (hall y hy ((congrArg Prod.fst hyx).trans hxno))

/-- A frame in flight that becomes `g`, of the same number. -/
theorem modFrame_holds {d : Dev} {c : Nat} {f g : Frame} (h : f ∈ (d.camCtx c).inFlight) (hno : g.no = f.no) :
    ((d.modFrame c f.no (fun _ => g)).camCtx c).holds g := by
  rw [Dev.modFrame, Dev.modCtx_camCtx]
  refine ⟨⟨g, List.mem_map.mpr ⟨f, h, if_pos rfl⟩, rfl⟩, fun x hx hxno => ?_⟩
  obtain ⟨y, -, hy⟩ := List.mem_map.mp hx
  split at hy
  · rw [← hy]
  · next hother =>
    rw [hy] at hother
    exact absurd (hxno.trans hno) hother

theorem holds_find {v : CamCtx} {f : Frame} (h : v.holds f) :
    ∃ g ∈ v.inFlight, v.inFlight.find? (fun x => decide (x.no = f.no)) = some g ∧ g.no = f.no ∧ g.progress = f.progress := by
  obtain ⟨⟨x, hx, hno⟩, hall⟩ := h
  obtain ⟨g, hg⟩ := find_of_mem_inFlight hx
  rw [hno] at hg
  have hmem := List.mem_of_find?_eq_some hg
  have hgno : g.no = f.no := of_decide_eq_true (List.find?_some hg :)
  exact ⟨g, hmem, hg, hgno, hall g hmem hgno⟩

theorem readyBatch_mem {d : Dev} {c n : Nat} {f : Frame} (h : d.readyBatch c = some (f, n)) : f ∈ (d.camCtx c).inFlight := by
  unfold Dev.readyBatch at h
  dsimp only at h
  split at h
  · cases h
  · next g hg =>
    have hmem := List.mem_of_find?_eq_some hg
    split at h
    · cases h; exact hmem
    · split at h
      · cases h; exact hmem
      · cases h

/-- The lines of a batch of `n` lines of frame `f`, with those kept from the batch before. -/
def Dev.batchLines (d : Dev) (c : Nat) (f : Frame) (n : Nat) : List Line :=
  d.cam.pool.filter (fun x => decide (x.ctx = c) && decide (x.frame = f.no) && decide (x.num < f.done + n))

/-- What the stages make of them. -/
def Dev.batchTaps (d : Dev) (c : Nat) (f : Frame) (n : Nat) : Taps :=
  let kept := (d.batchLines c f n).length - n
  runStages f.params (d.cfg.ctxMosaic c) (rawBits (d.cfg.ctxType c)) (d.cfg.ctxWidth c) (d.cfg.ctxHeight c) (f.done - kept) kept
    ((d.batchLines c f n).map (fun x => x.samples))

/-- The batch that the pipeline takes: its frame has `n` more lines done, and is delivered if it was its last. -/
theorem runBatch_takes {d : Dev} {c n : Nat} {f : Frame} (hawake : d.awake = true) (hnext : d.nextBatch = some c)
    (hready : d.readyBatch c = some (f, n)) :
    ∃ (e : Dev) (g : Frame), d.runBatch c = e.maybeDeliver c f.no ∧ g.progress = (f.no, f.fe, f.done + n, f.rows ++ (d.batchTaps c f n).final) ∧ e.cfg = d.cfg ∧
      (e.camCtx c).frames = (d.camCtx c).frames ∧ (e.camCtx c).holds g := by
  unfold Dev.runBatch
  rw [if_neg (by simp [hawake, hnext]), hready]
  dsimp -zeta only
  extract_lets w h lines kept t f1 f2 d1 d2 _ d3
  have hstat : f1.progress = f.progress :=
    foldl_keeps (P := fun g : Frame => g.progress = f.progress) (fun g i hg => (statLine_progress g _ _ _ _ _ _).trans hg) _ rfl
  have hno : f2.no = f.no := congrArg Prod.fst hstat
  have hfe : f2.fe = f.fe := congrArg (fun x => x.2.1) hstat
  have h1 : d1.batches c = (d.cfg, (d.camCtx c).frames, (d1.camCtx c).inFlight.map Frame.progress) := by
    simp only [d1, Dev.batches, Dev.modFrame, Dev.modCtx_camCtx]; rfl
  have hholds : (d1.camCtx c).holds f2 := modFrame_holds (readyBatch_mem hready) hno
  have h3 : d3.batches c = d1.batches c :=
    foldl_keeps (P := fun e : Dev => e.batches c = d1.batches c) (fun e o he => (writeOutput_batches e c o f2 f.done).trans he) _ rfl
  have hprogress : f2.progress = (f.no, f.fe, f.done + n, f.rows ++ (d.batchTaps c f n).final) := by
    rw [← hno, ← hfe]; rfl
  clear_value d3 d2 d1 f2
  rw [h1] at h3
  simp only [Dev.batches, Prod.mk.injEq] at h3
  obtain ⟨hcfg, hframes, hflight⟩ := h3
  exact ⟨d3, f2, rfl, hprogress, hcfg, hframes, holds_of_progress hflight hholds⟩

/-- What a batch of `n` lines of frame `f`, with final lines `rows` and `h` lines in a frame, makes of its context `v`. -/
structure CamCtx.BatchTo (h : Nat) (f : Frame) (n : Nat) (rows : List (List Px)) (v w : CamCtx) : Prop where
  delivered : f.fe = true → f.done + n = h → w.frames = v.frames + 1 ∧ w.stats.isSome = true ∧ ∀ g ∈ w.inFlight, g.no ≠ f.no
  goesOn : f.fe = false ∨ f.done + n ≠ h → w.frames = v.frames ∧ ∃ g ∈ w.inFlight, g.no = f.no ∧ g.done = f.done + n ∧ g.rows = f.rows ++ rows

theorem runBatch_batchTo {d : Dev} {c n : Nat} {f : Frame} (hawake : d.awake = true) (hnext : d.nextBatch = some c)
    (hready : d.readyBatch c = some (f, n)) :
    (d.camCtx c).BatchTo (d.cfg.ctxHeight c) f n (d.batchTaps c f n).final ((d.runBatch c).camCtx c) := by
  obtain ⟨e, g, hrun, hprogress, hcfg, hframes, hholds⟩ := runBatch_takes hawake hnext hready
  obtain ⟨x, hx, hfind, -, hxg⟩ := holds_find hholds
  have hxprogress := hxg.trans hprogress
  rw [show g.no = f.no from congrArg Prod.fst hprogress] at hfind
  simp only [Frame.progress, Prod.mk.injEq] at hxprogress
  obtain ⟨hno, hfe, hdone, hrows⟩ := hxprogress
  rw [hrun, ← hcfg]
  refine ⟨fun hend hlast => hframes ▸ maybeDeliver_delivers hfind (hfe.trans hend) (hdone.trans hlast), fun hopen => ?_⟩
  rw [← hframes, maybeDeliver_of_find hfind, hfe, hdone, if_neg ?_]
  · exact ⟨rfl, x, hx, hno, hdone, hrows⟩
  · rw [Bool.and_eq_true, decide_eq_true_eq, not_and_or, Bool.not_eq_true]
    exact hopen

theorem runBatch_waits {d : Dev} {c : Nat} (h : d.awake = false ∨ d.nextBatch ≠ some c) : d.runBatch c = d := if_pos (by simpa using h)

/-! ## The rows -/

/-- A line of the port has come, with a wrong checksum or not: a wrong one is counted (R377). -/
def Dev.crcSeen (d : Dev) (port : Nat) (crc : Bool) : Dev :=
  if crc then
    { d with cam := { d.cam with
      portFlags := d.cam.portFlags.set port (d.cam.portFlags.get port 0 ||| 1), crcCnt := d.cam.crcCnt.set port (satInc (d.cam.crcCnt.get port 0)) } }
  else d

theorem crcSeen_rest (d : Dev) (port : Nat) (crc : Bool) : let e := d.crcSeen port crc
    e.time = d.time ∧ e.cfg = d.cfg ∧ e.cam.pool = d.cam.pool ∧ ∀ k, e.camCtx k = d.camCtx k := by
  unfold Dev.crcSeen; split <;> exact ⟨rfl, rfl, rfl, fun _ => rfl⟩

section Port
variable {d : Dev} {port : Nat} (hawake : d.awake = true) (hon : d.cfg.camPortOn port = true)
include hawake hon

/-- A header that cannot be corrected. -/
theorem longPacket_header (vc dt : Nat) (crc : Bool) (px : List W16) : d.longPacket port vc dt true crc px = { d with cam := { d.cam with
    portFlags := d.cam.portFlags.set port (d.cam.portFlags.get port 0 ||| 2), eccCnt := d.cam.eccCnt.set port (satInc (d.cam.eccCnt.get port 0)) } } := by
  simp [Dev.longPacket, hawake, hon]

/-- A packet of no context. -/
theorem longPacket_unmatched {vc dt : Nat} (hnone : ∀ k ∈ d.cfg.contextsOn port vc, d.cfg.ctxType k ≠ dt) (crc : Bool) (px : List W16) :
    d.longPacket port vc dt false crc px =
      { d with cam := { d.cam with unmatched := d.cam.unmatched.set port (satInc (d.cam.unmatched.get port 0)) } } := by
  have hfind : (d.cfg.contextsOn port vc).find? (fun k => decide (d.cfg.ctxType k = dt)) = none := List.find?_eq_none.mpr (by simpa using hnone)
  simp [Dev.longPacket, hawake, hon, hfind]

/-- A line of a context. -/
theorem longPacket_line {vc dt k : Nat} (hfind : (d.cfg.contextsOn port vc).find? (fun k => decide (d.cfg.ctxType k = dt)) = some k) (crc : Bool) (px : List W16) :
    d.longPacket port vc dt false crc px = (d.crcSeen port crc).lineArrives k crc px := by
  simp only [Dev.longPacket, hawake, hon, hfind]
  rfl

end Port

/-- The ends of the frames of a virtual channel, in each context there. -/
theorem frameEnds_endsTo (d : Dev) (port vc : Nat) {k : Nat} (hk : k ∈ d.cfg.contextsOn port vc) :
    (d.camCtx k).EndsTo (d.cfg.ctxHeight k) ((((d.cfg.contextsOn port vc).foldl (fun d c => d.frameEnd c) d)).camCtx k) := by
  obtain ⟨e, he, hends⟩ := image_foldl frameEnd_imagesBut (contextsOn_nodup d.cfg port vc) hk d
  have hstep := frameEnd_endsTo e k
  rw [cfg_of_image he] at hstep
  exact hstep.of_receiving (receiving_of_image he) (receiving_of_image hends)

/-- The four rows of a port that is not enabled, or of a device that is not awake. -/
theorem csi_off (s : State) {port : Nat} (h : s.dev.awake = false ∨ s.dev.cfg.camPortOn port = false) (vc dt : Nat) (e c : Bool) (px : List W16) :
    exec (.csiFrameStart port vc) s = .next s ∧ exec (.csiFrameEnd port vc) s = .next s ∧ exec (.csiLongPacket port vc dt e c px) s = .next s ∧
      exec (.csiPortLock port e) s = .next s := by
  have hgate : ¬ (s.dev.awake && s.dev.cfg.camPortOn port) = true := by rcases h with h | h <;> simp [h]
  have hstop : (!s.dev.awake || !s.dev.cfg.camPortOn port) = true := by rcases h with h | h <;> simp [h]
  have hstart : s.dev.csiStart port vc = s.dev := if_pos hstop
  have hpacket : s.dev.longPacket port vc dt e c px = s.dev := if_pos hstop
  refine ⟨?_, ?_, ?_, ?_⟩
  · exact next_withDev s hstart
  · exact next_withDev s (if_neg hgate)
  · exact next_withDev s hpacket
  · exact next_withDev s (if_neg hgate)

/-- Settles O56: frame starts and ends go context by context (`image_foldl`), what they make of each is `csiStart_startsAt` and `frameEnds_endsTo`; a line
is `lineArrives_bad` or `lineArrives_good`, a batch `runBatch_batchTo`. -/
theorem camerasReceiveLinesAndFrames : Obligations.CamerasReceiveLinesAndFrames := by
  unfold Obligations.CamerasReceiveLinesAndFrames
  refine ⟨fun s port vc hawake hon => ⟨⟨_, rfl, rfl, fun k hk => ?start⟩, ⟨_, rfl, rfl, fun k hk => ?frameEnd⟩, fun b => ?lock, fun dt crc px => ?header,
    fun dt crc px hnone => ?unmatched, fun dt crc px k f hfind => ?line⟩, fun s port vc dt e c px hoff => csi_off s hoff vc dt e c px,
    fun s k => ⟨fun hwait => ?waits, fun f n hawake hnext hready => ?batch⟩⟩
  case start =>
    obtain ⟨hcount, hactive, hopen, hhdrs, f, hlast, hno, hfe, hlines, hdone, htime⟩ := csiStart_startsAt hawake hon hk
    exact ⟨hcount, hactive, hopen, hhdrs, f, hlast, hno, hfe, hlines, hdone, htime⟩
  case frameEnd =>
    rw [hawake, hon]
    obtain ⟨hinactive, hdropped, hdelivered⟩ := frameEnds_endsTo s.dev port vc hk
    exact ⟨hinactive, hdropped, hdelivered⟩
  case lock => exact next_withDev s (if_pos (by simp [hawake, hon]))
  case header => exact next_withDev s (longPacket_header hawake hon vc dt crc px)
  case unmatched => exact next_withDev s (longPacket_unmatched hawake hon hnone crc px)
  case line =>
    intro v hactive hcur hopen
    obtain ⟨htime, hcfg, hpool, hctx⟩ := crcSeen_rest s.dev port crc
    have htype : s.dev.cfg.ctxType k = dt := of_decide_eq_true (List.find?_some hfind :)
    have hrun : exec (.csiLongPacket port vc dt false crc px) s = .next (s.withDev ((s.dev.crcSeen port crc).lineArrives k crc px)) :=
      next_withDev s (longPacket_line hawake hon hfind crc px)
    have hbad := lineArrives_bad (d := s.dev.crcSeen port crc) (c := k) (f := f) (by rw [hctx]; exact hactive) (by rw [hctx]; exact hcur)
      (by rw [hctx]; exact hopen) (crc := crc) (px := px)
    have hgood := lineArrives_good (d := s.dev.crcSeen port crc) (c := k) (f := f) (by rw [hctx]; exact hactive) (by rw [hctx]; exact hcur)
      (by rw [hctx]; exact hopen) (px := px)
    rw [hctx, hcfg, hpool] at hbad
    rw [hctx, hcfg, hpool, htime, htype] at hgood
    refine ⟨_, hrun, rfl, hbad, fun hcrc hlen hlines hroom => ?_⟩
    subst hcrc
    exact hgood hlen hlines hroom
  case waits => exact next_withDev s (runBatch_waits hwait)
  case batch =>
    obtain ⟨hdelivered, hopen⟩ := runBatch_batchTo hawake hnext hready
    exact ⟨_, rfl, rfl, hdelivered, hopen⟩

end Sys2Proof.Machine

/-! PROOFS. Sensor lists on the I3C controllers, and the generations that they set (R367-R371, R534). -/
namespace Sys2Proof.Machine
open Sys2Proof

/-! ## The end of a list (R368, R369, R370) -/

/-- A controller whose list has left the bus. -/
def Dev.i3cIdle (d : Dev) (n : Nat) : Dev := d.modI3c n (fun v => { v with running := none })

/-- The effect frame of class `k` of a list of sensor `s`, and whether its last transaction was late. -/
def Dev.listEffect (d : Dev) (s : Nat) (ends : List (Nat × Nat × Nat)) (k : Nat) : Nat × Bool :=
  match ends.find? (fun x => decide (x.1 = k)) with
  | some x => d.cfg.classEffect s k x.2.1 x.2.2
  | none => d.cfg.classEffect s k (d.camCtx (d.cfg.sensorRef s)).frameCount (d.camLine (d.cfg.sensorRef s))

/-- The classes of a list's transactions. -/
def listClasses (b : List B8) : List Nat := (List.range (leAt b 0 1)).map (listClass b)

/-- The effect frame of a list: the largest of its classes. -/
def Dev.listFrame (d : Dev) (ends : List (Nat × Nat × Nat)) (b : List B8) : Nat :=
  (((listClasses b).eraseDups.map (d.listEffect (listSensor b) ends)).map (fun x => x.1)).foldl max 0

/-- A sensor for which a list completed while its reference track was not valid. -/
def Sensor.keeps (v : Sensor) (gen : W32) (n : Nat) : Sensor :=
  { v with invalidGen := v.invalidGen ++ [(gen, n)], stopped := none
           uncFrom := match v.stopped with | some x => v.uncFrom ++ [(x, BitVec.ofNat 64 n)] | none => v.uncFrom }

/-- A sensor for which a list takes effect at frame `e`; where it was late, the frame before is uncertain. -/
def Sensor.takes (v : Sensor) (e : Nat) (gen : W32) (late : Bool) : Sensor :=
  if late then { v.effect e gen with uncFrom := (v.effect e gen).uncFrom ++ [(BitVec.ofNat 64 (e - 1), BitVec.ofNat 64 (e - 1))] } else v.effect e gen

theorem Sensor.takes_fields (v : Sensor) (e : Nat) (gen : W32) (late : Bool) : let w := v.takes e gen late
    w.effects = v.effects ++ [(BitVec.ofNat 64 e, gen, v.order)] ∧ w.order = v.order + 1 ∧ w.stopped = none := by
  unfold Sensor.takes; split <;> exact ⟨rfl, rfl, rfl⟩

theorem Sensor.takes_late (v : Sensor) (e : Nat) (gen : W32) : (v.takes e gen true).uncFrom.getLast? = some (BitVec.ofNat 64 (e - 1), BitVec.ofNat 64 (e - 1)) :=
  List.getLast?_concat

section Complete
variable {d : Dev} {n o : Nat} {b : List B8} (hrun : (d.i3c n).running = some (o, b))
include hrun

theorem listComplete_unstamped (hstamp : listStamped b = false) (ends : List (Nat × Nat × Nat)) : d.listComplete n ends = d.i3cIdle n := by
  simp [Dev.listComplete, hrun, hstamp, Dev.i3cIdle]

theorem listComplete_invalid (hstamp : listStamped b = true) (hvalid : (d.camCtx (d.cfg.sensorRef (listSensor b))).fsValid < 2) (ends : List (Nat × Nat × Nat)) :
    d.listComplete n ends = (d.i3cIdle n).modSensor (listSensor b)
      (fun v => v.keeps (BitVec.ofNat 32 (leAt b 4 4)) (d.camCtx (d.cfg.sensorRef (listSensor b))).fsCount) := by
  simp only [Dev.listComplete, hrun, hstamp, if_pos hvalid]
  rfl

theorem listComplete_valid (hstamp : listStamped b = true) (hvalid : 2 ≤ (d.camCtx (d.cfg.sensorRef (listSensor b))).fsValid) (ends : List (Nat × Nat × Nat)) :
    d.listComplete n ends = (d.i3cIdle n).modSensor (listSensor b) (fun v => v.takes (d.listFrame ends b) (BitVec.ofNat 32 (leAt b 4 4))
      (((listClasses b).eraseDups.map (d.listEffect (listSensor b) ends)).any (fun x => x.2))) := by
  simp only [Dev.listComplete, hrun, hstamp, if_neg (Nat.not_lt.mpr hvalid)]
  rfl

end Complete

theorem listComplete_idle {d : Dev} {n : Nat} (hrun : (d.i3c n).running = none) (ends : List (Nat × Nat × Nat)) : d.listComplete n ends = d := by
  simp [Dev.listComplete, hrun]

/-! ## The largest effect frame -/

theorem foldl_max_largest (l : List Nat) : (∀ x ∈ l, x ≤ l.foldl max 0) ∧ (l ≠ [] → l.foldl max 0 ∈ l) := by
  rw [List.foldl_max, Nat.zero_max]
  cases h : l.max? with
  | none =>
    obtain rfl := List.max?_eq_none_iff.mp h
    exact ⟨by simp, fun hne => absurd rfl hne⟩
  | some m =>
    obtain ⟨hmem, hle⟩ := List.max?_eq_some_iff.mp h
    exact ⟨hle, fun _ => hmem⟩

/-- The effect frame of a list is at or after that of each of its classes, and is that of one of them. -/
theorem listFrame_largest (d : Dev) (ends : List (Nat × Nat × Nat)) (b : List B8) :
    (∀ c ∈ listClasses b, (d.listEffect (listSensor b) ends c).1 ≤ d.listFrame ends b) ∧
      (listClasses b ≠ [] → ∃ c ∈ listClasses b, (d.listEffect (listSensor b) ends c).1 = d.listFrame ends b) ∧ (listClasses b = [] → d.listFrame ends b = 0) := by
  have hmem (c : Nat) : c ∈ (listClasses b).eraseDups ↔ c ∈ listClasses b := List.mem_eraseDups
  obtain ⟨hle, hin⟩ := foldl_max_largest (((listClasses b).eraseDups.map (d.listEffect (listSensor b) ends)).map (fun x => x.1))
  refine ⟨fun c hc => hle _ (List.mem_map_of_mem (List.mem_map_of_mem ((hmem c).mpr hc))), fun hne => ?_,
    fun hnil => by rw [Dev.listFrame, hnil]; rfl⟩
  obtain ⟨c, hc⟩ := List.exists_mem_of_ne_nil _ hne
  have hfound := hin (List.ne_nil_of_mem (List.mem_map_of_mem (List.mem_map_of_mem ((hmem c).mpr hc))))
  obtain ⟨x, hx, hframe⟩ := List.mem_map.mp hfound
  obtain ⟨k, hk, rfl⟩ := List.mem_map.mp hx
  exact ⟨k, (hmem k).mp hk, hframe⟩

theorem listEffect_late {d : Dev} {ends : List (Nat × Nat × Nat)} {b : List B8} (h : ∃ c ∈ listClasses b, (d.listEffect (listSensor b) ends c).2 = true) :
    ((listClasses b).eraseDups.map (d.listEffect (listSensor b) ends)).any (fun x => x.2) = true := by
  obtain ⟨c, hc, hlate⟩ := h
  exact List.any_eq_true.mpr ⟨_, List.mem_map_of_mem (List.mem_eraseDups.mpr hc), hlate⟩

/-! ## A list that is not acknowledged (R371) -/

theorem record_rest (d : Dev) (r : ErrRec) :
    (d.record r).cam = d.cam ∧ (d.record r).time = d.time ∧ (d.record r).cfg = d.cfg ∧ (d.record r).queues = d.queues := by
  obtain ⟨ten, mg, m, b, n, hm, pm, -, -, h⟩ := record_ring d r
  rw [h]
  exact ⟨rfl, rfl, rfl, rfl⟩

/-- A controller whose list stopped. -/
def I3c.nacked (v : I3c) : I3c := { v with running := none, nack := true, nackCnt := satInc v.nackCnt }

/-- The device with that recorded for the list's owner. -/
def Dev.i3cNacked (d : Dev) (n owner : Nat) : Dev := (d.modI3c n I3c.nacked).failRec owner (unitHub 0x10 n) { status := 0x01, code := 0xF5 }

theorem i3cNacked_rest (d : Dev) (n owner : Nat) : let e := d.i3cNacked n owner
    e.i3c n = (d.i3c n).nacked ∧ e.time = d.time ∧ e.cfg = d.cfg ∧ e.queues = d.queues ∧ e.cam.sensors = d.cam.sensors := by
  obtain ⟨hcam, htime, hcfg, hqueues⟩ : (d.i3cNacked n owner).cam = (d.modI3c n I3c.nacked).cam ∧ _ := record_rest (d.modI3c n I3c.nacked) _
  exact ⟨(congrArg (fun c : Cam => c.i3c.get n {}) hcam).trans (d.modI3c_i3c n _), htime, hcfg, hqueues, Eq.trans (congrArg (fun c : Cam => c.sensors) hcam) rfl⟩

/-- A sensor whose settings a stopped list leaves uncertain from frame `n` on. -/
def Sensor.stops (v : Sensor) (n : Nat) : Sensor :=
  { v with stopped := some (match v.stopped with | some x => BitVec.ofNat 64 (min x.toNat n) | none => BitVec.ofNat 64 n) }

/-- The first frame that a stopped list leaves uncertain. -/
def Dev.stopFrame (d : Dev) (b : List B8) (done : Nat) (last : Option (Nat × Nat)) : Nat :=
  let rc := d.cfg.sensorRef (listSensor b)
  let at_ := last.getD ((d.camCtx rc).frameCount, d.camLine rc)
  if (d.camCtx rc).fsValid < 2 then (d.camCtx rc).fsCount else (d.cfg.classEffect (listSensor b) (listClass b (done - 1)) at_.1 at_.2).1

theorem listStopped_eq {d : Dev} {n o : Nat} {b : List B8} (hrun : (d.i3c n).running = some (o, b)) (done : Nat) (last : Option (Nat × Nat)) :
    d.listStopped n done last =
      if listStamped b then (d.i3cNacked n o).modSensor (listSensor b) (fun v => v.stops (d.stopFrame b done last)) else d.i3cNacked n o := by
  cases h : listStamped b <;> simp only [Dev.listStopped, hrun, h] <;> rfl

theorem listStopped_idle {d : Dev} {n : Nat} (hrun : (d.i3c n).running = none) (done : Nat) (last : Option (Nat × Nat)) : d.listStopped n done last = d := by
  simp [Dev.listStopped, hrun]

/-- A list that stops: its controller is free and has counted it, and a stamped one leaves its sensor uncertain. -/
theorem listStopped_leaves {d : Dev} {n o : Nat} {b : List B8} (hrun : (d.i3c n).running = some (o, b)) (done : Nat) (last : Option (Nat × Nat)) :
    let e := d.listStopped n done last
    (e.i3c n = (d.i3c n).nacked ∧ e.time = d.time ∧ e.cfg = d.cfg ∧ e.queues = d.queues) ∧
      (∀ j, listStamped b = false ∨ j ≠ listSensor b → e.sensor j = d.sensor j) ∧
      (listStamped b = true → e.sensor (listSensor b) = (d.sensor (listSensor b)).stops (d.stopFrame b done last)) := by
  obtain ⟨hbus, htime, hcfg, hqueues, hsensors⟩ := i3cNacked_rest d n o
  have hsame (j : Nat) : (d.i3cNacked n o).sensor j = d.sensor j := by rw [Dev.sensor, hsensors]; rfl
  rw [listStopped_eq hrun]
  cases hstamp : listStamped b with
  | false => exact ⟨⟨hbus, htime, hcfg, hqueues⟩, fun j _ => hsame j, fun h => absurd h (by decide)⟩
  | true =>
    rw [if_pos rfl]
    refine ⟨⟨hbus, htime, hcfg, hqueues⟩, fun j hj => ?_, fun _ => ?_⟩
    · have hother : listSensor b ≠ j := Ne.symm (hj.resolve_left (by decide))
      exact (Dev.modSensor_sensor_other _ hother _).trans (hsame j)
    · exact (Dev.modSensor_sensor _ _ _).trans (congrArg (fun v => Sensor.stops v _) (hsame _))

/-! ## The rows -/

/-- Settles O57: the end of a list by its stamp and its sensor's track (`listComplete_unstamped`, `listComplete_invalid`, `listComplete_valid`), its effect frame by
`listFrame_largest`, a list that stops by `listStopped_leaves`. -/
theorem sensorListsRunAndSetGenerations : Obligations.SensorListsRunAndSetGenerations := by
  unfold Obligations.SensorListsRunAndSetGenerations
  intro s n v put
  refine ⟨fun x rest hawake hrun hqueue => ?run, fun hwait => ?waits, fun ends hrun => next_withDev s (listComplete_idle hrun ends),
    fun ends o b hrun => ⟨fun hstamp => next_withDev s (listComplete_unstamped hrun hstamp ends), fun hstamp hvalid => ?invalid, fun hstamp hvalid => ?valid⟩,
    fun done last hrun => next_withDev s (listStopped_idle hrun done last), fun done last o b hrun => ?stopped, fun hawake hn => ?interrupt, fun hoff => ?off⟩
  case run =>
    refine next_withDev s ?_
    rw [hrun, hqueue]
    exact if_pos hawake
  case waits =>
    refine next_withDev s ?_
    split
    · next x rest hrun hqueue =>
      refine if_neg fun hawake => ?_
      rcases hwait with h | h | h
      · exact absurd (h.symm.trans hawake) (by decide)
      · exact h hrun
      · exact absurd (hqueue.symm.trans h) (by simp)
    · rfl
  case invalid =>
    have hlist := listComplete_invalid hrun hstamp hvalid ends
    refine ⟨_, next_withDev s hlist, rfl, fun j hj => Dev.modSensor_sensor_other _ (Ne.symm hj) _, ?_, ?_⟩
    · exact congrArg Sensor.invalidGen (Dev.modSensor_sensor _ _ _)
    · exact Eq.trans (congrArg Sensor.effects (Dev.modSensor_sensor _ _ _)) rfl
  case valid =>
    have hlist := listComplete_valid hrun hstamp hvalid ends
    obtain ⟨heffects, horder, hstopped⟩ := Sensor.takes_fields (s.dev.sensor (listSensor b)) (s.dev.listFrame ends b) (BitVec.ofNat 32 (leAt b 4 4))
      (((listClasses b).eraseDups.map (s.dev.listEffect (listSensor b) ends)).any (fun x => x.2))
    refine ⟨_, s.dev.listFrame ends b, next_withDev s hlist, rfl, fun j hj => Dev.modSensor_sensor_other _ (Ne.symm hj) _, ?_, ?_, ?_, ?_⟩
    · exact (congrArg Sensor.effects (Dev.modSensor_sensor _ _ _)).trans heffects
    · exact (congrArg Sensor.order (Dev.modSensor_sensor _ _ _)).trans horder
    · exact (congrArg Sensor.stopped (Dev.modSensor_sensor _ _ _)).trans hstopped
    · obtain ⟨hle, hin, hzero⟩ := listFrame_largest s.dev ends b
      refine ⟨hle, hin, hzero, fun hlate => ?_⟩
      refine (congrArg (fun v : Sensor => v.uncFrom.getLast?) (Dev.modSensor_sensor _ _ _)).trans ?_
      rw [listEffect_late hlate]
      exact Sensor.takes_late _ _ _
  case stopped =>
    obtain ⟨hrest, hothers, hsensor⟩ := listStopped_leaves hrun done last
    obtain ⟨hbus, htime, hcfg, hqueues⟩ := hrest
    refine ⟨_, rfl, rfl, hbus, htime, hcfg, hqueues, hothers, fun hstamp hnone => ?_⟩
    refine (congrArg Sensor.stopped (hsensor hstamp)).trans ?_
    rw [Sensor.stops, hnone]
    rfl
  case interrupt => exact next_withDev s (if_pos (by simp [hawake, hn]))
  case off => exact next_withDev s (if_neg (by rcases hoff with h | h <;> simp [h]))

end Sys2Proof.Machine

/-! PROOFS. The ends of pulse programs, limit inputs, and the UARTs (R400-R405, R409). -/
namespace Sys2Proof.Machine
open Sys2Proof

/-! ## Memory goes by nothing of the control outputs

A received byte is stored in memory after its UART has changed, so what a write to memory does has to be the same whatever the control
outputs hold. -/

/-- The device with other control outputs. -/
def Dev.withPls (p : Pls) (d : Dev) : Dev := { d with pls := p }

/-- What an operation on the device answers, with other control outputs in the device. -/
def withPlsFst {α : Type} (p : Pls) (x : Dev × α) : Dev × α := (x.1.withPls p, x.2)

/-- A write's first act: a tile that nothing has mapped is mapped. -/
def Dev.openTile (d : Dev) (party k : Nat) : Dev × Option Fail := match d.tile k with | some _ => (d, none) | none => d.mapTile party k

/-- A write's second act: the tile is checked, brought up, and stored to. -/
def Dev.storeOpen (d : Dev) (v : View) (k a : Nat) (l : List B8) : Dev × Option Fail :=
  match d.tile k with
  | none => (d, none)
  | some t =>
    if !inWindow a && decide (t.owner = mgmtParty ∧ v.party ≠ mgmtParty) then (d, some { status := 0x03, code := 0xB1, addr := a, space := 0 })
    else if !inWindow a && decide (t.owner ≠ v.party) then (d, some { status := 0x03, code := 0xB0, addr := a, space := 0 })
    else if !inWindow a && t.readOnly then (d, some { status := 0x03, code := 0xB1, addr := a, space := 0 })
    else match d.bringUp k t with
      | (d1, some e) => (d1, some (e.inTile a))
      | (d1, none) =>
        match d1.tile k with
        | none => (d1, none)
        | some w => (d1.storeTile k a l w, none)

theorem writeIn_eq (d : Dev) (v : View) (a : Nat) (l : List B8) : d.writeIn v a l =
    if 0x10000000000 ≤ a then (d, some { status := 0x03, code := 0xB2, addr := a, space := 0 })
    else if inWindow a && !v.mayWrite a then (d, some { status := 0x03, code := 0xC0, addr := a, space := 0 })
    else match d.openTile v.party (d.keyAt v a) with
      | (d1, some e) => (d1, some { e with addr := a, space := 0 })
      | (d1, none) => d1.storeOpen v (d.keyAt v a) a l := rfl

/-- A choice between two values of `f` is the value of `f` at the choice. -/
theorem ite_eq_apply {α β : Type} {f : α → β} {c : Prop} [Decidable c] {x y : α} {x' y' : β} (hx : x' = f x) (hy : y' = f y) :
    (if c then x' else y') = f (if c then x else y) := by split <;> assumption

section WithPls
variable (d : Dev) (p : Pls)

theorem Dev.withPls_mem : (d.withPls p).mem = d.mem := rfl
theorem Dev.withPls_sec : (d.withPls p).sec = d.sec := rfl
theorem Dev.withPls_tile (k : Nat) : (d.withPls p).tile k = d.tile k := rfl
theorem Dev.withPls_keyAt (v : View) (a : Nat) : (d.withPls p).keyAt v a = d.keyAt v a := rfl
theorem Dev.withPls_freeFrame : (d.withPls p).freeFrame = d.freeFrame := rfl

theorem Dev.withPls_countLinkCe (a n : Nat) : (d.withPls p).countLinkCe a n = (d.countLinkCe a n).withPls p := ite_eq_apply rfl rfl

theorem Dev.withPls_readSram (live : Nat → Bool) (a n : Nat) : (d.withPls p).readSram live a n = withPlsFst p (d.readSram live a n) := by
  unfold Dev.readSram
  dsimp only [Dev.withPls_mem]
  by_cases hce : (d.mem.ceWords.filter (fun x => touches 8 a n x && live x)).length = 0
  · simp only [if_pos hce]
    cases (d.mem.bad.filter live).filter (touches 8 a n) <;> rfl
  · simp only [if_neg hce]
    cases (d.mem.bad.filter live).filter (touches 8 a n) <;> rfl

theorem Dev.withPls_readPhys (a n : Nat) : (d.withPls p).readPhys a n = withPlsFst p (d.readPhys a n) := by
  refine ite_eq_apply (d.withPls_readSram p _ a n) (ite_eq_apply ?nvme (ite_eq_apply rfl ?lp5x))
  case nvme =>
    rw [Dev.withPls_mem]
    cases firstIn 64 d.mem.badMac (a / 4096 * 4096) (cdiv (a + n) 4096 * 4096 - a / 4096 * 4096) <;> rfl
  case lp5x =>
    rw [Dev.withPls_countLinkCe, Dev.withPls_mem, Dev.withPls_sec]
    cases firstIn 64 d.mem.badLp a n with
    | some x => rfl
    | none =>
      refine ite_eq_apply rfl ?_
      cases firstIn 64 d.mem.badMac a n with
      | some x => rfl
      | none => cases d.sec.badNodes.find? (fun r => decide (a < r.1 + r.2.1) && decide (r.1 < a + n)) <;> rfl

theorem Dev.withPls_driveCheck (f : Nat) : (d.withPls p).driveCheck f = withPlsFst p (d.driveCheck f) := by
  have huse : (d.withPls p).driveUse (driveOf f) = withPlsFst p (d.driveUse (driveOf f)) := ite_eq_apply rfl (ite_eq_apply rfl rfl)
  unfold Dev.driveCheck
  rw [huse]
  rcases d.driveUse (driveOf f) with ⟨d1, _ | _⟩ <;> rfl

theorem Dev.withPls_readPieces (src : Nat) (ps : List (Nat × Nat)) : (d.withPls p).readPieces src ps = withPlsFst p (d.readPieces src ps) := by
  refine List.foldl_hom (withPlsFst p) (init := (d, none)) ?_
  rintro ⟨e, _ | fail⟩ x
  · have hread := e.withPls_readPhys p (src + x.1) x.2
    dsimp only [withPlsFst] at hread ⊢
    rw [hread]
    rcases e.readPhys (src + x.1) x.2 with ⟨d1, _ | _⟩ <;> rfl
  · rfl

theorem Dev.withPls_copyPieces (src dst : Nat) (ps : List (Nat × Nat)) : (d.withPls p).copyPieces src dst ps = (d.copyPieces src dst ps).withPls p := by
  have hseal (e : Dev) : (e.withPls p).sealBlocks dst ps = (e.sealBlocks dst ps).withPls p := ite_eq_apply rfl rfl
  refine ite_eq_apply rfl (Eq.trans (congrArg (fun e : Dev => e.sealBlocks dst ps) ?_) (hseal _))
  exact List.foldl_hom (Dev.withPls p) fun _ _ => rfl

theorem Dev.withPls_bringUp (k : Nat) (v : Tile) (ps : List (Nat × Nat)) : (d.withPls p).bringUp k v ps = withPlsFst p (d.bringUp k v ps) := by
  refine ite_eq_apply rfl (ite_eq_apply rfl ?_)
  rw [Dev.withPls_driveCheck, Dev.withPls_freeFrame]
  cases d.freeFrame with
  | none => rfl
  | some f =>
    rcases d.driveCheck v.frame with ⟨d1, _ | fail⟩
    · dsimp only [withPlsFst]
      rw [Dev.withPls_readPieces]
      rcases d1.readPieces (v.frame * tileSize) ps with ⟨d2, _ | fail⟩
      · dsimp only [withPlsFst]
        rw [Dev.withPls_copyPieces]
        rfl
      · rfl
    · rfl

theorem Dev.withPls_openTile (party k : Nat) : (d.withPls p).openTile party k = withPlsFst p (d.openTile party k) := by
  unfold Dev.openTile
  rw [Dev.withPls_tile]
  cases d.tile k with
  | some t => rfl
  | none =>
    refine ite_eq_apply rfl (ite_eq_apply rfl (ite_eq_apply rfl ?_))
    rw [Dev.withPls_freeFrame]
    cases d.freeFrame <;> rfl

theorem Dev.withPls_storeTile (k a : Nat) (l : List B8) (w : Tile) : (d.withPls p).storeTile k a l w = (d.storeTile k a l w).withPls p :=
  ite_eq_apply rfl (ite_eq_apply rfl rfl)

theorem Dev.withPls_storeOpen (v : View) (k a : Nat) (l : List B8) : (d.withPls p).storeOpen v k a l = withPlsFst p (d.storeOpen v k a l) := by
  unfold Dev.storeOpen
  rw [Dev.withPls_tile]
  cases d.tile k with
  | none => rfl
  | some t =>
    refine ite_eq_apply rfl (ite_eq_apply rfl (ite_eq_apply rfl ?_))
    rw [Dev.withPls_bringUp]
    rcases d.bringUp k t with ⟨d1, _ | fail⟩
    · dsimp only [withPlsFst]
      rw [Dev.withPls_tile]
      cases d1.tile k with
      | none => rfl
      | some w => exact congrArg (·, none) (d1.withPls_storeTile p k a l w)
    · rfl

theorem Dev.withPls_writeIn (v : View) (a : Nat) (l : List B8) : (d.withPls p).writeIn v a l = withPlsFst p (d.writeIn v a l) := by
  rw [writeIn_eq, writeIn_eq]
  refine ite_eq_apply rfl (ite_eq_apply rfl ?_)
  rw [Dev.withPls_keyAt, Dev.withPls_openTile]
  rcases d.openTile v.party (d.keyAt v a) with ⟨d1, _ | fail⟩
  · exact d1.withPls_storeOpen p v _ a l
  · rfl

theorem Dev.withPls_deviceWrite (party part a : Nat) (l : List B8) : (d.withPls p).deviceWrite party part a l = (d.deviceWrite party part a l).withPls p := by
  refine congrArg Prod.fst (List.foldl_hom (withPlsFst p) (init := (d, none)) ?_)
  rintro ⟨e, _ | fail⟩ x
  · exact e.withPls_writeIn p _ _ _
  · rfl

end WithPls

/-- A write to memory between two changes of a UART: the later change is one of what the earlier one left. -/
theorem deviceWrite_modUart (d : Dev) (u : Nat) (f g : Uart → Uart) (party part a : Nat) (l : List B8) :
    ((d.modUart u f).deviceWrite party part a l).modUart u g = (d.deviceWrite party part a l).modUart u (fun v => g (f v)) := by
  obtain ⟨m, b, n, -, hwrite⟩ := d.deviceWrite_only party part a l
  have hcomm : (d.modUart u f).deviceWrite party part a l = (d.deviceWrite party part a l).modUart u f := by
    refine (d.withPls_deviceWrite (d.modUart u f).pls party part a l).trans ?_
    rw [hwrite]
    rfl
  rw [hcomm, Dev.modUart_modUart]

/-! ## Pulse programs -/

/-- A leg that holds a level is never left: the run stands at it, or before it. -/
theorem travel_leg_lt_of_hold (setup : Nat) {l : List Leg} (h : ∃ g ∈ l, g.hold = true) (dir : Option Bool) (t : Nat) (s : Travel) :
    (travel setup l dir t s).leg < s.leg + l.length := by
  induction l generalizing dir t s with
  | nil => simp at h
  | cons g r ih =>
    unfold travel
    extract_lets wait
    split
    · next hleft =>
      have hr : ∃ x ∈ r, x.hold = true := by
        obtain ⟨x, hx, hhold⟩ := h
        rcases List.mem_cons.mp hx with rfl | hx
        · simp [hhold] at hleft
        · exact ⟨x, hx, hhold⟩
      refine (ih hr _ _ _).trans_eq ?_
      simp only [List.length_cons]
      omega
    · simp

section Pulse
variable {d : Dev} {n : Nat} {h : HeldProg} (hrun : (d.pulse n).running = some h)
include hrun

theorem pulseEnd_running (status : Nat) (own moved : Int) : d.pulseEnd n status own moved =
    (d.modPulse n (fun _ => { d.pulse n with running := none, pos := (d.pulse n).pos + BitVec.ofInt 64 moved, brake := 0, brakeV := 0, brakeD := 0, stepPin := false })).deviceWrite
      h.party (d.partyPart h.party) (h.addr + 8) (pulseResult status own) := by
  unfold Dev.pulseEnd
  rw [hrun]
  rfl

/-- A program that has a segment which holds stands at one of its legs. -/
theorem pulseTravel_holds (hhold : ∃ g ∈ d.cfg.legs n h.bytes, g.hold = true) : (d.pulseTravel n).leg < (d.pulseLegs n h).length := by
  have hlegs : ∃ g ∈ d.pulseLegs n h, g.hold = true := by
    obtain ⟨g, hg, hhold⟩ := hhold
    exact ⟨g, List.mem_append_right _ hg, hhold⟩
  simp only [Dev.pulseTravel, hrun]
  exact (travel_leg_lt_of_hold _ hlegs _ _ _).trans_eq (Nat.zero_add _)

theorem pulseDone_moves (hleg : (d.pulseTravel n).leg < (d.pulseLegs n h).length) : d.pulseDone n = d := by
  unfold Dev.pulseDone
  rw [hrun]
  exact if_pos hleg

theorem pulseDone_ends (hleg : (d.pulseLegs n h).length ≤ (d.pulseTravel n).leg) : let own := ((d.cfg.legs n h.bytes).map (fun g => g.steps)).sum
    d.pulseDone n = d.pulseEnd n 0 own ((d.pulse n).brake + own) := by
  unfold Dev.pulseDone
  rw [hrun]
  exact if_neg (Nat.not_lt.mpr hleg)

end Pulse

theorem pulseDone_idle {d : Dev} {n : Nat} (hrun : (d.pulse n).running = none) : d.pulseDone n = d := by
  unfold Dev.pulseDone
  rw [hrun]

/-! ## Limit inputs -/

section Limit
variable {d : Dev} {pin n : Nat} (hchannel : d.cfg.gpioChannel pin = n)
include hchannel

/-- A pin that is no limit input of a running channel's direction changes nothing. -/
theorem limitInput_ignored (hno : (d.pulse n).running = none ∨ d.awake = false ∨ d.cfg.has 11 = false ∨ 48 ≤ pin ∨
    (d.cfg.gpioFunction pin ≠ 2 ∧ d.cfg.gpioFunction pin ≠ 3) ∨ d.pulseForward n ≠ decide (d.cfg.gpioFunction pin = 3)) : d.limitInput pin = d := by
  subst hchannel
  refine if_pos ?_
  rcases hno with h | h | h | h | ⟨h2, h3⟩ | h
  · simp [h]
  · simp [h]
  · simp [h]
  · simp [h]
  · simp [h2, h3]
  · simp [h]

/-- A limit input of a running channel's direction ends its program, and is counted and recorded. -/
theorem limitInput_ends {h : HeldProg} (hrun : (d.pulse n).running = some h) (hawake : d.awake = true) (hsection : d.cfg.has 11 = true) (hpin : pin < 48)
    (hlimit : d.cfg.gpioFunction pin = 2 ∨ d.cfg.gpioFunction pin = 3) (hforward : d.pulseForward n = decide (d.cfg.gpioFunction pin = 3)) :
    let e := (d.pulseEnd n 1 (d.ownSteps n) (d.pulseTravel n).steps).modPulse n (fun w => { w with limit := true, limitCnt := satInc w.limitCnt })
    d.limitInput pin = match d.cfg.pulseOwner n with
      | some o => e.failRec o (unitHub 0x0E n) { status := 0x01, code := 0xFB }
      | none => e := by
  subst hchannel
  refine if_neg ?_
  simpa [hawake, hsection, hpin, hrun, hforward] using or_iff_not_imp_left.mp hlimit

end Limit

/-! ## UARTs -/

/-- The UART's program has ended. -/
def Uart.freed (v : Uart) : Uart := { v with running := none, dePin := false, captured := [], capErr := false }

/-- The UART has started the program `h`, which left `rest` waiting. -/
def Uart.starts (v : Uart) (h : HeldProg) (rest : List HeldProg) (now : W64) (de : Bool) : Uart :=
  { v with running := some h, queue := rest, start := now, sent := (h.bytes.drop 64).take (uartSend h.bytes), captured := [], capErr := false, dePin := de }

/-- A byte was discarded. -/
def Uart.drops (v : Uart) : Uart := { v with rxDrop := true, rxDropCnt := satInc v.rxDropCnt }

/-- A byte came in, with a framing or parity error where `err`. -/
def Uart.receives (v : Uart) (err : Bool) : Uart := if err then { v with rxErr := true, rxErrCnt := satInc v.rxErrCnt } else v

/-- A byte was captured. -/
def Uart.captures (v : Uart) (byte : B8) (err : Bool) : Uart := { v with captured := v.captured ++ [byte], capErr := v.capErr || err }

theorem uartRun_starts {d : Dev} {u : Nat} {h : HeldProg} {rest : List HeldProg} (hawake : d.awake = true) (hrun : (d.uart u).running = none)
    (hqueue : (d.uart u).queue = h :: rest) : d.uartRun u = d.modUart u (fun v => v.starts h rest d.time (d.cfg.uartDe u)) := by
  unfold Dev.uartRun
  rw [hrun, hqueue]
  simp [hawake, Uart.starts]

theorem uartRun_waits {d : Dev} {u : Nat} (h : d.awake = false ∨ (d.uart u).running ≠ none ∨ (d.uart u).queue = []) : d.uartRun u = d := by
  unfold Dev.uartRun
  split
  · next x rest hrun hqueue =>
    have hasleep : d.awake = false := h.resolve_right fun hbusy => hbusy.elim (fun hb => hb hrun) (fun hq => by simp [hqueue] at hq)
    simp [hasleep]
  · rfl

theorem uartCapture_idle {d : Dev} {u : Nat} (hrun : (d.uart u).running = none) : d.uartCaptureEnd u = d ∧ d.uartCaptureTimeout u = d := by
  constructor
  · unfold Dev.uartCaptureEnd; rw [hrun]
  · unfold Dev.uartCaptureTimeout; rw [hrun]

section Uart
variable {d : Dev} {u : Nat} {h : HeldProg} (hrun : (d.uart u).running = some h)
include hrun

theorem uartSent_running : d.uartSent u = (d.uart u).start.toNat + cdiv (leAt h.bytes 0 2 * d.cfg.uartBits u * 1000000000) (d.cfg.uartBaud u) := by
  unfold Dev.uartSent
  rw [hrun]
  rfl

/-- The device with the UART freed and the result of its program written. -/
theorem uartEnd_running (f : Option Fail) : d.uartEnd u f =
    let e := (d.modUart u Uart.freed).deviceWrite h.party (d.partyPart h.party) (h.addr + 48)
      (leBytes 8 ((match f with | some e => e.status.toNat | none => 0) + 256 * (d.uart u).captured.length + 2 ^ 63) ++ leBytes 8 d.time.toNat)
    match f with
    | some x => e.failRec h.party (unitHub 0x0F u) x
    | none => e := by
  unfold Dev.uartEnd
  rw [hrun]
  rfl

theorem uartCaptureEnd_open (hopen : captureFull h.bytes (d.uart u).captured = false ∨ d.time.toNat < d.uartSent u) : d.uartCaptureEnd u = d := by
  unfold Dev.uartCaptureEnd
  rw [hrun]
  refine if_neg ?_
  rcases hopen with hfull | hsends
  · simp [hfull]
  · simp [hsends]

theorem uartCaptureEnd_full (hfull : captureFull h.bytes (d.uart u).captured = true) (hsent : d.uartSent u ≤ d.time.toNat) :
    d.uartCaptureEnd u = d.uartEnd u (if (d.uart u).capErr then some uartBad else none) := by
  unfold Dev.uartCaptureEnd
  rw [hrun]
  exact if_pos (by simp [hfull, hsent])

theorem uartCaptureTimeout_waits (hwaits : captureFull h.bytes (d.uart u).captured = true ∨ d.time.toNat < d.uartSent u + 1000 * leAt h.bytes 8 4) :
    d.uartCaptureTimeout u = d := by
  unfold Dev.uartCaptureTimeout
  rw [hrun]
  refine if_pos ?_
  rcases hwaits with hfull | hearly
  · simp [hfull]
  · simp [Dev.uartExpired, hearly]

theorem uartCaptureTimeout_ends (hfull : captureFull h.bytes (d.uart u).captured = false) (hlate : d.uartSent u + 1000 * leAt h.bytes 8 4 ≤ d.time.toNat) :
    d.uartCaptureTimeout u = d.uartEnd u (some (if (d.uart u).capErr then uartBad else { status := 0x11, code := 0xFE })) := by
  unfold Dev.uartCaptureTimeout
  rw [hrun]
  exact if_neg (by simp [Dev.uartExpired, hfull, hlate])

end Uart

/-! ## Received bytes -/

theorem uartByte_off {d : Dev} {u : Nat} (hoff : d.awake = false ∨ 4 ≤ u) (byte : B8) (err : Bool) : d.uartByte u byte err = d := by
  refine if_pos ?_
  rcases hoff with h | h
  · simp [h]
  · simp [h]

section Byte
variable {d : Dev} {u : Nat} (hawake : d.awake = true) (hu : u < 4)
include hawake hu

/-- No capture is open: no program runs, or its capture is full, or it still sends, or its time is over. -/
theorem uartByte_drops (hclosed : (d.uart u).running = none ∨ ∃ h, (d.uart u).running = some h ∧ (captureFull h.bytes (d.uart u).captured = true ∨
      d.time.toNat < d.uartSent u ∨ d.uartSent u + 1000 * leAt h.bytes 8 4 ≤ d.time.toNat)) (byte : B8) (err : Bool) :
    d.uartByte u byte err = d.modUart u (fun v => (v.receives err).drops) := by
  have hlost : ((if err then d.modUart u (fun v => { v with rxErr := true, rxErrCnt := satInc v.rxErrCnt }) else d).modUart u Uart.drops) =
      d.modUart u (fun v => (v.receives err).drops) := by
    cases err with
    | false => rfl
    | true => exact d.modUart_modUart u (fun v => v.receives true) Uart.drops
  refine (if_neg (by simp [hawake, hu])).trans ?_
  rcases hclosed with hrun | ⟨h, hrun, hclosed⟩
  · rw [hrun]
    exact hlost
  · rw [hrun]
    refine (if_pos ?_).trans hlost
    rcases hclosed with hfull | hsends | hlate
    · simp [hfull]
    · simp [hsends]
    · simp [Dev.uartExpired, hlate]

/-- A capture is open: the byte is stored behind those before it. -/
theorem uartByte_captures {h : HeldProg} (hrun : (d.uart u).running = some h) (hfull : captureFull h.bytes (d.uart u).captured = false)
    (hsent : d.uartSent u ≤ d.time.toNat) (hearly : d.time.toNat < d.uartSent u + 1000 * leAt h.bytes 8 4) (byte : B8) (err : Bool) :
    d.uartByte u byte err = ((d.modUart u (fun v => v.receives err)).deviceWrite h.party (d.partyPart h.party) (uartRecv h.bytes + (d.uart u).captured.length) [byte]).modUart u
      (fun v => v.captures byte err) := by
  refine (if_neg (by simp [hawake, hu])).trans ?_
  rw [hrun]
  refine (if_neg (by simp [Dev.uartExpired, hfull, hsent, hearly])).trans ?_
  cases err with
  | true => rfl
  | false => exact (deviceWrite_modUart d u (fun v => v) _ _ _ _ _).symm

end Byte

/-! ## The rows -/

/-- Settles O59: a pulse program ends or goes on by its travel (`pulseDone_ends`, `pulseDone_moves`), which never leaves a segment that holds
(`travel_leg_lt_of_hold`), or at a limit input (`limitInput_ends`); a UART runs and ends by `uartRun_starts` and `uartEnd_running`, and a received
byte is stored whatever its UART counts (`deviceWrite_modUart`). -/
theorem pulseAndUartProgramsEnd : Obligations.PulseAndUartProgramsEnd := by
  unfold Obligations.PulseAndUartProgramsEnd
  refine ⟨fun s n => ?pulse, fun s u => ?uart⟩
  case pulse =>
    refine ⟨fun hrun => next_withDev s (pulseDone_idle hrun), fun h hrun => ⟨fun hgoes => ?goes, fun hleg => ?ends⟩,
      fun pin hchannel => ⟨fun hno => next_withDev s (limitInput_ignored hchannel hno), fun h hrun hawake hsection hpin hlimit hforward => ?limit⟩⟩
    case goes => exact next_withDev s (pulseDone_moves hrun (hgoes.elim (pulseTravel_holds hrun) id))
    case ends => exact next_withDev s ((pulseDone_ends hrun hleg).trans (pulseEnd_running hrun _ _ _))
    case limit =>
      have hends := limitInput_ends hchannel hrun hawake hsection hpin hlimit hforward
      rw [pulseEnd_running hrun] at hends
      refine ⟨fun howner => next_withDev s ?_, fun o howner => next_withDev s ?_⟩ <;> rw [howner] at hends <;> exact hends
  case uart =>
    refine ⟨fun h rest hawake hrun hqueue => next_withDev s (uartRun_starts hawake hrun hqueue), fun hwaits => next_withDev s (uartRun_waits hwaits),
      fun hrun => ⟨next_withDev s (uartCapture_idle hrun).1, next_withDev s (uartCapture_idle hrun).2⟩,
      fun h hrun => ⟨uartSent_running hrun, fun hfull => ?full, fun hfull => ?short⟩,
      fun b err hoff => next_withDev s (uartByte_off hoff b err), fun b err hawake hu => ⟨fun hclosed => ?drops, fun h hrun hfull hsent hearly => ?captures⟩⟩
    case full =>
      refine ⟨next_withDev s (uartCaptureTimeout_waits hrun (.inl hfull)), fun hsends => next_withDev s (uartCaptureEnd_open hrun (.inr hsends)),
        fun hsent => next_withDev s ((uartCaptureEnd_full hrun hfull hsent).trans ?_)⟩
      cases (s.dev.uart u).capErr <;> exact uartEnd_running hrun _
    case short =>
      refine ⟨next_withDev s (uartCaptureEnd_open hrun (.inl hfull)), fun hearly => next_withDev s (uartCaptureTimeout_waits hrun (.inr hearly)),
        fun hlate => next_withDev s ((uartCaptureTimeout_ends hrun hfull hlate).trans ?_)⟩
      cases (s.dev.uart u).capErr <;> exact uartEnd_running hrun _
    case drops =>
      refine next_withDev s ((uartByte_drops hawake hu hclosed b err).trans ?_)
      cases err <;> rfl
    case captures =>
      exact next_withDev s (uartByte_captures hawake hu hrun hfull hsent hearly b err)

end Sys2Proof.Machine

/-! PROOFS. What every command leaves of the fuses and the flash (R412, R418): versions and revocation bits only rise, and the invariant holds on. -/
namespace Sys2Proof.Machine
open Sys2Proof

/-! ## How the non-volatile state may change -/

theorem Fuses.rises_refl (f : Fuses) : f.rises f := ⟨le_rfl, le_rfl, BitVec.and_self, rfl⟩

theorem Fuses.rises.trans {f g h : Fuses} (hfg : f.rises g) (hgh : g.rises h) : f.rises h := by
  obtain ⟨hbci, hfw, hrev, hrest⟩ := hfg
  obtain ⟨hbci', hfw', hrev', hrest'⟩ := hgh
  refine ⟨hbci.trans hbci', hfw.trans hfw', ?_, ?_⟩
  · calc f.revoked &&& h.revoked = f.revoked &&& (g.revoked &&& h.revoked) := by rw [← BitVec.and_assoc, hrev]
      _ = f.revoked := by rw [hrev', hrev]
  · rw [hrest', hrest]

/-- What a step may make of the fuses and the flash: the fuses rise at most, and the invariant is kept. -/
def NonVol.Evolves (v w : NonVol) : Prop := v.fuses.rises w.fuses ∧ (v.Inv → w.Inv)

theorem NonVol.evolves_refl (v : NonVol) : v.Evolves v := ⟨v.fuses.rises_refl, id⟩

theorem NonVol.Evolves.trans {u v w : NonVol} (huv : u.Evolves v) (hvw : v.Evolves w) : u.Evolves w :=
  ⟨huv.1.trans hvw.1, hvw.2 ∘ huv.2⟩

theorem NonVol.evolves_of_eq {v w : NonVol} (h : w = v) : v.Evolves w := h ▸ v.evolves_refl

/-- A new flash evolves where it is as canonical as the old one. -/
theorem NonVol.evolves_flash (v : NonVol) {f : Flash} (h : v.flash.bytes.wf → f.bytes.wf) : v.Evolves { v with flash := f } :=
  ⟨v.fuses.rises_refl, fun hv => ⟨h hv.1, hv.2⟩⟩

/-- New fuses evolve where they rise and keep the bound of the BCI minimum version. -/
theorem NonVol.evolves_fuses (v : NonVol) {f : Fuses} (hrises : v.fuses.rises f) (hmin : v.fuses.bciMin ≤ 64 → f.bciMin ≤ 64) :
    v.Evolves { v with fuses := f } :=
  ⟨hrises, fun hv => ⟨hv.1, hmin hv.2⟩⟩

/-- A choice between two effects. -/
theorem NonVol.Evolves.ite {v : NonVol} {c : Prop} [Decidable c] {s t : State} (hs : v.Evolves s.nv) (ht : v.Evolves t.nv) :
    v.Evolves (if c then s else t).nv := by
  split
  · exact hs
  · exact ht

theorem NonVol.Evolves.withDev {v : NonVol} {s : State} (h : v.Evolves s.nv) {d : Dev} : v.Evolves (s.withDev d).nv := h

/-! ## The boot ROM -/

theorem Fuses.commit_rises (f : Fuses) (m : Memory) : f.rises (f.commit m) := by
  unfold Fuses.commit; dsimp only
  split
  · refine ⟨le_max_left _ _, le_rfl, ?_, rfl⟩
    ext i
    simp +contextual
  · exact f.rises_refl

theorem Fuses.commit_bciMin {f : Fuses} (h : f.bciMin ≤ 64) (m : Memory) : (f.commit m).bciMin ≤ 64 := by
  unfold Fuses.commit; dsimp only
  split
  · exact max_le h (min_le_right _ _)
  · exact h

theorem Flash.stepEpoch_bytes (f : Flash) : f.stepEpoch.bytes = f.bytes := by
  unfold Flash.stepEpoch; repeat' split
  all_goals rfl

theorem NonVol.booted_evolves (v : NonVol) (pon : Bool) : v.Evolves (v.booted pon) := by
  have hflash : (v.booted pon).flash.bytes = v.flash.bytes := by
    cases pon
    · rfl
    · exact v.flash.stepEpoch_bytes
  have hfuses : v.fuses.rises (v.booted pon).fuses ∧ (v.fuses.bciMin ≤ 64 → (v.booted pon).fuses.bciMin ≤ 64) := by
    unfold NonVol.booted; dsimp only
    split
    · exact ⟨v.fuses.commit_rises _, fun h => Fuses.commit_bciMin h _⟩
    · exact ⟨v.fuses.rises_refl, id⟩
  exact ⟨hfuses.1, fun hv => ⟨hflash ▸ hv.1, hfuses.2 hv.2⟩⟩

theorem bootRom_evolves (v : NonVol) (d : Dev) (pon rngOk : Bool) (pending : Option (List B8)) : v.Evolves (bootRom v d pon rngOk pending).1 := by
  cases rngOk
  · exact v.evolves_refl
  · exact v.booted_evolves pon

/-! ## Boot

From here on, of each operation of the model that answers a state: what evolved into the state before it has evolved into the state after it. -/

theorem State.powerOn_evolves {v : NonVol} {s : State} (h : v.Evolves s.nv) (cells : List Host.Cell) (a b : Option W32) (w addr ok : Bool) :
    v.Evolves (s.powerOn cells a b w addr ok).nv :=
  (h.trans (s.nv.evolves_flash fun hwf => Memory.overlay_wf hwf cells)).trans (bootRom_evolves _ _ true ok none)

theorem State.resetL_evolves {v : NonVol} {s : State} (h : v.Evolves s.nv) (ok : Bool) : v.Evolves (s.resetL ok).nv := by
  unfold State.resetL; dsimp only
  split
  · exact h
  · exact h.trans (bootRom_evolves _ _ _ _ _)

theorem State.trained_evolves {v : NonVol} {s : State} (h : v.Evolves s.nv) (cap rate ranks density : Nat) (fail : Option (Nat × Bool)) :
    v.Evolves (s.trained cap rate ranks density fail).nv := by
  have hcache (c : Bool) (key : W32) : v.Evolves { s.nv with flash := if c then s.nv.flash else { s.nv.flash with cacheRate := some key } } :=
    h.trans (s.nv.evolves_flash fun hwf => by split <;> exact hwf)
  unfold State.trained; dsimp only
  refine .ite h ?_
  split
  · exact h
  · exact h
  · exact .ite h (hcache _ _)

theorem State.bootLock_evolves {v : NonVol} {s : State} (h : v.Evolves s.nv) : v.Evolves s.bootLock.nv := by
  unfold State.bootLock; dsimp only
  exact .ite h h

/-! ## Staging, firmware update and the management tick -/

/-- A slot of the flash that is cleared and written again. -/
theorem NonVol.evolves_rewrite (v : NonVol) (a n : Nat) (l : List B8) :
    v.Evolves { v with flash := { v.flash with bytes := (v.flash.bytes.clear a n).write a l } } :=
  v.evolves_flash fun h => Memory.write_wf (Memory.clear_wf h _ _) _ _

theorem State.putSlot_evolves {v : NonVol} {s : State} (h : v.Evolves s.nv) (l : List B8) : v.Evolves (s.putSlot l).nv :=
  h.trans (s.nv.evolves_rewrite _ _ _)

theorem State.putSpare_evolves {v : NonVol} {s : State} (h : v.Evolves s.nv) (l : List B8) : v.Evolves (s.putSpare l).nv :=
  h.trans (s.nv.evolves_rewrite _ _ _)

theorem State.stageStart_evolves {v : NonVol} {s : State} (h : v.Evolves s.nv) (len : Nat) (host : List Host.Cell) : v.Evolves (s.stageStart len host).nv := by
  unfold State.stageStart; dsimp only
  refine .ite h ?_
  split
  · exact h
  · exact State.putSlot_evolves h _

theorem State.stageEnd_evolves {v : NonVol} {s : State} (h : v.Evolves s.nv) (left : Nat) : v.Evolves (s.stageEnd left).nv := by
  unfold State.stageEnd; dsimp only
  exact .ite h (.ite h (.ite h (State.putSlot_evolves h _)))

theorem State.fwGo_evolves {v : NonVol} {s : State} (h : v.Evolves s.nv) (a : W64) (host : List Host.Cell) : v.Evolves (s.fwGo a host).nv := by
  unfold State.fwGo; dsimp only
  refine .ite h (.ite h ?_)
  split
  · exact h
  · exact State.putSpare_evolves h _

theorem State.fwReady_evolves {v : NonVol} {s : State} (h : v.Evolves s.nv) : v.Evolves s.fwReady.nv := by
  unfold State.fwReady; dsimp only
  exact .ite h (.ite h (State.putSpare_evolves h _))

theorem State.handoffDone_evolves {v : NonVol} {s : State} (h : v.Evolves s.nv) : v.Evolves s.handoffDone.nv := by
  refine h.trans (s.nv.evolves_fuses ?_ fun hmin => ?_)
  · split
    · exact ⟨le_rfl, le_max_left _ _, BitVec.and_self, rfl⟩
    · exact s.nv.fuses.rises_refl
  · split <;> exact hmin

theorem State.tick_evolves {v : NonVol} {s : State} (h : v.Evolves s.nv) (env : TickEnv) : v.Evolves (s.tick env).nv := by
  have staged (e : Dev) : v.Evolves (State.stageEnd { s with dev := e } env.flashLeft).nv := State.stageEnd_evolves h.withDev _
  unfold State.tick; dsimp only
  exact .ite h (.ite h (.ite (staged _) (staged _)))

/-! ## Register writes -/

theorem State.attRequest_evolves {v : NonVol} {s : State} (h : v.Evolves s.nv) (party : Nat) (w : W64) : v.Evolves (s.attRequest party w).nv := by
  unfold State.attRequest; dsimp only; split <;> exact h

theorem State.writeTwEmulated_evolves {v : NonVol} {s : State} (h : v.Evolves s.nv) (t off : Nat) (w : W64) (host : List Host.Cell) :
    v.Evolves (s.writeTwEmulated t off w host).nv := by
  unfold State.writeTwEmulated; dsimp only
  exact .ite h <| .ite h <| .ite h <| .ite h <| .ite h <| .ite (.ite h h) <| .ite (State.attRequest_evolves h t w) h

theorem State.resetRequest_evolves {v : NonVol} {s : State} (h : v.Evolves s.nv) (a : W64) : v.Evolves (s.resetRequest a).nv := by
  unfold State.resetRequest; dsimp only
  refine .ite h ?_
  split
  · exact State.resetL_evolves h.withDev true
  all_goals exact h

theorem State.stageWrite_evolves {v : NonVol} {s : State} (h : v.Evolves s.nv) (a : W64) (host : List Host.Cell) : v.Evolves (s.stageWrite a host).nv := by
  unfold State.stageWrite
  exact .ite h (.ite h (State.stageStart_evolves h.withDev _ _))

theorem State.writeMgEmulated_evolves {v : NonVol} {s : State} (h : v.Evolves s.nv) (off : Nat) (w : W64) (host : List Host.Cell) :
    v.Evolves (s.writeMgEmulated off w host).nv := by
  unfold State.writeMgEmulated; dsimp only
  exact .ite h <| .ite h <| .ite h <| .ite h <| .ite h <| .ite h <| .ite (.ite h h) <| .ite (State.attRequest_evolves h mgmtParty w) <|
    .ite (State.resetRequest_evolves h w) <| .ite h <| .ite (State.stageWrite_evolves h w host) h

theorem State.debugUnlock_evolves {v : NonVol} {s : State} (h : v.Evolves s.nv) (host : List Host.Cell) : v.Evolves (s.debugUnlock host).nv := by
  unfold State.debugUnlock; dsimp only
  exact .ite h (.ite h h)

theorem State.writeDbg_evolves {v : NonVol} {s : State} (h : v.Evolves s.nv) (a : W64) (host : List Host.Cell) : v.Evolves (s.writeDbg a host).nv := by
  have hgo : v.Evolves (if a.getLsbD 0 then s.debugUnlock host else s).nv := .ite (State.debugUnlock_evolves h host) h
  unfold State.writeDbg; dsimp only
  exact .ite hgo hgo

theorem State.writeUpd_evolves {v : NonVol} {s : State} (h : v.Evolves s.nv) (a : W64) (host : List Host.Cell) : v.Evolves (s.writeUpd a host).nv := by
  have hgo : v.Evolves (if a.getLsbD 63 then s.fwGo a host else s).nv := .ite (State.fwGo_evolves h a host) h
  unfold State.writeUpd; dsimp only
  exact .ite hgo hgo

theorem State.writeSec_evolves {v : NonVol} {s : State} (h : v.Evolves s.nv) (o : Nat) (w a : W64) (host : List Host.Cell) :
    v.Evolves (s.writeSec o w a host).1.nv := by
  simp only [State.writeSec, apply_ite Prod.fst]
  exact .ite h <| .ite (.ite h h) <| .ite (State.writeDbg_evolves h a host) <| .ite h <| .ite h h

theorem State.writeFw_evolves {v : NonVol} {s : State} (h : v.Evolves s.nv) (o : Nat) (w a : W64) (host : List Host.Cell) :
    v.Evolves (s.writeFw o w a host).1.nv := by
  unfold State.writeFw; dsimp only
  split
  · split <;> exact h
  split
  · exact State.writeUpd_evolves h a host
  · split <;> exact h

/-- A write that is ignored is recorded, and the record touches the device alone. -/
theorem recorded_evolves {v : NonVol} {r : State × B8} {e : Dev} (h : v.Evolves r.1.nv) : v.Evolves (if r.2 = 0 then r.1 else { r.1 with dev := e }).nv :=
  .ite h h

theorem State.writeMgHardware_evolves {v : NonVol} {s : State} (h : v.Evolves s.nv) (off : Nat) (w a : W64) (host : List Host.Cell) :
    v.Evolves (s.writeMgHardware off w a host).nv := by
  unfold State.writeMgHardware; dsimp only
  apply recorded_evolves
  split
  case h_11 => exact State.writeSec_evolves h _ _ _ _
  case h_12 => exact State.writeFw_evolves h _ _ _ _
  case h_16 =>
    simp only [apply_ite Prod.fst, apply_ite State.nv, ite_self]
    exact h
  all_goals exact h

theorem State.act_evolves {v : NonVol} {s : State} (h : v.Evolves s.nv) (party off : Nat) (w : W64) (width : Nat) (host : List Host.Cell) :
    v.Evolves (s.act party off w width host).nv := by
  unfold State.act; dsimp only
  refine .ite h (.ite h ?_)
  split
  · exact h
  · exact .ite (.ite (State.writeTwEmulated_evolves h _ _ _ _) h) (.ite (State.writeMgEmulated_evolves h _ _ _) (State.writeMgHardware_evolves h _ _ _ _))

theorem State.write_evolves {v : NonVol} {s : State} (h : v.Evolves s.nv) (party off : Nat) (w : W64) (width : Nat) (host : List Host.Cell) :
    v.Evolves (s.write party off w width host).nv := by
  unfold State.write; dsimp only
  exact .ite h <| .ite h <| .ite h <| .ite h <| .ite h <| State.act_evolves h party off w width host

/-! ## Held writes, restarts and Dawn -/

theorem State.replay_evolves {v : NonVol} {s : State} (h : v.Evolves s.nv) (party fuel : Nat) : v.Evolves (s.replay party fuel).nv := by
  induction fuel generalizing s with
  | zero => exact h
  | succ fuel ih =>
    unfold State.replay
    refine .ite h ?_
    split
    · exact h
    · exact ih (State.act_evolves h.withDev _ _ _ _ _)

theorem State.replayAll_evolves {v : NonVol} {s : State} (h : v.Evolves s.nv) (l : List Nat) : v.Evolves (s.replayAll l).nv :=
  foldl_keeps (P := fun t : State => v.Evolves t.nv) (fun _ p ht => State.replay_evolves ht p 256) l h

theorem State.restartDone_evolves {v : NonVol} {s : State} (h : v.Evolves s.nv) (k : Nat) : v.Evolves (s.restartDone k).nv := by
  have replayed (e : Dev) (l : List Nat) : v.Evolves (State.replayAll { s with dev := e } l).nv := State.replayAll_evolves h.withDev l
  unfold State.restartDone; dsimp only
  exact .ite h (.ite (replayed _ _) (replayed _ _))

theorem State.releaseHold_evolves {v : NonVol} {s : State} (h : v.Evolves s.nv) : v.Evolves s.releaseHold.nv := by
  unfold State.releaseHold; dsimp only
  exact State.replayAll_evolves h.withDev _

theorem State.rollback_evolves {v : NonVol} {s : State} (h : v.Evolves s.nv) : v.Evolves s.rollback.nv := .ite (State.releaseHold_evolves h.withDev) h

theorem State.coreFails_evolves {v : NonVol} {s : State} (h : v.Evolves s.nv) (k cause : Nat) : v.Evolves (s.coreFails k cause).nv :=
  .ite h <| .ite (State.rollback_evolves h) <| .ite h h

theorem State.dawnRow_evolves {v : NonVol} {s : State} (h : v.Evolves s.nv) (ok : Bool) (env : TickEnv) : v.Evolves (s.dawnRow ok env).nv := by
  unfold State.dawnRow; dsimp only
  refine .ite h <| .ite (State.resetL_evolves h true) (State.replayAll_evolves ?_ _)
  exact h

theorem State.smbBlock_evolves {v : NonVol} {s : State} (h : v.Evolves s.nv) (command : Nat) (data : List B8) : v.Evolves (s.smbBlock command data).nv :=
  .ite h h

theorem State.attCertificates_evolves {v : NonVol} {s : State} (h : v.Evolves s.nv) (party : Nat) : v.Evolves (s.attCertificates party).nv := by
  unfold State.attCertificates; dsimp only; split <;> exact h

/-! ## Every command and every step -/

/-- The arms not named act on the device alone. -/
theorem exec_evolves (i : Instr) (s : State) : ∃ t, exec i s = .next t ∧ s.nv.Evolves t.nv := by
  have h : s.nv.Evolves s.nv := s.nv.evolves_refl
  cases i with
  | powerOn cells a b w addr ok => exact ⟨_, rfl, State.powerOn_evolves h cells a b w addr ok⟩
  | resetL ok => exact ⟨_, rfl, State.resetL_evolves h ok⟩
  | islandWatchdog => exact ⟨_, rfl, State.resetL_evolves h true⟩
  | avsSetpointTimeout die => exact ⟨_, rfl, .ite (State.resetL_evolves h true) h⟩
  | railFault aon => exact ⟨_, rfl, .ite (State.powerOn_evolves h ..) (State.resetL_evolves h true)⟩
  | vfFlr =>
    refine ⟨_, rfl, ?_⟩
    split
    · exact .ite h h
    · exact h
  | nvmeSmartRead | thermtrip | rngHealthFail | nvmeTrainingTimeout => exact ⟨_, rfl, .ite h h⟩
  | memoryTrainingComplete cap rate ranks density fail => exact ⟨_, rfl, State.trained_evolves h ..⟩
  | bootLock => exact ⟨_, rfl, State.bootLock_evolves h⟩
  | managementTick env => exact ⟨_, rfl, State.tick_evolves h env⟩
  | attCertificates party => exact ⟨_, rfl, State.attCertificates_evolves h party⟩
  | fwImageReady => exact ⟨_, rfl, State.fwReady_evolves h⟩
  | handoffAck => exact ⟨_, rfl, .ite (State.releaseHold_evolves (State.handoffDone_evolves h)) h⟩
  | handoffRollback => exact ⟨_, rfl, .ite (State.rollback_evolves h) h⟩
  | watchdogExpiry core | ccCodeEccError core => exact ⟨_, rfl, State.coreFails_evolves h core _⟩
  | ccRestartComplete core => exact ⟨_, rfl, State.restartDone_evolves h core⟩
  | dawn e => exact ⟨_, rfl, State.dawnRow_evolves h e.ok e.env⟩
  | smbReadBootStatus | smbReadState | smbReadPower | smbReadWake | smbReadSecStatus | smbReadTemperatures =>
    exact ⟨_, rfl, State.smbBlock_evolves h ..⟩
  | registerWrite | mgSubmitCtl | complRingEnable | complHeadWrite | errRingEnable | stageImage | resetDevice | resetPartition | resetTenant
  | resetControlCore | debugUnlock | debugCancel | mrExtend | fwUpdateGo | fwUpdateAbort | enterDusk | enterNight =>
    exact ⟨_, rfl, State.write_evolves h ..⟩
  | twSubmitCtl | eventCntClear | trackPreset | counterEventSelect | counterClear | twPmcSelect =>
    exact ⟨_, rfl, .ite (State.write_evolves h ..) h⟩
  | eventFlagClear => exact ⟨_, rfl, .ite (.ite (State.write_evolves h ..) (State.write_evolves h ..)) h⟩
  | triggerDisarm | triggerCountClear => exact ⟨_, rfl, .ite h (State.write_evolves h ..)⟩
  | triggerArm party k value half =>
    refine ⟨_, rfl, .ite h ?_⟩
    cases half <;> exact State.write_evolves h ..
  | _ => exact ⟨_, rfl, h⟩

theorem step_evolves {s t : State} (h : step s = .next t) : s.nv.Evolves t.nv := by
  unfold step at h
  split at h
  case h_1 =>
    cases h
    exact s.nv.evolves_refl
  case h_2 c rest _ =>
    obtain ⟨u, hexec, hu⟩ := exec_evolves c { s with pending := rest }
    cases hexec.symm.trans h
    exact hu

/-- Settles O9: what a step may make of the non-volatile state is `step_evolves`, which has the fuses rise at most. -/
theorem fusesOnlyRise : Obligations.FusesOnlyRise := fun _ _ h => (step_evolves h).1

/-- Settles O10: what a step may make of the non-volatile state is `step_evolves`, which keeps the invariant. -/
theorem nonVolatileInvariantKept : Obligations.NonVolatileInvariantKept := fun _ _ hinv h => (step_evolves h).2 hinv

end Sys2Proof.Machine

/-! PROOFS. The security block (spec/13_security_and_tenancy.md): the state after reset, debug unlock and measurement extension, and what the
mailbox's requests make of the attestation registers of the windows. -/
namespace Sys2Proof.Machine
open Sys2Proof

/-! ## The state after reset -/

/-- Settles O11: every table of the reset state is empty, so each entry of one reads as the default that its type names. -/
theorem resetMeetsTheInvariantAndTheResetValues : Obligations.ResetMeetsTheInvariantAndTheResetValues := by
  unfold Obligations.ResetMeetsTheInvariantAndTheResetValues
  have hinv : State.reset.nv.Inv := ⟨Memory.wf_nil, Nat.zero_le 64⟩
  have hring (n : Nat) : (State.reset.dev.ten n).compl.log2 = 6 ∧ (State.reset.dev.ten n).err.log2 = 6 ∧ (State.reset.dev.ten n).snapRing.log2 = 6 ∧
      (State.reset.dev.ten n).snapRing.log2Slot = 12 ∧ (State.reset.dev.ten n).compl.enable = false ∧ (State.reset.dev.ten n).compl.phase = true :=
    ⟨rfl, rfl, rfl, rfl, rfl, rfl⟩
  have hprogress (n k : Nat) : ((State.reset.dev.ten n).progress.get k {}).kind = 2 ∧ ((State.reset.dev.ten n).progress.get k {}).value = 0 := ⟨rfl, rfl⟩
  have hduty (p : Nat) : (State.reset.dev.part p).duty = 8 := rfl
  refine ⟨hinv, rfl, rfl, rfl, rfl, rfl, rfl, rfl, rfl, rfl, rfl, hring, rfl, rfl, rfl, rfl, rfl, hprogress, ?_⟩
  exact ⟨rfl, rfl, rfl, rfl, rfl, rfl, rfl, rfl, rfl, rfl, hduty, rfl, rfl⟩

/-! ## Debug unlock, measurement extension and the entropy source -/

/-- A write of SEC_DBG_CTL that acts. -/
theorem State.write_secDbgCtl {s : State} (h : s.dev.Serves mgmtParty secDbgCtl) (a : W64) (host : List Host.Cell) :
    s.write mgmtParty secDbgCtl a 64 host = s.writeDbg a host := by
  rw [State.write_aligned h, State.act_whole h (by decide) (by decide), if_neg (by decide)]
  rfl

/-- A write of SEC_MR_EXT that acts. -/
theorem State.write_secMrExt {s : State} (h : s.dev.Serves mgmtParty secMrExt) (a : W64) (host : List Host.Cell) :
    s.write mgmtParty secMrExt a 64 host = s.withDev (s.dev.mrExtend a host) := by
  rw [State.write_aligned h, State.act_whole h (by decide) (by decide), if_neg (by decide)]
  rfl

/-- The go bit of SEC_MR_EXT is none of its index. -/
theorem fld_mrExt_index (v : W64) : fld (v ||| 0x8000000000000000#64) 0 4 = fld v 0 4 := by
  simp only [fld, BitVec.toNat_or, Nat.shiftRight_zero, Nat.or_mod_two_pow]
  exact Nat.or_zero _

/-- SEC_DBG_CTL.go with the link up: a fresh nonce, and the token pending or refused. -/
theorem State.debugUnlock_up {s : State} (hup : s.dev.hostUp = true) (host : List Host.Cell) :
    let tok := s.dev.hostRead s.dev.cfg.port host s.dev.sec.dbgAddr.toNat 192
    let d : Dev := { s.dev with draw := s.dev.draw + 1, sec := { s.dev.sec with nonce := Config.freeKey s.dev.draw } }
    s.debugUnlock host =
      if s.tokenRefused tok then s.withDev (d.regRec mgmtParty 0x03 0xAE 0 secDbgCtl) else s.withDev { d with sec := { d.sec with debugPending := some tok } } := by
  unfold State.debugUnlock
  rw [if_neg (by simp [hup])]
  rfl

/-- SEC_MR_EXT with go and the link up. -/
theorem Dev.mrExtend_go {d : Dev} (hup : d.hostUp = true) (v : W64) (host : List Host.Cell) :
    d.mrExtend (v ||| 0x8000000000000000#64) host =
      if fld v 0 4 < 8 then d.regRec mgmtParty 0x04 0 0 secMrExt
      else { d with sec := { d.sec with
        mrPend := d.sec.mrPend ++ [(fld v 0 4, BitVec.ofNat 384 (leNat (d.hostRead d.cfg.port host d.sec.mrExtAddr.toNat 48)))] } } := by
  have hgo : (v ||| 0x8000000000000000#64).getLsbD 63 = true := by simp
  simp only [Dev.mrExtend, fld_mrExt_index, hgo, hup, Bool.not_true, Bool.false_eq_true, if_false]

/-- Settles O23: the two registers' writes by `write_secDbgCtl` and `write_secMrExt`, and each by its condition. -/
theorem debugMeasurementAndEntropy : Obligations.DebugMeasurementAndEntropy := by
  unfold Obligations.DebugMeasurementAndEntropy
  refine ⟨fun s host hserves hup => ?unlock, fun s hserves => ?cancel, fun s v host hserves hup => ?extend, fun s hstage => ?entropy⟩
  case unlock =>
    have hrun : exec (.debugUnlock host) s = .next (s.debugUnlock host) := congrArg Host.Outcome.next (State.write_secDbgCtl hserves 1 host)
    rw [hrun, State.debugUnlock_up hup]
    refine ⟨fun hpass => by rw [if_neg (by simp [hpass])], fun hrefused => ⟨_, by rw [if_pos hrefused], rfl, ?_⟩⟩
    obtain ⟨ge, gr, hm, pm, heq⟩ := regRec_global { s.dev with draw := s.dev.draw + 1, sec := { s.dev.sec with nonce := Config.freeKey s.dev.draw } }
      0x03 0xAE 0 secDbgCtl
    exact congrArg Dev.sec heq
  case cancel => exact congrArg Host.Outcome.next (State.write_secDbgCtl hserves 2 [])
  case extend =>
    have hrun : exec (.mrExtend v host) s = .next (s.withDev (s.dev.mrExtend (v ||| 0x8000000000000000#64) host)) :=
      congrArg Host.Outcome.next (State.write_secMrExt hserves _ host)
    rw [hrun, Dev.mrExtend_go hup]
    exact ⟨fun hopen => by rw [if_neg (Nat.not_lt.mpr hopen)], fun hfixed => by rw [if_pos hfixed]⟩
  case entropy => exact congrArg Host.Outcome.next (if_neg hstage)

/-! ## The attestation registers of a window -/

/-- What the mailbox's requests act on in a tenant's window. -/
structure AttWindow where
  session : Option Session
  sessionNext : W32
  status : B8
  reportSeq : W32
  handoffSeen : Bool

def Tenant.att (v : Tenant) : AttWindow := ⟨v.session, v.sessionNext, v.attStatus, v.reportSeq, v.handoffSeen⟩

/-- The attestation registers of every tenant's window. -/
def Dev.atts (d : Dev) (n : Nat) : AttWindow := (d.ten n).att

theorem Dev.modTen_atts (d : Dev) (n : Nat) (f : Tenant → Tenant) : (d.modTen n f).atts = Function.update d.atts n (f (d.ten n)).att := by
  funext k
  by_cases hk : k = n
  · subst hk; rw [Dev.atts, Dev.modTen_ten, Function.update_self]
  · rw [Dev.atts, d.modTen_ten_other (Ne.symm hk), Function.update_of_ne hk]; rfl

/-- A change of a window beside its attestation registers. -/
theorem Dev.modTen_atts_kept (d : Dev) (n : Nat) {f : Tenant → Tenant} (hf : ∀ v, (f v).att = v.att) : (d.modTen n f).atts = d.atts := by
  rw [d.modTen_atts, hf]; exact Function.update_eq_self n d.atts

theorem atts_of_memOnly {d e : Dev} (h : d.memOnly e) : e.atts = d.atts := by
  obtain ⟨m, b, n, -, rfl⟩ := h; rfl

@[simp] theorem Dev.event_atts (d : Dev) (t k : Nat) : (d.event t k).atts = d.atts := d.modTen_atts_kept t fun _ => rfl
@[simp] theorem Dev.hostWrite_atts (d : Dev) (port a : Nat) (l : List B8) : (d.hostWrite port a l).atts = d.atts := rfl
@[simp] theorem Dev.logRec_atts (d : Dev) (core code tenant unit a b : Nat) : (d.logRec core code tenant unit a b).atts = d.atts := by
  rw [Dev.logRec_eq]; rfl

theorem Dev.tenantRec_atts (d : Dev) (p : Nat) (r : ErrRec) : (d.tenantRec p r).atts = d.atts := by
  unfold Dev.tenantRec
  extract_lets g _ b d1 d2
  have h1 : d1.atts = d.atts := atts_of_memOnly (d.deviceWrite_only _ _ _ _)
  have h2 : d2.atts = d1.atts := by simp only [d2, apply_ite Dev.atts, Dev.hostWrite_atts, ite_self]
  split
  · rfl
  · split
    · exact d.modTen_atts_kept p fun _ => rfl
    · refine (Dev.event_atts _ p 1).trans (Eq.trans ?_ (h2.trans h1))
      exact d2.modTen_atts_kept p fun _ => rfl

@[simp] theorem Dev.record_atts (d : Dev) (r : ErrRec) : (d.record r).atts = d.atts := by
  have hglobal (e : Dev) : (e.globalRec r).atts = e.atts := by
    obtain ⟨g, l, hm, pm, h⟩ := globalRec_global e r
    rw [h]; rfl
  have hcount (e : Dev) (unit who : Nat) : (e.countUnit unit who).atts = e.atts := by unfold Dev.countUnit; split <;> rfl
  rw [Dev.record, hcount, hglobal]
  split
  · exact d.tenantRec_atts _ r
  · rfl

/-! ## The end of a request, and the shared steps of serving one -/

theorem Dev.setAttStatus_atts (d : Dev) {n : Nat} (hn : n < 64) (st : B8) :
    (d.setAttStatus n st).atts = Function.update d.atts n { d.atts n with status := st } := by
  rw [Dev.setAttStatus, if_pos hn, d.modTen_atts]; rfl

theorem Dev.attEnd_atts (d : Dev) {n : Nat} (hn : n < 64) (st : B8) (code : Nat) :
    (d.attEnd n st code).atts = Function.update d.atts n { d.atts n with status := st } := by
  have hset : ((d.dropRequests n).setAttStatus n st).atts = Function.update d.atts n { d.atts n with status := st } :=
    (d.dropRequests n).setAttStatus_atts hn st
  unfold Dev.attEnd; dsimp only
  split
  · exact hset
  · exact (Dev.record_atts _ _).trans hset

/-- A request that ends with status 0x00 has left the mailbox, and nothing else of the security block changes. -/
theorem Dev.attEnd_ok_sec (d : Dev) (p code : Nat) :
    (d.attEnd p 0 code).sec = { d.sec with mailbox := d.sec.mailbox.filter (fun r => decide (r.party ≠ p)) } := by
  rw [Dev.attEnd, if_pos rfl, Dev.setAttStatus]
  split <;> rfl

theorem Dev.attEnd_ok_mem (d : Dev) (p code : Nat) : (d.attEnd p 0 code).mem = d.mem := by
  rw [Dev.attEnd, if_pos rfl, Dev.setAttStatus]
  split <;> rfl

theorem Dev.attEnd_ok_mailbox (d : Dev) (p code : Nat) : ∀ x ∈ (d.attEnd p 0 code).sec.mailbox, x.party ≠ p := by
  intro x hx
  rw [Dev.attEnd_ok_sec] at hx
  exact of_decide_eq_true (List.mem_filter.mp hx).2

/-- A request's buffer is read through the memory system. -/
theorem attRead_only (d : Dev) (r : AttReq) (host : List Host.Cell) (off n : Nat) : d.memOnly (d.attRead r host off n).1 := by
  unfold Dev.attRead
  split
  · exact d.readMem_only _ _ _
  · exact memOnly_refl d

/-- A request's buffer is written in memory or in host memory. -/
theorem Dev.attWrite_eq (d : Dev) (r : AttReq) (off : Nat) (l : List B8) :
    ∃ m b n hm, d.attWrite r off l = { d with mem := m, sec := { d.sec with treeFail := b, treeFailCnt := n }, hostMem := hm } := by
  unfold Dev.attWrite
  split
  · obtain ⟨m, b, n, -, heq⟩ := d.deviceWrite_only r.party (d.partyPart r.party) (r.addr + off) l
    exact ⟨m, b, n, d.hostMem, heq⟩
  · exact ⟨d.mem, d.sec.treeFail, d.sec.treeFailCnt, _, rfl⟩

@[simp] theorem Dev.attWrite_atts (d : Dev) (r : AttReq) (off : Nat) (l : List B8) : (d.attWrite r off l).atts = d.atts := by
  obtain ⟨m, b, n, hm, heq⟩ := d.attWrite_eq r off l
  rw [heq]; rfl

@[simp] theorem Dev.attWrite_mgmt (d : Dev) (r : AttReq) (off : Nat) (l : List B8) : (d.attWrite r off l).mgmt = d.mgmt := by
  obtain ⟨m, b, n, hm, heq⟩ := d.attWrite_eq r off l
  rw [heq]

@[simp] theorem Dev.attWrite_reports (d : Dev) (r : AttReq) (off : Nat) (l : List B8) : (d.attWrite r off l).sec.reports = d.sec.reports := by
  obtain ⟨m, b, n, hm, heq⟩ := d.attWrite_eq r off l
  rw [heq]

/-! ## Reports (R424, R425) -/

theorem Dev.report_reports (d : Dev) (p : Nat) (nonce : List B8) (bind : Option B384) : (d.report p nonce bind).1.sec.reports = d.sec.reports + 1 := by
  unfold Dev.report; dsimp only
  split <;> rfl

/-- A tenant's report steps its sequence and tells it of a handoff. -/
theorem Dev.report_atts (d : Dev) {n : Nat} (hn : n < 64) (nonce : List B8) (bind : Option B384) :
    (d.report n nonce bind).1.atts = Function.update d.atts n { d.atts n with reportSeq := (d.atts n).reportSeq + 1, handoffSeen := false } := by
  have hwindow : (d.report n nonce bind).1.atts = (d.modTen n (fun v => { v with reportSeq := (d.ten n).reportSeq + 1, handoffSeen := false })).atts := by
    simp only [Dev.report, if_pos hn]; rfl
  rw [hwindow, d.modTen_atts]; rfl

/-- A report of the management function. -/
theorem Dev.report_mgmt (d : Dev) (nonce : List B8) (bind : Option B384) :
    (d.report 64 nonce bind).1.mgmt = { d.mgmt with reportSeq := d.mgmt.reportSeq + 1, handoffSeen := false } := rfl

theorem attReport_reads {d d1 : Dev} {p : Nat} {host : List Host.Cell} {r : AttReq} {nonce : List B8} (hhead : d.attHead p 1 = some r)
    (hread : d.attRead r host 0 32 = (d1, .ok nonce)) :
    d.attReport p host = ((d1.report p nonce none).1.attWrite r 256 (d1.report p nonce none).2).attEnd p 0 0 := by
  simp only [Dev.attReport, hhead, hread]

theorem attReport_fails {d d1 : Dev} {p : Nat} {host : List Host.Cell} {r : AttReq} {e : Fail} (hhead : d.attHead p 1 = some r)
    (hread : d.attRead r host 0 32 = (d1, .error e)) : d.attReport p host = d1.attEnd p e.status e.code := by
  simp only [Dev.attReport, hhead, hread]

/-- What a report that is served leaves of a tenant's attestation registers. -/
theorem reported_atts {d d1 : Dev} (h : d.memOnly d1) {n : Nat} (hn : n < 64) (r : AttReq) (nonce : List B8) (l : List B8) :
    (((d1.report n nonce none).1.attWrite r 256 l).attEnd n 0 0).atts n =
      { d.atts n with reportSeq := (d.atts n).reportSeq + 1, handoffSeen := false, status := 0 } := by
  rw [Dev.attEnd_atts _ hn, Dev.attWrite_atts, Dev.report_atts _ hn, Function.update_self, Function.update_self, atts_of_memOnly h]

/-- Settles O21: a nonce that is read is answered as `attReport_reads` says, and the buffer's access changes none of the registers. -/
theorem attestationReportsAndCertificates : Obligations.AttestationReportsAndCertificates := by
  unfold Obligations.AttestationReportsAndCertificates
  refine ⟨fun s p host r hp hhead => ⟨fun d1 nonce hread => ?report, fun d1 e hread => next_withDev s (attReport_fails hhead hread)⟩,
    fun s p r hhead => ?certificates⟩
  case report =>
    have hmem : s.dev.memOnly d1 := by have h := attRead_only s.dev r host 0 32; rwa [hread] at h
    refine ⟨_, next_withDev s (attReport_reads hhead hread), rfl, rfl, Dev.attEnd_ok_mailbox _ p 0, ?_, fun hten => ?_, fun hmg => ?_⟩
    · have hreports : d1.sec.reports = s.dev.sec.reports := by obtain ⟨m, b, n, -, rfl⟩ := hmem; rfl
      simp only [Dev.attEnd_ok_sec, Dev.attWrite_reports, Dev.report_reports, hreports]
    · have hatts := reported_atts hmem hten r nonce (d1.report p nonce none).2
      exact ⟨congrArg AttWindow.reportSeq hatts, congrArg AttWindow.status hatts, congrArg AttWindow.handoffSeen hatts⟩
    · subst hmg
      have hmgmt : d1.mgmt = s.dev.mgmt := by obtain ⟨m, b, n, -, rfl⟩ := hmem; rfl
      have hend (e : Dev) : (e.attEnd 64 0 0).mgmt = { e.mgmt with attStatus := 0 } := rfl
      simp only [hend, Dev.attWrite_mgmt, Dev.report_mgmt, hmgmt, and_self]
  case certificates =>
    have hrun : exec (.attCertificates p) s = .next (s.attCertificates p) := rfl
    rw [hrun]
    simp only [State.attCertificates, hhead]
    exact ⟨_, rfl, rfl, rfl, Dev.attEnd_ok_mailbox _ p 0⟩

/-! ## Sessions (R427-R429) -/

theorem Dev.closeSession_atts (d : Dev) (n cause : Nat) : (d.closeSession n cause).atts = Function.update d.atts n { d.atts n with session := none } := by
  funext k
  by_cases hk : k = n
  · subst hk; rw [Dev.atts, Dev.closeSession_ten, Function.update_self]; rfl
  · rw [Dev.atts, d.closeSession_ten_other (Ne.symm hk), Function.update_of_ne hk]; rfl

theorem Dev.closeSession_mem (d : Dev) (n cause : Nat) : (d.closeSession n cause).mem = d.mem := by
  obtain ⟨ten, mg, qs, mb, heq⟩ := closeSession_link d n cause
  rw [heq]

theorem sessionClose_closes {d : Dev} {n : Nat} {r : AttReq} (hhead : d.attHead n 3 = some r) : d.sessionClose n = (d.closeSession n 0).attEnd n 0 0 := by
  simp only [Dev.sessionClose, hhead]

/-- The host's key is signed by the tenant's authentication key, or the tenant has none (R427). -/
def Cfg.signedKey (c : Cfg) (n : Nat) (b : List B8) : Prop :=
  c.authKeySlot n = 0xFF ∨ Config.ecdsaVerify (c.key (c.authKeySlot n)) (b.take 128) ((b.drop 128).take 96) = true

/-- The condition on which the model refuses the key. -/
theorem Cfg.not_signedKey_iff {c : Cfg} {n : Nat} {b : List B8} : ¬ c.signedKey n b ↔
    c.authKeySlot n ≠ 0xFF ∧ (!Config.ecdsaVerify (c.key (c.authKeySlot n)) (b.take 128) ((b.drop 128).take 96)) = true := by
  rw [Cfg.signedKey, not_or, Bool.not_eq_true, Bool.not_eq_true']

/-- The device with session `x` of tenant `n` in the place of the one before it. -/
def Dev.withSession (d : Dev) (n : Nat) (x : Session) : Dev :=
  ((d.closeSession n 1).modTen n (fun v => { v with session := some x, sessionNext := nextSid x.sid })).logRec (coreOf n) 0x8F n (unitHub 1 0) 0 x.sid.toNat

theorem Dev.withSession_atts (d : Dev) (n : Nat) (x : Session) :
    (d.withSession n x).atts = Function.update d.atts n { d.atts n with session := some x, sessionNext := nextSid x.sid } := by
  have hten : (d.closeSession n 1).ten n = { d.ten n with session := none } := d.closeSession_ten n 1
  rw [Dev.withSession, Dev.logRec_atts, Dev.modTen_atts, Dev.closeSession_atts, Function.update_idem, hten]
  rfl

section Open
variable {d d1 : Dev} {n : Nat} {r : AttReq} {b : List B8} (hhead : d.attHead n 2 = some r) (hread : d.attRead r [] 0 224 = (d1, .ok b))

include hhead hread

theorem sessionOpen_offCurve (hcurve : Config.onCurve (b.take 96) = false) : d.sessionOpen n = d1.attEnd n 0x04 0xAC := by
  simp only [Dev.sessionOpen, hhead, hread, hcurve, Bool.not_false, if_true]

theorem sessionOpen_unsigned (hcurve : Config.onCurve (b.take 96) = true) (hsigned : ¬ d1.cfg.signedKey n b) : d.sessionOpen n = d1.attEnd n 0x03 0xAD := by
  simp only [Dev.sessionOpen, hhead, hread, hcurve, Bool.not_true, Bool.false_eq_true, if_false, if_pos (Cfg.not_signedKey_iff.mp hsigned)]

theorem sessionOpen_noEntropy (hcurve : Config.onCurve (b.take 96) = true) (hsigned : d1.cfg.signedKey n b) (hrng : d1.sec.rngFail = true) :
    d.sessionOpen n = d1.drawn.attEnd n 0x01 (Config.freeByte d1.draw).toNat := by
  simp only [Dev.sessionOpen, hhead, hread, hcurve, Bool.not_true, Bool.false_eq_true, if_false, if_neg (fun h => Cfg.not_signedKey_iff.mpr h hsigned), hrng, if_true]

/-- A key that passes, with a healthy entropy source: the session is put in place, reported and its answer written. -/
theorem sessionOpen_opens (hcurve : Config.onCurve (b.take 96) = true) (hsigned : d1.cfg.signedKey n b) (hrng : d1.sec.rngFail = false) :
    ∃ x nonce h l, x.sid = (d1.ten n).sessionNext ∧
      d.sessionOpen n = (((d1.drawn.drawn.withSession n x).report n nonce (some h)).1.attWrite r 256 l).attEnd n 0 0 := by
  simp only [Dev.sessionOpen, hhead, hread, hcurve, Bool.not_true, Bool.false_eq_true, if_false, if_neg (fun h => Cfg.not_signedKey_iff.mpr h hsigned), hrng]
  exact ⟨_, _, _, _, rfl, rfl⟩

/-- What a session that opens leaves of every tenant's attestation registers. -/
theorem sessionOpen_opens_atts (hn : n < 64) (hcurve : Config.onCurve (b.take 96) = true) (hsigned : d1.cfg.signedKey n b) (hrng : d1.sec.rngFail = false) :
    ∃ x, x.sid = (d1.atts n).sessionNext ∧
      (d.sessionOpen n).atts = Function.update d1.atts n ⟨some x, nextSid x.sid, 0, (d1.atts n).reportSeq + 1, false⟩ := by
  obtain ⟨x, nonce, h, l, hsid, hopen⟩ := sessionOpen_opens hhead hread hcurve hsigned hrng
  refine ⟨x, hsid, ?_⟩
  rw [hopen, Dev.attEnd_atts _ hn, Dev.attWrite_atts, Dev.report_atts _ hn, Dev.withSession_atts]
  simp only [Function.update_self, Function.update_idem]
  rfl

/-- Whatever becomes of the request, the windows of the other tenants keep their attestation registers. -/
theorem sessionOpen_atts_other (hn : n < 64) {k : Nat} (hk : k ≠ n) : (d.sessionOpen n).atts k = d1.atts k := by
  have hends (e : Dev) (st : B8) (code : Nat) : (e.attEnd n st code).atts k = e.atts k := by rw [e.attEnd_atts hn, Function.update_of_ne hk]
  cases hcurve : Config.onCurve (b.take 96) with
  | false => rw [sessionOpen_offCurve hhead hread hcurve, hends]
  | true =>
    by_cases hsigned : d1.cfg.signedKey n b
    · cases hrng : d1.sec.rngFail with
      | true => rw [sessionOpen_noEntropy hhead hread hcurve hsigned hrng, hends]; rfl
      | false =>
        obtain ⟨x, -, hatts⟩ := sessionOpen_opens_atts hhead hread hn hcurve hsigned hrng
        rw [hatts, Function.update_of_ne hk]
    · rw [sessionOpen_unsigned hhead hread hcurve hsigned, hends]

end Open

/-- Settles O22: an open request by its key, signature and entropy (`sessionOpen_offCurve`, `sessionOpen_unsigned`, `sessionOpen_opens_atts`); the
read of its buffer changes none of the windows. -/
theorem sessionsOpenAndClose : Obligations.SessionsOpenAndClose := by
  unfold Obligations.SessionsOpenAndClose
  refine ⟨fun s n r d1 b hn hhead hread => ?opens, fun s n r hn hhead => ?closes⟩
  case opens =>
    have hmem : s.dev.memOnly d1 := by have h := attRead_only s.dev r [] 0 224; rwa [hread] at h
    have hatts : d1.atts = s.dev.atts := atts_of_memOnly hmem
    have hkept : d1.cfg = s.dev.cfg ∧ d1.sec.rngFail = s.dev.sec.rngFail := by obtain ⟨m, x, k, -, rfl⟩ := hmem; exact ⟨rfl, rfl⟩
    have hrefused {st : B8} {code : Nat} (h : s.dev.sessionOpen n = d1.attEnd n st code) :
        (s.dev.sessionOpen n).atts n = { s.dev.atts n with status := st } := by rw [h, d1.attEnd_atts hn, hatts, Function.update_self]
    refine ⟨_, rfl, rfl, fun k hk => ?_, fun hcurve hsigned hrng => ?_, fun hcurve => ?_, fun hcurve hsigned => ?_⟩
    · have hother := sessionOpen_atts_other hhead hread hn hk
      rw [hatts] at hother
      exact congrArg AttWindow.session hother
    · rw [← hkept.1] at hsigned
      obtain ⟨x, hsid, hopen⟩ := sessionOpen_opens_atts hhead hread hn hcurve hsigned (hkept.2.trans hrng)
      rw [hatts] at hsid hopen
      have hten := (congrFun hopen n).trans (Function.update_self ..)
      refine ⟨?_, (congrArg AttWindow.sessionNext hten).trans (congrArg nextSid hsid), congrArg AttWindow.status hten, congrArg AttWindow.reportSeq hten⟩
      exact (congrArg (fun w : AttWindow => w.session.map Session.sid) hten).trans (congrArg some hsid)
    · have hten := hrefused (sessionOpen_offCurve hhead hread hcurve)
      exact ⟨congrArg AttWindow.session hten, congrArg AttWindow.status hten⟩
    · rw [← hkept.1] at hsigned
      have hten := hrefused (sessionOpen_unsigned hhead hread hcurve hsigned)
      exact ⟨congrArg AttWindow.session hten, congrArg AttWindow.status hten⟩
  case closes =>
    have hatts : ((s.dev.closeSession n 0).attEnd n 0 0).atts n = { s.dev.atts n with session := none, status := 0 } := by
      rw [Dev.attEnd_atts _ hn, Dev.closeSession_atts, Function.update_self, Function.update_self]
    refine ⟨_, next_withDev s (sessionClose_closes hhead), rfl, congrArg AttWindow.session hatts, congrArg AttWindow.status hatts, fun k hk => ?_, ?_⟩
    · exact (Dev.setAttStatus_ten_other _ (Ne.symm hk) 0).trans (s.dev.closeSession_ten_other (Ne.symm hk) 0)
    · exact (Dev.attEnd_ok_mem _ n 0).trans (s.dev.closeSession_mem n 0)

end Sys2Proof.Machine

/-! PROOFS. Live update (spec/14_firmware.md R462, R463): what a start, its end in flash and an abort make of the firmware block and of the flash. -/
namespace Sys2Proof.Machine
open Sys2Proof

/-! ## The firmware block, which records, replies and progress registers leave as it is -/

theorem fw_of_globalOnly {d e : Dev} (h : d.globalOnly e) : e.fw = d.fw := by
  obtain ⟨ge, gr, hm, pm, rfl⟩ := h; rfl

theorem Dev.setProgress_mgmt_fw (d : Dev) (slot kind value : Nat) : (d.setProgress mgmtParty slot kind value).fw = d.fw := by
  obtain ⟨v, h, -⟩ := d.setProgress_mgmt slot kind value
  rw [h]

/-- An update that fails: no image is staged, and the block holds the status and detail of the failure (R462, R472). -/
theorem Dev.updFail_fw (d : Dev) (status : B8) (code : Nat) :
    (d.updFail status code).fw = { d.fw with updState := 0, newImage := [], status := status, detail := BitVec.ofNat 8 code } := by
  unfold Dev.updFail
  rw [fw_of_globalOnly (regRec_global _ status code 0 fwUpdCtl), Dev.setProgress_mgmt_fw]

/-! ## FW_UPD_CTL -/

/-- A write of FW_UPD_CTL that acts. -/
theorem State.write_fwUpdCtl {s : State} (h : s.dev.Serves mgmtParty fwUpdCtl) (a : W64) (host : List Host.Cell) :
    s.write mgmtParty fwUpdCtl a 64 host = s.writeUpd a host := by
  rw [State.write_aligned h, State.act_whole h (by decide) (by decide), if_neg (by decide)]
  rfl

theorem fld_or {w : Nat} (x y : BitVec w) (lo len : Nat) : fld (x ||| y) lo len = fld x lo len ||| fld y lo len := by
  simp only [fld, BitVec.toNat_or, Nat.shiftRight_or_distrib, Nat.or_mod_two_pow]

theorem fld_and {w : Nat} (x y : BitVec w) (lo len : Nat) : fld (x &&& y) lo len = fld x lo len &&& fld y lo len := by
  simp only [fld, BitVec.toNat_and, Nat.shiftRight_and_distrib, Nat.and_mod_two_pow]

/-- What FW_UPDATE_GO writes: go without abort. -/
def goValue (v : W64) : W64 := (v &&& 0x3FFFFFFFFFFFFFFF#64) ||| 0x8000000000000000#64

/-- A field that lies below abort is as it was given. -/
theorem fld_goValue {lo len : Nat} (hmask : fld (0x3FFFFFFFFFFFFFFF#64) lo len = 2 ^ len - 1) (hgo : fld (0x8000000000000000#64) lo len = 0) (v : W64) :
    fld (goValue v) lo len = fld v lo len := by
  rw [goValue, fld_or, fld_and, hmask, hgo, Nat.or_zero, Nat.and_two_pow_sub_one_eq_mod]
  exact Nat.mod_mod _ _

theorem State.writeUpd_go (s : State) (v : W64) (host : List Host.Cell) : s.writeUpd (goValue v) host = s.fwGo (goValue v) host := by
  have hgo : (goValue v).getLsbD 63 = true := by simp [goValue]
  have hkeep : (goValue v).getLsbD 62 = false := by simp [goValue]
  simp only [State.writeUpd, hgo, hkeep, if_true, Bool.false_eq_true, if_false]

/-! ## A start of an update -/

section Go
variable {s : State} {v : W64} {host : List Host.Cell}

/-- A go while an update runs is recorded and does nothing else (R462). -/
theorem State.fwGo_busy (hbusy : s.dev.fw.updState ≠ 0) : s.fwGo v host = s.withDev (s.dev.regRec mgmtParty 0x01 0x9D 0 fwUpdCtl) := if_pos hbusy

theorem State.fwGo_down (hidle : s.dev.fw.updState = 0) (hdown : s.dev.hostUp = false) : s.fwGo v host = s.withDev (s.dev.updFail 0x11 0x8D) := by
  simp only [State.fwGo, hidle, hdown, ne_eq, not_true_eq_false, if_false, Bool.not_false, if_true]

variable (hidle : s.dev.fw.updState = 0) (hup : s.dev.hostUp = true)
include hidle hup

/-- The image that was read fails a check. -/
theorem State.fwGo_refused {st : B8} {code : Nat}
    (hbad : s.updFault (Memory.write [] 0 (s.dev.hostRead s.dev.cfg.port host s.dev.fw.updAddr.toNat (fld v 0 20))) (fld v 0 20) = some (st, code)) :
    s.fwGo v host = s.withDev (s.dev.updFail st code) := by
  simp only [State.fwGo, hidle, hup, hbad, ne_eq, not_true_eq_false, if_false, Bool.not_true, Bool.false_eq_true]

/-- The image that was read passes them: all but its signature goes to the spare slot. -/
theorem State.fwGo_stages
    (hgood : s.updFault (Memory.write [] 0 (s.dev.hostRead s.dev.cfg.port host s.dev.fw.updAddr.toNat (fld v 0 20))) (fld v 0 20) = none) :
    let b := s.dev.hostRead s.dev.cfg.port host s.dev.fw.updAddr.toNat (fld v 0 20)
    s.fwGo v host = { s.putSpare (b.take (fld v 0 20 - 96)) with
      dev := { s.dev with fw := { s.dev.fw with updState := 1, newImage := b, deferTicks := fld v 32 16 } }.setProgress mgmtParty 2 0 0 } := by
  simp only [State.fwGo, hidle, hup, hgood, ne_eq, not_true_eq_false, if_false, Bool.not_true, Bool.false_eq_true]

end Go

/-- Whatever becomes of the go, the image in use and the fuses stay. -/
theorem State.fwGo_keeps (s : State) (v : W64) (host : List Host.Cell) : let t := s.fwGo v host
    t = { s with nv := t.nv, dev := t.dev } ∧ t.nv.fuses = s.nv.fuses ∧ t.dev.fw.image = s.dev.fw.image ∧ t.dev.fw.generation = s.dev.fw.generation := by
  intro t
  have hfail (st : B8) (code : Nat) : (s.dev.updFail st code).fw.image = s.dev.fw.image ∧ (s.dev.updFail st code).fw.generation = s.dev.fw.generation := by
    rw [Dev.updFail_fw]; exact ⟨rfl, rfl⟩
  by_cases hidle : s.dev.fw.updState = 0
  · cases hup : s.dev.hostUp with
    | false => rw [show t = _ from State.fwGo_down hidle hup]; exact ⟨rfl, rfl, hfail _ _⟩
    | true =>
      cases hcheck : s.updFault (Memory.write [] 0 (s.dev.hostRead s.dev.cfg.port host s.dev.fw.updAddr.toNat (fld v 0 20))) (fld v 0 20) with
      | some f => rw [show t = _ from State.fwGo_refused hidle hup hcheck]; exact ⟨rfl, rfl, hfail _ _⟩
      | none =>
        rw [show t = _ from State.fwGo_stages hidle hup hcheck]
        refine ⟨rfl, rfl, ?_, ?_⟩ <;> rw [Dev.setProgress_mgmt_fw]
  · rw [show t = _ from State.fwGo_busy hidle]
    have hfw := fw_of_globalOnly (regRec_global s.dev 0x01 0x9D 0 fwUpdCtl)
    exact ⟨rfl, rfl, congrArg Fw.image hfw, congrArg Fw.generation hfw⟩

/-! ## The image in flash -/

section Ready
variable {s : State} (hstaging : s.dev.fw.updState = 1) (hcore : s.dev.coreOut 0 = false) (hcores : s.dev.coresOn = true)
include hstaging hcore hcores

theorem State.fwReady_unwritable (hflash : s.nv.flash.writable = false) : s.fwReady = s.withDev (s.dev.updFail 0x04 0x9A) := by
  simp [State.fwReady, hstaging, hcore, hcores, hflash]

theorem State.fwReady_writable (hflash : s.nv.flash.writable = true) : let g := fwGeneration (Memory.write [] 0 s.dev.fw.newImage)
    s.fwReady = { s.putSpare s.dev.fw.newImage with
      dev := ({ s.dev with fw := { s.dev.fw with updState := 2, readyTick := s.dev.tick + 1, stagedGen := BitVec.ofNat 32 g } } : Dev).logRec 0 0x85 0xFF
        (unitHub 0 0) 0 g } := by
  simp [State.fwReady, hstaging, hcore, hcores, hflash]

end Ready

/-- Settles O24: the go by its four ends (`fwGo_busy`, `fwGo_refused`, `fwGo_stages`, and `fwGo_keeps` for the link that is down), the image in flash by
whether that is writable, and the abort by the state of the update. -/
theorem firmwareUpdate : Obligations.FirmwareUpdate := by
  unfold Obligations.FirmwareUpdate
  refine ⟨fun s v host hserves => ?go, fun s hstaging hcore hcores => ?ready, fun s hserves => ?abort⟩
  case go =>
    have hlen : fld (goValue v) 0 20 = fld v 0 20 := fld_goValue (by decide) (by decide) v
    have hdefer : fld (goValue v) 32 16 = fld v 32 16 := fld_goValue (by decide) (by decide) v
    have hrun : exec (.fwUpdateGo v host) s = .next (s.fwGo (goValue v) host) :=
      congrArg Host.Outcome.next ((State.write_fwUpdCtl hserves (goValue v) host).trans (s.writeUpd_go v host))
    obtain ⟨honly, hfuses, himage, hgeneration⟩ := s.fwGo_keeps (goValue v) host
    refine ⟨_, hrun, honly, hfuses, himage, hgeneration, fun hbusy => ?_, fun hidle hup hgood => ?_, fun st code hidle hup hbad => ?_⟩
    · rw [State.fwGo_busy hbusy]
      exact ⟨fw_of_globalOnly (regRec_global s.dev 0x01 0x9D 0 fwUpdCtl), rfl⟩
    · rw [State.fwGo_stages hidle hup (by rw [hlen]; exact hgood), hlen, hdefer]
      exact ⟨Dev.setProgress_mgmt_fw _ 2 0 0, rfl⟩
    · rw [State.fwGo_refused hidle hup (by rw [hlen]; exact hbad)]
      exact ⟨s.dev.updFail_fw st code, rfl⟩
  case ready =>
    cases hflash : s.nv.flash.writable with
    | true =>
      refine ⟨_, congrArg Host.Outcome.next (State.fwReady_writable hstaging hcore hcores hflash), rfl, fun _ => ?_, nofun⟩
      rw [Dev.logRec_eq]
      exact ⟨rfl, rfl, rfl, rfl⟩
    | false =>
      refine ⟨_, congrArg Host.Outcome.next (State.fwReady_unwritable hstaging hcore hcores hflash), rfl, nofun, fun _ => ?_⟩
      rw [Dev.updFail_fw]
      exact ⟨rfl, rfl, rfl, rfl⟩
  case abort =>
    have hrun : exec .fwUpdateAbort s = .next (s.withDev s.dev.fwAbort) := congrArg Host.Outcome.next (State.write_fwUpdCtl hserves _ [])
    refine ⟨_, hrun, rfl, fun hstate => ?_, fun hstate => ?_⟩
    · rw [Dev.fwAbort, if_pos hstate, Dev.updFail_fw]
      exact ⟨rfl, rfl, rfl, rfl⟩
    · rw [Dev.fwAbort, if_neg (by omega)]

end Sys2Proof.Machine

/-! PROOFS. Performance counters and trace points (spec/16_performance_counters.md, spec/14_firmware.md R473): where event selects lie, what a write
of one leaves, the counter view of a tenant, periodic snapshots and trace hits. -/
namespace Sys2Proof.Machine
open Sys2Proof

/-! ## Where event selects lie (R512) -/

/-- The hub has 22 blocks of at most 32 units each. -/
theorem lt_of_hubExists {n : Nat} (h : counterExists 2 n = true) : n < 2816 := by
  by_contra hge
  have hnone : hubInstances (n / 128) = 0 := by
    rw [hubInstances, List.getD_eq_getElem?_getD, List.getElem?_eq_none (by simp only [List.length_cons, List.length_nil]; omega)]
    rfl
  simp [counterExists, hnone] at h

/-- A cluster's block has 256 bytes, with the event selects from 0x40 on. -/
theorem pmcAt_cluster {n : Nat} (h : counterExists 0 n = true) : pmcAt (0x10040 + 256 * (n / 8) + 8 * (n % 8)) = some (0, n, false) := by
  have hn : n < 2048 := by simpa [counterExists] using h
  have hu : (0x10040 + 256 * (n / 8) + 8 * (n % 8) - 0x10000) / 256 = n / 8 := by omega
  have hk : (0x10040 + 256 * (n / 8) + 8 * (n % 8) - 0x10000) % 256 = 0x40 + 8 * (n % 8) := by omega
  have hj : (0x40 + 8 * (n % 8) - 0x40) / 8 = n % 8 := by omega
  unfold pmcAt
  rw [if_neg (by omega), if_pos (by omega)]
  simp only [hu, hk, if_true, hj, setWidth, Nat.div_add_mod, h]
  rw [if_neg (by omega), if_pos (by omega)]

/-- Unit and select of counter `n` where a unit's block has 128 bytes and starts with its four event selects. -/
theorem fourSelects_place (base n : Nat) : (base + 128 * (n / 4) + 8 * (n % 4) - base) / 128 = n / 4 ∧
    (base + 128 * (n / 4) + 8 * (n % 4) - base) % 128 = 8 * (n % 4) ∧ (8 * (n % 4) - 0) / 8 = n % 4 := by omega

theorem pmcAt_region {n : Nat} (h : counterExists 1 n = true) : pmcAt (0x20000 + 128 * (n / 4) + 8 * (n % 4)) = some (1, n, false) := by
  have hn : n < 64 := by simpa [counterExists] using h
  obtain ⟨hu, hk, hj⟩ := fourSelects_place 0x20000 n
  unfold pmcAt
  rw [if_neg (by omega), if_neg (by omega), if_pos (by omega)]
  simp only [hu, hk, one_ne_zero, if_false, if_true, hj, setWidth, Nat.div_add_mod, h]
  rw [if_neg (by omega), if_pos (by omega)]

theorem pmcAt_hub {n : Nat} (h : counterExists 2 n = true) : pmcAt (0x30000 + 128 * (n / 4) + 8 * (n % 4)) = some (2, n, false) := by
  obtain ⟨hu, hk, hj⟩ := fourSelects_place 0x30000 n
  unfold pmcAt
  rw [if_neg (by omega), if_neg (by omega), if_neg (by omega)]
  simp only [hu, hk, OfNat.ofNat_ne_zero, if_false, if_true, hj, setWidth, Nat.div_add_mod, h]
  rw [if_neg (by omega), if_pos (by omega)]

/-- Where an event select lies: in the PMC block, above its other registers, and not where a cluster's cycle counter does. -/
theorem eventOff_place {x n : Nat} (hx : x ≤ 2) (h : counterExists x n = true) : ∃ o, eventOff x n = 0x100000 + o ∧ pmcAt o = some (x, n, false) ∧
    0x10000 ≤ o ∧ o < 0x80000 ∧ ¬ (o < 0x20000 ∧ 256 ∣ o) := by
  obtain rfl | rfl | rfl : x = 0 ∨ x = 1 ∨ x = 2 := by omega
  · have hn : n < 2048 := by simpa [counterExists] using h
    exact ⟨_, by simp only [eventOff, if_true], pmcAt_cluster h, by omega, by omega, by omega⟩
  · have hn : n < 64 := by simpa [counterExists] using h
    exact ⟨_, by simp only [eventOff, if_true, one_ne_zero, if_false], pmcAt_region h, by omega, by omega, by omega⟩
  · have hn := lt_of_hubExists h
    exact ⟨_, by simp only [eventOff, OfNat.ofNat_ne_zero, OfNat.ofNat_ne_one, if_false], pmcAt_hub h, by omega, by omega, by omega⟩

/-! ## The PMC block of the management window -/

theorem targetAt_mgmt_above {off : Nat} (h : 0x100000 ≤ off) : targetAt mgmtParty off = none := by
  simp only [targetAt, mgmtParty, Nat.lt_irrefl, if_false, arrayAt]
  rw [if_neg]; omega

theorem emulated_mgmt_above {off : Nat} (h : 0x100000 ≤ off) : emulated mgmtParty off = false := by
  simp only [emulated, mgmtParty, Nat.lt_irrefl, if_false, mgEmulated, List.contains_eq_mem, List.mem_cons, List.not_mem_nil, or_false,
    decide_eq_false_iff_not]
  omega

theorem State.writeMgHardware_pmc (s : State) {o : Nat} (ho : o < 0x80000) (w a : W64) (host : List Host.Cell) :
    s.writeMgHardware (0x100000 + o) w a host =
      if (s.dev.writePmc o w).2 = 0 then s.withDev (s.dev.writePmc o w).1
      else s.withDev ((s.dev.writePmc o w).1.regRec mgmtParty (s.dev.writePmc o w).2 0 0 (0x100000 + o)) := by
  have hblock : 16 ≤ (0x100000 + o) / 0x10000 ∧ (0x100000 + o) / 0x10000 < 24 := by omega
  have hoff : 0x100000 + o - 0x100000 = o := by omega
  obtain ⟨b, hb⟩ : ∃ b, (0x100000 + o) / 0x10000 = b + 16 := ⟨_, (Nat.sub_add_cancel hblock.1).symm⟩
  have hlt : 16 ≤ b + 16 ∧ b + 16 < 24 := by omega
  simp only [State.writeMgHardware, hb, hoff, if_pos hlt]

theorem Dev.readMg_pmc (d : Dev) (f : Fuses) {o : Nat} (ho : o < 0x80000) (hanswers : d.mgAnswers (0x100000 + o) = true) :
    d.readMg f (0x100000 + o) = d.readPmc o := by
  have hblock : 16 ≤ (0x100000 + o) / 0x10000 ∧ (0x100000 + o) / 0x10000 < 24 := by omega
  have hoff : 0x100000 + o - 0x100000 = o := by omega
  simp only [Dev.readMg, hanswers, hoff, Bool.not_true, Bool.false_eq_true]
  simp (disch := omega) only [if_neg, if_pos, if_false]

theorem Dev.Serves.answers {d : Dev} {off : Nat} (h : d.Serves mgmtParty off) : d.mgAnswers off = true := by
  obtain ⟨-, -, -, -, -, hmg⟩ := h
  exact hmg (Nat.le_refl 64)

section Select
variable {x n : Nat} (hx : x ≤ 2) (hexists : counterExists x n = true)
include hx hexists

/-- A write of an event select that acts. -/
theorem State.write_eventSelect {s : State} (h : s.dev.Serves mgmtParty (eventOff x n)) (v : W64) :
    s.write mgmtParty (eventOff x n) v 64 [] = s.withDev (s.dev.selectEvent x n v) := by
  obtain ⟨o, hoff, hat, hlo, hhi, -⟩ := eventOff_place hx hexists
  have habove : 0x100000 ≤ eventOff x n := hoff ▸ Nat.le_add_right _ _
  have hpmc : s.dev.writePmc o v = (s.dev.selectEvent x n v, 0) := by
    simp (disch := omega) only [Dev.writePmc, if_neg, hat]
  rw [State.write_aligned h, State.act_whole h (targetAt_mgmt_above habove) (emulated_mgmt_above habove), if_neg (by decide), hoff,
    State.writeMgHardware_pmc s hhi, hpmc, if_pos rfl]

/-- An event select reads as event, filter and owner of its counter (R512). -/
theorem State.readReg_eventSelect {s : State} (hlatch : s.latch = none) (hanswers : s.dev.mgAnswers (eventOff x n) = true) :
    s.readReg mgmtParty (eventOff x n) = (s.dev.counter x n).selReg := by
  obtain ⟨o, hoff, hat, hlo, hhi, hcycles⟩ := eventOff_place hx hexists
  have hpmc : s.dev.readPmc o = (s.dev.counter x n).selReg := by
    simp (disch := omega) only [Dev.readPmc, if_neg, hat]
  rw [hoff] at hanswers ⊢
  simp only [State.readReg, hlatch, Option.getD_none, mgmtParty, Nat.lt_irrefl, if_false]
  rw [Dev.readMg_pmc _ _ hhi hanswers, hpmc]

end Select

/-! ## What a written select does (R511, R512) -/

/-- Tenant `t` may own counter `n` of set `x`: it is enabled, its partition holds the unit, and its entry grants counter_read (R512). -/
def Cfg.MayOwn (c : Cfg) (x n t : Nat) : Prop :=
  c.tenOn t = true ∧ c.regionPart (counterRegion x n) = some (c.tenPart t) ∧ c.tenCounterRead t = true

/-- The condition of `Dev.selectEvent` under which an owner is refused. -/
theorem Cfg.not_mayOwn_iff {c : Cfg} {x n t : Nat} : ¬ c.MayOwn x n t ↔
    (!c.tenOn t) = true ∨ c.regionPart (counterRegion x n) ≠ some (c.tenPart t) ∨ (!c.tenCounterRead t) = true := by
  simp only [Cfg.MayOwn, not_and_or, Bool.not_eq_true, Bool.not_eq_true', ne_eq]

section SelectEvent
variable {d : Dev} {x n : Nat} {v : W64} (hexists : counterExists x n = true)
include hexists

theorem Dev.selectEvent_reserved (hevent : eventKnown x (fld v 0 8) = false) : d.selectEvent x n v = d.regRec mgmtParty 0x04 0 0 (eventOff x n) := by
  simp only [Dev.selectEvent, hexists, hevent, Bool.not_true, Bool.false_eq_true, if_false, Bool.not_false, true_or, if_true]

variable (hevent : eventKnown x (fld v 0 8) = true) (hfits : fld v 8 7 < 64 ∨ fld v 8 7 = 0x40 ∨ fld v 8 7 = 0x7F)
include hevent hfits

/-- A hub counter, and any counter without an owning tenant, is the management function's. -/
theorem Dev.selectEvent_mgmt (howner : x = 2 ∨ fld v 16 7 = 0x7F) :
    d.selectEvent x n v = d.putCounter x n { event := fld v 0 8, filter := fld v 8 7, owner := 0x7F, count := 0 } := by
  simp [Dev.selectEvent, hexists, hevent, hfits, howner]

variable (hx : x ≠ 2) (howner : fld v 16 7 < 64)
include hx howner

theorem Dev.selectEvent_owned (hmay : d.cfg.MayOwn x n (fld v 16 7)) :
    d.selectEvent x n v = d.putCounter x n { event := fld v 0 8, filter := fld v 16 7, owner := fld v 16 7, count := 0 } := by
  have hmgmt : ¬ (x = 2 ∨ fld v 16 7 = 0x7F) := by omega
  have htenant := mt Cfg.not_mayOwn_iff.mpr (not_not.mpr hmay)
  simp only [Dev.selectEvent, hexists, hevent, hfits, hmgmt, Nat.not_le.mpr howner, if_neg htenant, decide_true, Bool.not_true, Bool.false_eq_true,
    or_false, if_false]

theorem Dev.selectEvent_refused (hmay : ¬ d.cfg.MayOwn x n (fld v 16 7)) : d.selectEvent x n v = d.regRec mgmtParty 0x03 0 0 (eventOff x n) := by
  have hmgmt : ¬ (x = 2 ∨ fld v 16 7 = 0x7F) := by omega
  have htenant := Cfg.not_mayOwn_iff.mp hmay
  simp only [Dev.selectEvent, hexists, hevent, hfits, hmgmt, Nat.not_le.mpr howner, if_pos htenant, decide_true, Bool.not_true, Bool.false_eq_true,
    or_false, if_false]

end SelectEvent

/-- clr lies beside the fields of the select. -/
theorem fld_selReg_clr (c : CtrSel) (hevent : c.event < 256) (hfilter : c.filter < 128) (howner : c.owner < 128) :
    fld (c.selReg ||| 0x1000000#64) 0 8 = c.event ∧ fld (c.selReg ||| 0x1000000#64) 8 7 = c.filter ∧ fld (c.selReg ||| 0x1000000#64) 16 7 = c.owner := by
  have hreg : c.selReg.toNat = c.event + 256 * c.filter + 65536 * c.owner := by
    simp only [CtrSel.selReg, regOf, List.map_cons, List.map_nil, List.sum_cons, List.sum_nil, BitVec.toNat_ofNat]
    omega
  simp only [fld_or]
  refine ⟨?_, ?_, ?_⟩ <;> rw [show fld (0x1000000#64) _ _ = 0 from rfl, Nat.or_zero, fld, hreg, Nat.shiftRight_eq_div_pow] <;> omega

/-- Events have 8 bits (R511). -/
theorem event_lt_of_known {x e : Nat} (h : eventKnown x e = true) : e < 256 := by
  unfold eventKnown at h
  split_ifs at h <;> simp only [Bool.or_eq_true, Bool.and_eq_true, decide_eq_true_eq] at h <;> omega

/-- A clear of a counter of the management function (R512). -/
theorem Dev.selectEvent_clear {d : Dev} {x n : Nat} (hexists : counterExists x n = true) (hevent : eventKnown x (d.counter x n).event = true)
    (howner : (d.counter x n).owner = 0x7F) (hfits : (d.counter x n).filter < 64 ∨ (d.counter x n).filter = 0x40 ∨ (d.counter x n).filter = 0x7F) :
    d.selectEvent x n ((d.counter x n).selReg ||| 0x1000000#64) = d.putCounter x n { d.counter x n with count := 0 } := by
  obtain ⟨hev, hfi, how⟩ := fld_selReg_clr (d.counter x n) (event_lt_of_known hevent) (by omega) (by omega)
  rw [Dev.selectEvent_mgmt hexists (by rw [hev]; exact hevent) (by rw [hfi]; exact hfits) (.inr (how.trans howner)), hev, hfi, ← howner]

/-! ## The counter view of a tenant (R514) -/

/-- A write in the counter view that acts. -/
theorem State.write_view {s : State} {t off : Nat} (ht : t < 64) (h : s.dev.Serves t off) (hlo : 0x1000 ≤ off) (hhi : off < 0x10C0) (v : W64) :
    s.write t off v 64 [] = s.withDev (s.dev.writeView t off v) := by
  have hhardware : emulated t off = false := by
    simp only [emulated, if_pos ht, twEmulated, List.contains_eq_mem, List.mem_cons, List.not_mem_nil, or_false, decide_eq_false_iff_not]
    omega
  rw [State.write_twHardware ht h (targetAt_tenant_below ht (by omega)) hhardware]
  simp (disch := omega) only [Dev.writeTwHardware, if_neg, hlo, hhi, and_self, if_true]

section View
variable {d : Dev} {t : Nat} {v : W64} (hread : d.cfg.tenCounterRead t = true)
include hread

/-- A unit is selected where the partition of the tenant holds its region. -/
theorem Dev.writeView_unit : let region := if fld v 8 1 = 0 then fld v 0 8 / 16 else fld v 0 8
    d.writeView t 0x1000 v = if d.cfg.regionPart region = some (d.cfg.tenPart t) ∧ region < 16 then
        { d with tenants := d.tenants.set t { d.ten t with pmcUnit := fld v 0 8, pmcKind := fld v 8 1 } }
      else d.regRec t 0x03 0x86 0x1000 0x1000 := by
  simp only [Dev.writeView, hread, Bool.not_true, Bool.false_eq_true, if_false, if_true]
  rfl

/-- An event select of the view is that of a counter of the selected unit, which the tenant must own. -/
theorem Dev.writeView_select {k : Nat} (hk : k < setWidth (d.ten t).pmcKind) (hview : k < 8) :
    let x := (d.ten t).pmcKind; let n := setWidth x * (d.ten t).pmcUnit + k; let off := 0x1040 + 8 * k
    d.writeView t off v = if (d.counter x n).owner ≠ t then d.regRec t 0x03 0x86 off off
      else if !eventKnown x (fld v 0 8) then d.regRec t 0x04 0x85 off off
      else d.putCounter x n { d.counter x n with event := fld v 0 8, count := 0 } := by
  have hat : (0x1040 + 8 * k - 0x1040) / 8 = k := by omega
  have hselect : ¬ 0x1040 + 8 * k = 0x1000 ∧ 0x1040 ≤ 0x1040 + 8 * k ∧ 0x1040 + 8 * k < 0x1080 := by omega
  simp only [Dev.writeView, hread, hselect, hat, Nat.not_le.mpr hk, Bool.not_true, Bool.false_eq_true, and_self, if_false, if_true]
  rfl

end View

/-! ## Periodic snapshots (R513, R516, R518) -/

theorem Dev.markSnap_snapRing (d : Dev) (p : Nat) : (d.markSnap p).snapRing p = d.snapRing p := by
  unfold Dev.markSnap Dev.snapRing
  split
  · rw [Dev.modTen_ten]
  · rfl

/-- A record shows counters, clusters and time, none of which the mark of a boundary touches. -/
theorem Dev.markSnap_snapBytes (d : Dev) (p seq : Nat) (sel : W64) (m : Option MarkerRef) : (d.markSnap p).snapBytes p seq sel m = d.snapBytes p seq sel m := by
  unfold Dev.markSnap
  split <;> rfl

theorem Dev.snapDue_iff (d : Dev) (p : Nat) : d.snapDue p = true ↔ 4 ≤ (d.periodOf p).1 ∧ d.time.toNat % (2 ^ (d.periodOf p).1 * 1000) = 0 ∧
    (if p < 64 then (d.ten p).snapAt else d.pmc.snapAt) ≠ some d.time := by
  simp only [Dev.snapDue, Bool.and_eq_true, decide_eq_true_eq, and_assoc]

theorem Dev.snapshot_off {d : Dev} {p : Nat} {sel : W64} {m : Option MarkerRef} (h : sel = 0 ∨ (d.snapRing p).enable = false) : d.snapshot p sel m = d := by
  unfold Dev.snapshot
  rw [if_pos (h.imp_right fun h => by rw [h]; rfl)]

section Taken
variable {d : Dev} {p : Nat} {sel : W64} {m : Option MarkerRef} (htaken : ¬ (sel = 0 ∨ (!(d.snapRing p).enable) = true))
include htaken

theorem Dev.snapshot_full (hfull : (d.snapRing p).full = true) :
    d.snapshot p sel m = d.setSnapRing p { (d.snapRing p).nextSeq with dropped := satInc (d.snapRing p).dropped } := by
  simp only [Dev.snapshot, if_neg htaken, hfull, if_true]

theorem Dev.snapshot_taken (hroom : (d.snapRing p).full = false) : let r := d.snapRing p
    let b := d.snapBytes p r.seq sel m; let a := r.base.toNat + r.tail * 2 ^ r.log2Slot
    d.snapshot p sel m = (if p < 64 then d.deviceWrite p (d.cfg.tenPart p) a b else d.hostWrite d.cfg.port a b).setSnapRing p r.nextSeq.step := by
  simp only [Dev.snapshot, if_neg htaken, hroom, Bool.false_eq_true, if_false]

end Taken

/-! ## Trace points (R469, R473) -/

/-- A hit that writes no record counts and keeps the time. -/
theorem Dev.traceHit_counts {d : Dev} {p : Nat} {arg : W32} (hp : p < 174) (hon : (d.fw.trace.get p {}).enable = true) (hcores : d.coresOn = true)
    (hcore : d.coreOut (traceCore p) = false) (hquiet : (d.fw.trace.get p {}).log = false ∨ (d.fw.trace.get p {}).logged = true) :
    let v := d.fw.trace.get p {}
    d.traceHit p arg = { d with fw := { d.fw with trace := d.fw.trace.set p { v with hits := v.hits + 1, last := d.time } } } := by
  have hnote : ((d.fw.trace.get p {}).log && !(d.fw.trace.get p {}).logged) = false := by
    rcases hquiet with h | h <;> simp only [h, Bool.false_and, Bool.not_true, Bool.and_false]
  have hdefined : decide (174 ≤ p) = false := decide_eq_false (Nat.not_le.mpr hp)
  simp only [Dev.traceHit, hdefined, hon, hcores, hcore, hnote, Bool.not_true, Bool.or_false, Bool.false_eq_true, if_false]

theorem Dev.traceHit_none {d : Dev} {p : Nat} {arg : W32} (h : 174 ≤ p ∨ (d.fw.trace.get p {}).enable = false) : d.traceHit p arg = d := by
  have hnone : (decide (174 ≤ p) || !(d.fw.trace.get p {}).enable) = true := by
    rcases h with h | h <;> simp only [h, decide_true, Bool.true_or, Bool.not_false, Bool.or_true]
  simp only [Dev.traceHit, hnone, Bool.true_or, if_true]

/-! ## The rows -/

/-- Settles O43: a write of an event select is `selectEvent` (`write_eventSelect`), one in the counter view `writeView`; the boundary of a period marks the
party and then takes its snapshot or not (`snapshot_off`, `snapshot_full`, `snapshot_taken`); a trace hit counts or does nothing. -/
theorem countersAreSelectedAndCleared : Obligations.CountersAreSelectedAndCleared := by
  unfold Obligations.CountersAreSelectedAndCleared
  refine ⟨fun s x n v hx hexists hserves => ?select, fun s t v ht hread => ⟨fun hserves => ?unit, fun k hk hview hserves => ?view⟩,
    fun s p hawake => ?snapshot, fun s p arg => ?trace⟩
  case select =>
    have hrun : exec (.counterEventSelect x n v) s = .next (s.withDev (s.dev.selectEvent x n v)) :=
      congrArg Host.Outcome.next ((if_pos hexists).trans (State.write_eventSelect hx hexists hserves v))
    rw [hrun]
    refine ⟨fun hevent hfits howner => ?_, fun hevent hfits hne howner hmay => ?_, fun hevent hfits hne howner hmay => ?_, fun hevent => ?_,
      fun hlatch hevent howner hfits => ?_⟩
    · exact next_withDev s (Dev.selectEvent_mgmt hexists hevent hfits howner)
    · exact next_withDev s (Dev.selectEvent_owned hexists hevent hfits hne howner hmay)
    · exact next_withDev s (Dev.selectEvent_refused hexists hevent hfits hne howner hmay)
    · exact next_withDev s (Dev.selectEvent_reserved hexists hevent)
    · have hshown := State.readReg_eventSelect hx hexists hlatch hserves.answers
      have hclear : exec (.counterClear x n) s = .next (s.withDev (s.dev.selectEvent x n ((s.dev.counter x n).selReg ||| 0x1000000#64))) := by
        rw [← hshown]
        exact congrArg Host.Outcome.next ((if_pos hexists).trans (State.write_eventSelect hx hexists hserves _))
      exact hclear.trans (next_withDev s (Dev.selectEvent_clear hexists hevent howner hfits))
  case unit =>
    have hrun : exec (.twPmcSelect t 0x1000 v) s = .next (s.withDev (s.dev.writeView t 0x1000 v)) :=
      congrArg Host.Outcome.next ((if_pos ⟨ht, by decide, by decide⟩).trans (State.write_view ht hserves (by decide) (by decide) v))
    rw [hrun, Dev.writeView_unit hread]
    exact ⟨fun hregion hpart => next_withDev s (if_pos ⟨hpart, hregion⟩), fun hpart => next_withDev s (if_neg fun h => hpart h.1)⟩
  case view =>
    have hlo : 0x1000 ≤ 0x1040 + 8 * k := by omega
    have hhi : 0x1040 + 8 * k < 0x10C0 := by omega
    have hrun : exec (.twPmcSelect t (0x1040 + 8 * k) v) s = .next (s.withDev (s.dev.writeView t (0x1040 + 8 * k) v)) :=
      congrArg Host.Outcome.next ((if_pos ⟨ht, hlo, hhi⟩).trans (State.write_view ht hserves hlo hhi v))
    rw [hrun, Dev.writeView_select hread hk hview]
    refine ⟨fun hown hevent => ?_, fun hown hevent => ?_, fun hother => next_withDev s (if_pos hother)⟩
    · exact next_withDev s ((if_neg (not_not.mpr hown)).trans (if_neg (by simp [hevent])))
    · exact next_withDev s ((if_neg (not_not.mpr hown)).trans (if_pos (by simp [hevent])))
  case snapshot =>
    have hdue (h : 4 ≤ (s.dev.periodOf p).1 ∧ s.dev.time.toNat % (2 ^ (s.dev.periodOf p).1 * 1000) = 0 ∧
        (if p < 64 then (s.dev.ten p).snapAt else s.dev.pmc.snapAt) ≠ some s.dev.time) :
        exec (.periodicSnapshot p) s = .next (s.withDev ((s.dev.markSnap p).snapshot p (s.dev.periodOf p).2 none)) :=
      next_withDev s (if_pos ⟨(s.dev.snapDue_iff p).mpr h, hawake⟩)
    have hring := s.dev.markSnap_snapRing p
    have htaken (hsel : (s.dev.periodOf p).2 ≠ 0) (hon : (s.dev.snapRing p).enable = true) :
        ¬ ((s.dev.periodOf p).2 = 0 ∨ (!((s.dev.markSnap p).snapRing p).enable) = true) := by
      rw [hring, hon]; exact not_or.mpr ⟨hsel, by decide⟩
    refine ⟨fun h => next_withDev s (if_neg fun hd => h ((s.dev.snapDue_iff p).mp hd.1)), fun h hoff => ?_, fun h hsel hon hfull => ?_,
      fun h hsel hon hroom => ?_⟩
    · exact (hdue h).trans (next_withDev s (Dev.snapshot_off (by rwa [hring])))
    · have hdropped := Dev.snapshot_full (m := none) (htaken hsel hon) (by rwa [hring])
      rw [hring] at hdropped
      exact (hdue h).trans (next_withDev s hdropped)
    · have hwritten := Dev.snapshot_taken (m := none) (htaken hsel hon) (by rwa [hring])
      simp only [hring, Dev.markSnap_snapBytes] at hwritten
      exact (hdue h).trans (next_withDev s hwritten)
  case trace =>
    refine ⟨fun hp hon hcores hcore hquiet => ?_, fun h => next_withDev s (Dev.traceHit_none h)⟩
    exact next_withDev s (Dev.traceHit_counts hp hon hcores hcore hquiet)

end Sys2Proof.Machine

/-! PROOFS. One step of the block: the command at the front of its queue. -/
namespace Sys2Proof.Machine
open Sys2Proof

/-- Settles O1: a step goes by the queue alone. -/
theorem stepRunsTheFrontCommand : Obligations.StepRunsTheFrontCommand := by
  unfold Obligations.StepRunsTheFrontCommand
  intro s c rest hqueue
  rw [step, hqueue]

end Sys2Proof.Machine

/-! PROOFS. The board-management port (R536): its block reads, the wake command, and the Alert Response; and WAKE_L (R491). -/
namespace Sys2Proof.Machine
open Sys2Proof

/-! ## Block reads -/

/-- What a block read of a command puts on the bus: the count, the data, and the check byte over the whole transaction. -/
def Pwr.smbAnswer (p : Pwr) (command : Nat) (data : List B8) : List B8 :=
  leBytes 1 data.length ++ data ++
    [pecOf (leBytes 1 (2 * p.smbTarget) ++ leBytes 1 command ++ leBytes 1 (2 * p.smbTarget + 1) ++ (leBytes 1 data.length ++ data))]

theorem State.smbBlock_eq {s : State} (h : s.dev.boot.powered = true) (command : Nat) (data : List B8) :
    s.smbBlock command data = s.withDev { s.dev with pwr := { s.dev.pwr with smbOut := s.dev.pwr.smbAnswer command data } } :=
  if_neg (by simp [h])

theorem State.smbReg_eq {s : State} (h : s.dev.boot.powered = true) (command : Nat) (v : W64) :
    s.smbReg command v = s.withDev { s.dev with pwr := { s.dev.pwr with smbOut := s.dev.pwr.smbAnswer command (leBytes 8 v.toNat) } } :=
  State.smbBlock_eq h command _

theorem Pwr.smbTemps_eq (p : Pwr) : p.smbTemps =
    ((List.range 5).map (fun n => leBytes 2 (ofSigned 16 (p.temp.get n 0)))).flatten ++ leBytes 1 (if 1 < p.state then 1 else 0) := by
  simp only [Pwr.smbTemps, one, decide_eq_true_eq]

/-! ## The wake command (R491) -/

theorem Dev.smbWake_other {d : Dev} {data : B8} (h : data ≠ 0xA5) : d.smbWake data = d := if_pos (.inl h)

/-- The wake command on a device with power. -/
theorem Dev.smbWake_eq {d : Dev} (hp : d.boot.powered = true) (ht : d.boot.thermtrip = false) :
    d.smbWake 0xA5 = if d.pwr.state ≤ 1 then { d with pwr := { d.pwr with wakePin := true } } else d.wake 5 := by
  simp [Dev.smbWake, hp, ht]

/-! ## Wake (R491, R493) -/

/-- The power block as Dawn begins at time `t`. -/
def Pwr.woken (p : Pwr) (t : W64) (cause : Nat) : Pwr :=
  { p with dawn := true, wakeCause := cause, sleptS := min 0xFFFFFFFF ((t.toNat - p.sleepAt.toNat) / 1000000000), wakePin := false, wakeSeen := false,
           alarmLatched := false }

/-- A wake in Dusk or Night begins Dawn. -/
theorem Dev.wake_asleep {d : Dev} (hs : 1 < d.pwr.state) (hd : d.pwr.dawn = false) (cause : Nat) :
    d.wake cause = { d with pwr := d.pwr.woken d.time cause } := by
  simp [Dev.wake, hd, Nat.not_le.mpr hs, Pwr.woken]

/-- There is no wake from Noon or Overcast. -/
theorem Dev.wake_awake {d : Dev} (hs : d.pwr.state ≤ 1) (cause : Nat) : d.wake cause = d := by
  simp [Dev.wake, hs]

/-! ## The Alert Response -/

theorem Dev.smbAlert_none {d : Dev} (h : d.pwr.alert = false) : d.smbAlert = d := by
  simp [Dev.smbAlert, h]

/-- The asserting device answers with its address, whose byte is twice the 7 bits of it. -/
theorem Dev.smbAlert_answers {d : Dev} (hp : d.boot.powered = true) (ha : d.pwr.alert = true) :
    ∃ out, d.smbAlert = { d with pwr := { d.pwr with alert := false, smbOut := out } } ∧ out.head? = some (if d.pwr.smbAddr then 0xD6 else 0xD4) := by
  refine ⟨leBytes 1 (2 * d.pwr.smbTarget) ++ [pecOf (0x19 :: leBytes 1 (2 * d.pwr.smbTarget))], ?_, ?_⟩
  · simp [Dev.smbAlert, hp, ha]
  · cases h : d.pwr.smbAddr <;> simp [Pwr.smbTarget, h, leBytes]

/-! ## The rows -/

/-- Settles O27: each read is a block read of its register; the wake command and WAKE_L begin Dawn by `Dev.wake`, or are remembered. -/
theorem boardManagementOverSmbus : Obligations.BoardManagementOverSmbus := by
  unfold Obligations.BoardManagementOverSmbus
  refine ⟨fun s hp => ?reads, fun s data hp ht => ?wakes⟩
  case reads =>
    refine ⟨?_, ?_, ?_, ?_, ?_, ?_⟩
    · exact congrArg Host.Outcome.next (State.smbReg_eq hp 1 _)
    · exact congrArg Host.Outcome.next (State.smbReg_eq hp 2 _)
    · rw [← Pwr.smbTemps_eq]
      exact congrArg Host.Outcome.next (State.smbBlock_eq hp 3 _)
    · exact congrArg Host.Outcome.next (State.smbReg_eq hp 4 _)
    · exact congrArg Host.Outcome.next (State.smbReg_eq hp 5 _)
    · exact congrArg Host.Outcome.next (State.smbReg_eq hp 6 _)
  case wakes =>
    have hwakeL : exec .wakeL s = .next (s.withDev s.dev.wakeLow) := rfl
    refine ⟨fun h => ?_, fun h => ?_, fun h => ?_, fun h => ?_, fun h => ?_, fun h => ?_, fun he hs => ?_, fun he hs hd => ?_⟩
    · exact next_withDev s (Dev.smbWake_other h)
    · exact next_withDev s ((Dev.smbWake_eq hp ht).trans (if_pos h))
    · exact next_withDev s ((Dev.smbWake_eq hp ht).trans (if_neg (Nat.not_le.mpr h)))
    · exact next_withDev s (Dev.smbAlert_none h)
    · obtain ⟨out, hrun, hhead⟩ := Dev.smbAlert_answers hp h
      exact ⟨_, next_withDev s hrun, rfl, hhead⟩
    · exact next_withDev s (if_pos h)
    · exact next_withDev s ((if_neg (ne_true_of_eq_false he)).trans (Dev.wake_awake hs 5))
    · have hrun : s.dev.wakeLow = _ := (if_neg (ne_true_of_eq_false he)).trans (Dev.wake_asleep hs hd 5)
      exact ⟨_, next_withDev s hrun, rfl, rfl⟩

end Sys2Proof.Machine

/-! PROOFS. The PCIe ports (R210, R522, R540): a link that comes up with the drive behind it, and the functions that the host enables and takes
away. -/
namespace Sys2Proof.Machine
open Sys2Proof

/-! ## Links -/

/-- A link that comes up shows its speed and width. -/
def Dev.trainedPort (d : Dev) (n speed width : Nat) : Dev := d.modPort n (fun v => { v with up := true, speed := speed % 8, width := width % 8 })

theorem Dev.linkUp_eq {d : Dev} (hawake : d.awake = true) {n : Nat} (hn : n < 6) (hport : d.cfg.portOn n = true ∨ 4 ≤ n) (speed width : Nat)
    (drive : Option Nat) :
    d.linkUp n speed width drive = if 4 ≤ n then (d.trainedPort n speed width).driveUp (n - 4) drive else d.trainedPort n speed width := by
  refine if_pos ?_
  rcases hport with h | h <;> simp [hawake, hn, h]

theorem Dev.driveUp_eq (d : Dev) (k : Nat) (drive : Option Nat) : d.driveUp k drive = { d with mem := (d.driveUp k drive).mem } := by
  cases drive <;> rfl

theorem Dev.driveUp_present (d : Dev) {k : Nat} (hk : k < 2) (bytes : Nat) :
    (d.driveUp k (some bytes)).mem.nvmePresent.getLsbD k = true ∧ (d.driveUp k (some bytes)).mem.nvmeCap.get k 0 = drivePlaces bytes := by
  refine ⟨?_, Tbl.get_set_same _ _ _ _⟩
  simp [Dev.driveUp, hk]

theorem Dev.driveUp_absent (d : Dev) (k : Nat) : (d.driveUp k none).mem.nvmePresent.getLsbD k = false := by
  simp [Dev.driveUp]

/-! ## Functions -/

theorem mem_tok_of_linkOnly {d e : Dev} (h : d.linkOnly e) : e.mem = d.mem ∧ e.tok = d.tok := by
  obtain ⟨ten, mg, qs, mb, rfl⟩ := h; exact ⟨rfl, rfl⟩

/-- What a VF_ENABLE of `count` functions does to tenant `t` of the port (R522). -/
def Dev.hostEnables (d : Dev) (count t : Nat) : Dev :=
  if d.cfg.tenVf t < count then d.modTen t (fun v => { v with vfEnabled := true, busMaster := v.busMaster || !v.vfEnabled })
  else if (d.ten t).vfEnabled then (d.modTen t Tenant.noFunction).linkTenant t
  else d

theorem hostEnables_link (d : Dev) (count t : Nat) : d.linkOnly (d.hostEnables count t) := by
  unfold Dev.hostEnables
  split
  · exact modTen_link d t _
  · split
    · exact linkOnly_trans (modTen_link d t _) (linkTenant_link _ t)
    · exact linkOnly_refl d

theorem hostEnables_ten_other (count : Nat) (d : Dev) {t n : Nat} (h : t ≠ n) : (d.hostEnables count t).ten n = d.ten n := by
  unfold Dev.hostEnables
  split
  · exact d.modTen_ten_other h _
  · split
    · exact (Dev.linkTenant_ten_other _ h).trans (d.modTen_ten_other h _)
    · rfl

/-- A function that appears, or stays. -/
theorem hostEnables_appears {d : Dev} {count t : Nat} (h : d.cfg.tenVf t < count) :
    (d.hostEnables count t).ten t = { d.ten t with vfEnabled := true, busMaster := (d.ten t).busMaster || !(d.ten t).vfEnabled } := by
  rw [Dev.hostEnables, if_pos h]
  exact d.modTen_ten t _

/-- A function that is taken away: its link reset closes the session. -/
theorem hostEnables_takenAway {d : Dev} {count t : Nat} (h : count ≤ d.cfg.tenVf t) (hvf : (d.ten t).vfEnabled = true) :
    ((d.hostEnables count t).ten t).vfEnabled = false ∧ ((d.hostEnables count t).ten t).busMaster = false ∧
      ((d.hostEnables count t).ten t).session = none := by
  rw [Dev.hostEnables, if_neg (Nat.not_lt.mpr h), if_pos hvf]
  obtain ⟨hvf', hbus⟩ := (d.modTen t Tenant.noFunction).linkTenant_function t t
  obtain ⟨hsession, -⟩ := (d.modTen t Tenant.noFunction).linkTenant_cutOff t
  rw [d.modTen_ten] at hvf' hbus
  exact ⟨hvf', hbus, hsession⟩

/-- Among tenants listed once each, each is served as it was found. -/
theorem hostEnables_foldl (count : Nat) {l : List Nat} (hl : l.Nodup) {n : Nat} (hn : n ∈ l) (d : Dev) :
    ∃ e, d.linkOnly e ∧ e.ten n = d.ten n ∧ (l.foldl (fun d t => d.hostEnables count t) d).ten n = (e.hostEnables count n).ten n := by
  obtain ⟨l1, l2, rfl⟩ := List.append_of_mem hn
  obtain ⟨-, hl2, hdisj⟩ := List.nodup_append.mp hl
  have hbefore : n ∉ l1 := fun h => hdisj n h n List.mem_cons_self rfl
  have hafter : n ∉ l2 := (List.nodup_cons.mp hl2).1
  refine ⟨l1.foldl (fun d t => d.hostEnables count t) d, linkOnly_foldl (fun e t => hostEnables_link e count t) l1 d,
    foldl_ten_other (hostEnables_ten_other count) hbefore d, ?_⟩
  rw [List.foldl_append, List.foldl_cons]
  exact foldl_ten_other (hostEnables_ten_other count) hafter _

theorem Cfg.portTenants_nodup (c : Cfg) (n : Nat) : (c.portTenants n).Nodup := (List.nodup_range.filter _).filter _

/-- VF_ENABLE on a port that is up, with no more functions than the port has. -/
theorem Dev.vfEnable_eq {d : Dev} {n count : Nat} (hup : (d.port n).up = true) (hn : n < 4) (hcount : count ≤ d.cfg.portVfs n) :
    d.vfEnable n count = (d.cfg.portTenants n).foldl (fun d t => d.hostEnables count t) (d.modPort n (fun v => { v with numVfs := count })) :=
  if_neg (by simp [hup, Nat.not_le.mpr hn, Nat.not_lt.mpr hcount])

/-! ## The rows -/

/-- Settles O17: the link is `Dev.linkUp_eq` with the drive behind it; of the port's functions each is served once (`hostEnables_foldl`). -/
theorem theHostEnablesFunctions : Obligations.TheHostEnablesFunctions := by
  unfold Obligations.TheHostEnablesFunctions
  refine ⟨fun s n speed width drive hawake hn hport => ?link, fun s n count hup hn hcount => ?functions, fun s port vf => ⟨fun x hx => ?_, fun hx => ?_⟩⟩
  case link =>
    refine ⟨_, next_withDev s (Dev.linkUp_eq hawake hn hport speed width drive), rfl, ?_, fun h => ?_, fun b h hb => ?_, fun h hnone => ?_⟩
    · by_cases h : 4 ≤ n
      · simp only [if_pos h]
        exact Dev.driveUp_eq _ _ _
      · simp only [if_neg h]
        rfl
    · simp only [if_neg (Nat.not_le.mpr h)]
      rfl
    · subst hb
      simp only [if_pos h]
      exact Dev.driveUp_present _ (by omega) b
    · subst hnone
      simp only [if_pos h]
      exact Dev.driveUp_absent _ _
  case functions =>
    refine ⟨_, next_withDev s (Dev.vfEnable_eq hup hn hcount), rfl, ?_⟩
    generalize hd : s.dev.modPort n (fun v => { v with numVfs := count }) = d
    have hlink := linkOnly_foldl (fun e t => hostEnables_link e count t) (s.dev.cfg.portTenants n) d
    have hten (x : Nat) : d.ten x = s.dev.ten x := hd ▸ rfl
    have hcfg : d.cfg = s.dev.cfg := hd ▸ rfl
    refine ⟨?_, ?_, ?_, fun x hx => ?_, fun x hx => ?_⟩
    · rw [Dev.port, (linkOnly_keeps hlink).2, ← hd]
      exact congrArg Port.numVfs (Tbl.get_set_same _ _ _ _)
    · exact (mem_tok_of_linkOnly hlink).1.trans (hd ▸ rfl)
    · exact (mem_tok_of_linkOnly hlink).2.trans (hd ▸ rfl)
    · exact (foldl_ten_other (hostEnables_ten_other count) hx d).trans (hten x)
    · obtain ⟨e, hlink, hsame, hserved⟩ := hostEnables_foldl count (s.dev.cfg.portTenants_nodup n) hx d
      have hconf : e.cfg = s.dev.cfg := (linkOnly_keeps hlink).1.trans hcfg
      have hwindow : e.ten x = s.dev.ten x := hsame.trans (hten x)
      refine ⟨fun hvf => ?_, fun hvf hon => ?_⟩
      · exact hserved.trans ((hostEnables_appears (hconf ▸ hvf)).trans (by rw [hwindow]))
      · have hgone := hostEnables_takenAway (d := e) (t := x) (hconf ▸ hvf) (hwindow ▸ hon)
        rw [← hserved] at hgone
        exact hgone
  · exact next_withDev s (by rw [Dev.busMasterOff, hx]; rfl)
  · exact next_withDev s (by rw [Dev.busMasterOff, hx])

end Sys2Proof.Machine

/-! PROOFS. Operating points in force, and ageing (R496, R498, R506-R508, R551). -/
namespace Sys2Proof.Machine
open Sys2Proof

/-! ## Points in force (R496, R551) -/

/-- `e` differs from `d` in dies, regions and partitions only. -/
def Dev.pointsOnly (d e : Dev) : Prop := ∃ di re pa, e = { d with dies := di, regions := re, parts := pa }

theorem pointsOnly_refl (d : Dev) : d.pointsOnly d := ⟨_, _, _, rfl⟩
theorem pointsOnly_trans {a b c : Dev} (h : a.pointsOnly b) (k : b.pointsOnly c) : a.pointsOnly c := by
  obtain ⟨di, re, pa, rfl⟩ := h
  obtain ⟨di', re', pa', rfl⟩ := k
  exact ⟨di', re', pa', rfl⟩
theorem pointsOnly_foldl {β : Type} {f : Dev → β → Dev} (hf : ∀ (d : Dev) b, d.pointsOnly (f d b)) (l : List β) (d : Dev) : d.pointsOnly (l.foldl f d) :=
  foldl_keeps (P := d.pointsOnly) (fun e b h => pointsOnly_trans h (hf e b)) l (pointsOnly_refl d)
theorem cfg_of_pointsOnly {d e : Dev} (h : d.pointsOnly e) : e.cfg = d.cfg := by
  obtain ⟨di, re, pa, rfl⟩ := h; rfl

/-- The voltages of the dies follow: what else the device holds stays, and no die waits that did not. -/
theorem allVolts_only (d : Dev) (f : Fuses) : ∃ di, d.allVolts f = { d with dies := di } :=
  foldl_keeps (P := fun e : Dev => ∃ di, e = { d with dies := di }) (fun e k h => by obtain ⟨di, rfl⟩ := h; exact ⟨_, rfl⟩) (List.range 4) ⟨d.dies, rfl⟩

theorem Dev.allVolts_avsWait (d : Dev) (f : Fuses) (k : Nat) : ((d.allVolts f).die k).avsWait = (d.die k).avsWait := by
  refine foldl_keeps (P := fun e : Dev => (e.die k).avsWait = (d.die k).avsWait) (fun e j h => ?_) (List.range 4) rfl
  by_cases hj : j = k
  · subst hj
    exact (congrArg DieState.avsWait (e.modDie_die j _)).trans h
  · exact (congrArg DieState.avsWait (e.modDie_die_other hj _)).trans h

/-- A region runs at its target. -/
def Dev.raiseRegion (d : Dev) (r : Nat) : Dev := d.modRegion r (fun v => { v with op := v.target })

/-- The regions of a partition run at their targets. -/
def Dev.pointsInForce (d : Dev) (p : Nat) : Dev :=
  let d1 := (d.cfg.partRegions p).foldl (fun d r => d.raiseRegion r) d
  d1.modPart p (fun v => { v with op := d1.partPoint p })

theorem pointsInForce_only (d : Dev) (p : Nat) : d.pointsOnly (d.pointsInForce p) :=
  pointsOnly_trans (pointsOnly_foldl (fun _ _ => ⟨_, _, _, rfl⟩) _ d) ⟨_, _, _, rfl⟩

theorem Dev.pointsInForce_dies (d : Dev) (p : Nat) : (d.pointsInForce p).dies = d.dies :=
  foldl_keeps (P := fun e : Dev => e.dies = d.dies) (f := fun d r => d.raiseRegion r) (fun _ _ h => h) (d.cfg.partRegions p) rfl

theorem Dev.raiseRegion_target (d : Dev) (k r : Nat) : ((d.raiseRegion k).region r).target = (d.region r).target := by
  by_cases h : k = r
  · subst h
    rw [Dev.raiseRegion, Dev.modRegion_region]
  · exact congrArg RegionState.target (d.modRegion_region_other h _)

theorem Dev.pointsInForce_target (d : Dev) (p r : Nat) : ((d.pointsInForce p).region r).target = (d.region r).target :=
  foldl_keeps (P := fun e : Dev => (e.region r).target = (d.region r).target) (fun e k h => (e.raiseRegion_target k r).trans h) (d.cfg.partRegions p) rfl

/-- Region `r` runs at its target. -/
def Dev.atTarget (d : Dev) (r : Nat) : Prop := (d.region r).op = (d.region r).target

theorem raiseRegion_atTarget (d : Dev) (r : Nat) : (d.raiseRegion r).atTarget r := by
  simp [Dev.atTarget, Dev.raiseRegion]

theorem raiseRegion_keeps {d : Dev} {r : Nat} (h : d.atTarget r) (k : Nat) : (d.raiseRegion k).atTarget r := by
  by_cases hk : k = r
  · subst hk; exact raiseRegion_atTarget d k
  · rw [Dev.atTarget, Dev.raiseRegion, d.modRegion_region_other hk]; exact h

theorem pointsInForce_keeps {d : Dev} {r : Nat} (h : d.atTarget r) (p : Nat) : (d.pointsInForce p).atTarget r :=
  foldl_keeps (P := fun e : Dev => e.atTarget r) (fun _ k h => raiseRegion_keeps h k) (d.cfg.partRegions p) h

theorem pointsInForce_atTarget {d : Dev} {p r : Nat} (h : r ∈ d.cfg.partRegions p) : (d.pointsInForce p).atTarget r :=
  foldl_of_mem (P := fun e : Dev => e.atTarget r) (fun _ k h => raiseRegion_keeps h k) (fun e => raiseRegion_atTarget e r) h d

/-- Of the partitions listed, every region of each runs at its target. -/
theorem pointsInForce_foldl {l : List Nat} {p r : Nat} {d : Dev} (hp : p ∈ l) (hr : r ∈ d.cfg.partRegions p) :
    (l.foldl (fun d p => d.pointsInForce p) d).atTarget r := by
  obtain ⟨l1, l2, rfl⟩ := List.append_of_mem hp
  have hcfg := cfg_of_pointsOnly (pointsOnly_foldl pointsInForce_only l1 d)
  rw [List.foldl_append, List.foldl_cons]
  exact foldl_keeps (P := fun e : Dev => e.atTarget r) (fun _ q h => pointsInForce_keeps h q) l2 (pointsInForce_atTarget (by rwa [hcfg]))

/-- The partitions whose points the report of die `k` puts in force: those on the die of which no other die is awaited. -/
def Dev.partsOfDie (d : Dev) (k : Nat) : List Nat :=
  (partsOn d.cfg).filter (fun p => (d.cfg.partDies p).contains k && ((d.cfg.partDies p).all (fun x => !(d.die x).avsWait) || decide ((d.cfg.partDies p).length ≤ 1)))

theorem mem_partsOfDie {d : Dev} {p k : Nat} (hon : d.cfg.partOn p = true) (hdies : d.cfg.partDies p = [k]) : p ∈ d.partsOfDie k := by
  have hlt : p < 16 := by
    simp only [Cfg.partOn, Bool.and_eq_true, decide_eq_true_eq] at hon
    exact hon.1
  exact List.mem_filter.mpr ⟨List.mem_filter.mpr ⟨List.mem_range.mpr hlt, hon⟩, by simp [hdies]⟩

/-- The device whose die `k` is no longer awaited. -/
def Dev.reported (d : Dev) (k : Nat) : Dev := d.modDie k (fun v => { v with avsWait := false })

theorem Dev.opChange_eq {d : Dev} {k : Nat} (h : (d.die k).avsWait = true) (f : Fuses) :
    d.opChange f k = (((d.reported k).partsOfDie k).foldl (fun d p => d.pointsInForce p) (d.reported k)).allVolts f := if_neg (by simp [h])

/-- The report of an awaited die, before the voltages follow. -/
theorem opChange_forces {d : Dev} {k : Nat} (h : (d.die k).avsWait = true) (f : Fuses) :
    ∃ e, d.opChange f k = e.allVolts f ∧ d.pointsOnly e ∧ (e.die k).avsWait = false ∧
      ∀ p r, d.cfg.partOn p = true → d.cfg.partDies p = [k] → r ∈ d.cfg.partRegions p → (e.region r).op = (d.region r).target := by
  refine ⟨_, Dev.opChange_eq h f, pointsOnly_trans ⟨_, _, _, rfl⟩ (pointsOnly_foldl pointsInForce_only _ _), ?_, fun p r hon hdies hr => ?_⟩
  · have hsame := foldl_keeps (P := fun e : Dev => e.dies = (d.reported k).dies) (fun e p h => (e.pointsInForce_dies p).trans h) ((d.reported k).partsOfDie k) rfl
    rw [Dev.die, hsame]
    exact congrArg DieState.avsWait (d.modDie_die k _)
  · have hforce := pointsInForce_foldl (d := d.reported k) (mem_partsOfDie (d := d.reported k) (k := k) hon hdies) hr
    refine hforce.trans ?_
    exact foldl_keeps (P := fun e : Dev => (e.region r).target = (d.region r).target) (fun e p h => (e.pointsInForce_target p r).trans h) _ rfl

/-! ## The re-plan (R507) -/

theorem replan_slack {w : Nat} (h : 15 ≤ w) (v : Replan) (rest : List Nat) : replan v (w :: rest) = { v with worst := w } := if_pos h

/-- `e` differs from `d` in the management path only. -/
def Dev.logOnly (d e : Dev) : Prop := ∃ mg, e = { d with mgmt := mg }

theorem logRec_only (d : Dev) (core code tenant unit a b : Nat) : d.logOnly (d.logRec core code tenant unit a b) := ⟨_, d.logRec_eq core code tenant unit a b⟩

theorem deferred_only (d : Dev) (core tenant due : Nat) : d.logOnly (d.deferred core tenant due) := by
  unfold Dev.deferred
  split
  · exact logRec_only d _ _ _ _ _ _
  · exact ⟨d.mgmt, rfl⟩

/-- What an ageing read of region `r` notes in the power block: the tick of a periodic read. -/
def Dev.readNoted (d : Dev) (r : Nat) : Pwr := if (d.region r).fresh then d.pwr else { d.pwr with ageTick := d.tick }

theorem noteRead_only (d : Dev) (r : Nat) : ∃ mg, d.noteRead r = { d with mgmt := mg, pwr := d.readNoted r } := by
  unfold Dev.noteRead Dev.readNoted
  split
  · exact ⟨d.mgmt, rfl⟩
  · obtain ⟨mg, h⟩ := deferred_only { d with pwr := { d.pwr with ageTick := d.tick } } 2 0xFF (max (d.pwr.ageTick + 1) (cdiv (d.region r).nextRead.toNat 1000000))
    exact ⟨mg, h⟩

/-- Lowered maxima and a new margin are logged. -/
def Dev.logReplan (d : Dev) (r margin : Nat) (x : Replan) : Dev :=
  let d1 := x.lowered.foldl (fun d n => d.logRec 2 0x8A 0xFF (unitRegion r 19) n 0) d
  if x.margin = margin then d1 else d1.logRec 2 0x89 0xFF (unitRegion r 19) x.margin 0

theorem logReplan_only (d : Dev) (r margin : Nat) (x : Replan) : d.logOnly (d.logReplan r margin x) := by
  have hlowered : d.logOnly (x.lowered.foldl (fun d n => d.logRec 2 0x8A 0xFF (unitRegion r 19) n 0) d) :=
    foldl_keeps (P := d.logOnly) (fun e n h => by
      obtain ⟨mg, rfl⟩ := h
      obtain ⟨mg', h'⟩ := logRec_only { d with mgmt := mg } 2 0x8A 0xFF (unitRegion r 19) n 0
      exact ⟨mg', h'⟩) x.lowered ⟨d.mgmt, rfl⟩
  unfold Dev.logReplan
  generalize x.lowered.foldl _ d = d1 at hlowered ⊢
  dsimp only
  split
  · exact hlowered
  · obtain ⟨mg, rfl⟩ := hlowered
    obtain ⟨mg', h'⟩ := logRec_only { d with mgmt := mg } 2 0x89 0xFF (unitRegion r 19) x.margin 0
    exact ⟨mg', h'⟩

/-- The re-plan from what a region shows. -/
def RegionState.replanned (v : RegionState) (slacks : List Nat) : Replan :=
  replan { margin := v.margin, maxOp := v.maxNext.getD v.maxOp, exhausted := v.exhausted } slacks

/-- A region after its read at time `t` that the re-plan `x` answered. -/
def RegionState.aged (v : RegionState) (t : W64) (x : Replan) : RegionState :=
  { v with margin := x.margin, exhausted := x.exhausted, worstPs := min 0xFFFF x.worst, reads := satInc v.reads
           maxNext := if x.lowered.isEmpty then v.maxNext else some x.maxOp, nextRead := t + 604800000000000, fresh := false }

/-- A read whose worst slack is at least 15 ps leaves margin and maximum. -/
theorem RegionState.aged_slack {w : Nat} (h : 15 ≤ w) (v : RegionState) (t : W64) (rest : List Nat) :
    (v.aged t (v.replanned (w :: rest))).margin = v.margin ∧ (v.aged t (v.replanned (w :: rest))).maxNext = v.maxNext := by
  rw [RegionState.replanned, replan_slack h]
  exact ⟨rfl, rfl⟩

theorem Dev.ageingDue_iff (d : Dev) (r : Nat) : d.ageingDue r = true ↔
    ((d.region r).fresh = true ∨ (d.region r).nextRead.toNat ≤ d.time.toNat ∧ d.atTick = true ∧ d.pwr.ageTick < d.tick) := by
  simp [Dev.ageingDue, and_assoc]

/-- A read that is due: what it notes and logs, the region, and the voltages (R506, R507). -/
theorem Dev.ageingRead_eq {d : Dev} {r w : Nat} (hawake : d.awake = true) (hpow : (d.region r).powered = true) (hr : r ≤ 15)
    (hdue : d.ageingDue r = true) (hcore : d.coreOut 2 = false) (f : Fuses) (rest : List Nat) : let x := (d.region r).replanned (w :: rest)
    d.ageingRead f r (w :: rest) = (((d.noteRead r).logReplan r (d.region r).margin x).modRegion r (fun v => v.aged d.time x)).allVolts f :=
  if_neg (by simp [hawake, hpow, hdue, hcore, Nat.not_lt.mpr hr])

theorem Dev.ageingRead_none {d : Dev} {r : Nat} (h : d.ageingDue r = false) (f : Fuses) (slacks : List Nat) : d.ageingRead f r slacks = d :=
  if_pos (by simp [h])

/-- What a read that is due leaves of the device: the region aged, and every other region as it was. -/
theorem ageingRead_only {d : Dev} {r w : Nat} (hawake : d.awake = true) (hpow : (d.region r).powered = true) (hr : r ≤ 15)
    (hdue : d.ageingDue r = true) (hcore : d.coreOut 2 = false) (f : Fuses) (rest : List Nat) :
    ∃ di mg, d.ageingRead f r (w :: rest) =
      { d with dies := di, mgmt := mg, pwr := d.readNoted r, regions := d.regions.set r ((d.region r).aged d.time ((d.region r).replanned (w :: rest))) } := by
  rw [Dev.ageingRead_eq hawake hpow hr hdue hcore]
  obtain ⟨mg, hnote⟩ := noteRead_only d r
  obtain ⟨mg', hlog⟩ := logReplan_only (d.noteRead r) r (d.region r).margin ((d.region r).replanned (w :: rest))
  rw [hlog, hnote]
  obtain ⟨di, hvolts⟩ := allVolts_only (({ d with mgmt := mg', pwr := d.readNoted r } : Dev).modRegion r
    (fun v => v.aged d.time ((d.region r).replanned (w :: rest)))) f
  exact ⟨di, mg', hvolts⟩

/-! ## The rows -/

/-- Settles O30: the report of a die is `Dev.opChange_eq`, a read that is due `ageingRead_only`. -/
theorem operatingPointsAndAgeing : Obligations.OperatingPointsAndAgeing := by
  unfold Obligations.OperatingPointsAndAgeing
  refine ⟨fun s k hwait => ?reports, fun s k hwait => next_withDev s (if_pos (by simp [hwait])), fun s r w rest => ⟨?due, ?notDue⟩⟩
  case reports =>
    obtain ⟨e, hrun, ⟨di, re, pa, rfl⟩, hwaits, hforce⟩ := opChange_forces hwait s.nv.fuses
    obtain ⟨di', hvolts⟩ := allVolts_only _ s.nv.fuses
    refine ⟨_, next_withDev s (hrun.trans hvolts), rfl, ?_, hforce⟩
    rw [← Dev.allVolts_avsWait _ s.nv.fuses, hvolts] at hwaits
    exact hwaits
  case due =>
    intro hawake hpow hr hdue hcore
    obtain ⟨di, mg, hread⟩ := ageingRead_only hawake hpow hr ((s.dev.ageingDue_iff r).mpr hdue) hcore s.nv.fuses rest (w := w)
    refine ⟨_, next_withDev s hread, rfl, Tbl.get_set_same _ _ _ _, fun hw => ?_, fun j hj => Tbl.get_set_other _ (Ne.symm hj) _ _⟩
    have haged := (s.dev.region r).aged_slack hw s.dev.time rest
    have hregion : (s.dev.regions.set r ((s.dev.region r).aged s.dev.time ((s.dev.region r).replanned (w :: rest)))).get r {} = _ := Tbl.get_set_same _ _ _ _
    rw [← hregion] at haged
    exact haged
  case notDue =>
    intro hfresh hnot
    refine next_withDev s (Dev.ageingRead_none ?_ _ _)
    rw [Bool.eq_false_iff, ne_eq, Dev.ageingDue_iff, hfresh]
    rintro (h | ⟨htime, htick, hage⟩)
    · cases h
    · rcases hnot with h | h | h
      · omega
      · rw [htick] at h; cases h
      · omega

end Sys2Proof.Machine

/-! PROOFS. The Ethernet ports (R526, R527, R530, R539, R540): links, frames by their type, packets to a next hop, and membership reports. -/
namespace Sys2Proof
/-! ## Big-endian numbers -/

theorem leNat_append (a b : List B8) : leNat (a ++ b) = leNat a + 256 ^ a.length * leNat b := by
  induction a with
  | nil => simp [leNat]
  | cons x a ih =>
    simp only [List.cons_append, leNat, List.length_cons, ih, Nat.pow_succ]
    ring

theorem leNat_lt (l : List B8) : leNat l < 256 ^ l.length := by
  induction l with
  | nil => exact Nat.one_pos
  | cons x l ih =>
    have hx := x.isLt
    simp only [leNat, List.length_cons, Nat.pow_succ]
    omega

theorem beNat_cons (x : B8) (l : List B8) : beNat (x :: l) = leNat l.reverse + 256 ^ l.length * x.toNat := by
  rw [beNat, List.reverse_cons, leNat_append, List.length_reverse]
  simp [leNat]

/-- At most six bytes that spell the address of PAUSE frames begin with its first byte, 1. -/
theorem leAt_of_pause {f : List B8} (h : beNat (f.take 6) = 0x0180C2000001) : leAt f 0 1 = 1 := by
  cases f with
  | nil => simp [beNat, leNat] at h
  | cons x f =>
    have hlow := leNat_lt (f.take 5).reverse
    have hlen : (f.take 5).length ≤ 5 := by simp
    rw [List.take_succ_cons, beNat_cons] at h
    rw [List.length_reverse] at hlow
    have hx := x.isLt
    have hfirst : leAt (x :: f) 0 1 = x.toNat := by simp [leAt, leNat]
    rw [hfirst]
    generalize (f.take 5).length = n at *
    interval_cases n <;> omega

end Sys2Proof

namespace Sys2Proof.Machine
open Sys2Proof

/-! ## Links -/

theorem Dev.shardsLost_none {d : Dev} (h : ∀ e ∈ d.mdl.slots, e.2.load = none) (p : Nat) : d.shardsLost p = d := by
  unfold Dev.shardsLost
  refine List.foldlRecOn (motive := fun e : Dev => e = d) _ _ rfl fun e he x hx => ?_
  rw [he, h x hx]

/-- A port without a link, whose master is not known. -/
def Dev.unplugged (d : Dev) (p : Nat) : Dev := (d.modEth p (fun v => { v with up := false })).setMaster p none

/-- PTP time whose slave port is lost runs on in holdover (R539). -/
def Dev.heldOver (d : Dev) : Dev := if d.ptp.slavePort = none ∧ d.ptp.valid then { d with ptp := { d.ptp with holdover := true } } else d

theorem Dev.ethDown_eq {d : Dev} {p : Nat} (hup : (d.ethPort p).up = true) (h : ∀ e ∈ d.mdl.slots, e.2.load = none) :
    d.ethDown p = (d.unplugged p).heldOver := by
  have hslots : (d.unplugged p).heldOver.mdl = d.mdl := by
    unfold Dev.heldOver
    split <;> rfl
  have hlost := Dev.shardsLost_none (d := (d.unplugged p).heldOver) (by rw [hslots]; exact h) p
  exact (if_neg (by simp [hup])).trans hlost

/-- The PTP block whose master of port `p` is lost. -/
theorem Dev.unplugged_ptp (d : Dev) {p : Nat} (hp : p < 2) : let v := (d.unplugged p).ptp
    (if p = 0 then v.master0 else v.master1) = none ∧ v.slavePort = v.best ∧ v.valid = d.ptp.valid := by
  have h : p = 0 ∨ p = 1 := by omega
  rcases h with rfl | rfl <;> exact ⟨rfl, rfl, rfl⟩

theorem Dev.heldOver_ptp (d : Dev) : d.heldOver = { d with ptp := d.heldOver.ptp } ∧ ∃ b, d.heldOver.ptp = { d.ptp with holdover := b } ∧
    (d.ptp.slavePort = none → d.ptp.valid = true → b = true) := by
  unfold Dev.heldOver
  split
  · exact ⟨rfl, true, rfl, fun _ _ => rfl⟩
  next h => exact ⟨rfl, d.ptp.holdover, rfl, fun hs hv => absurd ⟨hs, hv⟩ h⟩

/-! ## Packets -/

/-- A packet to a multicast address goes out at once. -/
theorem Dev.sendIp_multicast {d : Dev} {dst : List B8} (h : beNat dst / 268435456 = 14) (p proto tos ttl : Nat) (body : List B8) :
    d.sendIp p proto tos ttl dst body = d.send p (d.ipFrame p proto tos ttl dst body) := if_pos (.inl h)

/-- So does one whose next hop is resolved. -/
theorem Dev.sendIp_resolved {d : Dev} {p : Nat} {dst : List B8} (h : (d.ethPort p).arp.get (d.hopFor p dst) 0 ≠ 0) (proto tos ttl : Nat) (body : List B8) :
    d.sendIp p proto tos ttl dst body = d.send p (d.ipFrame p proto tos ttl dst body) := if_pos (.inr h)

/-- One whose next hop is not resolved waits, and the first of them asks for the hop (R527). -/
theorem Dev.sendIp_asks {d : Dev} {p : Nat} {dst : List B8} (hdst : beNat dst / 268435456 ≠ 14) (h : (d.ethPort p).arp.get (d.hopFor p dst) 0 = 0)
    (hhop : d.hopFor p dst ≠ 0) (hnone : (d.ethPort p).waiting = []) (proto tos ttl : Nat) (body : List B8) :
    (d.sendIp p proto tos ttl dst body).ethPort p =
      { d.ethPort p with waiting := [(d.hopFor p dst, (d.ipFrame p proto tos ttl dst body).drop 6)], tx := (d.ethPort p).tx ++ [d.arpRequest p (d.hopFor p dst)] } := by
  unfold Dev.sendIp
  rw [if_neg (not_or.mpr ⟨hdst, not_not.mpr h⟩), if_neg hhop, hnone]
  dsimp only
  rw [if_neg (by simp), Dev.send, Dev.modEth_modEth, Dev.modEth_ethPort, hnone]
  rfl

/-! ## Membership reports (R530) -/

/-- `e` is `d` after port `p` has been handed `n` more frames. -/
def Dev.Sent (p n : Nat) (d e : Dev) : Prop :=
  e = { d with eth := e.eth } ∧ ∃ fs : List (List B8), fs.length = n ∧ e.ethPort p = { d.ethPort p with tx := (d.ethPort p).tx ++ fs }

theorem sent_refl (p : Nat) (d : Dev) : d.Sent p 0 d := ⟨rfl, [], rfl, by simp⟩

theorem sent_trans {p m n : Nat} {a b c : Dev} (h : a.Sent p m b) (k : b.Sent p n c) : a.Sent p (m + n) c := by
  obtain ⟨hb, fs, hlen, htx⟩ := h
  obtain ⟨hc, gs, hlen', htx'⟩ := k
  refine ⟨hc.trans (by rw [hb]), fs ++ gs, by rw [List.length_append, hlen, hlen'], ?_⟩
  rw [htx', htx, List.append_assoc]

theorem send_sent (d : Dev) (p : Nat) (f : List B8) : d.Sent p 1 (d.send p f) := ⟨rfl, [f], rfl, d.modEth_ethPort p _⟩

theorem igmpReport_sent (d : Dev) (p group : Nat) : d.Sent p 1 (d.igmpReport p group) := by
  unfold Dev.igmpReport
  rw [Dev.sendIp_multicast (by decide)]
  exact send_sent d p _

theorem igmpReports_sent (p : Nat) (l : List Nat) (d : Dev) : d.Sent p l.length (l.foldl (fun d s => d.igmpReport p (d.cfg.streamAddr s)) d) := by
  induction l generalizing d with
  | nil => exact sent_refl p d
  | cons s l ih =>
    rw [List.length_cons, Nat.add_comm]
    exact sent_trans (igmpReport_sent d p _) (ih _)

/-- A query brings a report for each enabled multicast stream of the port. -/
theorem joinPort_sent (d : Dev) (p : Nat) : d.Sent p ((List.range 1024).filter (fun n =>
    d.cfg.streamOn n && decide (d.cfg.streamEth n = p) && decide (d.cfg.streamAddr n / 268435456 = 14))).length (d.joinPort p) :=
  igmpReports_sent p _ d

/-! ## Frames (R527) -/

/-- A frame to another address is dropped and counted. -/
theorem Dev.ethReceive_other {d : Dev} {p : Nat} {f : List B8} (hawake : d.awake = true) (hon : d.cfg.ethOn p = true) (hup : (d.ethPort p).up = true)
    (hgroup : (leAt f 0 1).testBit 0 = false) (hmac : f.take 6 ≠ d.cfg.ethMac p) : d.ethReceive p f = d.dropFrameRx p := by
  have hpause : d.cfg.isPause p f = false := by
    have hnot : beNat (f.take 6) ≠ 0x0180C2000001 := fun h => by rw [leAt_of_pause h] at hgroup; cases hgroup
    simp [Cfg.isPause, hmac, hnot]
  unfold Dev.ethReceive
  rw [if_neg (by simp [hawake, hon, hup, hpause])]
  extract_lets tagged vid known group rest typ
  have hgroup' : group = false := hgroup
  exact if_pos (by simp [hgroup', hmac])

/-- A frame to the port's own address, without a VLAN tag on a port without one, goes by its type. -/
theorem Dev.ethReceive_own {d : Dev} {p : Nat} {f : List B8} (hawake : d.awake = true) (hon : d.cfg.ethOn p = true) (hup : (d.ethPort p).up = true)
    (hvlan : d.cfg.ethVlanOn p = false) (htag : beNat ((f.drop 12).take 2) ≠ 0x8100) (hmac : f.take 6 = d.cfg.ethMac p) :
    d.ethReceive p f = if beNat ((f.drop 12).take 2) = 0x8808 then d else if beNat ((f.drop 12).take 2) = 0x0806 then d.arpFrame p (f.drop 14)
      else if beNat ((f.drop 12).take 2) = 0x0800 then d.ipv4Frame p (f.drop 14) else d.dropFrameRx p := by
  unfold Dev.ethReceive
  by_cases hpause : beNat ((f.drop 12).take 2) = 0x8808
  · rw [if_pos hpause]
    exact if_pos (by simp [Cfg.isPause, hpause, hmac])
  · rw [if_neg hpause, if_neg (by simp [hawake, hon, hup, Cfg.isPause, hpause])]
    simp [hvlan, htag, hmac, List.drop_drop]

/-- An ARP request for the port's address is answered. -/
theorem Dev.arpFrame_request {d : Dev} {p : Nat} {b : List B8} (hvlan : d.cfg.ethVlanOn p = false) (hmine : (b.drop 24).take 4 = d.cfg.ethIp p)
    (hop : beNat ((b.drop 6).take 2) = 1) : d.arpFrame p b =
      d.send p ((b.drop 8).take 6 ++ d.cfg.ethMac p ++ beBytes 2 0x0806 ++ beBytes 2 1 ++ beBytes 2 0x0800 ++ [6, 4] ++ beBytes 2 2 ++ d.cfg.ethMac p ++
        d.cfg.ethIp p ++ (b.drop 8).take 6 ++ (b.drop 14).take 4) := by
  unfold Dev.arpFrame
  rw [hop]
  simp [hvlan, hmine]

/-- An ARP reply to the port resolves the address of its sender. -/
theorem Dev.arpFrame_reply {d : Dev} {p : Nat} {b : List B8} (hmine : (b.drop 24).take 4 = d.cfg.ethIp p) (hop : beNat ((b.drop 6).take 2) = 2) :
    d.arpFrame p b = d.modEth p (fun v => v.resolve (beNat ((b.drop 14).take 4)) ((b.drop 8).take 6)) := by
  unfold Dev.arpFrame
  rw [hop]
  simp [hmine]

/-- An ICMP echo request to the port's address is answered with the data it brought. -/
theorem Dev.ipv4Frame_echo {d : Dev} {p : Nat} {b : List B8} (hproto : leAt b 9 1 = 1) (hdst : (b.drop 16).take 4 = d.cfg.ethIp p) :
    let m := (b.take (beNat ((b.drop 2).take 2))).drop (4 * (leAt b 0 1 % 16))
    leAt m 0 1 = 8 → d.ipv4Frame p b =
      d.sendIp p 1 0 64 ((b.drop 12).take 4) ([0, 0] ++ beBytes 2 (checksum ([0, 0] ++ beBytes 2 0 ++ m.drop 4)) ++ m.drop 4) := by
  intro m hecho
  unfold Dev.ipv4Frame
  rw [hproto]
  simp only [hdst]
  exact if_pos hecho

/-! ## The rows -/

/-- Settles O44: links by `Dev.ethDown_eq`, frames by their type (`Dev.ethReceive_own`), packets by the state of their next hop (`Dev.sendIp_asks`). -/
theorem ethernetLinksAndFrames : Obligations.EthernetLinksAndFrames := by
  unfold Obligations.EthernetLinksAndFrames
  intro s p hp hawake
  dsimp only
  refine ⟨fun hon => ?_, fun hoff => ?_, fun hup hslots => ?down, fun hdown => ?_, fun hon hup => ?query, fun f hoff => ?_, fun f hon hup hgroup hmac => ?_,
    fun f hon hup hvlan htag hmac => ?own, fun proto tos ttl dst body hdst => ⟨fun h => ?_, fun h hhop hnone => ?_⟩⟩
  case down =>
    obtain ⟨hmaster, hslave, hvalid⟩ := s.dev.unplugged_ptp hp
    obtain ⟨honly, b, hptp, hholds⟩ := (s.dev.unplugged p).heldOver_ptp
    have hport (k : Nat) : (s.dev.unplugged p).heldOver.ethPort k = (s.dev.modEth p (fun v => { v with up := false })).ethPort k := by
      rw [honly]
      unfold Dev.unplugged Dev.setMaster
      rfl
    refine ⟨_, next_withDev s (Dev.ethDown_eq hup hslots), ?_, ?_, ?_, ?_, ?_, fun hnone hv => ?_⟩
    · rw [honly]; rfl
    · rw [hport, Dev.modEth_ethPort]
    · exact (hport _).trans (Dev.modEth_ethPort_other _ (by omega) _)
    · rw [hptp]; exact hmaster
    · rw [hptp]; exact hslave
    · rw [hptp] at hnone ⊢
      exact hholds hnone (hvalid.trans hv)
  case query =>
    obtain ⟨honly, fs, hlen, htx⟩ := joinPort_sent s.dev p
    have hrun : exec (.igmpQuery p) s = .next (s.withDev (s.dev.joinPort p)) := next_withDev s (if_pos (by simp [hawake, hon, hup]))
    generalize s.dev.joinPort p = e at hrun honly htx
    exact ⟨_, hrun, congrArg s.withDev honly, fs, htx, hlen⟩
  case own =>
    have hrun := Dev.ethReceive_own hawake hon hup hvlan htag hmac
    refine ⟨fun ht => ?_, fun hip harp hpause => ?_, fun ht hmine hop => ?_, fun ht hmine hop => ?_, fun ht hproto hdst hecho => ?_⟩
    · exact next_withDev s (hrun.trans (if_pos ht))
    · exact next_withDev s (hrun.trans ((if_neg hpause).trans ((if_neg harp).trans (if_neg hip))))
    · exact next_withDev s (hrun.trans ((if_neg (by omega)).trans ((if_pos ht).trans (Dev.arpFrame_request hvlan hmine hop))))
    · exact next_withDev s (hrun.trans ((if_neg (by omega)).trans ((if_pos ht).trans (Dev.arpFrame_reply hmine hop))))
    · exact next_withDev s (hrun.trans ((if_neg (by omega)).trans ((if_neg (by omega)).trans ((if_pos ht).trans (Dev.ipv4Frame_echo hproto hdst hecho)))))
  · exact next_withDev s (if_pos (by simp [hawake, hon]))
  · exact next_withDev s (if_neg (by simp [hoff]))
  · exact next_withDev s (if_pos (by simp [hdown]))
  · exact next_withDev s (if_pos (by rcases hoff with h | h <;> simp [h]))
  · exact next_withDev s (Dev.ethReceive_other hawake hon hup hgroup hmac)
  · exact Dev.sendIp_resolved h _ _ _ _
  · exact Dev.sendIp_asks hdst h hhop hnone _ _ _ _

end Sys2Proof.Machine

/-! PROOFS. Sleep is asked for and entered (R479-R484): the request, the drain limit, and the last steps of an entry. -/
namespace Sys2Proof.Machine
open Sys2Proof

/-! ## The request -/

/-- PWR_STATE_REQ as ENTER_DUSK (2) and ENTER_NIGHT (3) write it. -/
def sleepRequest (target : Nat) (v : W64) : W64 := BitVec.ofNat 64 (v.toNat / 4 * 4 + target)

theorem fld_sleepRequest_target {target : Nat} (ht : target < 4) (v : W64) : fld (sleepRequest target v) 0 2 = target := by
  have hv := v.isLt
  simp only [fld, sleepRequest, BitVec.toNat_ofNat, Nat.shiftRight_zero]
  omega

theorem fld_sleepRequest_drain {target : Nat} (ht : target < 4) (v : W64) : fld (sleepRequest target v) 16 16 = fld v 16 16 := by
  have hv := v.isLt
  simp only [fld, sleepRequest, BitVec.toNat_ofNat, Nat.shiftRight_eq_div_pow]
  omega

/-- A write of PWR_STATE_REQ that acts. -/
theorem State.write_stateReq {s : State} (h : s.dev.Serves mgmtParty 0xD0008) (a : W64) :
    s.write mgmtParty 0xD0008 a 64 [] =
      if (s.dev.writePwr 8 a a).2 = 0 then s.withDev (s.dev.writePwr 8 a a).1
      else s.withDev ((s.dev.writePwr 8 a a).1.regRec mgmtParty (s.dev.writePwr 8 a a).2 0 0 0xD0008) := by
  rw [State.write_aligned h, State.act_whole h (by decide) (by decide), if_neg (by decide)]
  rfl

/-- PWR_STATE_REQ keeps its request for the next tick, or is recorded. -/
theorem Dev.writePwr_stateReq (d : Dev) (a : W64) : d.writePwr 8 a a =
    if 10000 < fld a 16 16 then (d, 0x04) else ({ d with pwr := { d.pwr with req := d.pwr.req ++ [(fld a 0 2, fld a 16 16)] } }, 0) := rfl

theorem State.write_sleepRequest {s : State} (h : s.dev.Serves mgmtParty 0xD0008) {target : Nat} (ht : target < 4) {v : W64}
    (hdrain : fld v 16 16 ≤ 10000) : s.write mgmtParty 0xD0008 (sleepRequest target v) 64 [] =
      s.withDev { s.dev with pwr := { s.dev.pwr with req := s.dev.pwr.req ++ [(target, fld v 16 16)] } } := by
  rw [State.write_stateReq h, Dev.writePwr_stateReq, fld_sleepRequest_drain ht, fld_sleepRequest_target ht, if_neg (Nat.not_lt.mpr hdrain)]
  rfl

theorem State.write_sleepRequest_long {s : State} (h : s.dev.Serves mgmtParty 0xD0008) {target : Nat} (ht : target < 4) {v : W64}
    (hdrain : 10000 < fld v 16 16) : s.write mgmtParty 0xD0008 (sleepRequest target v) 64 [] = s.withDev (s.dev.regRec mgmtParty 0x04 0 0 0xD0008) := by
  rw [State.write_stateReq h, Dev.writePwr_stateReq, fld_sleepRequest_drain ht, if_pos hdrain]
  rfl

/-! ## The drain limit -/

theorem Dev.drainTimeout_late {d : Dev} (he : d.pwr.entering = true) (hdr : d.drained = false)
    (hlate : d.pwr.entryAt.toNat + 1000000 * d.pwr.drainMs ≤ d.time.toNat) :
    d.drainTimeout = { d with pwr := { d.pwr with entering := false, reqStatus := 0x11 } } :=
  if_pos (by simp [he, hdr, hlate])

theorem Dev.drainTimeout_other {d : Dev} (h : d.pwr.entering = false ∨ d.drained = true ∨
    ¬ d.pwr.entryAt.toNat + 1000000 * d.pwr.drainMs ≤ d.time.toNat) : d.drainTimeout = d :=
  if_neg (by rcases h with h | h | h <;> simp [h])

theorem pwr_of_vitals {d e : Dev} (h : e.vitals = d.vitals) : e.pwr = d.pwr := congrArg (fun v => v.2.1) h

/-! ## What an entry loses on its way: tier copies, and the loads that a link carried -/

theorem Dev.giveUpSlot_vitals (d : Dev) (e : Nat × Tile) : (d.giveUpSlot e).vitals = d.vitals := by
  refine (vitals_foldl (fun x i => ?_) _ _).trans (vitals_of_memOnly (d.writeBack_only e.1 e.2))
  exact (Dev.record_vitals _ _).trans (vitals_of_memOnly (x.countUe_only 1))

theorem Dev.endLoad_vitals (d : Dev) (n : Nat) (f : Fail) : (d.endLoad n f).vitals = d.vitals := by
  unfold Dev.endLoad
  split
  · rfl
  · exact Dev.failDisp_vitals _ _ _

theorem Dev.settle_vitals (d : Dev) (n : Nat) : (d.settle n).vitals = d.vitals := by
  unfold Dev.settle
  extract_lets v d1
  have h1 : d1.vitals = d.vitals := d.modSlot_vitals n _
  split
  · split
    · exact (d1.finish_vitals _ 0).trans h1
    · exact h1
  · split
    · exact d.modSlot_vitals n _
    · rfl

theorem Dev.shardMiss_vitals (d : Dev) (n : Nat) (l : Load) (i : Nat) (digest : Bool) : (d.shardMiss n l i digest).vitals = d.vitals := by
  unfold Dev.shardMiss
  extract_lets k
  split
  · exact d.modSlot_vitals n _
  · split
    · exact (Dev.settle_vitals _ n).trans (d.endLoad_vitals n _)
    · exact d.modSlot_vitals n _

theorem Dev.shardLost_vitals (d : Dev) (n i : Nat) : (d.shardLost n i).vitals = d.vitals := by
  unfold Dev.shardLost
  split
  · rfl
  · split
    · rfl
    · exact d.shardMiss_vitals n _ i false

theorem Dev.shardsLost_vitals (d : Dev) (p : Nat) : (d.shardsLost p).vitals = d.vitals := by
  refine vitals_foldl (fun e x => ?_) _ d
  split
  · rfl
  · split
    · rfl
    · exact vitals_foldl (fun e i => e.shardLost_vitals x.1 i) _ e

theorem Dev.ethDown_vitals (d : Dev) (p : Nat) : (d.ethDown p).vitals = d.vitals := by
  unfold Dev.ethDown
  split
  · rfl
  · refine (Dev.shardsLost_vitals _ p).trans ?_
    dsimp only
    split <;> rfl

theorem Dev.tracksOff_vitals (d : Dev) : d.tracksOff.vitals = d.vitals := by
  unfold Dev.tracksOff
  generalize List.range 256 = l
  refine (vitals_foldl (fun e n => ?_) l d :)
  split <;> rfl

/-! ## The last steps of an entry -/

/-- An alarm that matures as the entry ends touches the alarm alone. -/
theorem Dev.alarmAtEntry_eq (d : Dev) : ∃ en latched lost,
    d.alarmAtEntry = { d with pwr := { d.pwr with alarmEn := en, alarmLatched := latched, alarmLostPend := lost } } := by
  unfold Dev.alarmAtEntry
  extract_lets c p
  split
  · exact ⟨_, _, _, rfl⟩
  · split <;> exact ⟨_, _, _, rfl⟩

/-- The device as its copies are written back and its links and tracks go: what step 7 of an entry finds. -/
def Dev.windDown (d : Dev) : Dev :=
  ([0, 1].foldl (fun d p => d.ethDown p) ((d.mapped.filter (fun e => e.2.onchip)).foldl (fun d e => d.giveUpSlot e) d.alarmAtEntry)).tracksOff

theorem Dev.windDown_pwr (d : Dev) : d.windDown.pwr = d.alarmAtEntry.pwr := by
  have hcopies (l : List (Nat × Tile)) (e : Dev) : (l.foldl (fun d e => d.giveUpSlot e) e).vitals = e.vitals :=
    vitals_foldl (fun e x => e.giveUpSlot_vitals x) l e
  have hlinks (e : Dev) : ([0, 1].foldl (fun d p => d.ethDown p) e).vitals = e.vitals := vitals_foldl (fun e p => e.ethDown_vitals p) _ e
  have h : d.windDown.vitals = d.alarmAtEntry.vitals := by
    rw [Dev.windDown, Dev.tracksOff_vitals, hlinks, hcopies]
  exact pwr_of_vitals h

/-- Step 7, at time `t`: contents that no domain keeps are lost, and domains go off. -/
def Dev.domainsOff (d : Dev) (t : W64) : Dev :=
  { d with
    time := t
    clusters := d.clusters.map (fun (e : Nat × Cluster) => (e.1, { e.2 with scales := [] }))
    mem := { d.mem with tags := d.mem.tags.filter (fun e => d.keepsTag e.1), selfRefresh := true }
    pls := { d.pls with
      ch := d.pls.ch.map (fun (e : Nat × Pulse) => (e.1, { e.2 with stepPin := false }))
      uarts := d.pls.uarts.map (fun (e : Nat × Uart) => (e.1, { e.2 with dePin := false })) }
    regions := d.regions.map (fun (e : Nat × RegionState) => (e.1, { e.2 with powered := false, waiting := [] })) }

/-- The power block of a device that has just fallen asleep at time `t`. -/
def Pwr.asleep (p : Pwr) (t : W64) : Pwr :=
  { p with state := p.entryTarget, entering := false, sleeps := p.sleeps + 1, domains := 0x840000, sleepAt := t, watchAt := t
           watches := 0, faults := 0, duskRef := none }

/-- The device as it sleeps, before a wake that has come while it fell asleep. -/
def Dev.justAsleep (d : Dev) (t : W64) : Dev := { d.domainsOff t with pwr := d.pwr.asleep t }

theorem Dev.fallAsleep_eq (d : Dev) : let e := d.windDown.justAsleep (d.windDown.time + BitVec.ofNat 64 (aonNs (entryCycles + 4)))
    d.fallAsleep = if e.pwr.wakePin || e.pwr.wakeSeen then e.wake 5 else if e.pwr.alarmLatched then e.wake 1 else e := by
  unfold Dev.fallAsleep Dev.windDown
  dsimp only
  generalize Dev.tracksOff _ = e
  generalize BitVec.ofNat 64 (aonNs (entryCycles + 4)) = n
  rfl

/-- A wake begins Dawn or does nothing: of the power block it leaves the package state, the entry and the count of sleeps. -/
theorem Dev.wake_only (d : Dev) (cause : Nat) : ∃ p, d.wake cause = { d with pwr := p } ∧ p.state = d.pwr.state ∧ p.entering = d.pwr.entering ∧
    p.sleeps = d.pwr.sleeps := by
  unfold Dev.wake
  split
  · exact ⟨_, rfl, rfl, rfl, rfl⟩
  · exact ⟨_, rfl, rfl, rfl, rfl⟩

theorem Dev.windDown_ptp (d : Dev) : d.windDown.ptp.valid = false := by
  unfold Dev.windDown Dev.tracksOff
  generalize List.range 256 = l
  rfl

/-- The device falls asleep: domains are off, and of the power block the entry's state and count are known. -/
theorem Dev.fallAsleep_only (d : Dev) : ∃ e t p, d.fallAsleep = { Dev.domainsOff e t with pwr := p } ∧ e.ptp.valid = false ∧ p.state = d.pwr.entryTarget ∧
    p.entering = false ∧ p.sleeps = d.pwr.sleeps + 1 := by
  have h := d.fallAsleep_eq
  have hptp := d.windDown_ptp
  have hpwr : d.windDown.pwr.entryTarget = d.pwr.entryTarget ∧ d.windDown.pwr.sleeps = d.pwr.sleeps := by
    obtain ⟨_, _, _, halarm⟩ := d.alarmAtEntry_eq
    rw [Dev.windDown_pwr, halarm]
    exact ⟨rfl, rfl⟩
  generalize d.windDown.time + _ = t at h
  generalize d.windDown = e at h hptp hpwr
  obtain ⟨htarget, hsleeps⟩ := hpwr
  have woken (cause : Nat) : ∃ p, (e.justAsleep t).wake cause = { e.domainsOff t with pwr := p } ∧ p.state = d.pwr.entryTarget ∧ p.entering = false ∧
      p.sleeps = d.pwr.sleeps + 1 := by
    obtain ⟨p, hwake, pstate, pentering, psleeps⟩ := (e.justAsleep t).wake_only cause
    exact ⟨p, hwake, pstate.trans htarget, pentering, psleeps.trans (congrArg (· + 1) hsleeps)⟩
  have hcases : (∃ cause, d.fallAsleep = (e.justAsleep t).wake cause) ∨ d.fallAsleep = e.justAsleep t := by
    rw [h]
    split
    · exact .inl ⟨5, rfl⟩
    · split
      · exact .inl ⟨1, rfl⟩
      · exact .inr rfl
  refine ⟨e, t, ?_⟩
  rcases hcases with ⟨cause, hwoken⟩ | hslept
  · obtain ⟨p, hp, hpwr⟩ := woken cause
    exact ⟨p, hwoken.trans hp, hptp, hpwr⟩
  · exact ⟨_, hslept, hptp, htarget, rfl, congrArg (· + 1) hsleeps⟩

theorem Dev.domainsOff_region (d : Dev) (t : W64) (r : Nat) : ((d.domainsOff t).region r).powered = false := by
  have h : (d.domainsOff t).region r = { d.region r with powered := false, waiting := [] } :=
    Tbl.get_mapVal (f := fun v : RegionState => { v with powered := false, waiting := [] }) rfl d.regions r
  rw [h]

theorem Dev.domainsOff_keepsTag (d : Dev) (t : W64) {x : Nat × BufTag} (h : x ∈ (d.domainsOff t).mem.tags) : d.keepsTag x.1 = true :=
  (List.mem_filter.mp h).2

/-- Settles O31: the two requests as writes of PWR_STATE_REQ, the drain limit's two cases, and the last steps of an entry. -/
theorem sleepIsAskedForAndEntered : Obligations.SleepIsAskedForAndEntered := by
  unfold Obligations.SleepIsAskedForAndEntered
  refine ⟨fun s v h => ?_, fun s => ⟨fun he hdr hlate => ?_, fun h => ?_⟩, fun d => ?_⟩
  · have hdusk : exec (.enterDusk v) s = .next (s.write mgmtParty 0xD0008 (sleepRequest 2 v) 64 []) := rfl
    have hnight : exec (.enterNight v) s = .next (s.write mgmtParty 0xD0008 (sleepRequest 3 v) 64 []) := rfl
    rw [hdusk, hnight]
    refine ⟨fun hdrain => ?_, fun hdrain => ?_⟩
    · rw [State.write_sleepRequest h (by decide) hdrain, State.write_sleepRequest h (by decide) hdrain]
      exact ⟨rfl, rfl⟩
    · rw [State.write_sleepRequest_long h (by decide) hdrain, State.write_sleepRequest_long h (by decide) hdrain]
      exact ⟨rfl, rfl⟩
  · exact next_withDev s (Dev.drainTimeout_late he hdr hlate)
  · exact next_withDev s (Dev.drainTimeout_other h)
  · obtain ⟨e, t, p, h, hptp, hstate, hentering, hsleeps⟩ := d.fallAsleep_only
    dsimp only
    rw [h]
    exact ⟨hstate, hentering, hsleeps, rfl, fun r _ => e.domainsOff_region t r, fun _ hx => e.domainsOff_keepsTag t hx, hptp⟩

end Sys2Proof.Machine

/-! PROOFS. What memory operations, the ends of commands, records, firings and faults leave of the device's stance: its power block, its
configuration, whether LP5X is in self-refresh, and the register writes it holds (R482, R483). -/
namespace Sys2Proof.Machine
open Sys2Proof

/-- Power block, configuration, LP5X in self-refresh, and the writes held of each party. -/
def Dev.stance (d : Dev) : Pwr × Cfg × Bool × (Nat → List HeldWrite) := (d.pwr, d.cfg, d.mem.selfRefresh, d.heldWrites)

theorem stance_foldl {β : Type} {f : Dev → β → Dev} (hf : ∀ d b, (f d b).stance = d.stance) (l : List β) (d : Dev) : (l.foldl f d).stance = d.stance :=
  foldl_keeps (P := fun e => e.stance = d.stance) (fun e b h => (hf e b).trans h) l rfl

/-- A change of a tenant that keeps its held writes. -/
theorem Dev.modTen_stance (d : Dev) (n : Nat) {f : Tenant → Tenant} (hf : ∀ v, (f v).held = v.held) : (d.modTen n f).stance = d.stance := by
  have hheld : (d.modTen n f).heldWrites = d.heldWrites := by
    funext p
    simp only [Dev.heldWrites]
    by_cases hp : n = p
    · subst hp; rw [Dev.modTen_ten, hf]; rfl
    · rw [Dev.modTen_ten_other d hp]; rfl
  simp only [Dev.stance, hheld]; rfl

theorem Dev.event_stance (d : Dev) (t k : Nat) : (d.event t k).stance = d.stance := d.modTen_stance t fun _ => rfl

/-! ## Memory -/

theorem Dev.driveUse_stance (d : Dev) (drv : Nat) : (d.driveUse drv).1.stance = d.stance := by
  unfold Dev.driveUse
  split
  · rfl
  · split <;> rfl

theorem Dev.driveCheck_stance (d : Dev) (f : Nat) : (d.driveCheck f).1.stance = d.stance := by
  have h := d.driveUse_stance (driveOf f)
  unfold Dev.driveCheck
  split <;> rename_i hk <;> rw [hk] at h <;> exact h

theorem Dev.readSram_stance (d : Dev) (live : Nat → Bool) (a n : Nat) : (d.readSram live a n).1.stance = d.stance := by
  unfold Dev.readSram
  dsimp only
  split <;> split <;> rfl

theorem Dev.countLinkCe_stance (d : Dev) (a n : Nat) : (d.countLinkCe a n).stance = d.stance := by
  unfold Dev.countLinkCe
  dsimp only
  split <;> rfl

theorem Dev.readPhys_stance (d : Dev) (a n : Nat) : (d.readPhys a n).1.stance = d.stance := by
  have h := d.countLinkCe_stance a n
  unfold Dev.readPhys
  split
  · exact d.readSram_stance _ a n
  · split
    · split <;> rfl
    · split
      · rfl
      · dsimp only
        split
        · exact h
        · split
          · exact h
          · split <;> exact h

theorem Dev.writePhys_stance (d : Dev) (a : Nat) (l : List B8) : (d.writePhys a l).stance = d.stance := rfl

theorem Dev.copyPieces_stance (d : Dev) (src dst : Nat) (ps : List (Nat × Nat)) : (d.copyPieces src dst ps).stance = d.stance := by
  unfold Dev.copyPieces
  split
  · rfl
  · refine Eq.trans ?_ (stance_foldl (fun e x => e.writePhys_stance (dst + x.1) (e.mem.phys.read (src + x.1) x.2)) ps d)
    unfold Dev.sealBlocks
    split <;> rfl

theorem Dev.readPieces_stance (d : Dev) (src : Nat) (ps : List (Nat × Nat)) : (d.readPieces src ps).1.stance = d.stance := by
  refine foldl_keeps (P := fun s : Dev × Option Fail => s.1.stance = d.stance) ?_ ps rfl
  rintro ⟨e, r⟩ x h
  cases r with
  | some _ => exact h
  | none =>
    have h1 := e.readPhys_stance (src + x.1) x.2
    dsimp only
    split <;> rename_i hk <;> rw [hk] at h1 <;> exact h1.trans h

theorem Dev.bringUp_stance (d : Dev) (key : Nat) (v : Tile) (ps : List (Nat × Nat)) : (d.bringUp key v ps).1.stance = d.stance := by
  unfold Dev.bringUp
  split
  · rfl
  · split
    · rfl
    · split
      · rfl
      · have h1 := d.driveCheck_stance v.frame
        split <;> rename_i hk <;> rw [hk] at h1
        · exact h1
        · rename_i d1
          have h2 := d1.readPieces_stance (v.frame * tileSize) ps
          split <;> rename_i hk <;> rw [hk] at h2
          · exact h2.trans h1
          · exact Eq.trans (Dev.copyPieces_stance _ _ _ ps) (h2.trans h1)

theorem Dev.readIn_stance (d : Dev) (v : View) (a n : Nat) : (d.readIn v a n).1.stance = d.stance := by
  unfold Dev.readIn
  dsimp only
  split
  · rfl
  · split
    · rfl
    · rename_i t _
      split
      · rfl
      · have h1 := d.bringUp_stance (d.keyAt v a) t [(0, tileSize)]
        split <;> rename_i hk <;> rw [hk] at h1
        · exact h1
        · split
          · exact h1
          · exact (Dev.readPhys_stance _ _ _).trans h1

theorem Dev.mapTile_stance (d : Dev) (party k : Nat) : (d.mapTile party k).1.stance = d.stance := by
  unfold Dev.mapTile
  dsimp only
  split
  · rfl
  · split
    · rfl
    · split
      · rfl
      · split <;> rfl

theorem Dev.storeTile_stance (d : Dev) (k a : Nat) (l : List B8) (w : Tile) : (d.storeTile k a l w).stance = d.stance := by
  unfold Dev.storeTile
  dsimp only
  split
  · rfl
  · split <;> rfl

theorem Dev.openTile_stance (d : Dev) (party k : Nat) : (d.openTile party k).1.stance = d.stance := by
  unfold Dev.openTile
  split
  · rfl
  · exact d.mapTile_stance party k

theorem Dev.storeOpen_stance (d : Dev) (v : View) (k a : Nat) (l : List B8) : (d.storeOpen v k a l).1.stance = d.stance := by
  unfold Dev.storeOpen
  split
  · rfl
  · rename_i t _
    have h1 := d.bringUp_stance k t [(0, tileSize)]
    split
    · rfl
    · split
      · rfl
      · split
        · rfl
        · split <;> rename_i hk <;> rw [hk] at h1
          · exact h1
          · split
            · exact h1
            · exact (Dev.storeTile_stance _ _ _ _ _).trans h1

theorem Dev.writeIn_stance (d : Dev) (v : View) (a : Nat) (l : List B8) : (d.writeIn v a l).1.stance = d.stance := by
  have h0 := d.openTile_stance v.party (d.keyAt v a)
  rw [writeIn_eq]
  split
  · rfl
  · split
    · rfl
    · split <;> rename_i hk <;> rw [hk] at h0
      · exact h0
      · exact (Dev.storeOpen_stance _ v _ a l).trans h0

theorem Dev.readMem_stance (d : Dev) (v : View) (a n : Nat) : (d.readMem v a n).1.stance = d.stance := by
  refine foldl_keeps (P := fun s : Dev × Except Fail (List B8) => s.1.stance = d.stance) ?_ (tileParts a n) rfl
  rintro ⟨e, r⟩ x h
  cases r with
  | error _ => exact h
  | ok l =>
    have h1 := e.readIn_stance v x.1 x.2
    dsimp only
    split <;> rename_i hk <;> rw [hk] at h1 <;> exact h1.trans h

theorem Dev.writeMem_stance (d : Dev) (v : View) (a : Nat) (l : List B8) : (d.writeMem v a l).1.stance = d.stance := by
  refine foldl_keeps (P := fun s : Dev × Option Fail => s.1.stance = d.stance) ?_ (tileParts a l.length) rfl
  rintro ⟨e, r⟩ x h
  cases r with
  | some _ => exact h
  | none => exact (e.writeIn_stance v x.1 _).trans h

theorem Dev.hostWrite_stance (d : Dev) (port a : Nat) (l : List B8) : (d.hostWrite port a l).stance = d.stance := rfl

theorem Dev.deviceWrite_stance (d : Dev) (party p a : Nat) (l : List B8) : (d.deviceWrite party p a l).stance = d.stance := d.writeMem_stance _ a l

/-! ## Progress, records and completion entries -/

theorem Dev.putProg_stance (d : Dev) (p slot : Nat) (v : Progress) : (d.putProg p slot v).stance = d.stance := by
  unfold Dev.putProg
  split
  · exact d.modTen_stance p fun _ => rfl
  · rfl

theorem Dev.setProgress_stance (d : Dev) (p slot kind value : Nat) : (d.setProgress p slot kind value).stance = d.stance := by
  unfold Dev.setProgress
  split
  · exact d.putProg_stance p slot _
  · unfold Dev.showProgress
    dsimp only
    split
    · exact (Dev.event_stance _ p 3).trans (d.putProg_stance p slot _)
    · exact d.putProg_stance p slot _

theorem Dev.setBusy_stance (d : Dev) (p slot : Nat) (b : Bool) : (d.setBusy p slot b).stance = d.stance := d.putProg_stance p slot _

theorem Dev.globalRec_stance (d : Dev) (r : ErrRec) : (d.globalRec r).stance = d.stance := by
  unfold Dev.globalRec
  dsimp only
  split
  · rfl
  · split <;> rfl

theorem Dev.tenantRec_stance (d : Dev) (t : Nat) (r : ErrRec) : (d.tenantRec t r).stance = d.stance := by
  unfold Dev.tenantRec
  extract_lets g _ b d1 d2
  have h2 : d2.stance = d.stance := by
    have h1 : d1.stance = d.stance := d.deviceWrite_stance _ _ _ _
    simp only [d2, apply_ite Dev.stance, Dev.hostWrite_stance, h1, ite_self]
  split
  · rfl
  · split
    · exact d.modTen_stance t fun _ => rfl
    · exact (Dev.event_stance _ t 1).trans (Eq.trans (Dev.modTen_stance _ t fun _ => by rfl) h2)

theorem Dev.record_stance (d : Dev) (r : ErrRec) : (d.record r).stance = d.stance := by
  have hcount (e : Dev) (unit who : Nat) : (e.countUnit unit who).stance = e.stance := by
    unfold Dev.countUnit
    split <;> rfl
  unfold Dev.record
  rw [hcount, Dev.globalRec_stance]
  split
  · exact d.tenantRec_stance _ r
  · rfl

theorem Dev.failRec_stance (d : Dev) (p unit : Nat) (f : Fail) : (d.failRec p unit f).stance = d.stance := d.record_stance _

theorem Dev.logRec_stance (d : Dev) (core code tenant unit a b : Nat) : (d.logRec core code tenant unit a b).stance = d.stance := by
  unfold Dev.logRec
  dsimp only
  split <;> rfl

theorem Dev.setCompl_stance (d : Dev) (p : Nat) (r : Ring) : (d.setCompl p r).stance = d.stance := by
  unfold Dev.setCompl
  split
  · exact d.modTen_stance p fun _ => rfl
  · rfl

theorem Dev.putEntry_stance (d : Dev) (p : Nat) (e : Entry) : (d.putEntry p e).stance = d.stance := by
  unfold Dev.putEntry
  extract_lets r b d1 d2
  have h2 : d2.stance = d.stance := by
    have h1 : d1.stance = d.stance := d.deviceWrite_stance _ _ _ _
    simp only [d2, apply_ite Dev.stance, Dev.hostWrite_stance, h1, ite_self]
  split
  · exact (Dev.event_stance _ p 0).trans ((d2.setCompl_stance p _).trans h2)
  · exact (Dev.setCompl_stance _ p _).trans (d.hostWrite_stance _ _ _)

theorem Dev.emit_stance (d : Dev) (q : Nat) (e : Entry) : (d.emit q e).stance = d.stance := by
  unfold Dev.emit
  extract_lets party e1 d0 r was d1
  have h0 : d0.stance = d.stance := rfl
  have h1 : d1.stance = d.stance := h0
  clear_value e1 d0 d1
  split
  · exact (d0.putEntry_stance party e1).trans h0
  · split
    · exact (d1.event_stance party 3).trans h1
    · exact h1

/-! ## The end of a command (R121) -/

theorem Dev.modSeq_stance (d : Dev) (r : Nat) (f : Seq → Seq) : (d.modSeq r f).stance = d.stance := by
  unfold Dev.modSeq
  split <;> rfl

theorem Dev.adapterFree_stance (d : Dev) (p k : Nat) (l : List Nat) : (d.adapterFree p k l).stance = d.stance := by
  refine (stance_foldl (fun e s => e.modSeq_stance s _) l _).trans ?_
  exact d.modTen_stance p fun _ => rfl

theorem Dev.tuneEnd_stance (d : Dev) (p : Nat) (g : Prog) (ok : Bool) : (d.tuneEnd p g ok).stance = d.stance := by
  unfold Dev.tuneEnd
  extract_lets d1 v
  have h1 : d1.stance = d.stance := d.modTen_stance p fun _ => rfl
  have hread := (d1.readMem_stance v (g.stateAddr + 6) 2).trans h1
  split <;> rename_i h <;> rw [h] at hread
  · exact hread
  · exact (Dev.writeMem_stance _ v _ _).trans hread

theorem Dev.releaseSlot_stance (d : Dev) (q : Nat) (r : Running) (st : B8) : (d.releaseSlot q r st).stance = d.stance := by
  unfold Dev.releaseSlot
  split
  · simp only [apply_ite Dev.stance, Dev.setBusy_stance, Dev.setProgress_stance, ite_self]
  · rfl

theorem Dev.releaseProg_stance (d : Dev) (p : Nat) (g : Prog) (st : B8) : (d.releaseProg p g st).stance = d.stance := by
  unfold Dev.releaseProg
  extract_lets d1
  have h1 : d1.stance = d.stance := by
    refine (stance_foldl (f := fun e r => e.modRegion r (fun v => { v with waiting := [] })) (fun _ _ => rfl) _ _).trans ?_
    split <;> rfl
  simp only [apply_ite Dev.stance, Dev.tuneEnd_stance, Dev.adapterFree_stance, h1, ite_self]

theorem Dev.unmarkTile_stance (d : Dev) (q : Nat) (r : Running) : (d.unmarkTile q r).stance = d.stance := by
  unfold Dev.unmarkTile
  dsimp only
  split
  · split <;> rfl
  · rfl

theorem Dev.ctlRelease_stance (d : Dev) (q : Nat) (c : W512) : (d.ctlRelease q c).stance = d.stance := by
  unfold Dev.ctlRelease
  split <;> rfl

theorem Dev.barrierLeave_stance (d : Dev) (q b : Nat) : (d.barrierLeave q b).stance = d.stance := d.modTen_stance _ fun _ => rfl

theorem Dev.release_stance (d : Dev) (q : Nat) (r : Running) (st : B8) : (d.release q r st).stance = d.stance := by
  unfold Dev.release
  extract_lets d1 d2
  have h2 : d2.stance = d.stance := by
    simp only [d2]
    split
    · exact (d1.releaseProg_stance _ _ st).trans (d.releaseSlot_stance q r st)
    · exact d.releaseSlot_stance q r st
  simp only [apply_ite Dev.stance, Dev.unmarkTile_stance, Dev.ctlRelease_stance, Dev.barrierLeave_stance, show (d2.mediaRelease q).stance = d2.stance from rfl,
    show (d2.scatterRelease q).stance = d2.stance from rfl, show (d2.seqCtlRelease q).stance = d2.stance from rfl, h2, ite_self]

theorem Dev.endRecord_stance (d : Dev) (q : Nat) (l : CmdList) (f : Option (Fail × Nat)) : (d.endRecord q l f).stance = d.stance := by
  unfold Dev.endRecord
  split
  · exact d.record_stance _
  · rfl

/-- The end of a command leaves the stance. -/
theorem Dev.endCmd_stance (d : Dev) (q : Nat) (st : B8) (res : W64) (f : Option (Fail × Nat)) : (d.endCmd q st res f).stance = d.stance := by
  have hque (e : Dev) (g : Queue → Queue) : (e.modQue q g).stance = e.stance := rfl
  unfold Dev.endCmd
  split
  · simp only [Dev.endList, Dev.endEntry, apply_ite Dev.stance, Dev.emit_stance, hque, Dev.endRecord_stance, Dev.release_stance, ite_self]
  · rfl

theorem Dev.finish_stance (d : Dev) (q : Nat) (res : W64) : (d.finish q res).stance = d.stance := d.endCmd_stance q _ _ _
theorem Dev.failDisp_stance (d : Dev) (q : Nat) (f : Fail) : (d.failDisp q f).stance = d.stance := d.endCmd_stance q _ _ _

/-! ## Faults of a model (R250, R251) -/

theorem Dev.endLoad_stance (d : Dev) (slot : Nat) (f : Fail) : (d.endLoad slot f).stance = d.stance := by
  unfold Dev.endLoad
  split
  · rfl
  · exact Dev.failDisp_stance _ _ f

theorem Dev.degrade_stance (d : Dev) (slot g shard : Nat) : (d.degrade slot g shard).stance = d.stance := by
  unfold Dev.degrade
  split
  · rfl
  · split
    · rfl
    · extract_lets _ d1 d2
      have h1 : d1.stance = d.stance := d.record_stance _
      clear_value d1
      split
      · exact h1
      · split
        · exact h1
        · rw [Dev.endLoad_stance]; exact h1

theorem Dev.modelFault_stance (d : Dev) (f : Fail) : (d.modelFault f).stance = d.stance := by
  unfold Dev.modelFault
  split
  · rfl
  · split
    · rfl
    · dsimp only
      split
      · split
        · rfl
        · exact d.degrade_stance _ _ _
      · split <;> rfl

theorem Dev.failMem_stance (d : Dev) (q : Nat) (e : Fail) : (d.failMem q e).stance = d.stance :=
  (Dev.failDisp_stance _ _ _).trans (d.modelFault_stance e)

/-! ## Triggers (R73, R82-R85) -/

theorem Dev.releaseQueue_stance (d : Dev) (q : Nat) : (d.releaseQueue q).stance = d.stance := by
  unfold Dev.releaseQueue
  split
  · split
    · exact d.finish_stance q 0
    · rfl
  · rfl

theorem Dev.startPulse_stance (d : Dev) (n u : Nat) : (d.startPulse n u).1.stance = d.stance := by
  unfold Dev.startPulse
  extract_lets unit v pos brake d1
  have h1 : d1.stance = d.stance := by
    simp only [d1]
    split
    · exact d.deviceWrite_stance _ _ _ _
    · rfl
  clear_value d1
  split
  · rfl
  · split
    · rfl
    · dsimp only
      split
      · rfl
      · split
        · rfl
        · exact h1

theorem Dev.performAction_stance (d : Dev) (n : Nat) (g : Trigger) : (d.performAction n g).1.stance = d.stance := by
  unfold Dev.performAction
  dsimp only
  split
  · exact d.releaseQueue_stance _
  · split
    · rfl
    · split <;> rfl
  · exact d.startPulse_stance n _
  · split
    · rfl
    · split <;> rfl
  · split
    · rfl
    · next b _ =>
      have h := d.writeMem_stance { party := d.trgParty n, part := d.partyPart (d.trgParty n) } g.actPtr b
      split <;> rename_i hw <;> rw [hw] at h <;> exact h
  · dsimp only
    split
    · exact d.event_stance _ 2
    · rfl
  · rfl

theorem Dev.acted_stance (d : Dev) (n : Nat) (g : Trigger) : (d.acted n g).stance = d.stance := by
  have h := d.performAction_stance n g
  unfold Dev.acted
  split <;> rename_i hp <;> rw [hp] at h
  · exact h
  · rw [Dev.failRec_stance]; exact h

theorem Dev.fire_stance (d : Dev) (n : Nat) (why : FireCause) : (d.fire n why).stance = d.stance := by
  have hacted : ((d.marked n why).acted n (d.trg n)).stance = d.stance := (d.marked n why).acted_stance n _
  rw [Dev.fire_eq, Dev.rearmed]
  split <;> exact hacted

theorem Dev.fireJumped_stance (d : Dev) (trks : List Nat) : (d.fireJumped trks).stance = d.stance := stance_foldl (fun e n => e.fire_stance n .jump) _ d

end Sys2Proof.Machine

/-! PROOFS. Dusk watches, the alarm, and Dawn (R484-R493). -/
namespace Sys2Proof.Machine
open Sys2Proof

/-! ## What the steps of Dawn leave of the stance -/

/-- A chunk of an array ends, or its binding does. -/
theorem Dev.chunkBoundary_stance (d : Dev) (n : Nat) : (d.chunkBoundary n).stance = d.stance := by
  unfold Dev.chunkBoundary
  split
  · rfl
  · next b _ =>
    extract_lets v size off
    have hoff (e : Dev) : (off e).stance = e.stance := rfl
    split
    · split
      · rw [Dev.failDisp_stance, hoff]
      · have hwrite := d.writeMem_stance v b.ring (List.replicate (64 * b.entries) 0)
        split <;> rename_i h <;> rw [h] at hwrite
        · rw [Dev.failMem_stance, hoff]; exact hwrite
        · rw [Dev.finish_stance]; exact hwrite
    · split
      · rw [Dev.finish_stance, hoff]
      · rfl

theorem Dev.chunkEnd_stance (d : Dev) (n : Nat) : (d.chunkEnd n).stance = d.stance := by
  have harray (e : Dev) (f : ArrayState → ArrayState) : (e.modArray n f).stance = e.stance := rfl
  unfold Dev.chunkEnd
  dsimp only
  rw [Dev.chunkBoundary_stance, harray]
  split
  · split
    · rfl
    · rw [harray, Dev.deviceWrite_stance]
      exact stance_foldl (fun e p => e.deviceWrite_stance _ _ _ _) _ d
  · rfl

theorem Dev.audioJump_stance (d : Dev) (dom : Option Nat) : (d.audioJump dom).stance = d.stance := by
  refine stance_foldl (fun e n => ?_) _ d
  split
  · rfl
  · extract_lets d1
    have h1 : d1.stance = e.stance := by
      simp only [d1]
      split
      · rfl
      · exact Dev.chunkEnd_stance _ n
    exact h1

theorem Dev.driftCheck_stance (d : Dev) (env : TickEnv) : (d.driftCheck env).stance = d.stance := by
  unfold Dev.driftCheck
  split
  · rfl
  · dsimp only
    split <;> rfl

theorem Dev.startPart_stance (d : Dev) (f : Fuses) (p : Nat) : (d.startPart f p).stance = d.stance := by
  unfold Dev.startPart
  extract_lets c fixed loop op d1
  have h1 : d1.stance = d.stance := rfl
  clear_value d1
  have hregion (e : Dev) (r : Nat) (g : RegionState → RegionState) : (e.modRegion r g).stance = e.stance := rfl
  exact (stance_foldl (fun e r => hregion e r _) _ d1).trans h1

theorem Dev.closeSession_stance (d : Dev) (t cause : Nat) : (d.closeSession t cause).stance = d.stance := by
  unfold Dev.closeSession
  split
  · rfl
  · rw [Dev.logRec_stance]
    exact d.modTen_stance t fun _ => rfl

theorem Dev.linkRequests_stance (d : Dev) (p : Nat) : (d.linkRequests p).stance = d.stance := by
  unfold Dev.linkRequests
  split
  · unfold Dev.setAttStatus
    split
    · exact Dev.modTen_stance _ p fun _ => rfl
    · rfl
  · rfl

theorem Dev.dropUnstarted_stance (d : Dev) (mine : Nat → Bool) : (d.dropUnstarted mine).stance = d.stance := rfl

theorem Dev.linkTenant_stance (d : Dev) (t : Nat) : (d.linkTenant t).stance = d.stance := by
  unfold Dev.linkTenant
  rw [Dev.dropUnstarted_stance, Dev.linkRequests_stance, Dev.closeSession_stance]
  exact d.modTen_stance t fun _ => rfl

theorem Dev.linkEffects_stance (d : Dev) (n : Nat) : (d.linkEffects n).stance = d.stance := by
  have h := stance_foldl (fun e t => e.linkTenant_stance t) (d.cfg.portTenants n) d
  unfold Dev.linkEffects
  dsimp only
  split
  · rw [Dev.dropUnstarted_stance, Dev.linkRequests_stance]
    exact h
  · exact h

theorem Dev.allVolts_stance (d : Dev) (f : Fuses) : (d.allVolts f).stance = d.stance := by
  obtain ⟨di, h⟩ := allVolts_only d f
  rw [h]
  rfl

theorem Dev.joinAll_stance (d : Dev) : d.joinAll.stance = d.stance := by
  refine stance_foldl (fun e p => ?_) _ d
  split
  · obtain ⟨honly, -⟩ := joinPort_sent e p
    generalize e.joinPort p = e1 at honly ⊢
    rw [honly]
    rfl
  · rfl

theorem Dev.waitAnew_stance (d : Dev) (mine : Nat → Bool) : (d.waitAnew mine).stance = d.stance := rfl

theorem Dev.dropShadow_stance (d : Dev) (p : Nat) : (d.dropShadow p).stance = d.stance := by
  unfold Dev.dropShadow
  split
  · exact d.modTen_stance p fun _ => rfl
  · rfl

theorem Dev.coresStart_stance (d : Dev) : d.coresStart.stance = d.stance := by
  refine stance_foldl (fun e k => ?_) _ d
  extract_lets d1
  have hcore : (e.modCore k (fun c => { c with restarting := false })).stance = e.stance := rfl
  have h1 : d1.stance = e.stance := (stance_foldl (fun e p => e.dropShadow_stance p) _ _).trans hcore
  clear_value d1
  refine (stance_foldl (fun e t => ?_) _ d1).trans h1
  split
  · exact (Dev.event_stance _ t 3).trans (e.modTen_stance t fun _ => rfl)
  · rfl

/-- Dawn's own steps: the package is in Noon, with LP5X out of self-refresh, the domains of the configuration, and the same writes held. -/
theorem Dev.dawnSteps_stance (d : Dev) (f : Fuses) (env : TickEnv) : ∃ p, (d.dawnSteps f env).stance = (p, d.cfg, false, d.heldWrites) ∧
    p.state = 0 ∧ p.dawn = false ∧ p.domains = d.cfg.domains := by
  unfold Dev.dawnSteps
  extract_lets n us _ _ d1 _ d2 d3 d4 _ d5 d6
  have h1 : d1.stance = (d1.pwr, d.cfg, false, d.heldWrites) := rfl
  have hpwr : d1.pwr.state = 0 ∧ d1.pwr.dawn = false ∧ d1.pwr.domains = d.cfg.domains := ⟨rfl, rfl, rfl⟩
  have h2 : d2.stance = d1.stance := (Dev.audioJump_stance _ none).trans (Dev.driftCheck_stance _ env)
  clear_value d1 d2
  have hregion (e : Dev) (r : Nat) (g : RegionState → RegionState) : (e.modRegion r g).stance = e.stance := rfl
  have h3 : d3.stance = d2.stance := stance_foldl (fun e r => hregion e r _) _ d2
  clear_value d3
  have h4 : d4.stance = d3.stance := stance_foldl (fun e p => e.startPart_stance f p) _ d3
  clear_value d4
  have h5 : d5.stance = ({ d4.pwr with linkResetPend := [] }, d4.cfg, d4.mem.selfRefresh, d4.heldWrites) :=
    stance_foldl (fun e p => e.linkEffects_stance p) _ _
  clear_value d5
  have h6 : d6.stance = d5.stance := (Dev.waitAnew_stance _ _).trans ((Dev.joinAll_stance _).trans (d5.allVolts_stance f))
  clear_value d6
  have hd4 : d4.stance = (d1.pwr, d.cfg, false, d.heldWrites) := h4.trans (h3.trans (h2.trans h1))
  simp only [Dev.stance, Prod.mk.injEq] at hd4
  obtain ⟨pwr4, cfg4, refresh4, held4⟩ := hd4
  rw [Dev.fireJumped_stance, h6, h5, pwr4, cfg4, refresh4, held4]
  exact ⟨_, rfl, hpwr⟩

/-! ## A Dusk watch (R486-R489) -/

/-- The means of a watch's frame. -/
def Dev.watchMeans (d : Dev) (samples : List W16) : List Nat :=
  blockMeans (rawBits (d.cfg.ctxType d.pwr.duskCtx)) (d.cfg.ctxWidth d.pwr.duskCtx) (d.cfg.ctxHeight d.pwr.duskCtx) samples

/-- The blocks of a watch's frame that differ from the reference. -/
def Dev.watchChanged (d : Dev) (samples : List W16) : Nat :=
  if d.pwr.camEn then (d.pwr.duskRef.map (fun r => changedBlocks (fld d.pwr.duskThr 0 16) r (d.watchMeans samples))).getD 0 else 0

/-- The level of a watch's audio. -/
def Dev.watchLevel (d : Dev) (audio : List W32) : Int := if d.pwr.audEn then audioLevel (d.cfg.tdmBits d.pwr.tdmPort) audio else -128

/-- The captures of a watch have the lengths of the frame and of the audio. -/
def Dev.watchFits (d : Dev) (samples : List W16) (audio : List W32) : Prop :=
  (d.pwr.camEn = true → samples.length = d.cfg.ctxWidth d.pwr.duskCtx * d.cfg.ctxHeight d.pwr.duskCtx) ∧ (d.pwr.audEn = true → audio.length = 2400)

/-- The power block after a watch that has measured, before it wakes. -/
def Dev.measured (d : Dev) (samples : List W16) (audio : List W32) : Pwr :=
  { d.watchDue.pwr with
    watches := d.pwr.watches + 1, changed := d.watchChanged samples, level := BitVec.ofInt 8 (d.watchLevel audio)
    duskRef := (if d.pwr.camEn then some (d.watchMeans samples) else none).or d.pwr.duskRef }

/-- The camera, or the audio, of a watch has a hit. -/
def Dev.camHit (d : Dev) (samples : List W16) : Bool :=
  d.pwr.camEn && d.pwr.duskRef.isSome && decide (fld d.pwr.duskThr 16 9 ≤ d.watchChanged samples)
def Dev.audHit (d : Dev) (audio : List W32) : Bool := d.pwr.audEn && decide (toSigned 8 (fld d.pwr.duskThr 32 8) ≤ d.watchLevel audio)

/-- The device in Dusk, with power, not held by THERMTRIP_L and not in Dawn. -/
structure Dev.Dusk (d : Dev) : Prop where
  state : d.pwr.state = 2
  dawn : d.pwr.dawn = false
  thermtrip : d.boot.thermtrip = false
  powered : d.boot.powered = true

theorem Dev.watchMisfits_iff (d : Dev) (samples : List W16) (audio : List W32) :
    ((d.pwr.camEn && decide (samples.length ≠ d.cfg.ctxWidth d.pwr.duskCtx * d.cfg.ctxHeight d.pwr.duskCtx))
      || (d.pwr.audEn && decide (audio.length ≠ 2400))) = true ↔ ¬ d.watchFits samples audio := by
  simp only [Dev.watchFits, Bool.or_eq_true, Bool.and_eq_true, decide_eq_true_eq]
  tauto

/-- Captures of wrong lengths are a fault. -/
theorem Dev.duskWatch_misfit {d : Dev} (h : d.Dusk) {samples : List W16} {audio : List W32} (hfits : ¬ d.watchFits samples audio) :
    d.duskWatch samples audio = d.watchDue.watchFault := by
  unfold Dev.duskWatch
  rw [if_neg (by simp [h.state, h.dawn, h.thermtrip, h.powered])]
  exact if_pos ((d.watchMisfits_iff samples audio).mpr hfits)

/-- A watch that measures: the first one only takes its reference, a later one wakes where something has a hit, the camera first. -/
theorem Dev.duskWatch_fit {d : Dev} (h : d.Dusk) {samples : List W16} {audio : List W32} (hfits : d.watchFits samples audio) :
    let e : Dev := { d.watchDue with pwr := d.measured samples audio }
    d.duskWatch samples audio =
      if decide (d.pwr.watches = 0) then e else if d.camHit samples then e.wake 2 else if d.audHit audio then e.wake 3 else e := by
  have hchanged : (match (if d.pwr.camEn then some (d.watchMeans samples) else none), d.pwr.duskRef with
      | some m, some r => changedBlocks (fld d.pwr.duskThr 0 16) r m
      | _, _ => 0) = d.watchChanged samples := by
    unfold Dev.watchChanged
    cases d.pwr.camEn <;> cases d.pwr.duskRef <;> rfl
  unfold Dev.duskWatch
  rw [if_neg (by simp [h.state, h.dawn, h.thermtrip, h.powered])]
  refine (if_neg fun hmisfit => (d.watchMisfits_iff samples audio).mp hmisfit hfits).trans ?_
  unfold Dev.camHit Dev.measured
  rw [← hchanged]
  rfl

theorem Dev.camHit_iff (d : Dev) (samples : List W16) :
    d.camHit samples = true ↔ d.pwr.camEn = true ∧ d.pwr.duskRef.isSome = true ∧ fld d.pwr.duskThr 16 9 ≤ d.watchChanged samples := by
  simp only [Dev.camHit, Bool.and_eq_true, decide_eq_true_eq, and_assoc]

theorem Dev.audHit_iff (d : Dev) (audio : List W32) :
    d.audHit audio = true ↔ d.pwr.audEn = true ∧ toSigned 8 (fld d.pwr.duskThr 32 8) ≤ d.watchLevel audio := by
  simp only [Dev.audHit, Bool.and_eq_true, decide_eq_true_eq]

/-- What a watch of a sleeping device leaves in the power block where it has measured. -/
structure Dev.WatchMeasures (d : Dev) (samples : List W16) (audio : List W32) (p : Pwr) : Prop where
  watches : p.watches = d.pwr.watches + 1
  changed : p.changed = d.watchChanged samples
  level : p.level = BitVec.ofInt 8 (d.watchLevel audio)
  faults : p.faults = d.pwr.faults
  ref : p.duskRef = (if d.pwr.camEn then some (d.watchMeans samples) else none).or d.pwr.duskRef

theorem Dev.duskWatch_measures {d : Dev} (h : d.Dusk) {samples : List W16} {audio : List W32} (hfits : d.watchFits samples audio) :
    ∃ p, d.duskWatch samples audio = { d with time := d.watchDue.time, pwr := p } ∧ d.WatchMeasures samples audio p ∧
      (p.dawn = true ↔ d.pwr.watches ≠ 0 ∧ (d.camHit samples = true ∨ d.audHit audio = true)) ∧
      (p.dawn = true → p.wakeCause = if d.camHit samples = true then 2 else 3) := by
  have hwatch := Dev.duskWatch_fit h hfits
  have hasleep : 1 < (d.measured samples audio).state := h.state ▸ (by decide : 1 < 2)
  have hdawn : (d.measured samples audio).dawn = false := h.dawn
  have hmeasured : d.WatchMeasures samples audio (d.measured samples audio) := ⟨rfl, rfl, rfl, rfl, rfl⟩
  generalize d.measured samples audio = m at hwatch hasleep hdawn hmeasured
  obtain ⟨hwatches, hchanged, hlevel, hfaults, href⟩ := hmeasured
  have hwoken (cause : Nat) : ({ d.watchDue with pwr := m } : Dev).wake cause = { d with time := d.watchDue.time, pwr := m.woken d.watchDue.time cause } :=
    Dev.wake_asleep hasleep hdawn cause
  rw [hwatch]
  by_cases hfirst : d.pwr.watches = 0
  · rw [if_pos (decide_eq_true hfirst)]
    exact ⟨m, rfl, ⟨hwatches, hchanged, hlevel, hfaults, href⟩, by simp [hdawn, hfirst], by simp [hdawn]⟩
  · rw [if_neg (by simpa using hfirst)]
    by_cases hcam : d.camHit samples = true
    · rw [if_pos hcam, hwoken]
      exact ⟨_, rfl, ⟨hwatches, hchanged, hlevel, hfaults, href⟩, ⟨fun _ => ⟨hfirst, .inl hcam⟩, fun _ => rfl⟩, fun _ => (if_pos hcam).symm⟩
    · rw [if_neg hcam]
      by_cases haud : d.audHit audio = true
      · rw [if_pos haud, hwoken]
        exact ⟨_, rfl, ⟨hwatches, hchanged, hlevel, hfaults, href⟩, ⟨fun _ => ⟨hfirst, .inr haud⟩, fun _ => rfl⟩, fun _ => (if_neg hcam).symm⟩
      · rw [if_neg haud]
        exact ⟨m, rfl, ⟨hwatches, hchanged, hlevel, hfaults, href⟩, by simp [hdawn, hcam, haud], by simp [hdawn]⟩

/-- The power block after a watch that has ended in a fault, before it wakes. -/
def Pwr.faulted (p : Pwr) : Pwr := { p with watches := p.watches + 1, faults := satInc p.faults }

/-- A watch of a sleeping device that ends in a fault: it is counted, the reference stays, and Dawn begins where faults wake. -/
theorem Dev.watchFault_only {d : Dev} (hs : 1 < d.pwr.state) (hd : d.pwr.dawn = false) : ∃ p, d.watchFault = { d with pwr := p } ∧
    p.watches = d.pwr.watches + 1 ∧ p.faults = satInc d.pwr.faults ∧ p.duskRef = d.pwr.duskRef ∧ p.dawn = d.pwr.faultWake ∧
      (d.pwr.faultWake = true → p.wakeCause = 4) := by
  have hfault : d.watchFault = ({ d with pwr := d.pwr.faulted } : Dev).dawnFault := rfl
  have hwoken : ({ d with pwr := d.pwr.faulted } : Dev).wake 4 = { d with pwr := d.pwr.faulted.woken d.time 4 } := Dev.wake_asleep (by exact hs) (by exact hd) 4
  rw [hfault]
  cases hwake : d.pwr.faultWake
  · exact ⟨_, if_neg (Bool.eq_false_iff.mp hwake), rfl, rfl, rfl, hd, nofun⟩
  · exact ⟨_, (if_pos hwake).trans hwoken, rfl, rfl, rfl, rfl, fun _ => rfl⟩

theorem Dev.duskTimeout_eq {d : Dev} (h : d.Dusk) (hcam : d.pwr.camEn = true) : d.duskTimeout =
    ({ d.watchDue with time := d.watchDue.time + BitVec.ofNat 64 (1000000 * (1 + d.pwr.frameTimeout)) } : Dev).watchFault :=
  if_neg (by simp [h.state, h.dawn, h.thermtrip, h.powered, hcam])

/-! ## The alarm and Dawn (R491-R493) -/

/-- The alarm of a sleeping device moves time to its moment and begins Dawn. -/
theorem Dev.rtcAlarm_asleep {d : Dev} (hen : d.pwr.alarmEn = true) (ht : d.boot.thermtrip = false) (hp : d.boot.powered = true) (hs : 1 < d.pwr.state)
    (hd : d.pwr.dawn = false) : let t := BitVec.ofNat 64 (max d.time.toNat (aonNs (d.pwr.alarm.toNat - d.pwr.rtc.toNat)))
    d.rtcAlarm = { d with time := t, pwr := ({ d.pwr with alarmEn := false } : Pwr).woken t 1 } := by
  unfold Dev.rtcAlarm
  rw [if_neg (by simp [hen, ht, hp]), if_neg (Nat.not_le.mpr hs), if_neg (by simp [hd])]
  exact Dev.wake_asleep (by exact hs) (by exact hd) 1

/-- A Dawn that succeeds, with no write held. -/
theorem State.dawnRow_of_none {s : State} (hd : s.dev.pwr.dawn = true) (ht : s.dev.boot.thermtrip = false) (hp : s.dev.boot.powered = true)
    (hheld : ∀ p ∈ s.dev.cfg.parties, s.dev.heldWrites p = []) (env : TickEnv) :
    ∃ e p, s.dawnRow true env = { s with dev := e, latch := none } ∧ Dev.stance e = (p, s.dev.cfg, false, s.dev.heldWrites) ∧ p.state = 0 ∧ p.dawn = false ∧
      p.domains = s.dev.cfg.domains := by
  obtain ⟨p, hstance, hpwr⟩ := s.dev.dawnSteps_stance s.nv.fuses env
  have hcores := ((s.dev.dawnSteps s.nv.fuses env).coresStart_stance).trans hstance
  have hrow : s.dawnRow true env = ({ s with dev := (s.dev.dawnSteps s.nv.fuses env).coresStart, latch := none } : State).replayAll
      (s.dev.dawnSteps s.nv.fuses env).coresStart.cfg.parties := by
    unfold State.dawnRow
    rw [if_neg (by simp [hd, ht, hp])]
    rfl
  generalize (s.dev.dawnSteps s.nv.fuses env).coresStart = e at hcores hrow
  obtain ⟨-, hcfg, -, hwrites⟩ : e.pwr = p ∧ e.cfg = s.dev.cfg ∧ e.mem.selfRefresh = false ∧ e.heldWrites = s.dev.heldWrites := by
    simpa only [Dev.stance, Prod.mk.injEq] using hcores
  refine ⟨e, p, hrow.trans (State.replayAll_of_none fun q hq => ?_), hcores, hpwr⟩
  rw [hcfg] at hq
  exact (congrFun hwrites q).trans (hheld q hq)

theorem State.dawnRow_fails {s : State} (hd : s.dev.pwr.dawn = true) (ht : s.dev.boot.thermtrip = false) (hp : s.dev.boot.powered = true) (env : TickEnv) :
    s.dawnRow false env = s.resetL true := by
  unfold State.dawnRow
  rw [if_neg (by simp [hd, ht, hp])]
  rfl

/-- Settles O32: a watch by its captures, the timeout as a fault, the alarm as a wake, and Dawn by what its steps leave of the stance. -/
theorem watchesAlarmsAndDawn : Obligations.WatchesAlarmsAndDawn := by
  unfold Obligations.WatchesAlarmsAndDawn
  refine ⟨fun s samples audio hstate hdawn ht hp => ?watch, fun s hen ht hp hs hd => ?alarm, fun s hd ht hp env => ⟨?fails, fun hheld => ?dawn⟩⟩
  case watch =>
    have h : s.dev.Dusk := ⟨hstate, hdawn, ht, hp⟩
    have hasleep : 1 < s.dev.watchDue.pwr.state := hstate ▸ (by decide : 1 < 2)
    refine ⟨?_, fun hcam => ?_⟩
    · by_cases hfits : s.dev.watchFits samples audio
      · obtain ⟨p, hrun, ⟨hwatches, hchanged, hlevel, hfaults, href⟩, hwakes, hcause⟩ := Dev.duskWatch_measures h hfits
        rw [Dev.camHit_iff, Dev.audHit_iff] at hwakes
        refine ⟨_, next_withDev s hrun, rfl, hwatches, fun _ => ⟨hchanged, hlevel, hfaults, fun hcam => ?_, hwakes, fun hd => ?_⟩, fun hn => absurd hfits hn⟩
        · rw [if_pos hcam] at href
          exact href
        · refine (hcause hd).trans (if_congr ?_ rfl rfl)
          rw [Dev.camHit_iff]
          exact and_left_comm
      · obtain ⟨p, hrun, hwatches, hfaults, href, hwakes, hcause⟩ := Dev.watchFault_only hasleep hdawn
        exact ⟨_, next_withDev s ((Dev.duskWatch_misfit h hfits).trans hrun), rfl, hwatches, fun hf => absurd hf hfits, fun _ => ⟨hfaults, href, hwakes, hcause⟩⟩
    · obtain ⟨p, hrun, -, hfaults, -, hwakes, -⟩ := Dev.watchFault_only (d := { s.dev.watchDue with
        time := s.dev.watchDue.time + BitVec.ofNat 64 (1000000 * (1 + s.dev.pwr.frameTimeout)) }) hasleep hdawn
      exact ⟨_, next_withDev s ((Dev.duskTimeout_eq h hcam).trans hrun), rfl, hfaults, hwakes⟩
  case alarm =>
    exact ⟨_, next_withDev s (Dev.rtcAlarm_asleep hen ht hp hs hd), rfl, rfl, rfl, rfl, rfl⟩
  case fails => exact congrArg Host.Outcome.next (State.dawnRow_fails hd ht hp env)
  case dawn =>
    obtain ⟨e, p, hrow, hstance, hstate, hdawn, hdomains⟩ := State.dawnRow_of_none hd ht hp hheld env
    obtain ⟨hpwr, -, hrefresh, -⟩ : e.pwr = p ∧ e.cfg = s.dev.cfg ∧ e.mem.selfRefresh = false ∧ e.heldWrites = s.dev.heldWrites := by
      simpa only [Dev.stance, Prod.mk.injEq] using hstance
    exact ⟨_, congrArg Host.Outcome.next hrow, rfl, rfl, rfl, hpwr ▸ hstate, hpwr ▸ hdawn, hrefresh, hpwr ▸ hdomains⟩

end Sys2Proof.Machine
